-- ==== Sys2Proof/Word.lean ====
section
/-! DEFINITION. The word types of Glenyx: bytes of records and frames, and the 64-bit register word (R14). -/

namespace Sys2Proof

/-- One byte of a record, flit or frame. -/
abbrev Byte := BitVec 8

/-- A register word: registers are 64 bits wide (R14). -/
abbrev Word := BitVec 64

end Sys2Proof
end

