-- ==== Sys2Proof/Syntax.lean ====
section
/-! DEFINITION. The commands of Glenyx: one constructor of `Instr` per row of spec/opcode_table.json.
The table gives no operands; the operands here are what the rule of the row says the step reads from outside. -/

namespace Sys2Proof

/-- Which of the two parts a command concerns: the aggregator (Flidovan-2) or the Uligo (R12). -/
inductive PartSel where
  | agg | ulg
  deriving DecidableEq, Repr, Inhabited

/-- One end of a Rycon-D link: die port `p` of the aggregator, or port A (0) or B (1) of the Uligo (R1). -/
inductive LinkEnd where
  | agg (p : Fin 16)
  | ulg (x : Fin 2)
  deriving DecidableEq, Repr, Inhabited

/-- What the meters see of an arriving frame (R407): its bytes from the destination address through FCS, and the fill of the
port's receive buffer, KiB. -/
structure RxInfo where
  bytes : Nat := 64
  rxKib : Nat := 0
  deriving DecidableEq, Repr, Inhabited

/-- The common header of a PTP message as received on a fabric port (R27, R31). Times are in 2^-16 ns. -/
structure PtpMsg where
  domain : Nat := 24
  sdoId : Nat := 0
  seqId : Nat := 0
  /-- originTimestamp, preciseOriginTimestamp or receiveTimestamp, ns since the epoch × 2^16 -/
  stamp : Int := 0
  /-- correctionField, in units of 2^-16 ns -/
  correction : Int := 0
  /-- two-step flag of a Sync -/
  twoStep : Bool := false
  /-- requestingPortIdentity of a Delay_Resp is this port's -/
  mine : Bool := true
  /-- logMessageInterval -/
  logInterval : Int := -7
  rx : RxInfo := { bytes := 110 }
  deriving DecidableEq, Repr, Inhabited

/-- The data set of an Announce message (R27, R30). -/
structure AnnounceData where
  priority1 : Nat := 128
  clockClass : Nat := 6
  accuracy : Nat := 0
  variance : Nat := 0
  priority2 : Nat := 128
  grandmaster : Nat := 0
  stepsRemoved : Nat := 0
  /-- sourcePortIdentity of its sender: clockIdentity and portNumber -/
  sender : Nat := 0
  senderPort : Nat := 0
  deriving DecidableEq, Repr, Inhabited

/-- Why a PTP message is dropped (R31). -/
inductive PtpDrop where
  | peerDelay | management | signaling | malformed
  deriving DecidableEq, Repr, Inhabited

/-- A time word (R34). `depart` is ns mod 2^48 × 2^16 plus FRAC; `full` carries the whole time × 2^16. -/
structure TimeWord where
  seq : Nat := 0
  echoValid : Bool := false
  dUpSat : Bool := false
  srcDegraded : Bool := false
  reservedSet : Bool := false
  srcErrNs : Nat := 0
  echoSeq : Nat := 0
  depart : Nat := 0
  dUp : Int := 0
  deriving DecidableEq, Repr, Inhabited

/-- A beat of an event bus (R62): `full` says that it met a full input FIFO (R61). -/
structure EvBeat where
  cluster : Fin 128
  core : Fin 64
  data : BitVec 64
  par : BitVec 8
  full : Bool := false
  deriving DecidableEq, Repr, Inhabited

/-- A beat of an uncore bus (R67). -/
structure UevBeat where
  bus : Fin 16
  grp : Fin 32
  data : BitVec 64
  par : BitVec 8
  full : Bool := false
  deriving DecidableEq, Repr, Inhabited

/-- A beat of a queue-probe bus (R68). `edges` counts the probe-clock edges since the bus's last beat or latch. -/
structure QpBeat where
  bus : Fin 16
  id : Fin 16
  push : Bool
  pop : Bool
  depth : BitVec 16
  age : BitVec 20
  par : Bool
  edges : Nat := 1
  full : Bool := false
  deriving DecidableEq, Repr, Inhabited

/-- A beat of the command-tag input (R70). -/
structure CtBeat where
  cluster : Fin 128
  all : Bool
  layer : BitVec 16
  op : BitVec 16
  par : Bool
  full : Bool := false
  deriving DecidableEq, Repr, Inhabited

/-- A beat of a trace port (R101). -/
structure TraceBeat where
  core : Fin 64
  kind : Fin 4
  ncond : Fin 8
  taken : BitVec 4
  pc : BitVec 48
  target : BitVec 48
  priv : Fin 4
  par : Bool
  /-- beats before it that the encoder has not yet taken out of the port's FIFO (R109) -/
  left : Nat := 0
  deriving DecidableEq, Repr, Inhabited

/-- A beat of a field-test port (R112). -/
structure FtBeat where
  cluster : Fin 128
  core : Fin 64
  data : BitVec 64
  par : Bool
  /-- `FT_OP` reads 3, which is reserved (R113) -/
  opReserved : Bool := false
  deriving DecidableEq, Repr, Inhabited

/-- A beat of a tile tap (R123). -/
structure TapBeat where
  tap : Fin 32
  data : BitVec 256
  par : BitVec 32
  deriving DecidableEq, Repr, Inhabited

/-- The word in the capture buffer that an uncorrectable error hits (R516): the open tile of a tap, or a closed
record by its CAPTURE_SEQ. -/
inductive CaptureTarget where
  | openTile (tap : Fin 32)
  | record (captureSeq : Nat)
  deriving DecidableEq, Repr, Inhabited

/-- A HELLO_ACK (R141). -/
structure HelloAck where
  resumed : Bool := false
  unknown : Bool := false
  fullReq : Bool := false
  reservedSet : Bool := false
  dieUid : Nat := 0
  prevNext : Nat := 0
  sessTag : Nat := 0
  deriving DecidableEq, Repr, Inhabited

/-- The message of a control slot (R141): `other` has a reserved TYPE. -/
inductive CtrlSlot where
  | empty
  | timeSync (w : TimeWord)
  | timeEcho (w : TimeWord)
  | timeFull (w : TimeWord)
  | hello (resume reservedSet : Bool) (nonce : Nat)
  | helloAck (a : HelloAck)
  | other (type : Nat)
  deriving DecidableEq, Repr, Inhabited

/-- A flit (R138). The row says whether it is DATA or IDLE; `crcGood` is the result of the CRC-32C and FEC checks of a
received one (R143). -/
structure Flit where
  fseq : Nat := 0
  ackSeq : Nat := 0
  nak : Bool := false
  mark : Bool := false
  stateNibble : Fin 16 := 0
  sessTag : Nat := 0
  stream : Fin 16 := 0
  first : Bool := false
  last : Bool := false
  plen : Nat := 0
  payload : List Byte := []
  ctrl : CtrlSlot := .empty
  crcGood : Bool := true
  /-- FTYPE reads this reserved value (R138) -/
  ftypeOther : Option Nat := none
  /-- symbol errors that the FEC corrected in it (R136) -/
  fecCorrected : Nat := 0
  /-- entries of the aggregator's port FIFO that the Shed writer has not yet drained when the flit arrives (R187) -/
  fifoLeft : Nat := 0
  deriving DecidableEq, Repr, Inhabited

/-- A Rycon-D command (R152) without its opcode, which the row names. -/
structure Cmd where
  seq : Nat := 0
  count : Nat := 0
  addr : Nat := 0
  arg : Nat := 0
  data : List Nat := []
  deriving DecidableEq, Repr, Inhabited

/-- A command response (R152, R154). -/
structure Resp where
  opcode : Nat := 0
  dup : Bool := false
  status : Nat := 0
  seq : Nat := 0
  arg : Nat := 0
  data : List Nat := []
  deriving DecidableEq, Repr, Inhabited

/-- What the header of a mirror message says besides what its row names (R218): a reserved MTYPE that stands in its place,
and VERSION. -/
structure MirHead where
  typeOther : Option Nat := none
  version : Nat := 1
  deriving DecidableEq, Repr, Inhabited

/-- A mirror DATA message (R219). -/
structure MirrorPart where
  src : Nat
  ring : Nat
  ringSeq : Nat
  offset : Nat
  total : Nat
  bytes : List Byte
  fetched : Bool := false
  head : MirHead := {}
  deriving DecidableEq, Repr, Inhabited

/-- A JQUERY (R219). -/
structure JQueryMsg where
  src : Nat
  qid : Nat
  mode : Nat
  subject : Nat
  firstOp : Nat
  count : Nat
  fence : Bool := false
  head : MirHead := {}
  deriving DecidableEq, Repr, Inhabited

/-- The BEGIN of an operation as a holder's journal has it (R233). -/
structure BegunOp where
  op : Nat := 0
  kind : Nat := 0
  origAgg : Nat := 0
  origOp : Nat := 0
  die : Option Nat := none
  arg : Nat := 0
  deriving DecidableEq, Repr, Inhabited

/-- A JANSWER (R219): `codes` are the two-bit codes of MODE 0 or the OP_SEQ list of MODE 1. `begins` holds the BEGINs of
that list, which are no part of the message (log entry 90). -/
structure JAnswerMsg where
  qid : Nat
  result : Nat
  heldFrom : Nat
  coveredTo : Nat
  codes : List Nat
  mode : Nat := 0
  begins : List BegunOp := []
  head : MirHead := {}
  deriving DecidableEq, Repr, Inhabited

/-- A FETCH (R219); FLEET_DIE 2^31 asks for records that name no die (log entry 142). -/
structure FetchMsg where
  src : Nat
  qid : Nat
  fleetDie : Nat
  cls : Nat
  firstIdent : Nat
  lastIdent : Nat
  head : MirHead := {}
  deriving DecidableEq, Repr, Inhabited

/-- A tally block in exact form (R243). -/
structure Block where
  key : Nat := 0
  exact : Bool := true
  sqSat : Bool := false
  incomplete : Bool := false
  missing : Bool := false
  oct : Nat := 0
  n : Nat := 0
  sum : Nat := 0
  sumSq : Nat := 0
  maxKey : Nat := 0
  minKey : Nat := 0xFFFF_FFFF_FFFF_FFFF
  zeroN : Nat := 0
  underN : Nat := 0
  overN : Nat := 0
  buckets : List Nat := []
  deriving DecidableEq, Repr, Inhabited

/-- A reduction frame (R254): NKEYS as its header gives it, and its blocks; `reserved` marks a reserved RTYPE, VERSION or
flag (R266). -/
structure RedFrame where
  round : Nat := 0
  attempt : Nat := 0
  src : Nat := 0x3FFF
  group : Nat := 0
  members : Nat := 0
  dies : Nat := 0
  memberHash : Nat := 0
  keyset : Nat := 0
  closeNs : Nat := 0
  setDigest : Nat := 0
  actFor : Nat := 0
  compact : Bool := false
  exactSet : Bool := false
  partialSet : Bool := false
  reserved : Bool := false
  nkeys : Nat := 0
  blocks : List Block := []
  deriving DecidableEq, Repr, Inhabited

/-- A SKIP or JOIN on the fleet notice path: its reduction header and its body (R254, R261, R262). -/
structure RingNote where
  head : RedFrame
  member : Nat := 0
  sendNs : Nat := 0
  fromRound : Nat := 0
  deriving DecidableEq, Repr, Inhabited

/-- The fields of a drover operation (R277). -/
structure Op where
  dst : Fin 32 := 0
  src1 : Fin 32 := 0
  src2 : Fin 32 := 0
  mode : Fin 32 := 0
  imm : Int := 0
  deriving DecidableEq, Repr, Inhabited

/-- What the arithmetic of one Verifier pass saw besides its operands: an injected cell fault, named by the logical
columns whose outputs differ from the exact arithmetic (R349 to R351). -/
structure PassFault where
  columns : List Nat := []
  deriving DecidableEq, Repr, Inhabited

/-- A received Rycon-F packet (R389 to R391) with the outcome of the checks of R409 that only the wire can show. Addresses are
IPv6 addresses. -/
structure Packet where
  port : Fin 12
  srcAddr : Nat := 0
  dstAddr : Nat := 0
  /-- UDP destination port -/
  udpPort : Nat := 47800
  rclass : Nat := 1
  msgType : Nat := 0
  ackReq : Bool := true
  spineSrc : Bool := false
  src : Nat := 0
  dst : Nat := 0
  psn : Nat := 0
  incarn : Nat := 0
  plen : Nat := 8
  paddock : Nat := 0
  /-- ACK_CLASS of an ACK packet -/
  ackClass : Nat := 1
  rx : RxInfo := { bytes := 106 }
  deriving DecidableEq, Repr, Inhabited

/-- The first of the rows of R409 that only the wire can show and that an arriving frame meets, `none` for a frame that meets
none of them: the rows on addresses, the UDP port, SRC, DST and SPINE_SRC are judged by the fields of `Packet`. -/
inductive WireDefect where
  | none | fcs | pause | etherType | ipForm | icmp | udpChecksum | reserved | plen | fcrc
  deriving DecidableEq, Repr, Inhabited

/-- A notice that arrives on the fleet notice path (R374, R397). -/
structure NoticeMsg where
  ntype : Nat
  src : Nat
  /-- PSN of the packet that carries it -/
  psn : Nat := 0
  origAgg : Nat
  origOp : Nat
  fleetDie : Nat
  kind : Nat := 0
  /-- bytes 24 to 31: DSEQ, or the CASE_SEQ or IDENT of another notice -/
  dseq : Nat := 0
  epochFirst : Nat := 0
  epochLast : Nat := 0
  lastTaint : Nat := 0
  /-- TFLAGS of a taint or clear -/
  flags : Nat := 0
  core : Nat := 0xFFFF
  severity : Nat := 0
  paddock : Nat := 0
  replayed : Bool := false
  deriving DecidableEq, Repr, Inhabited

/-- A Rycon-F packet that its requester offers to the egress queues (R391, R392): `spine` says that it goes to the spine's
reduction service, `port` is the port of arrival that an ACK answers on (R396), and `tag` names the delivery that waits for
its acknowledgement (R397; 0 for none). -/
structure OutPacket where
  rclass : Nat := 1
  msgType : Nat := 0
  dst : Nat := 0
  spine : Bool := false
  paddock : Nat := 0
  payload : List Byte := []
  port : Nat := 0
  tag : Nat := 0
  deriving DecidableEq, Repr, Inhabited

/-- An occurrence that reaches the fault collector from a hardware source (R415, R416, R417). -/
structure HwOccurrence where
  source : Nat
  addr : Nat := 0
  master : Nat := 0xFFFF
  access : Nat := 0
  detail : Nat := 0
  deriving DecidableEq, Repr, Inhabited

/-- What a fault collector is told (R412, R415, R417, R425): the next occurrence that a block has notified; one of a hardware
source; that the condition of a level source has ended; that its capture registers fail parity; or that one of its three
copies, of the pending list or of the configuration, is upset. -/
inductive FaultReport where
  | notified
  | hardware (h : HwOccurrence)
  | released (source : Nat)
  | captureParity
  | copyUpset (pendingList : Bool) (copy : Fin 3)
  deriving DecidableEq, Repr, Inhabited

/-- A measurement of an aging monitor (R436). -/
structure AgeSample where
  island : Nat
  slackPs : Int
  fusedPs : Int
  deriving DecidableEq, Repr, Inhabited

/-- A host agent's or the host port's register write path (R58): the host register port with its `HR_MID`, a
Rycon-D command, or a BAR0 write. -/
inductive WritePath where
  | hostPort (mid : Fin 64)
  | ryconD (x : Fin 2)
  | bar0
  deriving DecidableEq, Repr, Inhabited

/-- The outcome of checks 4 and 5 of an image, which the fuses and the signature decide (R478). -/
inductive SigCheck where
  | good | key | signature
  deriving DecidableEq, Repr, Inhabited

/-- What a protected SRAM instance belongs to (R431): a drover core's local SRAM, an array's operand SRAM, a range of every
tree SRAM bank, or any other. -/
inductive SramOwner where
  | drover (cluster core : Nat)
  | array (a : Fin 8)
  | tree (off size : Nat)
  | other
  deriving DecidableEq, Repr, Inhabited

/-- The kinds of repair-log entry (R433). -/
structure RepairEntry where
  etype : Nat
  unit : Nat
  place : Nat := 0
  detail : Nat := 0
  deriving DecidableEq, Repr, Inhabited

/-- What the device answered when SFDP was read (R474). -/
structure Sfdp where
  valid : Bool
  mbit : Nat
  erase4k : Bool
  erase64k : Bool
  addr4 : Bool
  quadRead : Bool := true
  deriving DecidableEq, Repr, Inhabited

/-- One command of Glenyx: one constructor per row of spec/opcode_table.json. -/
inductive Instr where
  -- fleet time (01)
  | tickLatch (part : PartSel) (qpEdges : List Nat)
  | islandMissing (island : Nat)
  | tickActivation (part : PartSel)
  | epochActivation
  | epochBoundary
  | ptpSync (port : Fin 12) (m : PtpMsg)
  | followUp (port : Fin 12) (m : PtpMsg)
  | delayResp (port : Fin 12) (m : PtpMsg)
  | announce (port : Fin 12) (m : PtpMsg) (a : AnnounceData)
  | announceReceiptTimeout (port : Fin 12)
  | delayReq (port : Fin 12)
  | ptpMessageDropped (port : Fin 12) (why : PtpDrop) (rx : RxInfo)
  | esmc (port : Fin 12) (ql : Nat) (rx : RxInfo)
  | esmcTransmit
  | holdLimit (part : PartSel)
  | twSyncSend (p : Fin 16)
  | twSync (x : Fin 2) (w : TimeWord)
  | twFull (x : Fin 2) (w : TimeWord)
  | twEcho (p : Fin 16) (w : TimeWord)
  | coastExpiry
  | scheduledLaunch (port : Fin 12)
  | timeSecRead
  | ulgTimeSecRead
  | hostWrite (off : Nat) (value : Word) (mid : Fin 64)
  | pathChange (port : Fin 12) (ptype spinePort changeNs : Nat)
  -- counting (02)
  | countBeat (b : EvBeat)
  | sampleBeat (b : EvBeat)
  | ringBeat (b : EvBeat)
  | reservedKindBeat (b : EvBeat)
  | ovsRequestTimeout (core : Fin 8192)
  | uncoreBeat (b : UevBeat)
  | queueProbeBeat (b : QpBeat)
  | commandTagBeat (b : CtBeat)
  | hang (core : Fin 8192)
  | packStart (parity : List Nat)
  | recordClose
  | ringUnfreeze (core : Fin 8192) (all : Bool)
  | fullNext
  | ovsSlotWrite (slot : Fin 64) (value : Word)
  | ovsPop (mid : Fin 64)
  | rcRead (part : PartSel) (off : Nat) (mid : Fin 64)
  -- trace, field test, tile (03)
  | traceBeat (b : TraceBeat)
  | traceOverflowRecover (core : Fin 64)
  | authExpired
  | trcRingDataRead
  | ftCoreDue (core : Fin 8192)
  | yieldBeat (b : FtBeat)
  | sigLo (b : FtBeat)
  | sigHi (b : FtBeat)
  | ftSigTimeout (core : Fin 8192)
  | ftDeferred (core : Fin 8192)
  | pairWaitExpiry (seq : Nat)
  | ftForce (core : Fin 8192) (kernel : Nat) (seqLo : Nat)
  | cmdBeat (b : TapBeat)
  | tileDataBeat (kind : Fin 8) (b : TapBeat)
  | endBeat (b : TapBeat)
  | tileTimeout (tap : Fin 32)
  | tileForce (mask : BitVec 32)
  | captureBufferUe (t : CaptureTarget)
  -- die link (04)
  | trainingDone (e : LinkEnd) (lanes : BitVec 4)
  | trainLimit (e : LinkEnd)
  | alignTimeout (e : LinkEnd)
  | alignmentLockLost (e : LinkEnd)
  | retryTimeout (e : LinkEnd)
  | reupHold (e : LinkEnd)
  | dataFlit (e : LinkEnd) (f : Flit)
  | idleFlit (e : LinkEnd) (f : Flit)
  | violDown (e : LinkEnd)
  | replayTimeout (e : LinkEnd)
  | flitSend (e : LinkEnd)
  | helloSend (p : Fin 16)
  | hello (x : Fin 2) (resume : Bool) (reservedSet : Bool) (nonce : Nat)
  | helloAck (p : Fin 16) (a : HelloAck)
  | read (x : Fin 2) (c : Cmd)
  | write (x : Fin 2) (c : Cmd)
  | commit (x : Fin 2) (c : Cmd)
  | sessionStatus (x : Fin 2) (c : Cmd)
  | nop (x : Fin 2) (c : Cmd)
  | replayOpen (x : Fin 2) (c : Cmd)
  | replayLoad (x : Fin 2) (c : Cmd)
  | replayStart (x : Fin 2) (c : Cmd)
  | replayStatus (x : Fin 2) (c : Cmd)
  | replayClose (x : Fin 2) (c : Cmd)
  | domain (x : Fin 2) (c : Cmd)
  | domainQuery (x : Fin 2) (c : Cmd)
  | response (p : Fin 16) (r : Resp)
  | release (p : Fin 16)
  | claim (p : Fin 16)
  | streamTimeout (p : Fin 16)
  -- ingest (05)
  | recordCommit (p : Fin 16) (stream : Fin 16)
  | sweepVisit
  | readLoc (loc : Nat)
  | lookup
  | insertStatic
  | delete
  | ringReleased (ring : Nat)
  -- Shed (06)
  | shedUe (addr : Nat)
  | shedRepaired
  | scrub (errors : Nat) (reports : List Nat)
  | mirrorHelloSend
  | mirrorHello (src tag port msess : Nat) (reset : Bool) (h : MirHead := {})
  | mirrorHelloAck (src tag status : Nat) (h : MirHead := {})
  | mirrorData (m : MirrorPart)
  | mirrorAck (src ring ackSeq : Nat) (h : MirHead := {})
  | mirrorResend (ring : Nat)
  | mirrorStall
  | stalled
  | mirrorRateWindow
  | jquery (q : JQueryMsg)
  | janswer (a : JAnswerMsg)
  | jqueryTimeout
  | journalOpen
  | jqGo (value : Word)
  | jqNoAnswer
  | fetch (f : FetchMsg)
  | fetchEnd (qid count firstHeld : Nat) (h : MirHead := {})
  | segmentAge (ring : Nat)
  | segmentWritten (ring : Nat)
  | dzGo
  | dzDone (ecc : Option Nat)
  -- tallies (07)
  | obsClose (round : Nat)
  | cover (f : RedFrame) (mask : BitVec 16)
  | coverLate (round : Nat)
  | launchRequest (port : Fin 12) (launchNs : Nat) (frames : List OutPacket)
  | countResult (f : RedFrame)
  | result (f : RedFrame)
  | resultDeadline (round : Nat)
  | attemptStart (round : Nat)
  | chunk (f : RedFrame)
  | stepDeadline (round : Nat)
  | skip (n : RingNote)
  | join (n : RingNote)
  | roundFailed (round : Nat)
  | tallyActivation
  -- detection (08)
  | tickRunStart (slot : Fin 16)
  | roundRunStart (slot : Fin 16)
  | runEnd (slot : Fin 16)
  | overrun (slot : Fin 16)
  | droverCoreFault (slot : Fin 16) (core : Fin 33)
  | runSkip (slot : Fin 16)
  | opEnd (slot : Fin 16) (o : Op)
  | opLdi (slot : Fin 16) (o : Op)
  | opLdp (slot : Fin 16) (o : Op)
  | opFeat (slot : Fin 16) (o : Op)
  | opAdd (slot : Fin 16) (o : Op)
  | opSub (slot : Fin 16) (o : Op)
  | opMul (slot : Fin 16) (o : Op)
  | opDiv (slot : Fin 16) (o : Op)
  | opShr (slot : Fin 16) (o : Op)
  | opMin (slot : Fin 16) (o : Op)
  | opMax (slot : Fin 16) (o : Op)
  | opAbs (slot : Fin 16) (o : Op)
  | opClt (slot : Fin 16) (o : Op)
  | opSel (slot : Fin 16) (o : Op)
  | opSkipz (slot : Fin 16) (o : Op)
  | opLds (slot : Fin 16) (o : Op)
  | opSts (slot : Fin 16) (o : Op)
  | opEwma (slot : Fin 16) (o : Op)
  | opCusum (slot : Fin 16) (o : Op)
  | opAcc (slot : Fin 16) (o : Op)
  | opLda (slot : Fin 16) (o : Op)
  | opEachcore (slot : Fin 16) (o : Op)
  | opBrank (slot : Fin 16) (o : Op)
  | opBquant (slot : Fin 16) (o : Op)
  | opBmom (slot : Fin 16) (o : Op)
  | opNbr (slot : Fin 16) (o : Op)
  | opPost (slot : Fin 16) (o : Op)
  | opPred (slot : Fin 16) (o : Op)
  | opVec (slot : Fin 16) (o : Op)
  | opHedge (slot : Fin 16) (o : Op)
  | opCause (slot : Fin 16) (o : Op)
  | opEmit (slot : Fin 16) (o : Op)
  | verdictDelivery (slot : Fin 16)
  | evidWait (slot : Fin 16)
  | noticeInterrupt
  | nqHeadWrite (value : Word)
  | noticeResend (op : Nat) (sub : Nat)
  | hurdleAccept (slot : Fin 16)
  | hurdleDecline (slot : Fin 16)
  | hurdleLift (slot : Fin 16)
  | hurdleUnanswered (slot : Fin 16)
  | restoreCold (slot : Fin 16)
  -- Hedge engine (09)
  | hedgeScore (corrected : Nat)
  | modelLoaded (m : Fin 16)
  | modelActivate (m : Fin 16)
  | retainEnd (m : Fin 16)
  | sramUe (m : Fin 16)
  | reloaded (m : Fin 16)
  -- Verifier (10)
  | passStart (a : Fin 8)
  | passEnd (a : Fin 8) (f : PassFault)
  | jobAging (job : Nat)
  | operandUe (a : Fin 8) (corrected : Bool)
  | selfTestDue (a : Fin 8)
  | retire (a : Fin 8)
  | retest (a : Fin 8)
  | selftest (a : Fin 8)
  | prevTableRelease
  -- silent errors (11)
  | tileCheckDispatch (slot : Fin 16)
  | replayAutoOpen (slot : Fin 16)
  | replayPoll (slot : Fin 16) (status : List Nat)
  | rplExpired (slot : Fin 16)
  | replayRunTimeout
  | epochDecision (slot : Fin 16)
  | epochHold (slot : Fin 16)
  | taintDelivery (slot : Fin 16)
  | clearDelivery (slot : Fin 16)
  | needTaint (slot : Fin 16) (recipient : Nat) (dseq : Nat)
  | fleeceExport (slot : Fin 16)
  | fleeceResend (slot : Fin 16)
  | seLift (slot : Fin 16)
  | seCloseCase (slot : Fin 16)
  | seRestoreTimeout (slot : Fin 16)
  -- fabric (12)
  | ryconFPacket (d : WireDefect) (k : Packet)
  | noticeReceived (n : NoticeMsg)
  | transportAck (src cls incarn : Nat) (psns : List Nat)
  | retransmit (port : Fin 12) (psn : Nat) (cls : Nat) (dst : Nat)
  | ackSend (src cls : Nat)
  | neighborSolicitation (port : Fin 12) (target source : Nat) (rx : RxInfo)
  | echoRequest (port : Fin 12) (source ident seq : Nat) (data : List Byte) (rx : RxInfo)
  | packetEnqueue (o : OutPacket)
  | frameStart (port : Fin 12)
  | shaperRefill
  | fabricPortDown (port : Fin 12) (lanes : BitVec 8)
  -- faults (13)
  | faultOccurrence (part : PartSel) (r : FaultReport)
  | hfltAssert (n : Fin 1024) (level : Bool) (cycles : Nat)
  | sheepdog (part : PartSel)
  | quiesceTimeout (dom : Option Nat)
  | exitStart (part : PartSel)
  | safeExit (part : PartSel)
  | heartbeatLoss (part : PartSel)
  | ceRateHourEnd (part : PartSel)
  | fltAck (part : PartSel) (fseq : Nat)
  | exit (part : PartSel)
  | enterSafe (part : PartSel)
  | clearFirst (part : PartSel)
  | fltInject (part : PartSel) (source : Nat) (cls : Fin 4)
  | fltPoll (slot : Fin 16)
  | ulgFltPop (fseq : Nat)
  | lockstepMismatch (pair : Fin 2) (addr : Nat)
  | pairSwitch
  | pairSelfTestDone (pair : Fin 2) (pass : Bool)
  | rowBad (owner : SramOwner) (inst row : Nat) (hour : Option Nat)
  | repairLogAppend (readBack : Bool)
  | agingCheck (part : PartSel) (m : List AgeSample)
  | revoke (eseq : Nat)
  -- power (14)
  | domainRequest (value : Word)
  | quiesceAccept (part : PartSel) (d : Nat)
  | quiesceDeny (part : PartSel) (d : Nat)
  | domainTransitionComplete (part : PartSel) (d : Nat)
  | pdReq (grp : Fin 16) (tgt : Fin 4)
  | pdReqRelease
  | pfail
  | mainReturn
  | arm (cellMv : Nat) (cellOk : Bool)
  | tailFlushed
  | flushLimit
  | sealed
  | cut (cellMv : Nat)
  | cellTest (dropMv : Nat)
  | slotOn (slot : Fin 16)
  | slotOff (slot : Fin 16)
  | slotClear (slot : Fin 16)
  | slotSample (slot : Fin 16) (code : Nat) (en fltN : Bool)
  | slotFlt (slot : Fin 16)
  | rampEnd (slot : Fin 16)
  | backoffEnd (slot : Fin 16)
  | drainTimeout (slot : Fin 16)
  -- start-up and configuration (15)
  | reset (twinSel ftm supplies : Bool)
  | uligoReset (ftm bistFail : Bool)
  | sfdpDone (d : Sfdp)
  | validateDone (k0 k1 : SigCheck)
  | imageCommit
  | cfgCommit
  | commitApply (part : PartSel)
  | adopt (write : Bool) (len : Nat) (k : SigCheck)
  | flashErase (slot : Fin 2)
  | flashProgram (slot : Fin 2) (len : Nat)
  | flashDone (ok : Bool)
  | upush (slot : Fin 16)
  | push (slot : Fin 16) (cause : Nat)
  | smbStatus
  | smbImage
  | smbFirstError
  | smbEnterSafe (key : Byte)
  | smbReset (key : Byte)
  | functionLevelReset
  | proxyRead (slot : Fin 16) (off : Nat) (wide : Bool)
  | proxyWrite (slot : Fin 16) (off : Nat) (value : Word) (wide : Bool)
  | proxyCommit (slot : Fin 16)
  | proxyTmo (slot : Fin 16)
  | apertureWrite (off : Nat) (bytes : List Byte)
  | rplDataRead
  | registerWrite (part : PartSel) (path : WritePath) (off : Nat) (value : Word)
  | hbmTrainingLoss (stack : Fin 6)
  | thermalClockStep (die : Fin 2) (hottest : Int)
  | hbmThrottle (stack : Fin 6) (celsius : Int)
  | ftRetestExpired (slot : Fin 16)
  | hfltRelease (n : Fin 1024) (level : Bool) (cycles : Nat)
  | disarm (cellMv : Nat) (cellOk : Bool)
  | pcieUe
  | fabricPortUp (port : Fin 12) (lanes : BitVec 8)
  | eeecLocked
  | hostPortBadAccess (off : Nat) (write : Bool) (mid : Fin 64)
  | bar0UnmappedAccess (off : Nat) (write : Bool)
  | discoverStart (failed : List (Fin 32 × Fin 33))
  | suppliesUp
  deriving DecidableEq, Repr

end Sys2Proof
end

