-- ==== Sys2Proof/Config.lean ====
section
/-! DEFINITION. What one implementation fixes and the spec leaves open. Each constant is opaque: nothing can be
proved about its value, so a statement about it holds for every value. -/

namespace Sys2Proof.Config

/-- The `n`-th number drawn from a source that the spec calls random or gives no value for (log entry 7): a session
nonce (R148), the boot incarnation `INCARN` (R391). -/
opaque freeNat : Nat → Nat

/-- The servo's rate for an offset, before the slew limit (log entry 12): gains KP_SHIFT and KI_SHIFT, integrator,
offset in 2^-16 ns; the result is in units of 2^-40. R54 gives the two terms, not the unit of time that turns an
offset into a rate. -/
opaque servoRate (kp ki : Nat) (integ offset : Int) : Int

/-- The servo's integrator after an update (log entry 12). -/
opaque servoInteg (ki : Nat) (integ offset : Int) : Int

/-- The rank of an enhanced SSM code (R32, log entry 14). The codes are those of ITU-T G.8264, which the
spec names and does not reproduce. -/
opaque qlRank : Nat → Nat

/-- The bits of the block, header included, that an engine's encoder makes of a piece of input with the fixed (`dyn` false)
or with dynamic Huffman codes (R227, log entry 20): RFC 1951 leaves the choice of matches, and of the dynamic codes, to the
encoder. `before` is the segment's input before the piece, `final` marks the last block. -/
opaque huffBlock (dyn : Bool) (before piece : List Byte) (final : Bool) : List Bool

/-- The mirror partner of an aggregator, as the image names it (R285, R378, log entry 23): R476 gives the image no field
that holds it. -/
opaque mirrorPartner : Nat → Nat

/-- The bits of a NaN in a format (log entry 24): R329 carries a NaN by its class alone. -/
opaque nanBits : Nat → Nat

/-- The spare rows of a protected SRAM instance (R431, log entry 25): R431 gives every instance spare rows and no number. -/
opaque spareRows : Nat → Nat

end Sys2Proof.Config
end

