-- ==== Sys2Proof/Machine/Tab.lean ====
section
/-! DEFINITION. Sparse tables and register fields: the two shapes in which State holds everything that comes in many
copies. A table lists, by rising key, only the entries that differ from their reset value, so equal contents are
equal data. -/

namespace Sys2Proof.Machine

/-! ### Association lists with rising keys -/

/-- The value listed at key `k`, if any. -/
def assocGet {α : Type} : List (Nat × α) → Nat → Option α
  | [], _ => none
  | e :: t, k => if e.1 = k then some e.2 else assocGet t k

/-- The list with `v` at key `k`. -/
def assocPut {α : Type} : List (Nat × α) → Nat → α → List (Nat × α)
  | [], k, v => [(k, v)]
  | e :: t, k, v =>
    if k < e.1 then (k, v) :: e :: t
    else if e.1 = k then (k, v) :: t
    else e :: assocPut t k v

/-- The list without key `k`. -/
def assocDel {α : Type} : List (Nat × α) → Nat → List (Nat × α)
  | [], _ => []
  | e :: t, k => if e.1 = k then assocDel t k else e :: assocDel t k

/-- The keys rise strictly, all from `lo` on. -/
def risesFrom {α : Type} : Nat → List (Nat × α) → Bool
  | _, [] => true
  | lo, e :: t => decide (lo ≤ e.1) && risesFrom (e.1 + 1) t

/-- A table of `α` whose unlisted entries are the reset value `default`. -/
abbrev Tab (α : Type) := List (Nat × α)

/-- The entry at `k`. -/
def Tab.get {α : Type} [Inhabited α] (t : Tab α) (k : Nat) : α := (assocGet t k).getD default

/-- The table with `v` at `k`; writing the reset value removes the entry. -/
def Tab.set {α : Type} [Inhabited α] [DecidableEq α] (t : Tab α) (k : Nat) (v : α) : Tab α :=
  if v = default then assocDel t k else assocPut t k v

/-- The entry at `k` changed by `f`. -/
def Tab.upd {α : Type} [Inhabited α] [DecidableEq α] (t : Tab α) (k : Nat) (f : α → α) : Tab α :=
  t.set k (f (t.get k))

/-- Canonical form: keys rise and no entry is the reset value. -/
def Tab.wf {α : Type} [Inhabited α] [DecidableEq α] (t : Tab α) : Bool :=
  risesFrom 0 t && t.all (fun e => decide (e.2 ≠ default))

/-! ### Register fields -/

/-- How software may access a field (R16). -/
inductive Acc where
  | ro | rw | rws | w1c | w1s | wo | rc
  deriving DecidableEq, Repr, Inhabited

/-- One field of one copy of a register: byte offset, index of the copy, lowest bit, width, reset value and access
type (R14, R16). -/
structure Field where
  off : Nat
  idx : Nat
  lsb : Nat
  width : Nat
  reset : Nat
  acc : Acc
  deriving DecidableEq, Repr, Inhabited

/-- The key of a field; offsets lie below 2^20 and bits below 64, so distinct fields have distinct keys. -/
def Field.key (f : Field) : Nat := 64 * (1048576 * f.idx + f.off) + f.lsb

/-- The values of all register fields that differ from their reset value. -/
abbrev Store := List (Nat × Nat)

/-- The value a field holds. -/
def Store.get (r : Store) (f : Field) : Nat := (assocGet r f.key).getD f.reset

/-- The store with field `f` holding `v` mod 2^width. -/
def Store.set (r : Store) (f : Field) (v : Nat) : Store :=
  if v % 2 ^ f.width = f.reset then assocDel r f.key else assocPut r f.key (v % 2 ^ f.width)

/-- The keys rise strictly. -/
def Store.wf (r : Store) : Bool := risesFrom 0 r

/-- A field as a truth value. -/
def Store.on (r : Store) (f : Field) : Bool := r.get f != 0

/-- A counter field after `n` more counts; counters of events hold at their largest value. -/
def Store.count (r : Store) (f : Field) (n : Nat) : Store :=
  r.set f (min (r.get f + n) (2 ^ f.width - 1))

/-- A two's-complement field as an integer. -/
def Store.getInt (r : Store) (f : Field) : Int :=
  if r.get f < 2 ^ (f.width - 1) then (r.get f : Int) else (r.get f : Int) - 2 ^ f.width

/-- The store with an integer in two's complement in field `f`. -/
def Store.setInt (r : Store) (f : Field) (v : Int) : Store := r.set f (v % 2 ^ f.width).toNat

end Sys2Proof.Machine
end

