-- ==== Sys2Proof/Machine/Floors.lean ====
section
/-! DEFINITION. Floor classes of fault sources (R413 to R415) and the reset values of the fabric meters (R407): the
reset values of the register tables that are not one number. -/

namespace Sys2Proof.Machine

/-- Fault classes (R18, R418). -/
def clsCorrectable : Nat := 0
/-- Contained. -/
def clsContained : Nat := 1
/-- Uncontained. -/
def clsUncontained : Nat := 2
/-- Fatal. -/
def clsFatal : Nat := 3

/-- The hardware sources of both parts, by index in block 0x10 or 0x0A (R415). -/
def floorHw (i : Nat) : Nat :=
  if i = 0x10 ∨ i = 0x11 ∨ i = 0x12 ∨ i = 0x21 ∨ i = 0x71 then 1
  else if i = 0x30 ∨ i = 0x31 ∨ i = 0x41 then 2
  else if i = 0x51 then 3
  else 0

/-- The floor class of a source of the aggregator (R413, R415): the class that the owning chapter states, else
correctable. -/
def floorAgg (src : Nat) : Nat :=
  let i := src % 256
  match src / 256 with
  | 0x00 => if i = 1 ∨ i = 4 then 2 else 0
  | 0x01 => if i = 3 ∨ i = 5 then 1 else 0                       -- R42 LARGE_OFFSET, R50 TICK_LATE
  | 0x02 => if i % 16 = 4 then 1 else 0                          -- R164 SILENT
  | 0x03 =>                                                      -- R177, R180, R184
    if i = 3 ∨ i = 4 ∨ i = 5 ∨ i = 6 ∨ i = 8 ∨ i = 10 ∨ i = 13 then 1 else 0
  | 0x04 => if i = 3 then 2 else 0                               -- R207 STACK_FAIL
  | 0x05 => if i = 0 ∨ i = 1 ∨ i = 4 then 1 else 0               -- R216, R217, R223
  | 0x07 => if i = 0 ∨ i = 3 ∨ i = 5 then 1 else 0               -- R271, R294, R293
  | 0x08 => if i = 5 then 1 else 0                               -- R320
  | 0x09 => if i = 1 ∨ i = 2 then 1 else 0                       -- R351, R350
  | 0x0A => if i = 13 then 1 else 0                              -- R367
  | 0x0C => if i = 8 ∨ i = 9 then 1 else 0                       -- R461
  | 0x0D => if i = 5 ∨ i = 6 ∨ i = 10 then 1 else 0              -- R486, R487, R488
  | 0x10 => if i = 0 ∨ i = 1 ∨ i = 0x60 ∨ i = 0x61 ∨ i = 0x62 then 1 else if i = 2 then 2 else floorHw i
  | _ => 0

/-- The floor class of a source of the Uligo (R413 to R416). -/
def floorUlg (src : Nat) : Nat :=
  let i := src % 256
  match src / 256 with
  | 0x00 => if i = 1 ∨ i = 4 then 2 else 0
  | 0x01 => if i = 5 ∨ i = 7 ∨ i = 11 then 1 else 0              -- R46, R50, R42
  | 0x02 => if i = 0 ∨ i = 1 ∨ i = 4 ∨ i = 7 then 1 else 0       -- R64, R73, R81, R74
  | 0x04 => if i = 0 ∨ i = 1 then 1 else 0                       -- R118
  | 0x06 => if i = 0 then 1 else 0                               -- R131
  | 0x0A => floorHw i
  | _ => 0

/-- Committed rate of a meter, by its group `m % 5` (R407), MB/s. -/
def meterResetCir (m : Nat) : Nat := [1, 8000, 1000, 100000, 1].getD (m % 5) 0
/-- Peak rate, MB/s. -/
def meterResetPir (m : Nat) : Nat := [2, 50000, 8000, 200000, 1].getD (m % 5) 0
/-- Committed burst, KiB. -/
def meterResetCbs (m : Nat) : Nat := [64, 4096, 1024, 8192, 16].getD (m % 5) 0
/-- Peak burst, KiB. -/
def meterResetPbs (m : Nat) : Nat := [128, 8192, 4096, 16383, 16].getD (m % 5) 0

end Sys2Proof.Machine
end

