-- ==== Sys2Proof/Machine/RegsAgg.lean ====
section
/-! DEFINITION. The register fields of the aggregator (BAR0 offsets, R491), taken field by field from the register tables of the spec:
name, byte offset, index of the copy, lowest bit, width, reset value, access type. An indexed register takes its
index as argument; a register behind a select register takes the selected value. -/

namespace Sys2Proof.Machine

/-! #### Chapter 01, fleet time -/

/-- RO, R54 -/
def TIME_SEC_SEC : Field := ⟨0x10000, 0, 0, 48, 0, .ro⟩

/-- RO, R54 -/
def TIME_SUBSEC_NS : Field := ⟨0x10008, 0, 0, 32, 0, .ro⟩
/-- RO, R54 -/
def TIME_SUBSEC_FRAC : Field := ⟨0x10008, 0, 32, 16, 0, .ro⟩

/-- RO, R54 -/
def SERVO_STATUS_STATE : Field := ⟨0x10010, 0, 0, 3, 0, .ro⟩
/-- RO, R54 -/
def SERVO_STATUS_SRC_PORT : Field := ⟨0x10010, 0, 4, 4, 15, .ro⟩
/-- RO, R54 -/
def SERVO_STATUS_SYNCE_OK : Field := ⟨0x10010, 0, 8, 1, 0, .ro⟩
/-- RO, R54 -/
def SERVO_STATUS_ERR_NS : Field := ⟨0x10010, 0, 12, 4, 15, .ro⟩
/-- RO, R54 -/
def SERVO_STATUS_HOLD_S : Field := ⟨0x10010, 0, 16, 16, 0, .ro⟩

/-- RO, R54 -/
def SERVO_OFFSET_OFFSET : Field := ⟨0x10018, 0, 0, 48, 0, .ro⟩

/-- RO, R54 -/
def SERVO_FREQ_FREQ : Field := ⟨0x10020, 0, 0, 40, 0, .ro⟩

/-- RWS, R54 -/
def SERVO_CFG_KP_SHIFT : Field := ⟨0x10028, 0, 0, 4, 2, .rws⟩
/-- RWS, R54 -/
def SERVO_CFG_KI_SHIFT : Field := ⟨0x10028, 0, 4, 4, 6, .rws⟩
/-- RWS, R54 -/
def SERVO_CFG_LOCK_NS : Field := ⟨0x10028, 0, 8, 8, 32, .rws⟩
/-- RWS, R54 -/
def SERVO_CFG_STEP_NS : Field := ⟨0x10028, 0, 16, 8, 10, .rws⟩
/-- RWS, R54 -/
def SERVO_CFG_SLEW_PPB : Field := ⟨0x10028, 0, 24, 16, 20000, .rws⟩
/-- RWS, R54 -/
def SERVO_CFG_LARGE_US : Field := ⟨0x10028, 0, 40, 16, 1000, .rws⟩
/-- RWS, R54 -/
def SERVO_CFG_HOLD_LIMIT_S : Field := ⟨0x10028, 0, 56, 8, 10, .rws⟩

/-- RWS, R54 -/
def PTP_CFG_DOMAIN : Field := ⟨0x10030, 0, 0, 8, 24, .rws⟩
/-- RWS, R54 -/
def PTP_CFG_SDO_ID : Field := ⟨0x10030, 0, 8, 12, 0, .rws⟩
/-- RWS, R54 -/
def PTP_CFG_PORT_EN : Field := ⟨0x10030, 0, 20, 12, 4095, .rws⟩
/-- RWS, R54 -/
def PTP_CFG_TW_INTERVAL : Field := ⟨0x10030, 0, 32, 2, 0, .rws⟩
/-- RWS, R54 -/
def PTP_CFG_ANN_TIMEOUT : Field := ⟨0x10030, 0, 36, 4, 3, .rws⟩

/-- RO, R54 -/
def PTP_PORT_STATE_ST (j : Nat) : Field := ⟨0x10038, 0, (4 * j), 4, 0, .ro⟩

/-- RO, R54 -/
def SYNCE_STATUS_SRC_PORT : Field := ⟨0x10040, 0, 0, 4, 15, .ro⟩
/-- RO, R54 -/
def SYNCE_STATUS_QL : Field := ⟨0x10040, 0, 4, 8, 0, .ro⟩
/-- RO, R54 -/
def SYNCE_STATUS_STATE : Field := ⟨0x10040, 0, 12, 2, 0, .ro⟩

/-- RWS, R54 -/
def TICK_CFG_TICK_US : Field := ⟨0x10048, 0, 0, 20, 100, .rws⟩
/-- RWS, R54 -/
def TICK_CFG_ROUND_TICKS : Field := ⟨0x10048, 0, 20, 20, 10, .rws⟩

/-- RWS, R54 -/
def TICK_ACT_SEC_ACT_SEC : Field := ⟨0x10050, 0, 0, 48, 0, .rws⟩

/-- RO, R54 -/
def TICK_NOW_TICK : Field := ⟨0x10058, 0, 0, 64, 0, .ro⟩

/-- RO, R54 -/
def ROUND_NOW_ROUND : Field := ⟨0x10060, 0, 0, 32, 0, .ro⟩
/-- RO, R54 -/
def ROUND_NOW_IN_ROUND : Field := ⟨0x10060, 0, 32, 20, 0, .ro⟩

/-- W1C, R54 -/
def TIME_EVENT_LOCK_LOST : Field := ⟨0x10068, 0, 0, 1, 0, .w1c⟩
/-- W1C, R54 -/
def TIME_EVENT_HOLD_ENTER : Field := ⟨0x10068, 0, 1, 1, 0, .w1c⟩
/-- W1C, R54 -/
def TIME_EVENT_STEP_SEEN : Field := ⟨0x10068, 0, 2, 1, 0, .w1c⟩
/-- W1C, R54 -/
def TIME_EVENT_LARGE_OFFSET : Field := ⟨0x10068, 0, 3, 1, 0, .w1c⟩
/-- W1C, R54 -/
def TIME_EVENT_HOLD_LIMIT : Field := ⟨0x10068, 0, 4, 1, 0, .w1c⟩
/-- W1C, R54 -/
def TIME_EVENT_TICK_LATE : Field := ⟨0x10068, 0, 5, 1, 0, .w1c⟩
/-- W1C, R54 -/
def TIME_EVENT_PTP_BAD : Field := ⟨0x10068, 0, 6, 1, 0, .w1c⟩
/-- W1C, R54 -/
def TIME_EVENT_DIE_DISAGREE : Field := ⟨0x10068, 0, 7, 1, 0, .w1c⟩
/-- W1C, R54 -/
def TIME_EVENT_SLEW_ENTER : Field := ⟨0x10068, 0, 8, 1, 0, .w1c⟩

/-- RC, R54 -/
def TIME_ERR_COUNT_DROP : Field := ⟨0x10070, 0, 0, 32, 0, .rc⟩
/-- RC, R54 -/
def TIME_ERR_COUNT_STEPS : Field := ⟨0x10070, 0, 32, 16, 0, .rc⟩

/-- RW, R54 -/
def FAB_LAT_RX_PS (i : Nat) : Field := ⟨0x10100, i, 0, 24, 0, .rw⟩
/-- RW, R54 -/
def FAB_LAT_TX_PS (i : Nat) : Field := ⟨0x10100, i, 24, 24, 0, .rw⟩

/-! #### Chapter 04, die link -/

/-- RO, R172 -/
def DP_STATUS_STATE (i : Nat) : Field := ⟨0x20000, i, 0, 3, 0, .ro⟩
/-- RO, R172 -/
def DP_STATUS_LANES (i : Nat) : Field := ⟨0x20000, i, 3, 1, 0, .ro⟩
/-- RO, R172 -/
def DP_STATUS_PAIR (i : Nat) : Field := ⟨0x20000, i, 4, 1, 0, .ro⟩
/-- RO, R172 -/
def DP_STATUS_ROLE (i : Nat) : Field := ⟨0x20000, i, 5, 3, 0, .ro⟩
/-- RO, R172 -/
def DP_STATUS_PEER_LINK (i : Nat) : Field := ⟨0x20000, i, 8, 2, 0, .ro⟩
/-- RO, R172 -/
def DP_STATUS_PEER_ROLE (i : Nat) : Field := ⟨0x20000, i, 10, 2, 0, .ro⟩
/-- RO, R172 -/
def DP_STATUS_SESSION (i : Nat) : Field := ⟨0x20000, i, 12, 2, 0, .ro⟩
/-- RO, R172 -/
def DP_STATUS_SILENT (i : Nat) : Field := ⟨0x20000, i, 14, 1, 0, .ro⟩
/-- RO, R172 -/
def DP_STATUS_MARKED (i : Nat) : Field := ⟨0x20000, i, 15, 1, 0, .ro⟩

/-- RO, R172 -/
def DP_NONCE_NONCE (i : Nat) : Field := ⟨0x20008, i, 0, 64, 0, .ro⟩

/-- RO, R172 -/
def DP_DIE_UID_UID (i : Nat) : Field := ⟨0x20010, i, 0, 64, 0, .ro⟩

/-- RO, R172 -/
def DP_CMD_STATUS_OUTSTANDING (i : Nat) : Field := ⟨0x20018, i, 0, 7, 0, .ro⟩
/-- RO, R172 -/
def DP_CMD_STATUS_HELD (i : Nat) : Field := ⟨0x20018, i, 7, 16, 0, .ro⟩
/-- RO, R172 -/
def DP_CMD_STATUS_NEXT_SEQ (i : Nat) : Field := ⟨0x20018, i, 32, 32, 0, .ro⟩

/-- RWS, R172 -/
def DP_CFG_EN (i : Nat) : Field := ⟨0x20020, i, 0, 1, 1, .rws⟩
/-- RWS, R172 -/
def DP_CFG_DEGRADE_OK (i : Nat) : Field := ⟨0x20020, i, 1, 1, 1, .rws⟩
/-- RWS, R172 -/
def DP_CFG_AUTO_TKO (i : Nat) : Field := ⟨0x20020, i, 2, 1, 1, .rws⟩
/-- RWS, R172 -/
def DP_CFG_STREAM_TMO_US (i : Nat) : Field := ⟨0x20020, i, 8, 24, 0, .rws⟩
/-- RWS, R172 -/
def DP_CFG_REUP_HOLD_US (i : Nat) : Field := ⟨0x20020, i, 32, 16, 10, .rws⟩
/-- RWS, R172 -/
def DP_CFG_TRAIN_LIMIT_MS (i : Nat) : Field := ⟨0x20020, i, 48, 8, 200, .rws⟩

/-- WO, R172 -/
def DP_ROLE_CTRL_RELEASE (i : Nat) : Field := ⟨0x20028, i, 0, 1, 0, .wo⟩
/-- WO, R172 -/
def DP_ROLE_CTRL_CLAIM (i : Nat) : Field := ⟨0x20028, i, 1, 1, 0, .wo⟩

/-- W1C, R172 -/
def DP_EVENT_RETRY (i : Nat) : Field := ⟨0x20030, i, 0, 1, 0, .w1c⟩
/-- W1C, R172 -/
def DP_EVENT_DOWN (i : Nat) : Field := ⟨0x20030, i, 1, 1, 0, .w1c⟩
/-- W1C, R172 -/
def DP_EVENT_DEGRADED (i : Nat) : Field := ⟨0x20030, i, 2, 1, 0, .w1c⟩
/-- W1C, R172 -/
def DP_EVENT_VIOL (i : Nat) : Field := ⟨0x20030, i, 3, 1, 0, .w1c⟩
/-- W1C, R172 -/
def DP_EVENT_SILENT (i : Nat) : Field := ⟨0x20030, i, 4, 1, 0, .w1c⟩
/-- W1C, R172 -/
def DP_EVENT_TAKEOVER (i : Nat) : Field := ⟨0x20030, i, 5, 1, 0, .w1c⟩
/-- W1C, R172 -/
def DP_EVENT_ROLE_CONFLICT (i : Nat) : Field := ⟨0x20030, i, 6, 1, 0, .w1c⟩
/-- W1C, R172 -/
def DP_EVENT_UID_CHANGED (i : Nat) : Field := ⟨0x20030, i, 7, 1, 0, .w1c⟩
/-- W1C, R172 -/
def DP_EVENT_FULL_REQ (i : Nat) : Field := ⟨0x20030, i, 8, 1, 0, .w1c⟩
/-- W1C, R172 -/
def DP_EVENT_RESUME_FAIL (i : Nat) : Field := ⟨0x20030, i, 9, 1, 0, .w1c⟩

/-- RC, R172 -/
def DP_ERR_COUNT_REPLAYS (i : Nat) : Field := ⟨0x20038, i, 0, 16, 0, .rc⟩
/-- RC, R172 -/
def DP_ERR_COUNT_RETRIES (i : Nat) : Field := ⟨0x20038, i, 16, 16, 0, .rc⟩
/-- RC, R172 -/
def DP_ERR_COUNT_VIOL (i : Nat) : Field := ⟨0x20038, i, 32, 16, 0, .rc⟩
/-- RC, R172 -/
def DP_ERR_COUNT_STALE (i : Nat) : Field := ⟨0x20038, i, 48, 16, 0, .rc⟩

/-! #### Chapter 05, ingest -/

/-- RWS, R199 -/
def ING_CFG_SWEEP_MS : Field := ⟨0x30000, 0, 0, 16, 1000, .rws⟩
/-- RWS, R199 -/
def ING_CFG_SBY_TICKS : Field := ⟨0x30000, 0, 16, 8, 64, .rws⟩
/-- RWS, R199 -/
def ING_CFG_LEARN_EN : Field := ⟨0x30000, 0, 24, 1, 1, .rws⟩

/-- RWS, R199 -/
def ING_CLASS_MAP_SAMPLE : Field := ⟨0x30008, 0, 0, 8, 1, .rws⟩
/-- RWS, R199 -/
def ING_CLASS_MAP_TRACE : Field := ⟨0x30008, 0, 8, 8, 2, .rws⟩
/-- RWS, R199 -/
def ING_CLASS_MAP_FT : Field := ⟨0x30008, 0, 16, 8, 3, .rws⟩
/-- RWS, R199 -/
def ING_CLASS_MAP_TILE : Field := ⟨0x30008, 0, 24, 8, 4, .rws⟩

/-- RO, R199 -/
def ING_STATUS_ENTRIES : Field := ⟨0x30010, 0, 0, 17, 0, .ro⟩
/-- RO, R199 -/
def ING_STATUS_OVF_USED : Field := ⟨0x30010, 0, 17, 11, 0, .ro⟩
/-- RO, R199 -/
def ING_STATUS_SWEEPS : Field := ⟨0x30010, 0, 32, 32, 0, .ro⟩

/-- W1C, R199 -/
def ING_EVENT_VIOL : Field := ⟨0x30018, 0, 0, 1, 0, .w1c⟩
/-- W1C, R199 -/
def ING_EVENT_UID_UNBOUND : Field := ⟨0x30018, 0, 1, 1, 0, .w1c⟩
/-- W1C, R199 -/
def ING_EVENT_UID_FOREIGN : Field := ⟨0x30018, 0, 2, 1, 0, .w1c⟩
/-- W1C, R199 -/
def ING_EVENT_MISBOUND : Field := ⟨0x30018, 0, 3, 1, 0, .w1c⟩
/-- W1C, R199 -/
def ING_EVENT_CRC_BAD : Field := ⟨0x30018, 0, 4, 1, 0, .w1c⟩
/-- W1C, R199 -/
def ING_EVENT_RING_FULL : Field := ⟨0x30018, 0, 5, 1, 0, .w1c⟩
/-- W1C, R199 -/
def ING_EVENT_FIFO_FULL : Field := ⟨0x30018, 0, 6, 1, 0, .w1c⟩
/-- W1C, R199 -/
def ING_EVENT_STATIC_MISMATCH : Field := ⟨0x30018, 0, 7, 1, 0, .w1c⟩
/-- W1C, R199 -/
def ING_EVENT_UID_DUP : Field := ⟨0x30018, 0, 8, 1, 0, .w1c⟩
/-- W1C, R199 -/
def ING_EVENT_MOVED : Field := ⟨0x30018, 0, 9, 1, 0, .w1c⟩
/-- W1C, R199 -/
def ING_EVENT_LEARN_FULL : Field := ⟨0x30018, 0, 10, 1, 0, .w1c⟩
/-- W1C, R199 -/
def ING_EVENT_ORDER : Field := ⟨0x30018, 0, 11, 1, 0, .w1c⟩
/-- W1C, R199 -/
def ING_EVENT_PROMOTED : Field := ⟨0x30018, 0, 12, 1, 0, .w1c⟩
/-- W1C, R199 -/
def ING_EVENT_NO_ENTRY : Field := ⟨0x30018, 0, 13, 1, 0, .w1c⟩

/-- RC, R199 -/
def ING_ERR_COUNT_VIOL : Field := ⟨0x30020, 0, 0, 16, 0, .rc⟩
/-- RC, R199 -/
def ING_ERR_COUNT_DUP : Field := ⟨0x30020, 0, 16, 16, 0, .rc⟩
/-- RC, R199 -/
def ING_ERR_COUNT_REFUSED : Field := ⟨0x30020, 0, 32, 16, 0, .rc⟩
/-- RC, R199 -/
def ING_ERR_COUNT_CRC : Field := ⟨0x30020, 0, 48, 16, 0, .rc⟩

/-- RO, R199 -/
def ING_UID_TRAP_UID : Field := ⟨0x30028, 0, 0, 64, 0, .ro⟩

/-- RO, R199 -/
def ING_UID_TRAP_INFO_PORT : Field := ⟨0x30030, 0, 0, 5, 0, .ro⟩
/-- RO, R199 -/
def ING_UID_TRAP_INFO_REASON : Field := ⟨0x30030, 0, 5, 3, 0, .ro⟩
/-- RO, R199 -/
def ING_UID_TRAP_INFO_VALID : Field := ⟨0x30030, 0, 8, 1, 0, .ro⟩

/-- WO, R199 -/
def ING_ST_CMD_OP : Field := ⟨0x30040, 0, 0, 3, 0, .wo⟩
/-- WO, R199 -/
def ING_ST_CMD_LOC : Field := ⟨0x30040, 0, 16, 17, 0, .wo⟩

/-- RO, R199 -/
def ING_ST_RESULT_DONE : Field := ⟨0x30048, 0, 0, 1, 0, .ro⟩
/-- RO, R199 -/
def ING_ST_RESULT_FOUND : Field := ⟨0x30048, 0, 1, 1, 0, .ro⟩
/-- RO, R199 -/
def ING_ST_RESULT_REFUSED : Field := ⟨0x30048, 0, 2, 1, 0, .ro⟩
/-- RO, R199 -/
def ING_ST_RESULT_LOC : Field := ⟨0x30048, 0, 16, 17, 0, .ro⟩

/-- RW, R199 -/
def ING_ST_DATA0_UID : Field := ⟨0x30050, 0, 0, 64, 0, .rw⟩

/-- RW, R199 -/
def ING_ST_DATA1_CLASS : Field := ⟨0x30058, 0, 0, 8, 0, .rw⟩
/-- RO, R199 -/
def ING_ST_DATA1_VALID : Field := ⟨0x30058, 0, 8, 1, 0, .ro⟩
/-- RO, R199 -/
def ING_ST_DATA1_STATIC : Field := ⟨0x30058, 0, 9, 1, 0, .ro⟩
/-- RO, R199 -/
def ING_ST_DATA1_HIT : Field := ⟨0x30058, 0, 10, 1, 0, .ro⟩
/-- RO, R199 -/
def ING_ST_DATA1_AGED : Field := ⟨0x30058, 0, 11, 1, 0, .ro⟩
/-- RW, R199 -/
def ING_ST_DATA1_PORT : Field := ⟨0x30058, 0, 12, 5, 0, .rw⟩
/-- RW, R199 -/
def ING_ST_DATA1_FLEET_DIE : Field := ⟨0x30058, 0, 17, 17, 0, .rw⟩
/-- RW, R199 -/
def ING_ST_DATA1_PADDOCK : Field := ⟨0x30058, 0, 34, 6, 0, .rw⟩
/-- RO, R199 -/
def ING_ST_DATA1_LOCAL_ONLY : Field := ⟨0x30058, 0, 40, 1, 0, .ro⟩
/-- RW, R199 -/
def ING_ST_DATA1_RING : Field := ⟨0x30058, 0, 41, 16, 0, .rw⟩

/-- RO, R199 -/
def ING_PORT_STATUS_LEVEL (i : Nat) : Field := ⟨0x30100, i, 0, 11, 0, .ro⟩
/-- RO, R199 -/
def ING_PORT_STATUS_RECORDS (i : Nat) : Field := ⟨0x30100, i, 32, 32, 0, .ro⟩

/-- RO, R199 -/
def ING_DIE_STATUS_ROLE (i : Nat) : Field := ⟨0x30200, i, 0, 2, 0, .ro⟩
/-- RO, R199 -/
def ING_DIE_STATUS_PORT (i : Nat) : Field := ⟨0x30200, i, 2, 5, 31, .ro⟩
/-- RO, R199 -/
def ING_DIE_STATUS_GAPS (i : Nat) : Field := ⟨0x30200, i, 16, 16, 0, .ro⟩

/-- RO, R199 -/
def ING_DIE_TICK_TICK (i : Nat) : Field := ⟨0x30208, i, 0, 64, 0, .ro⟩

/-- RO, R199 -/
def ING_DIE_SEQ_CAPTURE (i : Nat) : Field := ⟨0x30210, i, 0, 32, 0, .ro⟩
/-- RO, R199 -/
def ING_DIE_SEQ_BLOCK (i : Nat) : Field := ⟨0x30210, i, 32, 32, 0, .ro⟩

/-! #### Chapter 06, Shed -/

/-- RWS, R240 -/
def SHED_CFG_STACK_OUT : Field := ⟨0x40000, 0, 0, 3, 7, .rws⟩
/-- RWS, R240 -/
def SHED_CFG_SCRUB_H : Field := ⟨0x40000, 0, 8, 8, 24, .rws⟩
/-- RWS, R240 -/
def SHED_CFG_CE_LIMIT : Field := ⟨0x40000, 0, 16, 16, 1000, .rws⟩
/-- RWS, R240 -/
def SHED_CFG_UE_LIMIT : Field := ⟨0x40000, 0, 32, 8, 4, .rws⟩

/-- RO, R240 -/
def SHED_STATUS_STACKS : Field := ⟨0x40008, 0, 0, 3, 6, .ro⟩
/-- RO, R240 -/
def SHED_STATUS_OUT : Field := ⟨0x40008, 0, 3, 3, 7, .ro⟩
/-- RO, R240 -/
def SHED_STATUS_SIZE_GIB : Field := ⟨0x40008, 0, 6, 10, 288, .ro⟩
/-- RO, R240 -/
def SHED_STATUS_SCRUB_PASSES : Field := ⟨0x40008, 0, 16, 32, 0, .ro⟩

/-- W1C, R240 -/
def SHED_EVENT_CE_HIGH : Field := ⟨0x40010, 0, 0, 1, 0, .w1c⟩
/-- W1C, R240 -/
def SHED_EVENT_UE : Field := ⟨0x40010, 0, 1, 1, 0, .w1c⟩
/-- W1C, R240 -/
def SHED_EVENT_REPAIRED : Field := ⟨0x40010, 0, 2, 1, 0, .w1c⟩
/-- W1C, R240 -/
def SHED_EVENT_STACK_FAIL : Field := ⟨0x40010, 0, 3, 1, 0, .w1c⟩
/-- W1C, R240 -/
def SHED_EVENT_TXN_WAIT : Field := ⟨0x40010, 0, 4, 1, 0, .w1c⟩
/-- W1C, R240 -/
def SHED_EVENT_ARCH_EVICT : Field := ⟨0x40010, 0, 5, 1, 0, .w1c⟩
/-- W1C, R240 -/
def SHED_EVENT_DZ_ERR : Field := ⟨0x40010, 0, 6, 1, 0, .w1c⟩

/-- RC, R240 -/
def SHED_ECC_COUNT_CORR : Field := ⟨0x40018, 0, 0, 32, 0, .rc⟩
/-- RC, R240 -/
def SHED_ECC_COUNT_UNCORR : Field := ⟨0x40018, 0, 32, 16, 0, .rc⟩
/-- RC, R240 -/
def SHED_ECC_COUNT_REPAIRED : Field := ⟨0x40018, 0, 48, 16, 0, .rc⟩

/-- RO, R240 -/
def SHED_ECC_FIRST_ADDR : Field := ⟨0x40020, 0, 0, 39, 0, .ro⟩
/-- RO, R240 -/
def SHED_ECC_FIRST_STACK : Field := ⟨0x40020, 0, 39, 3, 0, .ro⟩
/-- RO, R240 -/
def SHED_ECC_FIRST_UNCORR : Field := ⟨0x40020, 0, 42, 1, 0, .ro⟩
/-- RO, R240 -/
def SHED_ECC_FIRST_VALID : Field := ⟨0x40020, 0, 43, 1, 0, .ro⟩

/-- RO, R240 -/
def SHED_TXN_LVL (j : Nat) : Field := ⟨0x40028, 0, (10 * j), 10, 0, .ro⟩

/-- RW, R240 -/
def SHED_RING_SEL_INDEX : Field := ⟨0x40040, 0, 0, 16, 0, .rw⟩

/-- RWS, R240 -/
def SHED_RING_CFG_BASE_4K (i : Nat) : Field := ⟨0x40048, i, 0, 27, 0, .rws⟩
/-- RWS, R240 -/
def SHED_RING_CFG_SIZE_4K (i : Nat) : Field := ⟨0x40048, i, 27, 27, 0, .rws⟩
/-- RWS, R240 -/
def SHED_RING_CFG_EN (i : Nat) : Field := ⟨0x40048, i, 54, 1, 0, .rws⟩

/-- RO, R240 -/
def SHED_RING_STATUS_WRITE_SEQ (i : Nat) : Field := ⟨0x40050, i, 0, 32, 0, .ro⟩
/-- RO, R240 -/
def SHED_RING_STATUS_MIRROR_SEQ (i : Nat) : Field := ⟨0x40050, i, 32, 32, 0, .ro⟩

/-- RO, R240 -/
def SHED_RING_CONS_ATTACHED (i : Nat) : Field := ⟨0x40058, i, 0, 8, 0, .ro⟩
/-- RO, R240 -/
def SHED_RING_CONS_MODE (i : Nat) : Field := ⟨0x40058, i, 8, 2, 0, .ro⟩
/-- RO, R240 -/
def SHED_RING_CONS_LOCAL_ONLY (i : Nat) : Field := ⟨0x40058, i, 10, 1, 0, .ro⟩
/-- RO, R240 -/
def SHED_RING_CONS_FREE_4K (i : Nat) : Field := ⟨0x40058, i, 11, 27, 0, .ro⟩

/-- RWS, R240 -/
def SHED_MIR_CFG_EN : Field := ⟨0x40080, 0, 0, 1, 0, .rws⟩
/-- RWS, R240 -/
def SHED_MIR_CFG_PARTNER : Field := ⟨0x40080, 0, 1, 14, 0, .rws⟩
/-- RWS, R240 -/
def SHED_MIR_CFG_PARTNER_TAG : Field := ⟨0x40080, 0, 15, 16, 0, .rws⟩
/-- RWS, R240 -/
def SHED_MIR_CFG_OWN_TAG : Field := ⟨0x40080, 0, 31, 16, 0, .rws⟩
/-- RWS, R240 -/
def SHED_MIR_CFG_LIMIT_GBPS : Field := ⟨0x40080, 0, 47, 10, 1000, .rws⟩

/-- RWS, R240 -/
def SHED_MIR_SRC_SRC0 : Field := ⟨0x40088, 0, 0, 14, 0, .rws⟩
/-- RWS, R240 -/
def SHED_MIR_SRC_SRC0_EN : Field := ⟨0x40088, 0, 14, 1, 0, .rws⟩
/-- RWS, R240 -/
def SHED_MIR_SRC_SRC1 : Field := ⟨0x40088, 0, 16, 14, 0, .rws⟩
/-- RWS, R240 -/
def SHED_MIR_SRC_SRC1_EN : Field := ⟨0x40088, 0, 30, 1, 0, .rws⟩

/-- RWS, R240 -/
def SHED_MIR_TIMING_RTO_US : Field := ⟨0x40090, 0, 0, 16, 200, .rws⟩
/-- RWS, R240 -/
def SHED_MIR_TIMING_TAIL_MAX_MIB : Field := ⟨0x40090, 0, 16, 16, 64, .rws⟩

/-- RO, R240 -/
def SHED_MIR_STATUS_STATE : Field := ⟨0x40098, 0, 0, 3, 0, .ro⟩
/-- RO, R240 -/
def SHED_MIR_STATUS_TAIL_KIB : Field := ⟨0x40098, 0, 3, 29, 0, .ro⟩
/-- RO, R240 -/
def SHED_MIR_STATUS_RATE_GBPS : Field := ⟨0x40098, 0, 32, 12, 0, .ro⟩
/-- RO, R240 -/
def SHED_MIR_STATUS_LO_COUNT : Field := ⟨0x40098, 0, 44, 9, 0, .ro⟩

/-- W1C, R240 -/
def SHED_MIR_EVENT_REFUSED : Field := ⟨0x400A0, 0, 0, 1, 0, .w1c⟩
/-- W1C, R240 -/
def SHED_MIR_EVENT_STALLED : Field := ⟨0x400A0, 0, 1, 1, 0, .w1c⟩
/-- W1C, R240 -/
def SHED_MIR_EVENT_FENCED : Field := ⟨0x400A0, 0, 2, 1, 0, .w1c⟩
/-- W1C, R240 -/
def SHED_MIR_EVENT_LOCAL_ONLY : Field := ⟨0x400A0, 0, 3, 1, 0, .w1c⟩
/-- W1C, R240 -/
def SHED_MIR_EVENT_MIRROR_OVER : Field := ⟨0x400A0, 0, 4, 1, 0, .w1c⟩
/-- W1C, R240 -/
def SHED_MIR_EVENT_TAIL_FULL : Field := ⟨0x400A0, 0, 5, 1, 0, .w1c⟩
/-- W1C, R240 -/
def SHED_MIR_EVENT_VIOL : Field := ⟨0x400A0, 0, 6, 1, 0, .w1c⟩
/-- W1C, R240 -/
def SHED_MIR_EVENT_COPY_OVERWRITE : Field := ⟨0x400A0, 0, 7, 1, 0, .w1c⟩
/-- W1C, R240 -/
def SHED_MIR_EVENT_FENCE_GIVEN : Field := ⟨0x400A0, 0, 8, 1, 0, .w1c⟩

/-- RWS, R240 -/
def SHED_ARCH_CFG_SEG_RAW_KIB : Field := ⟨0x400C0, 0, 0, 13, 1024, .rws⟩
/-- RWS, R240 -/
def SHED_ARCH_CFG_SEG_BUF_KIB : Field := ⟨0x400C0, 0, 13, 13, 256, .rws⟩
/-- RWS, R240 -/
def SHED_ARCH_CFG_SEG_AGE_MS : Field := ⟨0x400C0, 0, 26, 16, 100, .rws⟩
/-- RWS, R240 -/
def SHED_ARCH_CFG_TABLES : Field := ⟨0x400C0, 0, 42, 2, 2, .rws⟩
/-- RWS, R240 -/
def SHED_ARCH_CFG_EN : Field := ⟨0x400C0, 0, 44, 1, 1, .rws⟩
/-- RWS, R240 -/
def SHED_ARCH_CFG_POOL_MIB : Field := ⟨0x400C0, 0, 45, 16, 1024, .rws⟩

/-- RO, R240 -/
def SHED_ARCH_STATUS_SEG_SEQ : Field := ⟨0x400C8, 0, 0, 32, 0, .ro⟩
/-- RO, R240 -/
def SHED_ARCH_STATUS_EVICT_EARLY : Field := ⟨0x400C8, 0, 32, 16, 0, .ro⟩
/-- RO, R240 -/
def SHED_ARCH_STATUS_POOL_FREE : Field := ⟨0x400C8, 0, 48, 16, 16384, .ro⟩

/-- RW, R240 -/
def SHED_DZ_SRC_ADDR : Field := ⟨0x400D0, 0, 0, 39, 0, .rw⟩

/-- RW, R240 -/
def SHED_DZ_DST_ADDR : Field := ⟨0x400D8, 0, 0, 39, 0, .rw⟩

/-- WO, R240 -/
def SHED_DZ_CTRL_GO : Field := ⟨0x400E0, 0, 0, 1, 0, .wo⟩

/-- RO, R240 -/
def SHED_DZ_STATUS_BUSY : Field := ⟨0x400E8, 0, 0, 1, 0, .ro⟩
/-- RO, R240 -/
def SHED_DZ_STATUS_DONE : Field := ⟨0x400E8, 0, 1, 1, 0, .ro⟩
/-- RO, R240 -/
def SHED_DZ_STATUS_ERR : Field := ⟨0x400E8, 0, 2, 5, 0, .ro⟩
/-- RO, R240 -/
def SHED_DZ_STATUS_OUT_LEN : Field := ⟨0x400E8, 0, 7, 25, 0, .ro⟩
/-- RO, R240 -/
def SHED_DZ_STATUS_ERR_OFFSET : Field := ⟨0x400E8, 0, 32, 32, 0, .ro⟩

/-- RWS, R240 -/
def SHED_REGION_KIND (i : Nat) : Field := ⟨0x40100, i, 0, 4, 0, .rws⟩
/-- RWS, R240 -/
def SHED_REGION_BASE_256M (i : Nat) : Field := ⟨0x40100, i, 4, 12, 0, .rws⟩
/-- RWS, R240 -/
def SHED_REGION_SIZE_256M (i : Nat) : Field := ⟨0x40100, i, 16, 12, 0, .rws⟩

/-- RWS, R240 -/
def SHED_LO_RANK_RANK (i j : Nat) : Field := ⟨0x40140, i, (4 * j), 4, (if i = 0 then 0x0000000000020300 / 16 ^ j % 16 else 0), .rws⟩

/-- RO, R240 -/
def SHED_LO_STATE_LO (i : Nat) : Field := ⟨0x401C0, i, 0, 64, 0, .ro⟩

/-- RWS, R240 -/
def SHED_ARCH_CLASS_ARCH (i : Nat) : Field := ⟨0x401E0, i, 0, 64, (if i = 0 then 0xA else 0), .rws⟩

/-- RO, R240 -/
def SHED_JRN_NEXT_OP : Field := ⟨0x40200, 0, 0, 64, 0, .ro⟩

/-- RO, R240 -/
def SHED_JRN_STATUS_OPEN : Field := ⟨0x40208, 0, 0, 1, 0, .ro⟩
/-- RO, R240 -/
def SHED_JRN_STATUS_BEGUN : Field := ⟨0x40208, 0, 1, 16, 0, .ro⟩
/-- RO, R240 -/
def SHED_JRN_STATUS_WAIT_MIRROR : Field := ⟨0x40208, 0, 17, 15, 0, .ro⟩

/-- WO, R240 -/
def SHED_JQ_CTRL_GO : Field := ⟨0x40210, 0, 0, 1, 0, .wo⟩
/-- WO, R240 -/
def SHED_JQ_CTRL_FENCE : Field := ⟨0x40210, 0, 1, 1, 0, .wo⟩
/-- WO, R240 -/
def SHED_JQ_CTRL_MODE : Field := ⟨0x40210, 0, 2, 1, 0, .wo⟩
/-- WO, R240 -/
def SHED_JQ_CTRL_COUNT : Field := ⟨0x40210, 0, 3, 11, 0, .wo⟩
/-- WO, R240 -/
def SHED_JQ_CTRL_SUBJECT : Field := ⟨0x40210, 0, 16, 14, 0, .wo⟩
/-- WO, R240 -/
def SHED_JQ_CTRL_TARGET : Field := ⟨0x40210, 0, 32, 14, 0, .wo⟩

/-- RW, R240 -/
def SHED_JQ_FIRST_OP : Field := ⟨0x40218, 0, 0, 64, 0, .rw⟩

/-- RO, R240 -/
def SHED_JQ_STATUS_DONE : Field := ⟨0x40220, 0, 0, 1, 0, .ro⟩
/-- RO, R240 -/
def SHED_JQ_STATUS_RESULT : Field := ⟨0x40220, 0, 1, 4, 0, .ro⟩
/-- RO, R240 -/
def SHED_JQ_STATUS_N : Field := ⟨0x40220, 0, 5, 11, 0, .ro⟩

/-- RO, R240 -/
def SHED_JQ_COVERED_OP : Field := ⟨0x40228, 0, 0, 64, 0, .ro⟩

/-- RO, R240 -/
def SHED_JQ_HELD_OP : Field := ⟨0x40230, 0, 0, 64, 0, .ro⟩

/-- RO, R240 -/
def SHED_JQ_RESULT_DATA (i : Nat) : Field := ⟨0x40400, i, 0, 64, 0, .ro⟩

/-! #### Chapter 07, tallies -/

/-- RWS, R268 -/
def TALLY_CFG_EN : Field := ⟨0x50000, 0, 0, 1, 0, .rws⟩
/-- RWS, R268 -/
def TALLY_CFG_MODE : Field := ⟨0x50000, 0, 1, 2, 0, .rws⟩
/-- RWS, R268 -/
def TALLY_CFG_COMPACT_UP : Field := ⟨0x50000, 0, 3, 1, 1, .rws⟩
/-- RWS, R268 -/
def TALLY_CFG_KEYS : Field := ⟨0x50000, 0, 4, 17, 4096, .rws⟩
/-- RWS, R268 -/
def TALLY_CFG_RESULT_RING : Field := ⟨0x50000, 0, 21, 16, 0, .rws⟩
/-- RWS, R268 -/
def TALLY_CFG_PORTS : Field := ⟨0x50000, 0, 37, 12, 15, .rws⟩
/-- RWS, R268 -/
def TALLY_CFG_RESULT_CLASS : Field := ⟨0x50000, 0, 49, 8, 5, .rws⟩

/-- RWS, R268 -/
def TALLY_ACT_ROUND : Field := ⟨0x50008, 0, 0, 32, 0, .rws⟩
/-- RWS, R268 -/
def TALLY_ACT_IMMEDIATE : Field := ⟨0x50008, 0, 32, 1, 1, .rws⟩

/-- RWS, R268 -/
def TALLY_TIMING_OBS_US : Field := ⟨0x50010, 0, 0, 12, 40, .rws⟩
/-- RWS, R268 -/
def TALLY_TIMING_COVER_WAIT_US : Field := ⟨0x50010, 0, 12, 12, 10, .rws⟩
/-- RWS, R268 -/
def TALLY_TIMING_COUNT_US : Field := ⟨0x50010, 0, 24, 12, 60, .rws⟩
/-- RWS, R268 -/
def TALLY_TIMING_DATA_US : Field := ⟨0x50010, 0, 36, 12, 80, .rws⟩
/-- RWS, R268 -/
def TALLY_TIMING_CLOSE_US : Field := ⟨0x50010, 0, 48, 12, 250, .rws⟩

/-- RWS, R268 -/
def TALLY_TIMING2_RESULT_US : Field := ⟨0x50018, 0, 0, 12, 300, .rws⟩
/-- RWS, R268 -/
def TALLY_TIMING2_RING_START_US : Field := ⟨0x50018, 0, 12, 12, 60, .rws⟩
/-- RWS, R268 -/
def TALLY_TIMING2_STEP_NS : Field := ⟨0x50018, 0, 24, 16, 2500, .rws⟩
/-- RWS, R268 -/
def TALLY_TIMING2_SKIP_GUARD_US : Field := ⟨0x50018, 0, 40, 12, 20, .rws⟩
/-- RWS, R268 -/
def TALLY_TIMING2_ATTEMPT_US : Field := ⟨0x50018, 0, 52, 12, 1400, .rws⟩

/-- RWS, R268 -/
def TALLY_RING_CFG_AGGS : Field := ⟨0x50020, 0, 0, 15, 0, .rws⟩
/-- RWS, R268 -/
def TALLY_RING_CFG_ROW : Field := ⟨0x50020, 0, 16, 8, 128, .rws⟩
/-- RWS, R268 -/
def TALLY_RING_CFG_ATTEMPTS : Field := ⟨0x50020, 0, 24, 4, 2, .rws⟩

/-- RO, R268 -/
def TALLY_STATUS_ROUND : Field := ⟨0x50028, 0, 0, 32, 0, .ro⟩
/-- RO, R268 -/
def TALLY_STATUS_INFLIGHT : Field := ⟨0x50028, 0, 32, 3, 0, .ro⟩
/-- RO, R268 -/
def TALLY_STATUS_MODE : Field := ⟨0x50028, 0, 35, 2, 0, .ro⟩
/-- RO, R268 -/
def TALLY_STATUS_EXCLUDED : Field := ⟨0x50028, 0, 37, 15, 0, .ro⟩

/-- RO, R268 -/
def TALLY_LAST_MEMBERS : Field := ⟨0x50030, 0, 0, 15, 0, .ro⟩
/-- RO, R268 -/
def TALLY_LAST_EXPECTED : Field := ⟨0x50030, 0, 15, 15, 0, .ro⟩
/-- RO, R268 -/
def TALLY_LAST_MISSING : Field := ⟨0x50030, 0, 30, 14, 0, .ro⟩
/-- RO, R268 -/
def TALLY_LAST_MISSING_VALID : Field := ⟨0x50030, 0, 44, 1, 0, .ro⟩
/-- RO, R268 -/
def TALLY_LAST_COMPLETE : Field := ⟨0x50030, 0, 45, 1, 0, .ro⟩
/-- RO, R268 -/
def TALLY_LAST_EXACT : Field := ⟨0x50030, 0, 46, 1, 0, .ro⟩
/-- RO, R268 -/
def TALLY_LAST_ATTEMPT : Field := ⟨0x50030, 0, 47, 4, 0, .ro⟩
/-- RO, R268 -/
def TALLY_LAST_FAILED : Field := ⟨0x50030, 0, 51, 1, 0, .ro⟩

/-- W1C, R268 -/
def TALLY_EVENT_NO_RESULT : Field := ⟨0x50038, 0, 0, 1, 0, .w1c⟩
/-- W1C, R268 -/
def TALLY_EVENT_PARTIAL : Field := ⟨0x50038, 0, 1, 1, 0, .w1c⟩
/-- W1C, R268 -/
def TALLY_EVENT_KEYSET_MISMATCH : Field := ⟨0x50038, 0, 2, 1, 0, .w1c⟩
/-- W1C, R268 -/
def TALLY_EVENT_LATE_POST : Field := ⟨0x50038, 0, 3, 1, 0, .w1c⟩
/-- W1C, R268 -/
def TALLY_EVENT_POST_VIOL : Field := ⟨0x50038, 0, 4, 1, 0, .w1c⟩
/-- W1C, R268 -/
def TALLY_EVENT_COVER_LATE : Field := ⟨0x50038, 0, 5, 1, 0, .w1c⟩
/-- W1C, R268 -/
def TALLY_EVENT_NOT_MIRRORED : Field := ⟨0x50038, 0, 6, 1, 0, .w1c⟩
/-- W1C, R268 -/
def TALLY_EVENT_SKIP_SENT : Field := ⟨0x50038, 0, 7, 1, 0, .w1c⟩
/-- W1C, R268 -/
def TALLY_EVENT_SKIPPED_SELF : Field := ⟨0x50038, 0, 8, 1, 0, .w1c⟩
/-- W1C, R268 -/
def TALLY_EVENT_ROUND_FAILED : Field := ⟨0x50038, 0, 9, 1, 0, .w1c⟩
/-- W1C, R268 -/
def TALLY_EVENT_VIOL : Field := ⟨0x50038, 0, 10, 1, 0, .w1c⟩
/-- W1C, R268 -/
def TALLY_EVENT_STALE : Field := ⟨0x50038, 0, 11, 1, 0, .w1c⟩
/-- W1C, R268 -/
def TALLY_EVENT_ACT_LATE : Field := ⟨0x50038, 0, 12, 1, 0, .w1c⟩

/-- RC, R268 -/
def TALLY_ERR_COUNT_VIOL : Field := ⟨0x50040, 0, 0, 16, 0, .rc⟩
/-- RC, R268 -/
def TALLY_ERR_COUNT_STALE : Field := ⟨0x50040, 0, 16, 16, 0, .rc⟩
/-- RC, R268 -/
def TALLY_ERR_COUNT_LATE_POST : Field := ⟨0x50040, 0, 32, 16, 0, .rc⟩
/-- RC, R268 -/
def TALLY_ERR_COUNT_SKIPS : Field := ⟨0x50040, 0, 48, 16, 0, .rc⟩

/-- RC, R268 -/
def TALLY_POST_COUNT_POSTS : Field := ⟨0x50048, 0, 0, 48, 0, .rc⟩
/-- RC, R268 -/
def TALLY_POST_COUNT_REFUSED : Field := ⟨0x50048, 0, 48, 16, 0, .rc⟩

/-- RW, R268 -/
def TALLY_KEY_SEL_KEY : Field := ⟨0x50050, 0, 0, 16, 0, .rw⟩

/-- RWS, R268 -/
def TALLY_KEY_CFG_OCT (i : Nat) : Field := ⟨0x50058, i, 0, 5, 0, .rws⟩
/-- RWS, R268 -/
def TALLY_KEY_CFG_SCOPE (i : Nat) : Field := ⟨0x50058, i, 5, 1, 0, .rws⟩

/-- RW, R268 -/
def TALLY_EXCL_SEL_INDEX : Field := ⟨0x50060, 0, 0, 8, 0, .rw⟩

/-- RO, R268 -/
def TALLY_EXCL_BITS (i : Nat) : Field := ⟨0x50068, i, 0, 64, 0, .ro⟩

/-! #### Chapter 08, detection -/

/-- RWS, R304 -/
def DET_CFG_EN : Field := ⟨0x60000, 0, 0, 1, 0, .rws⟩
/-- RWS, R304 -/
def DET_CFG_VERDICT_RING : Field := ⟨0x60000, 0, 1, 16, 0, .rws⟩
/-- RWS, R304 -/
def DET_CFG_STATE_RING : Field := ⟨0x60000, 0, 17, 16, 0, .rws⟩
/-- RWS, R304 -/
def DET_CFG_STATE_CLASS : Field := ⟨0x60000, 0, 33, 8, 6, .rws⟩
/-- RWS, R304 -/
def DET_CFG_CKPT_TICKS : Field := ⟨0x60000, 0, 41, 8, 32, .rws⟩
/-- RWS, R304 -/
def DET_CFG_REPEAT_TICKS : Field := ⟨0x60000, 0, 49, 15, 1000, .rws⟩

/-- RWS, R304 -/
def DET_RUN_CFG_RUN_BUDGET_CYC : Field := ⟨0x60008, 0, 0, 24, 0x1D4C0, .rws⟩
/-- RWS, R304 -/
def DET_RUN_CFG_EVID_WAIT_MS : Field := ⟨0x60008, 0, 24, 16, 10, .rws⟩
/-- RWS, R304 -/
def DET_RUN_CFG_VERDICT_CLASS : Field := ⟨0x60008, 0, 40, 8, 7, .rws⟩

/-- RWS, R304 -/
def DET_STRAG_CFG_LOCAL_PCT : Field := ⟨0x60010, 0, 0, 7, 80, .rws⟩
/-- RWS, R304 -/
def DET_STRAG_CFG_LOCAL_TICKS : Field := ⟨0x60010, 0, 8, 8, 3, .rws⟩
/-- RWS, R304 -/
def DET_STRAG_CFG_FLEET_Q : Field := ⟨0x60010, 0, 16, 16, 64, .rws⟩
/-- RWS, R304 -/
def DET_STRAG_CFG_FLEET_PCT : Field := ⟨0x60010, 0, 32, 7, 80, .rws⟩
/-- RWS, R304 -/
def DET_STRAG_CFG_FLEET_ROUNDS : Field := ⟨0x60010, 0, 40, 8, 3, .rws⟩
/-- RWS, R304 -/
def DET_STRAG_CFG_PROG_KEY : Field := ⟨0x60010, 0, 48, 16, 0, .rws⟩

/-- RWS, R304 -/
def DET_CAUSE_CFG_CORE_MHZ : Field := ⟨0x60018, 0, 0, 16, 0, .rws⟩
/-- RWS, R304 -/
def DET_CAUSE_CFG_THR_PCT : Field := ⟨0x60018, 0, 16, 7, 90, .rws⟩
/-- RWS, R304 -/
def DET_CAUSE_CFG_MEM_PCT : Field := ⟨0x60018, 0, 24, 7, 40, .rws⟩
/-- RWS, R304 -/
def DET_CAUSE_CFG_FT_MIN : Field := ⟨0x60018, 0, 32, 8, 1, .rws⟩

/-- RWS, R304 -/
def DET_HURDLE_CFG_KINDS : Field := ⟨0x60020, 0, 0, 16, 4, .rws⟩
/-- RWS, R304 -/
def DET_HURDLE_CFG_SEV : Field := ⟨0x60020, 0, 16, 8, 64, .rws⟩
/-- RWS, R304 -/
def DET_HURDLE_CFG_EXCL_CAUSE : Field := ⟨0x60020, 0, 24, 8, 11, .rws⟩
/-- RWS, R304 -/
def DET_HURDLE_CFG_MAX : Field := ⟨0x60020, 0, 32, 8, 4, .rws⟩
/-- RWS, R304 -/
def DET_HURDLE_CFG_WIN_S : Field := ⟨0x60020, 0, 40, 16, 600, .rws⟩
/-- RWS, R304 -/
def DET_HURDLE_CFG_ANS_MS : Field := ⟨0x60020, 0, 56, 8, 200, .rws⟩

/-- RW, R304 -/
def DET_NQ_BASE_ADDR : Field := ⟨0x60028, 0, 12, 52, 0, .rw⟩

/-- RW, R304 -/
def DET_NQ_CFG_EN : Field := ⟨0x60030, 0, 0, 1, 0, .rw⟩
/-- RW, R304 -/
def DET_NQ_CFG_SIZE_LOG2 : Field := ⟨0x60030, 0, 1, 5, 10, .rw⟩
/-- RW, R304 -/
def DET_NQ_CFG_VECTOR : Field := ⟨0x60030, 0, 6, 6, 0, .rw⟩
/-- RW, R304 -/
def DET_NQ_CFG_COAL_US : Field := ⟨0x60030, 0, 12, 12, 10, .rw⟩

/-- RO, R304 -/
def DET_NQ_TAIL_INDEX : Field := ⟨0x60038, 0, 0, 32, 0, .ro⟩

/-- RW, R304 -/
def DET_NQ_HEAD_INDEX : Field := ⟨0x60040, 0, 0, 32, 0, .rw⟩

/-- RO, R304 -/
def DET_STATUS_RUNS : Field := ⟨0x60048, 0, 0, 11, 0, .ro⟩
/-- RO, R304 -/
def DET_STATUS_PENDING : Field := ⟨0x60048, 0, 12, 12, 0, .ro⟩
/-- RO, R304 -/
def DET_STATUS_HELD : Field := ⟨0x60048, 0, 24, 12, 0, .ro⟩

/-- W1C, R304 -/
def DET_EVENT_OVERRUN : Field := ⟨0x60050, 0, 0, 1, 0, .w1c⟩
/-- W1C, R304 -/
def DET_EVENT_SKIPPED : Field := ⟨0x60050, 0, 1, 1, 0, .w1c⟩
/-- W1C, R304 -/
def DET_EVENT_EMIT_CUT : Field := ⟨0x60050, 0, 2, 1, 0, .w1c⟩
/-- W1C, R304 -/
def DET_EVENT_EVID_WAIT : Field := ⟨0x60050, 0, 3, 1, 0, .w1c⟩
/-- W1C, R304 -/
def DET_EVENT_NQ_FULL : Field := ⟨0x60050, 0, 4, 1, 0, .w1c⟩
/-- W1C, R304 -/
def DET_EVENT_VERDICT_RING_FULL : Field := ⟨0x60050, 0, 5, 1, 0, .w1c⟩
/-- W1C, R304 -/
def DET_EVENT_RESTORE_COLD : Field := ⟨0x60050, 0, 6, 1, 0, .w1c⟩
/-- W1C, R304 -/
def DET_EVENT_HURDLE_THROTTLED : Field := ⟨0x60050, 0, 7, 1, 0, .w1c⟩
/-- W1C, R304 -/
def DET_EVENT_HURDLE_UNANSWERED : Field := ⟨0x60050, 0, 8, 1, 0, .w1c⟩
/-- W1C, R304 -/
def DET_EVENT_SUB_UNACKED : Field := ⟨0x60050, 0, 9, 1, 0, .w1c⟩
/-- W1C, R304 -/
def DET_EVENT_PROG_REFUSED : Field := ⟨0x60050, 0, 10, 1, 0, .w1c⟩

/-- RC, R304 -/
def DET_ERR_COUNT_OVERRUN : Field := ⟨0x60058, 0, 0, 16, 0, .rc⟩
/-- RC, R304 -/
def DET_ERR_COUNT_SKIPPED : Field := ⟨0x60058, 0, 16, 16, 0, .rc⟩
/-- RC, R304 -/
def DET_ERR_COUNT_EMIT_CUT : Field := ⟨0x60058, 0, 32, 16, 0, .rc⟩
/-- RC, R304 -/
def DET_ERR_COUNT_VERDICTS_LOST : Field := ⟨0x60058, 0, 48, 16, 0, .rc⟩

/-- WO, R304 -/
def DET_HURDLE_CTRL_SLOT : Field := ⟨0x60060, 0, 0, 4, 0, .wo⟩
/-- WO, R304 -/
def DET_HURDLE_CTRL_OP : Field := ⟨0x60060, 0, 4, 3, 0, .wo⟩

/-- RWS, R304 -/
def DET_DIE_CFG_EN (i : Nat) : Field := ⟨0x60100, i, 0, 1, 1, .rws⟩
/-- RWS, R304 -/
def DET_DIE_CFG_HOME (i : Nat) : Field := ⟨0x60100, i, 1, 5, (2 * i), .rws⟩

/-- RO, R304 -/
def DET_DIE_STATUS_STATE (i : Nat) : Field := ⟨0x60180, i, 0, 2, 0, .ro⟩
/-- RO, R304 -/
def DET_DIE_STATUS_HURDLE (i : Nat) : Field := ⟨0x60180, i, 2, 3, 0, .ro⟩
/-- RO, R304 -/
def DET_DIE_STATUS_LOCAL_RUN (i : Nat) : Field := ⟨0x60180, i, 5, 8, 0, .ro⟩
/-- RO, R304 -/
def DET_DIE_STATUS_FLEET_RUN (i : Nat) : Field := ⟨0x60180, i, 13, 8, 0, .ro⟩
/-- RO, R304 -/
def DET_DIE_STATUS_SKIPS (i : Nat) : Field := ⟨0x60180, i, 21, 11, 0, .ro⟩
/-- RO, R304 -/
def DET_DIE_STATUS_LAST_TICK (i : Nat) : Field := ⟨0x60180, i, 32, 32, 0, .ro⟩

/-- RWS, R304 -/
def DET_PAD_PROG_ADDR_4K (i : Nat) : Field := ⟨0x60200, i, 0, 27, 0, .rws⟩
/-- RWS, R304 -/
def DET_PAD_PROG_EN (i : Nat) : Field := ⟨0x60200, i, 27, 1, 0, .rws⟩
/-- RWS, R304 -/
def DET_PAD_PROG_PROG_CRC (i : Nat) : Field := ⟨0x60200, i, 32, 32, 0, .rws⟩

/-- RWS, R304 -/
def DET_PAD_KEYS_KEY_LO (i : Nat) : Field := ⟨0x60400, i, 0, 16, 0, .rws⟩
/-- RWS, R304 -/
def DET_PAD_KEYS_KEY_HI (i : Nat) : Field := ⟨0x60400, i, 16, 16, 65535, .rws⟩

/-- RWS, R304 -/
def DET_CLUSTER_PAD (i : Nat) : Field := ⟨0x60600, i, 0, 6, 0, .rws⟩

/-- RWS, R304 -/
def DET_SUB_AGG (i : Nat) : Field := ⟨0x60700, i, 0, 14, 0, .rws⟩
/-- RWS, R304 -/
def DET_SUB_EN (i : Nat) : Field := ⟨0x60700, i, 14, 1, 0, .rws⟩
/-- RWS, R304 -/
def DET_SUB_HURDLE (i : Nat) : Field := ⟨0x60700, i, 15, 1, 0, .rws⟩
/-- RWS, R304 -/
def DET_SUB_PAD_LO (i : Nat) : Field := ⟨0x60700, i, 16, 6, 0, .rws⟩
/-- RWS, R304 -/
def DET_SUB_PAD_HI (i : Nat) : Field := ⟨0x60700, i, 24, 6, 63, .rws⟩
/-- RWS, R304 -/
def DET_SUB_NOTICE_RTO_US (i : Nat) : Field := ⟨0x60700, i, 32, 16, 100, .rws⟩

/-! #### Chapter 09, Hedge engine -/

/-- RWS, R322 -/
def HDG_CFG_EN : Field := ⟨0x70000, 0, 0, 1, 0, .rws⟩
/-- RWS, R322 -/
def HDG_CFG_RETAIN_TICKS : Field := ⟨0x70000, 0, 8, 16, 64, .rws⟩

/-- RO, R322 -/
def HDG_STATUS_QUEUE : Field := ⟨0x70008, 0, 0, 11, 0, .ro⟩
/-- RO, R322 -/
def HDG_STATUS_BUSY : Field := ⟨0x70008, 0, 11, 1, 0, .ro⟩
/-- RO, R322 -/
def HDG_STATUS_FREE_4K : Field := ⟨0x70008, 0, 16, 8, 192, .ro⟩
/-- RO, R322 -/
def HDG_STATUS_ACTIVE_SLOTS : Field := ⟨0x70008, 0, 32, 5, 0, .ro⟩

/-- W1C, R322 -/
def HDG_EVENT_LOAD_REFUSED : Field := ⟨0x70010, 0, 0, 1, 0, .w1c⟩
/-- W1C, R322 -/
def HDG_EVENT_SWAP_LATE : Field := ⟨0x70010, 0, 1, 1, 0, .w1c⟩
/-- W1C, R322 -/
def HDG_EVENT_SWAP_BUSY : Field := ⟨0x70010, 0, 2, 1, 0, .w1c⟩
/-- W1C, R322 -/
def HDG_EVENT_NO_SPACE : Field := ⟨0x70010, 0, 3, 1, 0, .w1c⟩
/-- W1C, R322 -/
def HDG_EVENT_SRAM_CE : Field := ⟨0x70010, 0, 4, 1, 0, .w1c⟩
/-- W1C, R322 -/
def HDG_EVENT_SRAM_UE : Field := ⟨0x70010, 0, 5, 1, 0, .w1c⟩
/-- W1C, R322 -/
def HDG_EVENT_RELOADED : Field := ⟨0x70010, 0, 6, 1, 0, .w1c⟩
/-- W1C, R322 -/
def HDG_EVENT_MISSING_REQ : Field := ⟨0x70010, 0, 7, 1, 0, .w1c⟩

/-- RC, R322 -/
def HDG_ERR_COUNT_MISSING : Field := ⟨0x70018, 0, 0, 16, 0, .rc⟩
/-- RC, R322 -/
def HDG_ERR_COUNT_CE : Field := ⟨0x70018, 0, 16, 16, 0, .rc⟩
/-- RC, R322 -/
def HDG_ERR_COUNT_UE : Field := ⟨0x70018, 0, 32, 16, 0, .rc⟩
/-- RC, R322 -/
def HDG_ERR_COUNT_REFUSED : Field := ⟨0x70018, 0, 48, 16, 0, .rc⟩

/-- RC, R322 -/
def HDG_EVAL_COUNT_TREES : Field := ⟨0x70020, 0, 0, 64, 0, .rc⟩

/-- RC, R322 -/
def HDG_REQ_COUNT_REQUESTS : Field := ⟨0x70028, 0, 0, 48, 0, .rc⟩

/-- RWS, R322 -/
def HDG_SLOT_PKG_ADDR_4K (i : Nat) : Field := ⟨0x70100, i, 0, 27, 0, .rws⟩
/-- RWS, R322 -/
def HDG_SLOT_PKG_EN (i : Nat) : Field := ⟨0x70100, i, 27, 1, 0, .rws⟩
/-- RWS, R322 -/
def HDG_SLOT_PKG_PKG_CRC (i : Nat) : Field := ⟨0x70100, i, 32, 32, 0, .rws⟩

/-- RWS, R322 -/
def HDG_SLOT_ACT_ACT_TICK (i : Nat) : Field := ⟨0x70108, i, 0, 64, 0, .rws⟩

/-- RO, R322 -/
def HDG_SLOT_STATUS_STATE (i : Nat) : Field := ⟨0x70110, i, 0, 3, 0, .ro⟩
/-- RO, R322 -/
def HDG_SLOT_STATUS_DEPTH (i : Nat) : Field := ⟨0x70110, i, 3, 4, 0, .ro⟩
/-- RO, R322 -/
def HDG_SLOT_STATUS_LEAF_FMT (i : Nat) : Field := ⟨0x70110, i, 7, 1, 0, .ro⟩
/-- RO, R322 -/
def HDG_SLOT_STATUS_LINK (i : Nat) : Field := ⟨0x70110, i, 8, 1, 0, .ro⟩
/-- RO, R322 -/
def HDG_SLOT_STATUS_NTREES (i : Nat) : Field := ⟨0x70110, i, 9, 17, 0, .ro⟩
/-- RO, R322 -/
def HDG_SLOT_STATUS_OFF_4K (i : Nat) : Field := ⟨0x70110, i, 26, 8, 0, .ro⟩
/-- RO, R322 -/
def HDG_SLOT_STATUS_MODEL_ID (i : Nat) : Field := ⟨0x70110, i, 34, 16, 0, .ro⟩

/-- RO, R322 -/
def HDG_SLOT_CRC_CUR (i : Nat) : Field := ⟨0x70118, i, 0, 32, 0, .ro⟩
/-- RO, R322 -/
def HDG_SLOT_CRC_OTHER (i : Nat) : Field := ⟨0x70118, i, 32, 32, 0, .ro⟩

/-! #### Chapter 10, Verifier -/

/-- RWS, R354 -/
def VRF_CFG_EN : Field := ⟨0x80000, 0, 0, 1, 0, .rws⟩
/-- RWS, R354 -/
def VRF_CFG_ARR_EN : Field := ⟨0x80000, 0, 8, 8, 255, .rws⟩

/-- RWS, R354 -/
def VRF_PRIO_VERIFY_CLASS : Field := ⟨0x80008, 0, 0, 2, 2, .rws⟩
/-- RWS, R354 -/
def VRF_PRIO_PRED_CLASS : Field := ⟨0x80008, 0, 2, 2, 3, .rws⟩
/-- RWS, R354 -/
def VRF_PRIO_URGENT_CLASS : Field := ⟨0x80008, 0, 4, 2, 1, .rws⟩
/-- RWS, R354 -/
def VRF_PRIO_AGE_US : Field := ⟨0x80008, 0, 16, 16, 500, .rws⟩

/-- RWS, R354 -/
def VRF_ST_CFG_ST_PERIOD_MS : Field := ⟨0x80010, 0, 0, 16, 10, .rws⟩
/-- RWS, R354 -/
def VRF_ST_CFG_AUTO_REPAIR : Field := ⟨0x80010, 0, 16, 1, 1, .rws⟩

/-- RWS, R354 -/
def VRF_ST_SEED_SEED : Field := ⟨0x80018, 0, 0, 64, 0, .rws⟩

/-- RO, R354 -/
def VRF_STATUS_IN_SERVICE : Field := ⟨0x80020, 0, 0, 4, 0, .ro⟩
/-- RO, R354 -/
def VRF_STATUS_ARR_MASK : Field := ⟨0x80020, 0, 8, 8, 0, .ro⟩
/-- RO, R354 -/
def VRF_STATUS_CONFIRM_OK : Field := ⟨0x80020, 0, 16, 1, 0, .ro⟩
/-- RO, R354 -/
def VRF_STATUS_PREV_TABLE : Field := ⟨0x80020, 0, 17, 1, 0, .ro⟩
/-- RO, R354 -/
def VRF_STATUS_ST_COUNT : Field := ⟨0x80020, 0, 32, 32, 0, .ro⟩

/-- RO, R354 -/
def VRF_QUEUE_C0 : Field := ⟨0x80028, 0, 0, 12, 0, .ro⟩
/-- RO, R354 -/
def VRF_QUEUE_C1 : Field := ⟨0x80028, 0, 12, 12, 0, .ro⟩
/-- RO, R354 -/
def VRF_QUEUE_C2 : Field := ⟨0x80028, 0, 24, 12, 0, .ro⟩
/-- RO, R354 -/
def VRF_QUEUE_C3 : Field := ⟨0x80028, 0, 36, 12, 0, .ro⟩
/-- RO, R354 -/
def VRF_QUEUE_PRED_JOBS : Field := ⟨0x80028, 0, 48, 7, 0, .ro⟩

/-- W1C, R354 -/
def VRF_EVENT_COL_REPAIRED : Field := ⟨0x80030, 0, 0, 1, 0, .w1c⟩
/-- W1C, R354 -/
def VRF_EVENT_ARR_RETIRED : Field := ⟨0x80030, 0, 1, 1, 0, .w1c⟩
/-- W1C, R354 -/
def VRF_EVENT_ST_DISAGREE : Field := ⟨0x80030, 0, 2, 1, 0, .w1c⟩
/-- W1C, R354 -/
def VRF_EVENT_ST_ALONE : Field := ⟨0x80030, 0, 3, 1, 0, .w1c⟩
/-- W1C, R354 -/
def VRF_EVENT_OPERAND_CE : Field := ⟨0x80030, 0, 4, 1, 0, .w1c⟩
/-- W1C, R354 -/
def VRF_EVENT_OPERAND_UE : Field := ⟨0x80030, 0, 5, 1, 0, .w1c⟩
/-- W1C, R354 -/
def VRF_EVENT_PROF_REFUSED : Field := ⟨0x80030, 0, 6, 1, 0, .w1c⟩
/-- W1C, R354 -/
def VRF_EVENT_PRED_DROP : Field := ⟨0x80030, 0, 7, 1, 0, .w1c⟩
/-- W1C, R354 -/
def VRF_EVENT_PRED_PKG_REFUSED : Field := ⟨0x80030, 0, 8, 1, 0, .w1c⟩
/-- W1C, R354 -/
def VRF_EVENT_NO_ARRAY : Field := ⟨0x80030, 0, 9, 1, 0, .w1c⟩

/-- RC, R354 -/
def VRF_ERR_COUNT_OPERAND_CE : Field := ⟨0x80038, 0, 0, 16, 0, .rc⟩
/-- RC, R354 -/
def VRF_ERR_COUNT_OPERAND_UE : Field := ⟨0x80038, 0, 16, 16, 0, .rc⟩
/-- RC, R354 -/
def VRF_ERR_COUNT_ST_FAIL : Field := ⟨0x80038, 0, 32, 16, 0, .rc⟩
/-- RC, R354 -/
def VRF_ERR_COUNT_PRED_DROP : Field := ⟨0x80038, 0, 48, 16, 0, .rc⟩

/-- RC, R354 -/
def VRF_WORK_COUNT_TILES : Field := ⟨0x80040, 0, 0, 32, 0, .rc⟩
/-- RC, R354 -/
def VRF_WORK_COUNT_PASSES : Field := ⟨0x80040, 0, 32, 32, 0, .rc⟩

/-- RW, R354 -/
def VRF_PROF_SEL_ID : Field := ⟨0x80048, 0, 0, 8, 0, .rw⟩

/-- RWS, R354 -/
def VRF_PROF_DATA_BYTES (i k : Nat) : Field := ⟨0x80050, (i * 4 + k), 0, 64, 0, .rws⟩

/-- RWS, R354 -/
def VRF_PRED_CFG_EN : Field := ⟨0x80070, 0, 0, 1, 0, .rws⟩

/-- RO, R354 -/
def VRF_PRED_STATUS_QUEUED : Field := ⟨0x80078, 0, 0, 7, 0, .ro⟩
/-- RO, R354 -/
def VRF_PRED_STATUS_ABSENT : Field := ⟨0x80078, 0, 16, 16, 0, .ro⟩

/-- RO, R354 -/
def VRF_ARR_STATUS_STATE (i : Nat) : Field := ⟨0x80100, i, 0, 2, 0, .ro⟩
/-- RO, R354 -/
def VRF_ARR_STATUS_BUSY (i : Nat) : Field := ⟨0x80100, i, 2, 1, 0, .ro⟩
/-- RO, R354 -/
def VRF_ARR_STATUS_CLASS (i : Nat) : Field := ⟨0x80100, i, 3, 2, 0, .ro⟩
/-- RO, R354 -/
def VRF_ARR_STATUS_SPARES_USED (i : Nat) : Field := ⟨0x80100, i, 5, 4, 0, .ro⟩
/-- RO, R354 -/
def VRF_ARR_STATUS_MHZ (i : Nat) : Field := ⟨0x80100, i, 9, 13, 1900, .ro⟩

/-- RO, R354 -/
def VRF_ARR_ST_LAST_PASS_SEC (i : Nat) : Field := ⟨0x80108, i, 0, 32, 0, .ro⟩
/-- RO, R354 -/
def VRF_ARR_ST_RESULT (i : Nat) : Field := ⟨0x80108, i, 32, 2, 0, .ro⟩
/-- RO, R354 -/
def VRF_ARR_ST_FAIL_COL (i : Nat) : Field := ⟨0x80108, i, 34, 9, 0, .ro⟩

/-- RO, R354 -/
def VRF_ARR_SPARE_LO_SPARE (i j : Nat) : Field := ⟨0x80110, i, (16 * j), 16, 0, .ro⟩

/-- RO, R354 -/
def VRF_ARR_SPARE_HI_SPARE (i j : Nat) : Field := ⟨0x80118, i, (16 * j), 16, 0, .ro⟩

/-- WO, R354 -/
def VRF_ARR_CTRL_RETIRE (i : Nat) : Field := ⟨0x80120, i, 0, 1, 0, .wo⟩
/-- WO, R354 -/
def VRF_ARR_CTRL_RETEST (i : Nat) : Field := ⟨0x80120, i, 1, 1, 0, .wo⟩
/-- WO, R354 -/
def VRF_ARR_CTRL_SELFTEST (i : Nat) : Field := ⟨0x80120, i, 2, 1, 0, .wo⟩

/-- RWS, R354 -/
def VRF_PRED_DIE_ADDR_4K (i : Nat) : Field := ⟨0x80300, i, 0, 27, 0, .rws⟩
/-- RWS, R354 -/
def VRF_PRED_DIE_EN (i : Nat) : Field := ⟨0x80300, i, 27, 1, 0, .rws⟩
/-- RWS, R354 -/
def VRF_PRED_DIE_PKG_CRC (i : Nat) : Field := ⟨0x80300, i, 32, 32, 0, .rws⟩

/-! #### Chapter 11, silent errors -/

/-- RWS, R385 -/
def SE_CFG_EN : Field := ⟨0x90000, 0, 0, 1, 0, .rws⟩
/-- RWS, R385 -/
def SE_CFG_SE_RING : Field := ⟨0x90000, 0, 1, 16, 0, .rws⟩
/-- RWS, R385 -/
def SE_CFG_SE_CLASS : Field := ⟨0x90000, 0, 17, 8, 8, .rws⟩
/-- RWS, R385 -/
def SE_CFG_CLEAR_LAG : Field := ⟨0x90000, 0, 25, 4, 1, .rws⟩
/-- RWS, R385 -/
def SE_CFG_LINGER : Field := ⟨0x90000, 0, 29, 4, 1, .rws⟩
/-- RWS, R385 -/
def SE_CFG_LOOKBACK : Field := ⟨0x90000, 0, 33, 8, 8, .rws⟩
/-- RWS, R385 -/
def SE_CFG_HOLD : Field := ⟨0x90000, 0, 41, 8, 10, .rws⟩
/-- RWS, R385 -/
def SE_CFG_MIN_TILES : Field := ⟨0x90000, 0, 49, 8, 1, .rws⟩

/-- RWS, R385 -/
def SE_RPL_CFG_AUTO : Field := ⟨0x90008, 0, 0, 1, 1, .rws⟩
/-- RWS, R385 -/
def SE_RPL_CFG_RUNS : Field := ⟨0x90008, 0, 1, 3, 2, .rws⟩
/-- RWS, R385 -/
def SE_RPL_CFG_RUN_US : Field := ⟨0x90008, 0, 4, 16, 200, .rws⟩
/-- RWS, R385 -/
def SE_RPL_CFG_WAIT_MS : Field := ⟨0x90008, 0, 20, 16, 1000, .rws⟩

/-- RWS, R385 -/
def SE_TAG_CFG_DIE_TAGS : Field := ⟨0x90010, 0, 0, 13, 512, .rws⟩

/-- RWS, R385 -/
def SE_FLEECE_CFG_EN : Field := ⟨0x90018, 0, 0, 1, 1, .rws⟩
/-- RWS, R385 -/
def SE_FLEECE_CFG_DEST_EN : Field := ⟨0x90018, 0, 1, 1, 0, .rws⟩
/-- RWS, R385 -/
def SE_FLEECE_CFG_DEST : Field := ⟨0x90018, 0, 2, 14, 0, .rws⟩
/-- RWS, R385 -/
def SE_FLEECE_CFG_RTO_US : Field := ⟨0x90018, 0, 16, 16, 100, .rws⟩

/-- RO, R385 -/
def SE_STATUS_TAGS : Field := ⟨0x90020, 0, 0, 13, 0, .ro⟩
/-- RO, R385 -/
def SE_STATUS_OPEN_CASES : Field := ⟨0x90020, 0, 13, 8, 0, .ro⟩
/-- RO, R385 -/
def SE_STATUS_QUEUED : Field := ⟨0x90020, 0, 21, 13, 0, .ro⟩
/-- RO, R385 -/
def SE_STATUS_RESTORING : Field := ⟨0x90020, 0, 48, 16, 0, .ro⟩

/-- W1C, R385 -/
def SE_EVENT_CONFIRMED : Field := ⟨0x90028, 0, 0, 1, 0, .w1c⟩
/-- W1C, R385 -/
def SE_EVENT_VERIFIER_SUSPECT : Field := ⟨0x90028, 0, 1, 1, 0, .w1c⟩
/-- W1C, R385 -/
def SE_EVENT_UNCONFIRMED : Field := ⟨0x90028, 0, 2, 1, 0, .w1c⟩
/-- W1C, R385 -/
def SE_EVENT_TAGS_FULL : Field := ⟨0x90028, 0, 3, 1, 0, .w1c⟩
/-- W1C, R385 -/
def SE_EVENT_TAINT_SENT : Field := ⟨0x90028, 0, 4, 1, 0, .w1c⟩
/-- W1C, R385 -/
def SE_EVENT_TAINT_PARTIAL : Field := ⟨0x90028, 0, 5, 1, 0, .w1c⟩
/-- W1C, R385 -/
def SE_EVENT_UNVERIFIED : Field := ⟨0x90028, 0, 6, 1, 0, .w1c⟩
/-- W1C, R385 -/
def SE_EVENT_STARVED : Field := ⟨0x90028, 0, 7, 1, 0, .w1c⟩
/-- W1C, R385 -/
def SE_EVENT_RPL_REFUSED : Field := ⟨0x90028, 0, 8, 1, 0, .w1c⟩
/-- W1C, R385 -/
def SE_EVENT_RPL_EXPIRED : Field := ⟨0x90028, 0, 9, 1, 0, .w1c⟩
/-- W1C, R385 -/
def SE_EVENT_NEED_TAINT : Field := ⟨0x90028, 0, 10, 1, 0, .w1c⟩
/-- W1C, R385 -/
def SE_EVENT_FLEECE_UNACKED : Field := ⟨0x90028, 0, 11, 1, 0, .w1c⟩
/-- W1C, R385 -/
def SE_EVENT_LATE_TILE : Field := ⟨0x90028, 0, 12, 1, 0, .w1c⟩
/-- W1C, R385 -/
def SE_EVENT_EPOCH_MISMATCH : Field := ⟨0x90028, 0, 13, 1, 0, .w1c⟩

/-- RC, R385 -/
def SE_ERR_COUNT_UNCHECKED : Field := ⟨0x90030, 0, 0, 32, 0, .rc⟩
/-- RC, R385 -/
def SE_ERR_COUNT_LATE : Field := ⟨0x90030, 0, 32, 16, 0, .rc⟩
/-- RC, R385 -/
def SE_ERR_COUNT_RPL_BAD : Field := ⟨0x90030, 0, 48, 16, 0, .rc⟩

/-- RC, R385 -/
def SE_WORK_COUNT_PASSED : Field := ⟨0x90038, 0, 0, 32, 0, .rc⟩
/-- RC, R385 -/
def SE_WORK_COUNT_CONFIRMED : Field := ⟨0x90038, 0, 32, 16, 0, .rc⟩
/-- RC, R385 -/
def SE_WORK_COUNT_SUSPECT : Field := ⟨0x90038, 0, 48, 16, 0, .rc⟩

/-- WO, R385 -/
def SE_DIE_CTRL_SLOT : Field := ⟨0x90040, 0, 0, 4, 0, .wo⟩
/-- WO, R385 -/
def SE_DIE_CTRL_OP : Field := ⟨0x90040, 0, 4, 3, 0, .wo⟩

/-- RO, R385 -/
def SE_DIE_STATUS_DECIDED (i : Nat) : Field := ⟨0x90100, i, 0, 32, 0xFFFFFFFF, .ro⟩
/-- RO, R385 -/
def SE_DIE_STATUS_STATE (i : Nat) : Field := ⟨0x90100, i, 32, 2, 0, .ro⟩
/-- RO, R385 -/
def SE_DIE_STATUS_TAINT_OPEN (i : Nat) : Field := ⟨0x90100, i, 34, 1, 0, .ro⟩
/-- RO, R385 -/
def SE_DIE_STATUS_CASE_OPEN (i : Nat) : Field := ⟨0x90100, i, 35, 1, 0, .ro⟩
/-- RO, R385 -/
def SE_DIE_STATUS_RPL_STATE (i : Nat) : Field := ⟨0x90100, i, 36, 3, 0, .ro⟩
/-- RO, R385 -/
def SE_DIE_STATUS_DSEQ_LO (i : Nat) : Field := ⟨0x90100, i, 40, 24, 0, .ro⟩

/-- RO, R385 -/
def SE_DIE_TAINT_FIRST (i : Nat) : Field := ⟨0x90108, i, 0, 32, 0xFFFFFFFF, .ro⟩
/-- RO, R385 -/
def SE_DIE_TAINT_LAST (i : Nat) : Field := ⟨0x90108, i, 32, 32, 0xFFFFFFFF, .ro⟩

/-- RO, R385 -/
def SE_DIE_TAGS_HELD (i : Nat) : Field := ⟨0x90110, i, 0, 13, 0, .ro⟩
/-- RO, R385 -/
def SE_DIE_TAGS_CHECKED_TO (i : Nat) : Field := ⟨0x90110, i, 32, 32, 0, .ro⟩

/-- RO, R385 -/
def SE_DIE_EPOCH_CUR_MS (i : Nat) : Field := ⟨0x90118, i, 0, 16, 100, .ro⟩
/-- RO, R385 -/
def SE_DIE_EPOCH_NEXT_MS (i : Nat) : Field := ⟨0x90118, i, 16, 16, 0, .ro⟩
/-- RO, R385 -/
def SE_DIE_EPOCH_ACT_SEC_LO (i : Nat) : Field := ⟨0x90118, i, 32, 32, 0, .ro⟩

/-! #### Chapter 12, fabric -/

/-- RWS, R411 -/
def FAB_CFG_UDP_PORT : Field := ⟨0xA0000, 0, 0, 16, 47800, .rws⟩
/-- RWS, R411 -/
def FAB_CFG_HOP_LIMIT : Field := ⟨0xA0000, 0, 16, 8, 16, .rws⟩
/-- RWS, R411 -/
def FAB_CFG_VLAN_EN : Field := ⟨0xA0000, 0, 24, 1, 0, .rws⟩
/-- RWS, R411 -/
def FAB_CFG_VID : Field := ⟨0xA0000, 0, 25, 12, 0, .rws⟩
/-- RWS, R411 -/
def FAB_CFG_PCP : Field := ⟨0xA0000, 0, 37, 3, 0, .rws⟩
/-- RWS, R411 -/
def FAB_CFG_YELLOW_PCT : Field := ⟨0xA0000, 0, 40, 7, 50, .rws⟩

/-- RWS, R411 -/
def FAB_PREFIX_PREFIX : Field := ⟨0xA0008, 0, 0, 64, 0, .rws⟩

/-- RWS, R411 -/
def FAB_SPINE_IID_IID : Field := ⟨0xA0010, 0, 0, 64, 0, .rws⟩

/-- RWS, R411 -/
def FAB_CLASS_PORTS_MIRROR : Field := ⟨0xA0018, 0, 0, 12, 4095, .rws⟩
/-- RWS, R411 -/
def FAB_CLASS_PORTS_NOTICE : Field := ⟨0xA0018, 0, 16, 12, 4095, .rws⟩

/-- RWS, R411 -/
def FAB_TXN_CFG_RTO_US : Field := ⟨0xA0020, 0, 0, 16, 20, .rws⟩
/-- RWS, R411 -/
def FAB_TXN_CFG_RETRIES : Field := ⟨0xA0020, 0, 16, 4, 3, .rws⟩
/-- RWS, R411 -/
def FAB_TXN_CFG_ACK_COAL_NS : Field := ⟨0xA0020, 0, 20, 16, 500, .rws⟩
/-- RWS, R411 -/
def FAB_TXN_CFG_ACK_EVERY : Field := ⟨0xA0020, 0, 36, 6, 16, .rws⟩

/-- RWS, R411 -/
def FAB_SHP_CFG_REFILL_NS : Field := ⟨0xA0028, 0, 0, 16, 1000, .rws⟩
/-- RWS, R411 -/
def FAB_SHP_CFG_EN : Field := ⟨0xA0028, 0, 16, 1, 1, .rws⟩

/-- RWS, R411 -/
def FAB_STAT_CFG_RING : Field := ⟨0xA0030, 0, 0, 16, 0, .rws⟩
/-- RWS, R411 -/
def FAB_STAT_CFG_EN : Field := ⟨0xA0030, 0, 16, 1, 0, .rws⟩

/-- RO, R411 -/
def FAB_STATUS_PORTS_UP : Field := ⟨0xA0038, 0, 0, 12, 0, .ro⟩
/-- RO, R411 -/
def FAB_STATUS_SAFE : Field := ⟨0xA0038, 0, 12, 1, 0, .ro⟩
/-- RO, R411 -/
def FAB_STATUS_INCARN : Field := ⟨0xA0038, 0, 32, 32, 0, .ro⟩

/-- W1C, R411 -/
def FAB_EVENT_VIOL : Field := ⟨0xA0040, 0, 0, 1, 0, .w1c⟩
/-- W1C, R411 -/
def FAB_EVENT_TOO_LONG : Field := ⟨0xA0040, 0, 1, 1, 0, .w1c⟩
/-- W1C, R411 -/
def FAB_EVENT_LAUNCH_LATE : Field := ⟨0xA0040, 0, 2, 1, 0, .w1c⟩
/-- W1C, R411 -/
def FAB_EVENT_LAUNCH_BUSY : Field := ⟨0xA0040, 0, 3, 1, 0, .w1c⟩
/-- W1C, R411 -/
def FAB_EVENT_TXN_FULL : Field := ⟨0xA0040, 0, 4, 1, 0, .w1c⟩
/-- W1C, R411 -/
def FAB_EVENT_GIVE_UP : Field := ⟨0xA0040, 0, 5, 1, 0, .w1c⟩
/-- W1C, R411 -/
def FAB_EVENT_RED_DROP : Field := ⟨0xA0040, 0, 6, 1, 0, .w1c⟩
/-- W1C, R411 -/
def FAB_EVENT_RX_FULL : Field := ⟨0xA0040, 0, 7, 1, 0, .w1c⟩
/-- W1C, R411 -/
def FAB_EVENT_PATH_NOTICE : Field := ⟨0xA0040, 0, 8, 1, 0, .w1c⟩
/-- W1C, R411 -/
def FAB_EVENT_SAFE_FLUSH : Field := ⟨0xA0040, 0, 9, 1, 0, .w1c⟩
/-- W1C, R411 -/
def FAB_EVENT_QUEUE_FULL : Field := ⟨0xA0040, 0, 10, 1, 0, .w1c⟩

/-- RC, R411 -/
def FAB_ERR_COUNT_VIOL : Field := ⟨0xA0048, 0, 0, 16, 0, .rc⟩
/-- RC, R411 -/
def FAB_ERR_COUNT_STALE : Field := ⟨0xA0048, 0, 16, 16, 0, .rc⟩
/-- RC, R411 -/
def FAB_ERR_COUNT_GIVE_UP : Field := ⟨0xA0048, 0, 32, 16, 0, .rc⟩
/-- RC, R411 -/
def FAB_ERR_COUNT_TOO_LONG : Field := ⟨0xA0048, 0, 48, 16, 0, .rc⟩

/-- RW, R411 -/
def FAB_EP_SEL_INDEX : Field := ⟨0xA0050, 0, 0, 6, 0, .rw⟩

/-- RWS, R411 -/
def FAB_EP_ID_ID (i : Nat) : Field := ⟨0xA0058, i, 0, 14, 0, .rws⟩
/-- RWS, R411 -/
def FAB_EP_ID_EN (i : Nat) : Field := ⟨0xA0058, i, 14, 1, 0, .rws⟩

/-- RWS, R411 -/
def FAB_EP_ADDR_HI_ADDR (i : Nat) : Field := ⟨0xA0060, i, 0, 64, 0, .rws⟩

/-- RWS, R411 -/
def FAB_EP_ADDR_LO_ADDR (i : Nat) : Field := ⟨0xA0068, i, 0, 64, 0, .rws⟩

/-- RWS, R411 -/
def FAB_PORT_CFG_EN (i : Nat) : Field := ⟨0xA0100, i, 0, 1, 1, .rws⟩
/-- RWS, R411 -/
def FAB_PORT_CFG_MODE (i : Nat) : Field := ⟨0xA0100, i, 1, 2, 0, .rws⟩
/-- RWS, R411 -/
def FAB_PORT_CFG_DEGRADE_OK (i : Nat) : Field := ⟨0xA0100, i, 3, 1, 1, .rws⟩
/-- RWS, R411 -/
def FAB_PORT_CFG_QMAX_KIB (i : Nat) : Field := ⟨0xA0100, i, 8, 16, 1024, .rws⟩

/-- RWS, R411 -/
def FAB_PORT_SMAC_MAC (i : Nat) : Field := ⟨0xA0108, i, 0, 48, 0, .rws⟩

/-- RWS, R411 -/
def FAB_PORT_DMAC_MAC (i : Nat) : Field := ⟨0xA0110, i, 0, 48, 0, .rws⟩

/-- RO, R411 -/
def FAB_PORT_STATUS_UP (i : Nat) : Field := ⟨0xA0118, i, 0, 1, 0, .ro⟩
/-- RO, R411 -/
def FAB_PORT_STATUS_LANES (i : Nat) : Field := ⟨0xA0118, i, 1, 4, 0, .ro⟩
/-- RO, R411 -/
def FAB_PORT_STATUS_TXN (i : Nat) : Field := ⟨0xA0118, i, 16, 17, 0, .ro⟩
/-- RO, R411 -/
def FAB_PORT_STATUS_RX_KIB (i : Nat) : Field := ⟨0xA0118, i, 33, 13, 0, .ro⟩

/-- RC, R411 -/
def FAB_PORT_ERR_FCS (i : Nat) : Field := ⟨0xA0120, i, 0, 16, 0, .rc⟩
/-- RC, R411 -/
def FAB_PORT_ERR_RED (i : Nat) : Field := ⟨0xA0120, i, 16, 16, 0, .rc⟩
/-- RC, R411 -/
def FAB_PORT_ERR_YELLOW (i : Nat) : Field := ⟨0xA0120, i, 32, 16, 0, .rc⟩
/-- RC, R411 -/
def FAB_PORT_ERR_RX_FULL (i : Nat) : Field := ⟨0xA0120, i, 48, 16, 0, .rc⟩

/-- RWS, R411 -/
def FAB_CAL_CFG_CYCLE_NS (i : Nat) : Field := ⟨0xA0128, i, 0, 20, 0, .rws⟩
/-- RWS, R411 -/
def FAB_CAL_CFG_DEFAULT_GATE (i : Nat) : Field := ⟨0xA0128, i, 20, 8, 255, .rws⟩

/-- RWS, R411 -/
def FAB_CAL_WIN_START_NS (p q : Nat) : Field := ⟨0xA0400, (p * 8 + q), 0, 20, 0, .rws⟩
/-- RWS, R411 -/
def FAB_CAL_WIN_LEN_NS (p q : Nat) : Field := ⟨0xA0400, (p * 8 + q), 20, 20, 0, .rws⟩
/-- RWS, R411 -/
def FAB_CAL_WIN_GATE (p q : Nat) : Field := ⟨0xA0400, (p * 8 + q), 40, 8, 0, .rws⟩
/-- RWS, R411 -/
def FAB_CAL_WIN_EN (p q : Nat) : Field := ⟨0xA0400, (p * 8 + q), 48, 1, 0, .rws⟩

/-- RWS, R411 -/
def FAB_SHP_RATE_MBPS (i : Nat) : Field := ⟨0xA0800, i, 0, 20, 0, .rws⟩
/-- RWS, R411 -/
def FAB_SHP_BURST_KIB (i : Nat) : Field := ⟨0xA0800, i, 20, 16, 64, .rws⟩
/-- RWS, R411 -/
def FAB_SHP_LEN_OVH (i : Nat) : Field := ⟨0xA0800, i, 36, 6, 20, .rws⟩

/-- RWS, R411 -/
def FAB_MTR_CIR_MBPS (i : Nat) : Field := ⟨0xA0A00, i, 0, 18, (meterResetCir i), .rws⟩
/-- RWS, R411 -/
def FAB_MTR_PIR_MBPS (i : Nat) : Field := ⟨0xA0A00, i, 18, 18, (meterResetPir i), .rws⟩
/-- RWS, R411 -/
def FAB_MTR_CBS_KIB (i : Nat) : Field := ⟨0xA0A00, i, 36, 14, (meterResetCbs i), .rws⟩
/-- RWS, R411 -/
def FAB_MTR_PBS_KIB (i : Nat) : Field := ⟨0xA0A00, i, 50, 14, (meterResetPbs i), .rws⟩

/-- RO, R411 -/
def FAB_Q_STATUS_DEPTH (p q : Nat) : Field := ⟨0xA0C00, (p * 8 + q), 0, 32, 0, .ro⟩
/-- RO, R411 -/
def FAB_Q_STATUS_HEAD_WAIT (p q : Nat) : Field := ⟨0xA0C00, (p * 8 + q), 32, 1, 0, .ro⟩
/-- RO, R411 -/
def FAB_Q_STATUS_SHAPED_WAIT (p q : Nat) : Field := ⟨0xA0C00, (p * 8 + q), 33, 1, 0, .ro⟩

/-! #### Chapter 13, faults -/

/-- RWS, R438 -/
def FLT_CFG_SHEEPDOG_US : Field := ⟨0xB0000, 0, 0, 16, 200, .rws⟩
/-- RWS, R438 -/
def FLT_CFG_SAFE_US : Field := ⟨0xB0000, 0, 16, 8, 20, .rws⟩
/-- RWS, R438 -/
def FLT_CFG_QUIET_MS : Field := ⟨0xB0000, 0, 24, 16, 1000, .rws⟩
/-- RWS, R438 -/
def FLT_CFG_AUTO_EXIT : Field := ⟨0xB0000, 0, 40, 1, 1, .rws⟩
/-- RWS, R438 -/
def FLT_CFG_RECOVER_MAX : Field := ⟨0xB0000, 0, 44, 4, 3, .rws⟩
/-- RWS, R438 -/
def FLT_CFG_RECOVER_WIN_S : Field := ⟨0xB0000, 0, 48, 16, 3600, .rws⟩

/-- RWS, R438 -/
def FLT_CFG2_FLT_RING : Field := ⟨0xB0008, 0, 0, 16, 0, .rws⟩
/-- RWS, R438 -/
def FLT_CFG2_FLT_CLASS : Field := ⟨0xB0008, 0, 16, 8, 13, .rws⟩
/-- RWS, R438 -/
def FLT_CFG2_VECTOR : Field := ⟨0xB0008, 0, 24, 6, 0, .rws⟩
/-- RWS, R438 -/
def FLT_CFG2_CAPTURE_MIN : Field := ⟨0xB0008, 0, 30, 2, 1, .rws⟩
/-- RWS, R438 -/
def FLT_CFG2_POLL_US : Field := ⟨0xB0008, 0, 32, 12, 50, .rws⟩
/-- RWS, R438 -/
def FLT_CFG2_CORE_WIN_S : Field := ⟨0xB0008, 0, 44, 8, 60, .rws⟩
/-- RWS, R438 -/
def FLT_CFG2_CLUSTER_MIN : Field := ⟨0xB0008, 0, 52, 6, 24, .rws⟩
/-- RWS, R438 -/
def FLT_CFG2_ROW_CE : Field := ⟨0xB0008, 0, 58, 6, 16, .rws⟩

/-- RO, R438 -/
def FLT_STATUS_STATE : Field := ⟨0xB0010, 0, 0, 3, 0, .ro⟩
/-- RO, R438 -/
def FLT_STATUS_PENDING : Field := ⟨0xB0010, 0, 3, 10, 0, .ro⟩
/-- RO, R438 -/
def FLT_STATUS_RECOVERIES : Field := ⟨0xB0010, 0, 16, 4, 0, .ro⟩
/-- RO, R438 -/
def FLT_STATUS_FTM : Field := ⟨0xB0010, 0, 20, 1, 0, .ro⟩
/-- RO, R438 -/
def FLT_STATUS_CAUSE_SRC : Field := ⟨0xB0010, 0, 32, 16, 0, .ro⟩
/-- RO, R438 -/
def FLT_STATUS_NEXT_FSEQ : Field := ⟨0xB0010, 0, 48, 16, 0, .ro⟩

/-- W1C, R438 -/
def FLT_EVENT_TMR_CORRECTED : Field := ⟨0xB0018, 0, 0, 1, 0, .w1c⟩
/-- W1C, R438 -/
def FLT_EVENT_INJ_REFUSED : Field := ⟨0xB0018, 0, 1, 1, 0, .w1c⟩
/-- W1C, R438 -/
def FLT_EVENT_LOG_FULL : Field := ⟨0xB0018, 0, 2, 1, 0, .w1c⟩
/-- W1C, R438 -/
def FLT_EVENT_SHEEPDOG : Field := ⟨0xB0018, 0, 3, 1, 0, .w1c⟩
/-- W1C, R438 -/
def FLT_EVENT_SAFE_ENTER : Field := ⟨0xB0018, 0, 4, 1, 0, .w1c⟩
/-- W1C, R438 -/
def FLT_EVENT_SAFE_EXIT : Field := ⟨0xB0018, 0, 5, 1, 0, .w1c⟩
/-- W1C, R438 -/
def FLT_EVENT_LATCHED : Field := ⟨0xB0018, 0, 6, 1, 0, .w1c⟩
/-- W1C, R438 -/
def FLT_EVENT_PAIR_SWITCH : Field := ⟨0xB0018, 0, 7, 1, 0, .w1c⟩
/-- W1C, R438 -/
def FLT_EVENT_CORE_RETIRED : Field := ⟨0xB0018, 0, 8, 1, 0, .w1c⟩
/-- W1C, R438 -/
def FLT_EVENT_CLUSTER_RETIRED : Field := ⟨0xB0018, 0, 9, 1, 0, .w1c⟩
/-- W1C, R438 -/
def FLT_EVENT_UNHOMED : Field := ⟨0xB0018, 0, 10, 1, 0, .w1c⟩
/-- W1C, R438 -/
def FLT_EVENT_AGE_WARN : Field := ⟨0xB0018, 0, 11, 1, 0, .w1c⟩
/-- W1C, R438 -/
def FLT_EVENT_AGE_LIMIT : Field := ⟨0xB0018, 0, 12, 1, 0, .w1c⟩
/-- W1C, R438 -/
def FLT_EVENT_RPR_WRITE_FAIL : Field := ⟨0xB0018, 0, 13, 1, 0, .w1c⟩

/-- RC, R438 -/
def FLT_COUNT_CORR : Field := ⟨0xB0020, 0, 0, 16, 0, .rc⟩
/-- RC, R438 -/
def FLT_COUNT_CONT : Field := ⟨0xB0020, 0, 16, 16, 0, .rc⟩
/-- RC, R438 -/
def FLT_COUNT_UNCONT : Field := ⟨0xB0020, 0, 32, 16, 0, .rc⟩
/-- RC, R438 -/
def FLT_COUNT_ESCAL : Field := ⟨0xB0020, 0, 48, 16, 0, .rc⟩

/-- RO, R438 -/
def FLT_FIRST_SRC_SOURCE : Field := ⟨0xB0028, 0, 0, 16, 0, .ro⟩
/-- RO, R438 -/
def FLT_FIRST_SRC_CLASS : Field := ⟨0xB0028, 0, 16, 2, 0, .ro⟩
/-- RO, R438 -/
def FLT_FIRST_SRC_ACCESS : Field := ⟨0xB0028, 0, 20, 3, 0, .ro⟩
/-- RO, R438 -/
def FLT_FIRST_SRC_MASTER : Field := ⟨0xB0028, 0, 32, 16, 65535, .ro⟩
/-- RO, R438 -/
def FLT_FIRST_SRC_VALID : Field := ⟨0xB0028, 0, 48, 1, 0, .ro⟩
/-- RO, R438 -/
def FLT_FIRST_SRC_CAP_PARITY : Field := ⟨0xB0028, 0, 49, 1, 0, .ro⟩

/-- RO, R438 -/
def FLT_FIRST_ADDR_ADDR : Field := ⟨0xB0030, 0, 0, 64, 0, .ro⟩

/-- RO, R438 -/
def FLT_FIRST_TIME_NS : Field := ⟨0xB0038, 0, 0, 64, 0, .ro⟩

/-- WO, R438 -/
def FLT_ACK_FSEQ : Field := ⟨0xB0040, 0, 0, 64, 0, .wo⟩

/-- WO, R438 -/
def FLT_CTRL_EXIT : Field := ⟨0xB0048, 0, 0, 1, 0, .wo⟩
/-- WO, R438 -/
def FLT_CTRL_ENTER_SAFE : Field := ⟨0xB0048, 0, 1, 1, 0, .wo⟩
/-- WO, R438 -/
def FLT_CTRL_CLEAR_FIRST : Field := ⟨0xB0048, 0, 2, 1, 0, .wo⟩

/-- RW, R438 -/
def FLT_SRC_SEL_SOURCE : Field := ⟨0xB0050, 0, 0, 16, 0, .rw⟩

/-- RWS, R438 -/
def FLT_SRC_CFG_CLASS (i : Nat) : Field := ⟨0xB0058, i, 0, 2, (floorAgg i), .rws⟩
/-- RWS, R438 -/
def FLT_SRC_CFG_CE_RATE (i : Nat) : Field := ⟨0xB0058, i, 8, 16, 0, .rws⟩
/-- RWS, R438 -/
def FLT_SRC_CFG_RATE_MAX (i : Nat) : Field := ⟨0xB0058, i, 24, 8, 0, .rws⟩
/-- RWS, R438 -/
def FLT_SRC_CFG_RATE_WIN_MS (i : Nat) : Field := ⟨0xB0058, i, 32, 16, 1000, .rws⟩

/-- RO, R438 -/
def FLT_SRC_STATUS_FLOOR (i : Nat) : Field := ⟨0xB0060, i, 0, 2, 0, .ro⟩
/-- RO, R438 -/
def FLT_SRC_STATUS_COUNT (i : Nat) : Field := ⟨0xB0060, i, 8, 24, 0, .ro⟩
/-- RO, R438 -/
def FLT_SRC_STATUS_LAST_FSEQ (i : Nat) : Field := ⟨0xB0060, i, 32, 32, 0, .ro⟩

/-- WO, R438 -/
def FLT_INJECT_SOURCE : Field := ⟨0xB0068, 0, 0, 16, 0, .wo⟩
/-- WO, R438 -/
def FLT_INJECT_CLASS : Field := ⟨0xB0068, 0, 16, 2, 0, .wo⟩
/-- WO, R438 -/
def FLT_INJECT_GO : Field := ⟨0xB0068, 0, 18, 1, 0, .wo⟩

/-- RW, R438 -/
def FLT_LOG_SEL_INDEX : Field := ⟨0xB0070, 0, 0, 6, 0, .rw⟩

/-- RO, R438 -/
def FLT_PAIR_STATUS_ACTIVE : Field := ⟨0xB0078, 0, 0, 1, 0, .ro⟩
/-- RO, R438 -/
def FLT_PAIR_STATUS_P0_STATE : Field := ⟨0xB0078, 0, 1, 2, 0, .ro⟩
/-- RO, R438 -/
def FLT_PAIR_STATUS_P1_STATE : Field := ⟨0xB0078, 0, 3, 2, 1, .ro⟩
/-- RO, R438 -/
def FLT_PAIR_STATUS_SWITCHES : Field := ⟨0xB0078, 0, 16, 16, 0, .ro⟩

/-- RO, R438 -/
def FLT_DIE_HOME_LO_HOME (j : Nat) : Field := ⟨0xB0080, 0, (8 * j), 5, 0, .ro⟩
/-- RO, R438 -/
def FLT_DIE_HOME_LO_UNHOMED (j : Nat) : Field := ⟨0xB0080, 0, (8 * j + 7), 1, 0, .ro⟩

/-- RO, R438 -/
def FLT_DIE_HOME_HI_HOME (j : Nat) : Field := ⟨0xB0088, 0, (8 * j), 5, 0, .ro⟩
/-- RO, R438 -/
def FLT_DIE_HOME_HI_UNHOMED (j : Nat) : Field := ⟨0xB0088, 0, (8 * j + 7), 1, 0, .ro⟩

/-- RWS, R438 -/
def FLT_AGE_CFG_PERIOD_H : Field := ⟨0xB0090, 0, 0, 8, 24, .rws⟩
/-- RWS, R438 -/
def FLT_AGE_CFG_WARN_PS : Field := ⟨0xB0090, 0, 8, 8, 15, .rws⟩
/-- RWS, R438 -/
def FLT_AGE_CFG_MIN_PS : Field := ⟨0xB0090, 0, 16, 8, 5, .rws⟩

/-- RW, R438 -/
def FLT_AGE_SEL_ISLAND : Field := ⟨0xB0098, 0, 0, 8, 0, .rw⟩

/-- RO, R438 -/
def FLT_AGE_STATUS_SLACK_PS (i : Nat) : Field := ⟨0xB00A0, i, 0, 16, 0, .ro⟩
/-- RO, R438 -/
def FLT_AGE_STATUS_LOSS_PS (i : Nat) : Field := ⟨0xB00A0, i, 16, 16, 0, .ro⟩
/-- RO, R438 -/
def FLT_AGE_STATUS_LAST_SEC (i : Nat) : Field := ⟨0xB00A0, i, 32, 32, 0, .ro⟩

/-- RO, R438 -/
def FLT_RPR_STATUS_ENTRIES : Field := ⟨0xB00A8, 0, 0, 12, 0, .ro⟩
/-- RO, R438 -/
def FLT_RPR_STATUS_GEN : Field := ⟨0xB00A8, 0, 16, 32, 0, .ro⟩
/-- RO, R438 -/
def FLT_RPR_STATUS_FREE : Field := ⟨0xB00A8, 0, 48, 12, 0, .ro⟩
/-- RO, R438 -/
def FLT_RPR_STATUS_VALID : Field := ⟨0xB00A8, 0, 60, 1, 0, .ro⟩

/-- RW, R438 -/
def FLT_RPR_SEL_INDEX : Field := ⟨0xB00B0, 0, 0, 12, 0, .rw⟩

/-- WO, R438 -/
def FLT_RPR_CTRL_ESEQ : Field := ⟨0xB00B8, 0, 0, 32, 0, .wo⟩
/-- WO, R438 -/
def FLT_RPR_CTRL_GO : Field := ⟨0xB00B8, 0, 32, 1, 0, .wo⟩

/-- RO, R438 -/
def FLT_LOG_DATA_DATA (i : Nat) : Field := ⟨0xB0100, i, 0, 64, 0, .ro⟩

/-- RO, R438 -/
def FLT_RPR_DATA_DATA (i : Nat) : Field := ⟨0xB0140, i, 0, 64, 0, .ro⟩

/-- RO, R438 -/
def FLT_DRV_CLUSTER_STATE (i : Nat) : Field := ⟨0xB0200, i, 0, 2, 0, .ro⟩
/-- RO, R438 -/
def FLT_DRV_CLUSTER_IN_SERVICE (i : Nat) : Field := ⟨0xB0200, i, 2, 6, 32, .ro⟩
/-- RO, R438 -/
def FLT_DRV_CLUSTER_RETIRED (i : Nat) : Field := ⟨0xB0200, i, 8, 33, 0, .ro⟩

/-! #### Chapter 14, power -/

/-- RWS, R467 -/
def PWR_CFG_GASP_EN : Field := ⟨0xC0000, 0, 0, 1, 1, .rws⟩
/-- RWS, R467 -/
def PWR_CFG_PF_FILT_US : Field := ⟨0xC0000, 0, 8, 8, 2, .rws⟩
/-- RWS, R467 -/
def PWR_CFG_ARM_MV : Field := ⟨0xC0000, 0, 16, 16, 44000, .rws⟩
/-- RWS, R467 -/
def PWR_CFG_WARN_MV : Field := ⟨0xC0000, 0, 32, 16, 30000, .rws⟩
/-- RWS, R467 -/
def PWR_CFG_FLUSH_LIMIT_MS : Field := ⟨0xC0000, 0, 48, 8, 15, .rws⟩
/-- RWS, R467 -/
def PWR_CFG_TEST_DROP : Field := ⟨0xC0000, 0, 56, 8, 20, .rws⟩

/-- RO, R467 -/
def PWR_STATUS_FLUSH : Field := ⟨0xC0008, 0, 0, 3, 0, .ro⟩
/-- RO, R467 -/
def PWR_STATUS_MAIN_OK : Field := ⟨0xC0008, 0, 3, 1, 0, .ro⟩
/-- RO, R467 -/
def PWR_STATUS_CELL_OK : Field := ⟨0xC0008, 0, 4, 1, 0, .ro⟩
/-- RO, R467 -/
def PWR_STATUS_NEXT_SLOT : Field := ⟨0xC0008, 0, 5, 1, 0, .ro⟩
/-- RO, R467 -/
def PWR_STATUS_CELL_MV : Field := ⟨0xC0008, 0, 16, 16, 0, .ro⟩
/-- RO, R467 -/
def PWR_STATUS_GEN : Field := ⟨0xC0008, 0, 32, 32, 0, .ro⟩

/-- W1C, R467 -/
def PWR_EVENT_GASP : Field := ⟨0xC0010, 0, 0, 1, 0, .w1c⟩
/-- W1C, R467 -/
def PWR_EVENT_SEALED : Field := ⟨0xC0010, 0, 1, 1, 0, .w1c⟩
/-- W1C, R467 -/
def PWR_EVENT_CUT : Field := ⟨0xC0010, 0, 2, 1, 0, .w1c⟩
/-- W1C, R467 -/
def PWR_EVENT_INCOMPLETE : Field := ⟨0xC0010, 0, 3, 1, 0, .w1c⟩
/-- W1C, R467 -/
def PWR_EVENT_UNARMED_GASP : Field := ⟨0xC0010, 0, 4, 1, 0, .w1c⟩
/-- W1C, R467 -/
def PWR_EVENT_CELL_LOW : Field := ⟨0xC0010, 0, 5, 1, 0, .w1c⟩
/-- W1C, R467 -/
def PWR_EVENT_CELL_TEST_FAIL : Field := ⟨0xC0010, 0, 6, 1, 0, .w1c⟩
/-- W1C, R467 -/
def PWR_EVENT_DOM_REFUSED : Field := ⟨0xC0010, 0, 7, 1, 0, .w1c⟩
/-- W1C, R467 -/
def PWR_EVENT_SLOT_TRIP : Field := ⟨0xC0010, 0, 8, 1, 0, .w1c⟩
/-- W1C, R467 -/
def PWR_EVENT_SLOT_CTRL_TRIP : Field := ⟨0xC0010, 0, 9, 1, 0, .w1c⟩
/-- W1C, R467 -/
def PWR_EVENT_SLOT_FAULTED : Field := ⟨0xC0010, 0, 10, 1, 0, .w1c⟩
/-- W1C, R467 -/
def PWR_EVENT_SLOT_DRAIN_FAIL : Field := ⟨0xC0010, 0, 11, 1, 0, .w1c⟩
/-- W1C, R467 -/
def PWR_EVENT_SLOT_FLT_UNEXPECTED : Field := ⟨0xC0010, 0, 12, 1, 0, .w1c⟩
/-- W1C, R467 -/
def PWR_EVENT_FLASH_FAIL : Field := ⟨0xC0010, 0, 13, 1, 0, .w1c⟩

/-- RO, R467 -/
def PWR_FLUSH_STATUS_RESULT : Field := ⟨0xC0018, 0, 0, 2, 0, .ro⟩
/-- RO, R467 -/
def PWR_FLUSH_STATUS_MAIN_BACK : Field := ⟨0xC0018, 0, 2, 1, 0, .ro⟩
/-- RO, R467 -/
def PWR_FLUSH_STATUS_UNFLUSHED : Field := ⟨0xC0018, 0, 8, 24, 0, .ro⟩
/-- RO, R467 -/
def PWR_FLUSH_STATUS_GEN : Field := ⟨0xC0018, 0, 32, 32, 0, .ro⟩

/-- WO, R467 -/
def PWR_CTRL_CELL_TEST : Field := ⟨0xC0020, 0, 0, 1, 0, .wo⟩

/-- WO, R467 -/
def PWR_DOM_CTRL_DOMAIN : Field := ⟨0xC0028, 0, 0, 8, 0, .wo⟩
/-- WO, R467 -/
def PWR_DOM_CTRL_TARGET : Field := ⟨0xC0028, 0, 8, 2, 0, .wo⟩
/-- WO, R467 -/
def PWR_DOM_CTRL_GO : Field := ⟨0xC0028, 0, 10, 1, 0, .wo⟩

/-- RW, R467 -/
def PWR_DOM_SEL_DOMAIN : Field := ⟨0xC0030, 0, 0, 8, 0, .rw⟩

/-- RWS, R467 -/
def PWR_DOM_CFG_FBB (i : Nat) : Field := ⟨0xC0038, i, 0, 2, 0, .rws⟩
/-- RWS, R467 -/
def PWR_DOM_CFG_WA (i : Nat) : Field := ⟨0xC0038, i, 2, 1, 1, .rws⟩
/-- RWS, R467 -/
def PWR_DOM_CFG_RA (i : Nat) : Field := ⟨0xC0038, i, 3, 1, 1, .rws⟩
/-- RWS, R467 -/
def PWR_DOM_CFG_RBB (i : Nat) : Field := ⟨0xC0038, i, 4, 2, 1, .rws⟩
/-- RWS, R467 -/
def PWR_DOM_CFG_RET_MV (i : Nat) : Field := ⟨0xC0038, i, 8, 8, 55, .rws⟩
/-- RWS, R467 -/
def PWR_DOM_CFG_OFF_OK (i : Nat) : Field := ⟨0xC0038, i, 16, 1, 1, .rws⟩

/-- RO, R467 -/
def PWR_DOM_STATUS_STATE (i : Nat) : Field := ⟨0xC0040, i, 0, 2, 0, .ro⟩
/-- RO, R467 -/
def PWR_DOM_STATUS_BUSY (i : Nat) : Field := ⟨0xC0040, i, 2, 1, 0, .ro⟩
/-- RO, R467 -/
def PWR_DOM_STATUS_TARGET (i : Nat) : Field := ⟨0xC0040, i, 3, 2, 0, .ro⟩
/-- RO, R467 -/
def PWR_DOM_STATUS_PENDING (i : Nat) : Field := ⟨0xC0040, i, 5, 1, 0, .ro⟩
/-- RO, R467 -/
def PWR_DOM_STATUS_PEND_TGT (i : Nat) : Field := ⟨0xC0040, i, 6, 2, 0, .ro⟩
/-- RO, R467 -/
def PWR_DOM_STATUS_LAST_REFUSE (i : Nat) : Field := ⟨0xC0040, i, 8, 3, 0, .ro⟩

/-- RC, R467 -/
def PWR_DOM_REFUSE_BUSY (i : Nat) : Field := ⟨0xC0048, i, 0, 16, 0, .rc⟩
/-- RC, R467 -/
def PWR_DOM_REFUSE_DEPEND (i : Nat) : Field := ⟨0xC0048, i, 16, 16, 0, .rc⟩
/-- RC, R467 -/
def PWR_DOM_REFUSE_POLICY (i : Nat) : Field := ⟨0xC0048, i, 32, 16, 0, .rc⟩
/-- RC, R467 -/
def PWR_DOM_REFUSE_OTHER (i : Nat) : Field := ⟨0xC0048, i, 48, 16, 0, .rc⟩

/-- RWS, R467 -/
def SLOT_CFG_TRIP_N : Field := ⟨0xC0050, 0, 0, 2, 2, .rws⟩
/-- RWS, R467 -/
def SLOT_CFG_RETRY_MAX : Field := ⟨0xC0050, 0, 2, 2, 0, .rws⟩
/-- RWS, R467 -/
def SLOT_CFG_BACKOFF_MS : Field := ⟨0xC0050, 0, 4, 12, 100, .rws⟩
/-- RWS, R467 -/
def SLOT_CFG_ISNS_LSB_MA : Field := ⟨0xC0050, 0, 16, 8, 25, .rws⟩
/-- RWS, R467 -/
def SLOT_CFG_REC_RING : Field := ⟨0xC0050, 0, 24, 16, 0, .rws⟩
/-- RWS, R467 -/
def SLOT_CFG_REC_EN : Field := ⟨0xC0050, 0, 40, 1, 0, .rws⟩

/-- WO, R467 -/
def SLOT_CTRL_SLOT : Field := ⟨0xC0058, 0, 0, 4, 0, .wo⟩
/-- WO, R467 -/
def SLOT_CTRL_OP : Field := ⟨0xC0058, 0, 4, 3, 0, .wo⟩

/-- RWS, R467 -/
def SLOT_ENV0_RAMP_US (i : Nat) : Field := ⟨0xC0100, i, 0, 16, 8000, .rws⟩
/-- RWS, R467 -/
def SLOT_ENV0_I_RAMP0 (i : Nat) : Field := ⟨0xC0100, i, 16, 12, 80, .rws⟩
/-- RWS, R467 -/
def SLOT_ENV0_I_RAMP1 (i : Nat) : Field := ⟨0xC0100, i, 32, 12, 480, .rws⟩
/-- RWS, R467 -/
def SLOT_ENV0_I_ON (i : Nat) : Field := ⟨0xC0100, i, 48, 12, 3400, .rws⟩

/-- RWS, R467 -/
def SLOT_ENV1_REF_TGT (i : Nat) : Field := ⟨0xC0108, i, 0, 10, 1023, .rws⟩
/-- RWS, R467 -/
def SLOT_ENV1_I_OFF (i : Nat) : Field := ⟨0xC0108, i, 16, 12, 40, .rws⟩
/-- RWS, R467 -/
def SLOT_ENV1_DRAIN_US (i : Nat) : Field := ⟨0xC0108, i, 32, 16, 2000, .rws⟩

/-- RO, R467 -/
def SLOT_STATUS_STATE (i : Nat) : Field := ⟨0xC0110, i, 0, 3, 0, .ro⟩
/-- RO, R467 -/
def SLOT_STATUS_OWNER (i : Nat) : Field := ⟨0xC0110, i, 3, 1, 0, .ro⟩
/-- RO, R467 -/
def SLOT_STATUS_EN_SENSE (i : Nat) : Field := ⟨0xC0110, i, 4, 1, 0, .ro⟩
/-- RO, R467 -/
def SLOT_STATUS_FLT_SENSE (i : Nat) : Field := ⟨0xC0110, i, 5, 1, 0, .ro⟩
/-- RO, R467 -/
def SLOT_STATUS_TRIPS (i : Nat) : Field := ⟨0xC0110, i, 6, 2, 0, .ro⟩
/-- RO, R467 -/
def SLOT_STATUS_LAST_CAUSE (i : Nat) : Field := ⟨0xC0110, i, 8, 3, 0, .ro⟩
/-- RO, R467 -/
def SLOT_STATUS_I_NOW (i : Nat) : Field := ⟨0xC0110, i, 16, 12, 0, .ro⟩
/-- RO, R467 -/
def SLOT_STATUS_REF_NOW (i : Nat) : Field := ⟨0xC0110, i, 32, 10, 0, .ro⟩

/-- RC, R467 -/
def SLOT_COUNT_TRIPS (i : Nat) : Field := ⟨0xC0118, i, 0, 16, 0, .rc⟩
/-- RC, R467 -/
def SLOT_COUNT_CTRL_TRIPS (i : Nat) : Field := ⟨0xC0118, i, 16, 16, 0, .rc⟩
/-- RC, R467 -/
def SLOT_COUNT_RETRIES (i : Nat) : Field := ⟨0xC0118, i, 32, 16, 0, .rc⟩
/-- RC, R467 -/
def SLOT_COUNT_FLT_UNEXPECTED (i : Nat) : Field := ⟨0xC0118, i, 48, 16, 0, .rc⟩

/-! #### Chapter 15, start-up and configuration -/

/-- RO, R495 -/
def CFG_STATUS_STATE : Field := ⟨0x0, 0, 0, 3, 0, .ro⟩
/-- RO, R495 -/
def CFG_STATUS_REASON : Field := ⟨0x0, 0, 3, 3, 0, .ro⟩
/-- RO, R495 -/
def CFG_STATUS_TWIN_SEL : Field := ⟨0x0, 0, 6, 1, 0, .ro⟩
/-- RO, R495 -/
def CFG_STATUS_AGG_ID : Field := ⟨0x0, 0, 16, 14, 0, .ro⟩

/-- RO, R495 -/
def CFG_IMG_INFO_CODE0 : Field := ⟨0x8, 0, 0, 4, 0, .ro⟩
/-- RO, R495 -/
def CFG_IMG_INFO_CODE1 : Field := ⟨0x8, 0, 4, 4, 0, .ro⟩
/-- RO, R495 -/
def CFG_IMG_INFO_LIVE : Field := ⟨0x8, 0, 8, 2, 3, .ro⟩
/-- RO, R495 -/
def CFG_IMG_INFO_GEN0 : Field := ⟨0x8, 0, 16, 24, 0, .ro⟩
/-- RO, R495 -/
def CFG_IMG_INFO_GEN1 : Field := ⟨0x8, 0, 40, 24, 0, .ro⟩

/-- W1C, R495 -/
def CFG_EVENT_SLOT0_BAD : Field := ⟨0x10, 0, 0, 1, 0, .w1c⟩
/-- W1C, R495 -/
def CFG_EVENT_SLOT1_BAD : Field := ⟨0x10, 0, 1, 1, 0, .w1c⟩
/-- W1C, R495 -/
def CFG_EVENT_HELD : Field := ⟨0x10, 0, 2, 1, 0, .w1c⟩
/-- W1C, R495 -/
def CFG_EVENT_COMMIT_REFUSED : Field := ⟨0x10, 0, 3, 1, 0, .w1c⟩
/-- W1C, R495 -/
def CFG_EVENT_ADOPT_REFUSED : Field := ⟨0x10, 0, 4, 1, 0, .w1c⟩
/-- W1C, R495 -/
def CFG_EVENT_UCFG_DIFF : Field := ⟨0x10, 0, 5, 1, 0, .w1c⟩
/-- W1C, R495 -/
def CFG_EVENT_PUSH_FAIL : Field := ⟨0x10, 0, 6, 1, 0, .w1c⟩
/-- W1C, R495 -/
def CFG_EVENT_PROXY_TMO : Field := ⟨0x10, 0, 7, 1, 0, .w1c⟩
/-- W1C, R495 -/
def CFG_EVENT_APERTURE_VIOL : Field := ⟨0x10, 0, 8, 1, 0, .w1c⟩
/-- W1C, R495 -/
def CFG_EVENT_PROG_FAIL : Field := ⟨0x10, 0, 9, 1, 0, .w1c⟩
/-- W1C, R495 -/
def CFG_EVENT_PCIE_UE : Field := ⟨0x10, 0, 10, 1, 0, .w1c⟩

/-- WO, R495 -/
def CFG_COMMIT_GO : Field := ⟨0x18, 0, 0, 1, 0, .wo⟩

/-- RO, R495 -/
def CFG_COMMIT_STATUS_PENDING : Field := ⟨0x20, 0, 0, 1, 0, .ro⟩
/-- RO, R495 -/
def CFG_COMMIT_STATUS_REASON : Field := ⟨0x20, 0, 8, 3, 0, .ro⟩
/-- RO, R495 -/
def CFG_COMMIT_STATUS_OFFSET : Field := ⟨0x20, 0, 11, 21, 0, .ro⟩
/-- RO, R495 -/
def CFG_COMMIT_STATUS_TICK : Field := ⟨0x20, 0, 32, 32, 0, .ro⟩

/-- RW, R495 -/
def CFG_LIVE_SEL_OFFSET : Field := ⟨0x28, 0, 3, 21, 0, .rw⟩

/-- RO, R495 -/
def CFG_LIVE_DATA_VALUE : Field := ⟨0x30, 0, 0, 64, 0, .ro⟩

/-- RW, R495 -/
def CFG_ADOPT_GO : Field := ⟨0x38, 0, 0, 1, 0, .rw⟩
/-- RW, R495 -/
def CFG_ADOPT_WRITE : Field := ⟨0x38, 0, 1, 1, 0, .rw⟩
/-- RW, R495 -/
def CFG_ADOPT_LEN : Field := ⟨0x38, 0, 2, 25, 0, .rw⟩
/-- RO, R495 -/
def CFG_ADOPT_CODE : Field := ⟨0x38, 0, 32, 4, 0, .ro⟩

/-- RW, R495 -/
def CFG_APERTURE_BASE_4G : Field := ⟨0x40, 0, 0, 6, 0, .rw⟩

/-- WO, R495 -/
def CFG_FLASH_CTRL_OP : Field := ⟨0x48, 0, 0, 2, 0, .wo⟩
/-- WO, R495 -/
def CFG_FLASH_CTRL_SLOT : Field := ⟨0x48, 0, 2, 1, 0, .wo⟩
/-- WO, R495 -/
def CFG_FLASH_CTRL_LEN : Field := ⟨0x48, 0, 4, 25, 0, .wo⟩

/-- RO, R495 -/
def CFG_FLASH_STATUS_BUSY : Field := ⟨0x50, 0, 0, 1, 0, .ro⟩
/-- RO, R495 -/
def CFG_FLASH_STATUS_DONE : Field := ⟨0x50, 0, 1, 1, 0, .ro⟩
/-- RO, R495 -/
def CFG_FLASH_STATUS_OK : Field := ⟨0x50, 0, 2, 1, 0, .ro⟩

/-- RO, R495 -/
def CFG_PROXY_STATUS_SLOT : Field := ⟨0x58, 0, 0, 4, 0, .ro⟩
/-- RO, R495 -/
def CFG_PROXY_STATUS_STATUS : Field := ⟨0x58, 0, 8, 8, 0, .ro⟩
/-- RO, R495 -/
def CFG_PROXY_STATUS_ARG : Field := ⟨0x58, 0, 32, 32, 0, .ro⟩

/-- WO, R495 -/
def CFG_UPUSH_SLOT : Field := ⟨0x60, 0, 0, 4, 0, .wo⟩

/-- RO, R495 -/
def CFG_UCFG_STATUS_DONE : Field := ⟨0x68, 0, 0, 16, 0, .ro⟩
/-- RO, R495 -/
def CFG_UCFG_STATUS_BUSY : Field := ⟨0x68, 0, 16, 16, 0, .ro⟩
/-- RO, R495 -/
def CFG_UCFG_STATUS_DIFF : Field := ⟨0x68, 0, 32, 16, 0, .ro⟩

end Sys2Proof.Machine
end

