-- ==== Sys2Proof/Machine/RegsUlg.lean ====
section
/-! DEFINITION. The register fields of the Uligo (offsets in its 64 KiB window, R17), taken field by field from the register tables of the spec:
name, byte offset, index of the copy, lowest bit, width, reset value, access type. An indexed register takes its
index as argument; a register behind a select register takes the selected value. -/

namespace Sys2Proof.Machine

/-! #### Chapter 01, fleet time -/

/-- RO, R57 -/
def ULG_TIME_SEC_SEC : Field := ⟨0x100, 0, 0, 48, 0, .ro⟩

/-- RO, R57 -/
def ULG_TIME_SUBSEC_NS : Field := ⟨0x108, 0, 0, 32, 0, .ro⟩
/-- RO, R57 -/
def ULG_TIME_SUBSEC_FRAC : Field := ⟨0x108, 0, 32, 16, 0, .ro⟩

/-- RO, R57 -/
def ULG_STAMP32_STAMP : Field := ⟨0x110, 0, 0, 32, 0, .ro⟩

/-- RO, R57 -/
def ULG_TICK_NOW_TICK : Field := ⟨0x118, 0, 0, 64, 0, .ro⟩

/-- RO, R57 -/
def ULG_SERVO_STATUS_STATE : Field := ⟨0x120, 0, 0, 3, 0, .ro⟩
/-- RO, R57 -/
def ULG_SERVO_STATUS_SRC : Field := ⟨0x120, 0, 3, 1, 0, .ro⟩
/-- RO, R57 -/
def ULG_SERVO_STATUS_ERR_NS : Field := ⟨0x120, 0, 4, 4, 15, .ro⟩
/-- RO, R57 -/
def ULG_SERVO_STATUS_A_VALID : Field := ⟨0x120, 0, 8, 1, 0, .ro⟩
/-- RO, R57 -/
def ULG_SERVO_STATUS_B_VALID : Field := ⟨0x120, 0, 9, 1, 0, .ro⟩

/-- RO, R57 -/
def ULG_PORT_OFFSET_OFF_A : Field := ⟨0x128, 0, 0, 32, 0, .ro⟩
/-- RO, R57 -/
def ULG_PORT_OFFSET_OFF_B : Field := ⟨0x128, 0, 32, 32, 0, .ro⟩

/-- RWS, R57 -/
def ULG_TIME_CFG_KP_SHIFT : Field := ⟨0x130, 0, 0, 4, 1, .rws⟩
/-- RWS, R57 -/
def ULG_TIME_CFG_KI_SHIFT : Field := ⟨0x130, 0, 4, 4, 5, .rws⟩
/-- RWS, R57 -/
def ULG_TIME_CFG_LOCK_NS : Field := ⟨0x130, 0, 8, 8, 8, .rws⟩
/-- RWS, R57 -/
def ULG_TIME_CFG_STEP_NS : Field := ⟨0x130, 0, 16, 8, 4, .rws⟩
/-- RWS, R57 -/
def ULG_TIME_CFG_SLEW_PPB : Field := ⟨0x130, 0, 24, 16, 20000, .rws⟩
/-- RWS, R57 -/
def ULG_TIME_CFG_SRC_PREF : Field := ⟨0x130, 0, 40, 1, 0, .rws⟩
/-- RWS, R57 -/
def ULG_TIME_CFG_DISAGREE_NS : Field := ⟨0x130, 0, 41, 7, 12, .rws⟩
/-- RWS, R57 -/
def ULG_TIME_CFG_COAST_US : Field := ⟨0x130, 0, 48, 8, 16, .rws⟩

/-- RWS, R57 -/
def ULG_TICK_CFG_TICK_US : Field := ⟨0x138, 0, 0, 20, 100, .rws⟩
/-- RWS, R57 -/
def ULG_TICK_CFG_ROUND_TICKS : Field := ⟨0x138, 0, 20, 20, 10, .rws⟩

/-- RWS, R57 -/
def ULG_TICK_ACT_SEC_ACT_SEC : Field := ⟨0x140, 0, 0, 48, 0, .rws⟩

/-- W1C, R57 -/
def ULG_TIME_EVENT_LOCK_LOST : Field := ⟨0x148, 0, 0, 1, 0, .w1c⟩
/-- W1C, R57 -/
def ULG_TIME_EVENT_HOLD_ENTER : Field := ⟨0x148, 0, 1, 1, 0, .w1c⟩
/-- W1C, R57 -/
def ULG_TIME_EVENT_STEP_SEEN : Field := ⟨0x148, 0, 2, 1, 0, .w1c⟩
/-- W1C, R57 -/
def ULG_TIME_EVENT_SRC_SWITCH : Field := ⟨0x148, 0, 3, 1, 0, .w1c⟩
/-- W1C, R57 -/
def ULG_TIME_EVENT_DISAGREE : Field := ⟨0x148, 0, 4, 1, 0, .w1c⟩
/-- W1C, R57 -/
def ULG_TIME_EVENT_ISLAND_MISSING : Field := ⟨0x148, 0, 5, 1, 0, .w1c⟩
/-- W1C, R57 -/
def ULG_TIME_EVENT_PARTIAL : Field := ⟨0x148, 0, 6, 1, 0, .w1c⟩
/-- W1C, R57 -/
def ULG_TIME_EVENT_TICK_LATE : Field := ⟨0x148, 0, 7, 1, 0, .w1c⟩
/-- W1C, R57 -/
def ULG_TIME_EVENT_HOST_WRITE : Field := ⟨0x148, 0, 8, 1, 0, .w1c⟩
/-- W1C, R57 -/
def ULG_TIME_EVENT_TW_BAD : Field := ⟨0x148, 0, 9, 1, 0, .w1c⟩
/-- W1C, R57 -/
def ULG_TIME_EVENT_SLEW_ENTER : Field := ⟨0x148, 0, 10, 1, 0, .w1c⟩
/-- W1C, R57 -/
def ULG_TIME_EVENT_LARGE_OFFSET : Field := ⟨0x148, 0, 11, 1, 0, .w1c⟩
/-- W1C, R57 -/
def ULG_TIME_EVENT_HOLD_LIMIT : Field := ⟨0x148, 0, 12, 1, 0, .w1c⟩

/-- RWS, R57 -/
def ULG_PORT_ASYM_ASYM_A : Field := ⟨0x150, 0, 0, 24, 0, .rws⟩
/-- RWS, R57 -/
def ULG_PORT_ASYM_ASYM_B : Field := ⟨0x150, 0, 24, 24, 0, .rws⟩

/-- RWS, R57 -/
def ULG_TIME_CFG2_LARGE_US : Field := ⟨0x158, 0, 0, 16, 1000, .rws⟩
/-- RWS, R57 -/
def ULG_TIME_CFG2_HOLD_LIMIT_S : Field := ⟨0x158, 0, 16, 8, 10, .rws⟩

/-! #### Chapter 02, counting -/

/-- RWS, R98 -/
def ULG_CNT_CFG_CLUSTERS : Field := ⟨0x200, 0, 0, 8, 128, .rws⟩
/-- RWS, R98 -/
def ULG_CNT_CFG_UNCORE_BUSES : Field := ⟨0x200, 0, 8, 5, 16, .rws⟩
/-- RWS, R98 -/
def ULG_CNT_CFG_QUEUES : Field := ⟨0x200, 0, 16, 9, 256, .rws⟩
/-- RWS, R98 -/
def ULG_CNT_CFG_HANG_TICKS : Field := ⟨0x200, 0, 32, 8, 10, .rws⟩
/-- RWS, R98 -/
def ULG_CNT_CFG_HANG_MIN_CYC : Field := ⟨0x200, 0, 40, 24, 1000, .rws⟩

/-- RWS, R98 -/
def ULG_PACK_CFG_KEY_TICKS : Field := ⟨0x208, 0, 0, 20, 1000, .rws⟩
/-- RWS, R98 -/
def ULG_PACK_CFG_OVS_TO_REC : Field := ⟨0x208, 0, 20, 1, 1, .rws⟩
/-- RWS, R98 -/
def ULG_PACK_CFG_RING_DUMP_EN : Field := ⟨0x208, 0, 21, 1, 1, .rws⟩

/-- W1S, R98 -/
def ULG_PACK_CTRL_FULL_NEXT : Field := ⟨0x210, 0, 0, 1, 0, .w1s⟩

/-- RO, R98 -/
def ULG_CNT_STATUS_LAST_LEN : Field := ⟨0x218, 0, 0, 32, 0, .ro⟩
/-- RO, R98 -/
def ULG_CNT_STATUS_LAST_SECTIONS : Field := ⟨0x218, 0, 32, 16, 0, .ro⟩
/-- RO, R98 -/
def ULG_CNT_STATUS_BUF_BUSY : Field := ⟨0x218, 0, 48, 2, 0, .ro⟩
/-- RO, R98 -/
def ULG_CNT_STATUS_PACKING : Field := ⟨0x218, 0, 50, 1, 0, .ro⟩
/-- RO, R98 -/
def ULG_CNT_STATUS_SKIPPED : Field := ⟨0x218, 0, 51, 13, 0, .ro⟩

/-- W1C, R98 -/
def ULG_CNT_EVENT_TD_BEAT : Field := ⟨0x220, 0, 0, 1, 0, .w1c⟩
/-- W1C, R98 -/
def ULG_CNT_EVENT_TD_SHADOW : Field := ⟨0x220, 0, 1, 1, 0, .w1c⟩
/-- W1C, R98 -/
def ULG_CNT_EVENT_EV_PARITY : Field := ⟨0x220, 0, 2, 1, 0, .w1c⟩
/-- W1C, R98 -/
def ULG_CNT_EVENT_EV_OVF : Field := ⟨0x220, 0, 3, 1, 0, .w1c⟩
/-- W1C, R98 -/
def ULG_CNT_EVENT_HANG : Field := ⟨0x220, 0, 4, 1, 0, .w1c⟩
/-- W1C, R98 -/
def ULG_CNT_EVENT_OVS_LOST : Field := ⟨0x220, 0, 5, 1, 0, .w1c⟩
/-- W1C, R98 -/
def ULG_CNT_EVENT_PROBE_ERR : Field := ⟨0x220, 0, 6, 1, 0, .w1c⟩
/-- W1C, R98 -/
def ULG_CNT_EVENT_CNT_PARITY : Field := ⟨0x220, 0, 7, 1, 0, .w1c⟩
/-- W1C, R98 -/
def ULG_CNT_EVENT_BUS_VIOL : Field := ⟨0x220, 0, 8, 1, 0, .w1c⟩
/-- W1C, R98 -/
def ULG_CNT_EVENT_HR_ERR : Field := ⟨0x220, 0, 9, 1, 0, .w1c⟩
/-- W1C, R98 -/
def ULG_CNT_EVENT_HOST_WRITE : Field := ⟨0x220, 0, 10, 1, 0, .w1c⟩
/-- W1C, R98 -/
def ULG_CNT_EVENT_REC_SKIP : Field := ⟨0x220, 0, 11, 1, 0, .w1c⟩

/-- RC, R98 -/
def ULG_CNT_ERR_COUNT_TD : Field := ⟨0x228, 0, 0, 16, 0, .rc⟩
/-- RC, R98 -/
def ULG_CNT_ERR_COUNT_PARITY : Field := ⟨0x228, 0, 16, 16, 0, .rc⟩
/-- RC, R98 -/
def ULG_CNT_ERR_COUNT_OVF : Field := ⟨0x228, 0, 32, 16, 0, .rc⟩
/-- RC, R98 -/
def ULG_CNT_ERR_COUNT_LOST : Field := ⟨0x228, 0, 48, 16, 0, .rc⟩

/-- RO, R98 -/
def ULG_TD_FIRST_CORE : Field := ⟨0x230, 0, 0, 13, 0, .ro⟩
/-- RO, R98 -/
def ULG_TD_FIRST_KIND : Field := ⟨0x230, 0, 13, 2, 0, .ro⟩
/-- RO, R98 -/
def ULG_TD_FIRST_VALID : Field := ⟨0x230, 0, 15, 1, 0, .ro⟩
/-- RO, R98 -/
def ULG_TD_FIRST_TICK : Field := ⟨0x230, 0, 16, 48, 0, .ro⟩

/-- RW, R98 -/
def ULG_CNT_IRQ_CORE : Field := ⟨0x238, 0, 0, 6, 0, .rw⟩
/-- RW, R98 -/
def ULG_CNT_IRQ_EN : Field := ⟨0x238, 0, 16, 11, 0, .rw⟩

/-- RW, R98 -/
def ULG_SHADOW_SEL_INDEX : Field := ⟨0x240, 0, 0, 17, 0, .rw⟩

/-- RO, R98 -/
def ULG_SHADOW_TICK_TICK : Field := ⟨0x248, 0, 0, 64, 0, .ro⟩

/-- RW, R98 -/
def ULG_LIVE_SEL_INDEX : Field := ⟨0x250, 0, 0, 17, 0, .rw⟩

/-- RO, R98 -/
def ULG_LIVE_DATA_VALUE : Field := ⟨0x258, 0, 0, 48, 0, .ro⟩

/-- RW, R98 -/
def ULG_RING_SEL_CORE : Field := ⟨0x260, 0, 0, 13, 0, .rw⟩

/-- RO, R98 -/
def ULG_RING_STATUS_FROZEN (i : Nat) : Field := ⟨0x268, i, 0, 1, 0, .ro⟩
/-- RO, R98 -/
def ULG_RING_STATUS_VALID (i : Nat) : Field := ⟨0x268, i, 1, 7, 0, .ro⟩
/-- RO, R98 -/
def ULG_RING_STATUS_DUMP_PENDING (i : Nat) : Field := ⟨0x268, i, 8, 1, 0, .ro⟩

/-- WO, R98 -/
def ULG_RING_UNFREEZE_CORE : Field := ⟨0x270, 0, 0, 13, 0, .wo⟩
/-- WO, R98 -/
def ULG_RING_UNFREEZE_ALL : Field := ⟨0x270, 0, 16, 1, 0, .wo⟩

/-- RO, R98 -/
def ULG_FROZEN_COUNT_COUNT : Field := ⟨0x278, 0, 0, 14, 0, .ro⟩

/-- RC, R98 -/
def ULG_OVS_POP_VALID : Field := ⟨0x280, 0, 0, 1, 0, .rc⟩
/-- RC, R98 -/
def ULG_OVS_POP_SLOT : Field := ⟨0x280, 0, 1, 6, 0, .rc⟩
/-- RC, R98 -/
def ULG_OVS_POP_CORE : Field := ⟨0x280, 0, 7, 13, 0, .rc⟩
/-- RC, R98 -/
def ULG_OVS_POP_STAMP : Field := ⟨0x280, 0, 20, 32, 0, .rc⟩

/-- RO, R98 -/
def ULG_OVS_PC_PC : Field := ⟨0x288, 0, 0, 48, 0, .ro⟩
/-- RO, R98 -/
def ULG_OVS_PC_HOST : Field := ⟨0x288, 0, 48, 16, 0, .ro⟩

/-- RO, R98 -/
def ULG_OVS_LEVEL_LEVEL (i : Nat) : Field := ⟨0x290, i, 0, 5, 0, .ro⟩

/-- RW, R98 -/
def ULG_OVS_PEEK_SEL_CORE : Field := ⟨0x298, 0, 0, 6, 0, .rw⟩

/-- RO, R98 -/
def ULG_SHADOW_DATA_VALUE (i : Nat) : Field := ⟨0x1000, i, 0, 48, 0, .ro⟩

/-- RO, R98 -/
def ULG_RING_DATA_STAMP (i : Nat) : Field := ⟨0x1200, i, 0, 32, 0, .ro⟩
/-- RO, R98 -/
def ULG_RING_DATA_CODE (i : Nat) : Field := ⟨0x1200, i, 32, 8, 0, .ro⟩
/-- RO, R98 -/
def ULG_RING_DATA_ARG (i : Nat) : Field := ⟨0x1200, i, 40, 24, 0, .ro⟩

/-- RW, R98 -/
def ULG_OVS_SLOT_COUNTER (i : Nat) : Field := ⟨0x1400, i, 0, 16, 0, .rw⟩
/-- RW, R98 -/
def ULG_OVS_SLOT_EN (i : Nat) : Field := ⟨0x1400, i, 16, 1, 0, .rw⟩
/-- RW, R98 -/
def ULG_OVS_SLOT_CTRL_CORE (i : Nat) : Field := ⟨0x1400, i, 17, 6, 0, .rw⟩
/-- RW, R98 -/
def ULG_OVS_SLOT_PERIOD (i : Nat) : Field := ⟨0x1400, i, 23, 32, 0, .rw⟩

/-! #### Chapter 03, trace, field test, tile capture, epoch -/

/-- RW, R134 -/
def ULG_TRC_CFG_EN : Field := ⟨0x400, 0, 0, 1, 0, .rw⟩
/-- RW, R134 -/
def ULG_TRC_CFG_MODE : Field := ⟨0x400, 0, 1, 1, 0, .rw⟩
/-- RW, R134 -/
def ULG_TRC_CFG_STOP_ON_FULL : Field := ⟨0x400, 0, 2, 1, 0, .rw⟩
/-- RW, R134 -/
def ULG_TRC_CFG_SYNC_INTERVAL : Field := ⟨0x400, 0, 8, 8, 4, .rw⟩

/-- RW, R134 -/
def ULG_TRC_CORE_EN_EN : Field := ⟨0x408, 0, 0, 64, 0, .rw⟩

/-- RWS, R134 -/
def ULG_TRC_AUTH_PRIV_OK : Field := ⟨0x410, 0, 0, 1, 0, .rws⟩
/-- RWS, R134 -/
def ULG_TRC_AUTH_SECURE_OK : Field := ⟨0x410, 0, 1, 1, 0, .rws⟩
/-- RWS, R134 -/
def ULG_TRC_AUTH_EXPIRY : Field := ⟨0x410, 0, 16, 48, 0, .rws⟩

/-- RW, R134 -/
def ULG_TRC_SEL_CORE : Field := ⟨0x418, 0, 0, 6, 0, .rw⟩

/-- RO, R134 -/
def ULG_TRC_STATUS_ACTIVE (i : Nat) : Field := ⟨0x420, i, 0, 1, 0, .ro⟩
/-- RO, R134 -/
def ULG_TRC_STATUS_FIFO_LEVEL (i : Nat) : Field := ⟨0x420, i, 1, 6, 0, .ro⟩

/-- RO, R134 -/
def ULG_TRC_RING_PTR_OFFSET : Field := ⟨0x428, 0, 3, 17, 0, .ro⟩
/-- RO, R134 -/
def ULG_TRC_RING_PTR_WRAPPED : Field := ⟨0x428, 0, 20, 1, 0, .ro⟩

/-- RW, R134 -/
def ULG_TRC_RING_SEL_OFFSET : Field := ⟨0x430, 0, 3, 17, 0, .rw⟩

/-- RO, R134 -/
def ULG_TRC_RING_DATA_WORD : Field := ⟨0x438, 0, 0, 64, 0, .ro⟩

/-- W1C, R134 -/
def ULG_TRC_EVENT_OVERFLOW : Field := ⟨0x440, 0, 0, 1, 0, .w1c⟩
/-- W1C, R134 -/
def ULG_TRC_EVENT_PRIV_GAP : Field := ⟨0x440, 0, 1, 1, 0, .w1c⟩
/-- W1C, R134 -/
def ULG_TRC_EVENT_PARITY : Field := ⟨0x440, 0, 2, 1, 0, .w1c⟩
/-- W1C, R134 -/
def ULG_TRC_EVENT_AUTH_EXPIRED : Field := ⟨0x440, 0, 3, 1, 0, .w1c⟩
/-- W1C, R134 -/
def ULG_TRC_EVENT_STREAM_LOST : Field := ⟨0x440, 0, 4, 1, 0, .w1c⟩
/-- W1C, R134 -/
def ULG_TRC_EVENT_RING_FULL : Field := ⟨0x440, 0, 5, 1, 0, .w1c⟩
/-- W1C, R134 -/
def ULG_TRC_EVENT_HOST_WRITE : Field := ⟨0x440, 0, 6, 1, 0, .w1c⟩
/-- W1C, R134 -/
def ULG_TRC_EVENT_VIOL : Field := ⟨0x440, 0, 7, 1, 0, .w1c⟩

/-- RC, R134 -/
def ULG_TRC_LOST_BEATS : Field := ⟨0x448, 0, 0, 32, 0, .rc⟩
/-- RC, R134 -/
def ULG_TRC_LOST_WORDS : Field := ⟨0x448, 0, 32, 32, 0, .rc⟩

/-- RW, R134 -/
def ULG_TRC_CMP_ADDR (i k : Nat) : Field := ⟨0x480, (i * 8 + k), 0, 48, 0, .rw⟩
/-- RW, R134 -/
def ULG_TRC_CMP_EN (i k : Nat) : Field := ⟨0x480, (i * 8 + k), 48, 1, 0, .rw⟩
/-- RW, R134 -/
def ULG_TRC_CMP_ON (i k : Nat) : Field := ⟨0x480, (i * 8 + k), 49, 1, 0, .rw⟩
/-- RW, R134 -/
def ULG_TRC_CMP_ACTION (i k : Nat) : Field := ⟨0x480, (i * 8 + k), 50, 2, 0, .rw⟩

/-- RW, R134 -/
def ULG_TRC_RANGE_LO_ADDR (i k : Nat) : Field := ⟨0x4C0, (i * 4 + k), 0, 48, 0, .rw⟩
/-- RW, R134 -/
def ULG_TRC_RANGE_LO_MODE (i k : Nat) : Field := ⟨0x4C0, (i * 4 + k), 48, 2, 0, .rw⟩

/-- RW, R134 -/
def ULG_TRC_RANGE_HI_ADDR (i k : Nat) : Field := ⟨0x4C8, (i * 4 + k), 0, 48, 0, .rw⟩

/-- RWS, R134 -/
def ULG_FT_CFG_EN : Field := ⟨0x500, 0, 0, 1, 0, .rws⟩
/-- RWS, R134 -/
def ULG_FT_CFG_PERIOD_S : Field := ⟨0x500, 0, 8, 16, 600, .rws⟩
/-- RWS, R134 -/
def ULG_FT_CFG_DEADLINE_S : Field := ⟨0x500, 0, 24, 16, 60, .rws⟩
/-- RWS, R134 -/
def ULG_FT_CFG_DEFER_LIMIT : Field := ⟨0x500, 0, 40, 8, 6, .rws⟩
/-- RWS, R134 -/
def ULG_FT_CFG_PAIR_WAIT_S : Field := ⟨0x500, 0, 48, 16, 60, .rws⟩

/-- RWS, R134 -/
def ULG_FT_SEED_SEED : Field := ⟨0x508, 0, 0, 64, 0, .rws⟩

/-- RO, R134 -/
def ULG_FT_STATUS_OPEN : Field := ⟨0x518, 0, 0, 7, 0, .ro⟩
/-- RO, R134 -/
def ULG_FT_STATUS_RUNNING : Field := ⟨0x518, 0, 7, 14, 0, .ro⟩
/-- RO, R134 -/
def ULG_FT_STATUS_DEFERRED : Field := ⟨0x518, 0, 21, 14, 0, .ro⟩

/-- RO, R134 -/
def ULG_FT_SEQ_SEQ : Field := ⟨0x520, 0, 0, 64, 0, .ro⟩

/-- WO, R134 -/
def ULG_FT_FORCE_CORE : Field := ⟨0x528, 0, 0, 13, 0, .wo⟩
/-- WO, R134 -/
def ULG_FT_FORCE_KERNEL : Field := ⟨0x528, 0, 16, 8, 0, .wo⟩
/-- WO, R134 -/
def ULG_FT_FORCE_SEQ_LO : Field := ⟨0x528, 0, 32, 32, 0, .wo⟩

/-- W1C, R134 -/
def ULG_FT_EVENT_FAIL : Field := ⟨0x530, 0, 0, 1, 0, .w1c⟩
/-- W1C, R134 -/
def ULG_FT_EVENT_NO_MAJORITY : Field := ⟨0x530, 0, 1, 1, 0, .w1c⟩
/-- W1C, R134 -/
def ULG_FT_EVENT_TIMEOUT : Field := ⟨0x530, 0, 2, 1, 0, .w1c⟩
/-- W1C, R134 -/
def ULG_FT_EVENT_STARVED : Field := ⟨0x530, 0, 3, 1, 0, .w1c⟩
/-- W1C, R134 -/
def ULG_FT_EVENT_FT_VIOL : Field := ⟨0x530, 0, 4, 1, 0, .w1c⟩
/-- W1C, R134 -/
def ULG_FT_EVENT_TABLE_FULL : Field := ⟨0x530, 0, 5, 1, 0, .w1c⟩
/-- W1C, R134 -/
def ULG_FT_EVENT_HOST_WRITE : Field := ⟨0x530, 0, 6, 1, 0, .w1c⟩
/-- W1C, R134 -/
def ULG_FT_EVENT_FORCE_REFUSED : Field := ⟨0x530, 0, 7, 1, 0, .w1c⟩

/-- RC, R134 -/
def ULG_FT_COUNT_PASS : Field := ⟨0x538, 0, 0, 16, 0, .rc⟩
/-- RC, R134 -/
def ULG_FT_COUNT_FAIL : Field := ⟨0x538, 0, 16, 16, 0, .rc⟩
/-- RC, R134 -/
def ULG_FT_COUNT_DEFER : Field := ⟨0x538, 0, 32, 16, 0, .rc⟩
/-- RC, R134 -/
def ULG_FT_COUNT_TIMEOUT : Field := ⟨0x538, 0, 48, 16, 0, .rc⟩

/-- RW, R134 -/
def ULG_FT_CORE_SEL_CORE : Field := ⟨0x540, 0, 0, 13, 0, .rw⟩

/-- RO, R134 -/
def ULG_FT_CORE_STATUS_STATE (i : Nat) : Field := ⟨0x548, i, 0, 2, 0, .ro⟩
/-- RO, R134 -/
def ULG_FT_CORE_STATUS_FAILED (i : Nat) : Field := ⟨0x548, i, 2, 1, 0, .ro⟩
/-- RO, R134 -/
def ULG_FT_CORE_STATUS_DEFERS (i : Nat) : Field := ⟨0x548, i, 8, 8, 0, .ro⟩
/-- RO, R134 -/
def ULG_FT_CORE_STATUS_LAST_PASS_SEC (i : Nat) : Field := ⟨0x548, i, 16, 32, 0, .ro⟩

/-- RWS, R134 -/
def ULG_FT_KTAB_ID (i : Nat) : Field := ⟨0x580, i, 0, 8, 0, .rws⟩
/-- RWS, R134 -/
def ULG_FT_KTAB_EN (i : Nat) : Field := ⟨0x580, i, 8, 1, 0, .rws⟩
/-- RWS, R134 -/
def ULG_FT_KTAB_MAX_US (i : Nat) : Field := ⟨0x580, i, 9, 7, 0, .rws⟩

/-- RWS, R134 -/
def ULG_TILE_CFG_EN : Field := ⟨0x600, 0, 0, 1, 0, .rws⟩
/-- RWS, R134 -/
def ULG_TILE_CFG_LOG2N : Field := ⟨0x600, 0, 1, 4, 6, .rws⟩
/-- RWS, R134 -/
def ULG_TILE_CFG_TAPS : Field := ⟨0x600, 0, 5, 6, 0, .rws⟩
/-- RWS, R134 -/
def ULG_TILE_CFG_TIMEOUT_US : Field := ⟨0x600, 0, 16, 16, 1000, .rws⟩

/-- RWS, R134 -/
def ULG_TILE_SEED_SEED : Field := ⟨0x608, 0, 0, 64, 0, .rws⟩

/-- W1S, R134 -/
def ULG_TILE_FORCE_TAP : Field := ⟨0x610, 0, 0, 32, 0, .w1s⟩

/-- RO, R134 -/
def ULG_TILE_STATUS_BUF_FREE_KIB : Field := ⟨0x618, 0, 0, 13, 6144, .ro⟩
/-- RO, R134 -/
def ULG_TILE_STATUS_OPEN : Field := ⟨0x618, 0, 14, 32, 0, .ro⟩

/-- RO, R134 -/
def ULG_TILE_SEQ_SEQ : Field := ⟨0x620, 0, 0, 64, 0, .ro⟩

/-- W1C, R134 -/
def ULG_TILE_EVENT_VIOL : Field := ⟨0x628, 0, 0, 1, 0, .w1c⟩
/-- W1C, R134 -/
def ULG_TILE_EVENT_PARITY : Field := ⟨0x628, 0, 1, 1, 0, .w1c⟩
/-- W1C, R134 -/
def ULG_TILE_EVENT_TIMEOUT : Field := ⟨0x628, 0, 2, 1, 0, .w1c⟩
/-- W1C, R134 -/
def ULG_TILE_EVENT_SKIPPED : Field := ⟨0x628, 0, 3, 1, 0, .w1c⟩
/-- W1C, R134 -/
def ULG_TILE_EVENT_HOST_WRITE : Field := ⟨0x628, 0, 4, 1, 0, .w1c⟩

/-- RC, R134 -/
def ULG_TILE_COUNT_CAPTURED : Field := ⟨0x630, 0, 0, 32, 0, .rc⟩
/-- RC, R134 -/
def ULG_TILE_COUNT_SKIPPED : Field := ⟨0x630, 0, 32, 32, 0, .rc⟩

/-- RC, R134 -/
def ULG_TILE_DISCARD_DISCARDED : Field := ⟨0x638, 0, 0, 32, 0, .rc⟩

/-- RWS, R134 -/
def ULG_EPOCH_CFG_EPOCH_MS : Field := ⟨0x700, 0, 0, 16, 100, .rws⟩

/-- RWS, R134 -/
def ULG_EPOCH_ACT_SEC_ACT_SEC : Field := ⟨0x708, 0, 0, 48, 0, .rws⟩

/-- RO, R134 -/
def ULG_EPOCH_NOW_EPOCH : Field := ⟨0x710, 0, 0, 32, 0xFFFFFFFF, .ro⟩
/-- RO, R134 -/
def ULG_EPOCH_NOW_VALID : Field := ⟨0x710, 0, 32, 1, 0, .ro⟩

/-- W1C, R134 -/
def ULG_EPOCH_EVENT_EPOCH_LATE : Field := ⟨0x718, 0, 0, 1, 0, .w1c⟩
/-- W1C, R134 -/
def ULG_EPOCH_EVENT_HOST_WRITE : Field := ⟨0x718, 0, 1, 1, 0, .w1c⟩

/-! #### Chapter 04, die link -/

/-- RO, R169 -/
def ULG_LINK_STATUS_STATE (i : Nat) : Field := ⟨0x800, i, 0, 3, 0, .ro⟩
/-- RO, R169 -/
def ULG_LINK_STATUS_LANES (i : Nat) : Field := ⟨0x800, i, 3, 1, 0, .ro⟩
/-- RO, R169 -/
def ULG_LINK_STATUS_PAIR (i : Nat) : Field := ⟨0x800, i, 4, 1, 0, .ro⟩
/-- RO, R169 -/
def ULG_LINK_STATUS_ROLE (i : Nat) : Field := ⟨0x800, i, 5, 3, 0, .ro⟩
/-- RO, R169 -/
def ULG_LINK_STATUS_PRIMARY (i : Nat) : Field := ⟨0x800, i, 8, 1, 0, .ro⟩
/-- RO, R169 -/
def ULG_LINK_STATUS_SESSION (i : Nat) : Field := ⟨0x800, i, 9, 2, 0, .ro⟩
/-- RO, R169 -/
def ULG_LINK_STATUS_FULL_REQ (i : Nat) : Field := ⟨0x800, i, 11, 1, 0, .ro⟩
/-- RO, R169 -/
def ULG_LINK_STATUS_SESS_TAG (i : Nat) : Field := ⟨0x800, i, 16, 16, 0, .ro⟩

/-- RO, R169 -/
def ULG_LINK_NONCE_NONCE (i : Nat) : Field := ⟨0x808, i, 0, 64, 0, .ro⟩

/-- RO, R169 -/
def ULG_LINK_CMD_NEXT (i : Nat) : Field := ⟨0x810, i, 0, 32, 0, .ro⟩
/-- RO, R169 -/
def ULG_LINK_CMD_CACHED (i : Nat) : Field := ⟨0x810, i, 32, 7, 0, .ro⟩

/-- W1C, R169 -/
def ULG_LINK_EVENT_RETRY (i : Nat) : Field := ⟨0x818, i, 0, 1, 0, .w1c⟩
/-- W1C, R169 -/
def ULG_LINK_EVENT_DOWN (i : Nat) : Field := ⟨0x818, i, 1, 1, 0, .w1c⟩
/-- W1C, R169 -/
def ULG_LINK_EVENT_DEGRADED (i : Nat) : Field := ⟨0x818, i, 2, 1, 0, .w1c⟩
/-- W1C, R169 -/
def ULG_LINK_EVENT_VIOL (i : Nat) : Field := ⟨0x818, i, 3, 1, 0, .w1c⟩
/-- W1C, R169 -/
def ULG_LINK_EVENT_ROLE_CONFLICT (i : Nat) : Field := ⟨0x818, i, 4, 1, 0, .w1c⟩
/-- W1C, R169 -/
def ULG_LINK_EVENT_FULL_REQ (i : Nat) : Field := ⟨0x818, i, 5, 1, 0, .w1c⟩
/-- W1C, R169 -/
def ULG_LINK_EVENT_NEW_SESSION (i : Nat) : Field := ⟨0x818, i, 6, 1, 0, .w1c⟩
/-- W1C, R169 -/
def ULG_LINK_EVENT_RESUMED (i : Nat) : Field := ⟨0x818, i, 7, 1, 0, .w1c⟩
/-- W1C, R169 -/
def ULG_LINK_EVENT_HOST_WRITE (i : Nat) : Field := ⟨0x818, i, 8, 1, 0, .w1c⟩

/-- RC, R169 -/
def ULG_LINK_ERR_COUNT_REPLAYS (i : Nat) : Field := ⟨0x820, i, 0, 16, 0, .rc⟩
/-- RC, R169 -/
def ULG_LINK_ERR_COUNT_RETRIES (i : Nat) : Field := ⟨0x820, i, 16, 16, 0, .rc⟩
/-- RC, R169 -/
def ULG_LINK_ERR_COUNT_VIOL (i : Nat) : Field := ⟨0x820, i, 32, 16, 0, .rc⟩
/-- RC, R169 -/
def ULG_LINK_ERR_COUNT_STALE (i : Nat) : Field := ⟨0x820, i, 48, 16, 0, .rc⟩

/-- RWS, R169 -/
def ULG_LINK_CFG_EN_A : Field := ⟨0x880, 0, 0, 1, 1, .rws⟩
/-- RWS, R169 -/
def ULG_LINK_CFG_EN_B : Field := ⟨0x880, 0, 1, 1, 1, .rws⟩
/-- RWS, R169 -/
def ULG_LINK_CFG_DEGRADE_OK : Field := ⟨0x880, 0, 2, 1, 1, .rws⟩

/-! #### Chapter 11, silent errors -/

/-- RO, R387 -/
def ULG_RPL_STATUS_STATE : Field := ⟨0x900, 0, 0, 3, 0, .ro⟩
/-- RO, R387 -/
def ULG_RPL_STATUS_RUNS_DONE : Field := ⟨0x900, 0, 3, 3, 0, .ro⟩
/-- RO, R387 -/
def ULG_RPL_STATUS_SEQ_LO : Field := ⟨0x900, 0, 16, 32, 0, .ro⟩
/-- RO, R387 -/
def ULG_RPL_STATUS_CORE : Field := ⟨0x900, 0, 48, 13, 0, .ro⟩

/-- RW, R387 -/
def ULG_RPL_SEL_OFFSET : Field := ⟨0x908, 0, 3, 22, 0, .rw⟩

/-- RO, R387 -/
def ULG_RPL_DATA_WORD : Field := ⟨0x910, 0, 0, 64, 0, .ro⟩

/-- W1C, R387 -/
def ULG_RPL_EVENT_REFUSED : Field := ⟨0x918, 0, 0, 1, 0, .w1c⟩
/-- W1C, R387 -/
def ULG_RPL_EVENT_RUN_TIMEOUT : Field := ⟨0x918, 0, 1, 1, 0, .w1c⟩
/-- W1C, R387 -/
def ULG_RPL_EVENT_BAD_SIG : Field := ⟨0x918, 0, 2, 1, 0, .w1c⟩
/-- W1C, R387 -/
def ULG_RPL_EVENT_CLOSED : Field := ⟨0x918, 0, 3, 1, 0, .w1c⟩

/-! #### Chapter 13, faults -/

/-- RWS, R440 -/
def ULG_FLT_CFG_SHEEPDOG_US : Field := ⟨0xA00, 0, 0, 16, 2000, .rws⟩
/-- RWS, R440 -/
def ULG_FLT_CFG_QUIET_MS : Field := ⟨0xA00, 0, 16, 16, 1000, .rws⟩
/-- RWS, R440 -/
def ULG_FLT_CFG_AUTO_EXIT : Field := ⟨0xA00, 0, 32, 1, 1, .rws⟩
/-- RWS, R440 -/
def ULG_FLT_CFG_RECOVER_MAX : Field := ⟨0xA00, 0, 36, 4, 3, .rws⟩
/-- RWS, R440 -/
def ULG_FLT_CFG_RECOVER_WIN_S : Field := ⟨0xA00, 0, 40, 16, 3600, .rws⟩
/-- RWS, R440 -/
def ULG_FLT_CFG_CAPTURE_MIN : Field := ⟨0xA00, 0, 56, 2, 1, .rws⟩

/-- RO, R440 -/
def ULG_FLT_STATUS_STATE : Field := ⟨0xA08, 0, 0, 3, 0, .ro⟩
/-- RO, R440 -/
def ULG_FLT_STATUS_PENDING : Field := ⟨0xA08, 0, 3, 6, 0, .ro⟩
/-- RO, R440 -/
def ULG_FLT_STATUS_LOG_LEVEL : Field := ⟨0xA08, 0, 9, 6, 0, .ro⟩
/-- RO, R440 -/
def ULG_FLT_STATUS_RECOVERIES : Field := ⟨0xA08, 0, 16, 4, 0, .ro⟩
/-- RO, R440 -/
def ULG_FLT_STATUS_FTM : Field := ⟨0xA08, 0, 20, 1, 0, .ro⟩
/-- RO, R440 -/
def ULG_FLT_STATUS_BIST_FAIL : Field := ⟨0xA08, 0, 21, 1, 0, .ro⟩
/-- RO, R440 -/
def ULG_FLT_STATUS_NEXT_FSEQ : Field := ⟨0xA08, 0, 32, 32, 0, .ro⟩

/-- W1C, R440 -/
def ULG_FLT_EVENT_TMR_CORRECTED : Field := ⟨0xA10, 0, 0, 1, 0, .w1c⟩
/-- W1C, R440 -/
def ULG_FLT_EVENT_INJ_REFUSED : Field := ⟨0xA10, 0, 1, 1, 0, .w1c⟩
/-- W1C, R440 -/
def ULG_FLT_EVENT_LOG_FULL : Field := ⟨0xA10, 0, 2, 1, 0, .w1c⟩
/-- W1C, R440 -/
def ULG_FLT_EVENT_SHEEPDOG : Field := ⟨0xA10, 0, 3, 1, 0, .w1c⟩
/-- W1C, R440 -/
def ULG_FLT_EVENT_SAFE_ENTER : Field := ⟨0xA10, 0, 4, 1, 0, .w1c⟩
/-- W1C, R440 -/
def ULG_FLT_EVENT_SAFE_EXIT : Field := ⟨0xA10, 0, 5, 1, 0, .w1c⟩
/-- W1C, R440 -/
def ULG_FLT_EVENT_LATCHED : Field := ⟨0xA10, 0, 6, 1, 0, .w1c⟩
/-- W1C, R440 -/
def ULG_FLT_EVENT_AGE_WARN : Field := ⟨0xA10, 0, 7, 1, 0, .w1c⟩
/-- W1C, R440 -/
def ULG_FLT_EVENT_AGE_LIMIT : Field := ⟨0xA10, 0, 8, 1, 0, .w1c⟩
/-- W1C, R440 -/
def ULG_FLT_EVENT_HOST_WRITE : Field := ⟨0xA10, 0, 9, 1, 0, .w1c⟩

/-- WO, R440 -/
def ULG_FLT_ACK_FSEQ : Field := ⟨0xA18, 0, 0, 32, 0, .wo⟩

/-- WO, R440 -/
def ULG_FLT_POP_FSEQ : Field := ⟨0xA20, 0, 0, 32, 0, .wo⟩

/-- WO, R440 -/
def ULG_FLT_CTRL_EXIT : Field := ⟨0xA28, 0, 0, 1, 0, .wo⟩
/-- WO, R440 -/
def ULG_FLT_CTRL_ENTER_SAFE : Field := ⟨0xA28, 0, 1, 1, 0, .wo⟩
/-- WO, R440 -/
def ULG_FLT_CTRL_CLEAR_FIRST : Field := ⟨0xA28, 0, 2, 1, 0, .wo⟩

/-- RO, R440 -/
def ULG_FLT_FIRST_SOURCE : Field := ⟨0xA30, 0, 0, 16, 0, .ro⟩
/-- RO, R440 -/
def ULG_FLT_FIRST_CLASS : Field := ⟨0xA30, 0, 16, 2, 0, .ro⟩
/-- RO, R440 -/
def ULG_FLT_FIRST_ACCESS : Field := ⟨0xA30, 0, 18, 3, 0, .ro⟩
/-- RO, R440 -/
def ULG_FLT_FIRST_MASTER : Field := ⟨0xA30, 0, 21, 8, 255, .ro⟩
/-- RO, R440 -/
def ULG_FLT_FIRST_VALID : Field := ⟨0xA30, 0, 29, 1, 0, .ro⟩
/-- RO, R440 -/
def ULG_FLT_FIRST_CAP_PARITY : Field := ⟨0xA30, 0, 30, 1, 0, .ro⟩
/-- RO, R440 -/
def ULG_FLT_FIRST_STAMP : Field := ⟨0xA30, 0, 32, 32, 0, .ro⟩

/-- RO, R440 -/
def ULG_FLT_FIRST_ADDR_ADDR : Field := ⟨0xA38, 0, 0, 32, 0, .ro⟩

/-- RW, R440 -/
def ULG_HFLT_SEL_INDEX : Field := ⟨0xA40, 0, 0, 10, 0, .rw⟩

/-- RWS, R440 -/
def ULG_HFLT_CFG_EN (i : Nat) : Field := ⟨0xA48, i, 0, 1, 0, .rws⟩
/-- RWS, R440 -/
def ULG_HFLT_CFG_CLASS (i : Nat) : Field := ⟨0xA48, i, 1, 2, 1, .rws⟩
/-- RWS, R440 -/
def ULG_HFLT_CFG_POL (i : Nat) : Field := ⟨0xA48, i, 3, 1, 0, .rws⟩
/-- RWS, R440 -/
def ULG_HFLT_CFG_PULSE (i : Nat) : Field := ⟨0xA48, i, 4, 1, 0, .rws⟩
/-- RWS, R440 -/
def ULG_HFLT_CFG_FILT (i : Nat) : Field := ⟨0xA48, i, 8, 4, 2, .rws⟩

/-- RO, R440 -/
def ULG_HFLT_STATE_LEVEL (i : Nat) : Field := ⟨0xA50, i, 0, 1, 0, .ro⟩
/-- RO, R440 -/
def ULG_HFLT_STATE_COUNT (i : Nat) : Field := ⟨0xA50, i, 16, 16, 0, .ro⟩

/-- WO, R440 -/
def ULG_FLT_INJECT_SOURCE : Field := ⟨0xA58, 0, 0, 16, 0, .wo⟩
/-- WO, R440 -/
def ULG_FLT_INJECT_CLASS : Field := ⟨0xA58, 0, 16, 2, 0, .wo⟩
/-- WO, R440 -/
def ULG_FLT_INJECT_GO : Field := ⟨0xA58, 0, 18, 1, 0, .wo⟩

/-- RWS, R440 -/
def ULG_FLT_AGE_CFG_PERIOD_H : Field := ⟨0xA60, 0, 0, 8, 24, .rws⟩
/-- RWS, R440 -/
def ULG_FLT_AGE_CFG_WARN_PS : Field := ⟨0xA60, 0, 8, 8, 15, .rws⟩
/-- RWS, R440 -/
def ULG_FLT_AGE_CFG_MIN_PS : Field := ⟨0xA60, 0, 16, 8, 5, .rws⟩

/-- RO, R440 -/
def ULG_FLT_AGE_ISLAND : Field := ⟨0xA68, 0, 0, 8, 0, .ro⟩
/-- RO, R440 -/
def ULG_FLT_AGE_SLACK_PS : Field := ⟨0xA68, 0, 16, 16, 0, .ro⟩
/-- RO, R440 -/
def ULG_FLT_AGE_LOSS_PS : Field := ⟨0xA68, 0, 32, 16, 0, .ro⟩

/-- RW, R440 -/
def ULG_FLT_SRC_SEL_SOURCE : Field := ⟨0xA70, 0, 0, 16, 0, .rw⟩

/-- RWS, R440 -/
def ULG_FLT_SRC_CFG_CLASS (i : Nat) : Field := ⟨0xA78, i, 0, 2, (floorUlg i), .rws⟩
/-- RO, R440 -/
def ULG_FLT_SRC_CFG_FLOOR (i : Nat) : Field := ⟨0xA78, i, 2, 2, 0, .ro⟩

/-- RO, R440 -/
def ULG_FLT_LOG_DATA_DATA (i : Nat) : Field := ⟨0xA80, i, 0, 64, 0, .ro⟩

/-! #### Chapter 14, power -/

/-- RO, R469 -/
def ULG_PD_STATUS_ST (j : Nat) : Field := ⟨0xB00, 0, (2 * j), 2, 0, .ro⟩
/-- RO, R469 -/
def ULG_PD_STATUS_BUSY : Field := ⟨0xB00, 0, 44, 1, 0, .ro⟩

/-- RWS, R469 -/
def ULG_PD_CFG_OFF_OK : Field := ⟨0xB08, 0, 0, 22, 0, .rws⟩
/-- RWS, R469 -/
def ULG_PD_CFG_HS_EN : Field := ⟨0xB08, 0, 24, 1, 1, .rws⟩
/-- RWS, R469 -/
def ULG_PD_CFG_FBB : Field := ⟨0xB08, 0, 25, 2, 0, .rws⟩
/-- RWS, R469 -/
def ULG_PD_CFG_RBB : Field := ⟨0xB08, 0, 27, 2, 1, .rws⟩
/-- RWS, R469 -/
def ULG_PD_CFG_RET_MV : Field := ⟨0xB08, 0, 32, 8, 55, .rws⟩
/-- RWS, R469 -/
def ULG_PD_CFG_WA : Field := ⟨0xB08, 0, 40, 1, 1, .rws⟩
/-- RWS, R469 -/
def ULG_PD_CFG_RA : Field := ⟨0xB08, 0, 41, 1, 1, .rws⟩

/-- W1C, R469 -/
def ULG_PD_EVENT_REFUSED : Field := ⟨0xB10, 0, 0, 1, 0, .w1c⟩
/-- W1C, R469 -/
def ULG_PD_EVENT_HS_DENY : Field := ⟨0xB10, 0, 1, 1, 0, .w1c⟩
/-- W1C, R469 -/
def ULG_PD_EVENT_PD_BEAT : Field := ⟨0xB10, 0, 2, 1, 0, .w1c⟩
/-- W1C, R469 -/
def ULG_PD_EVENT_HS_VIOL : Field := ⟨0xB10, 0, 3, 1, 0, .w1c⟩
/-- W1C, R469 -/
def ULG_PD_EVENT_HOST_WRITE : Field := ⟨0xB10, 0, 4, 1, 0, .w1c⟩

/-- RC, R469 -/
def ULG_PD_REFUSE_BUSY : Field := ⟨0xB18, 0, 0, 16, 0, .rc⟩
/-- RC, R469 -/
def ULG_PD_REFUSE_DEPEND : Field := ⟨0xB18, 0, 16, 16, 0, .rc⟩
/-- RC, R469 -/
def ULG_PD_REFUSE_POLICY : Field := ⟨0xB18, 0, 32, 16, 0, .rc⟩
/-- RC, R469 -/
def ULG_PD_REFUSE_OTHER : Field := ⟨0xB18, 0, 48, 16, 0, .rc⟩

/-! #### Chapter 15, start-up and configuration -/

/-- RWS, R493 -/
def ULG_CFG_ID_UCFG_ID : Field := ⟨0xC00, 0, 0, 32, 0, .rws⟩

/-- RO, R493 -/
def ULG_COMMIT_STATUS_PENDING : Field := ⟨0xC08, 0, 0, 1, 0, .ro⟩
/-- RO, R493 -/
def ULG_COMMIT_STATUS_REASON : Field := ⟨0xC08, 0, 8, 3, 0, .ro⟩
/-- RO, R493 -/
def ULG_COMMIT_STATUS_OFFSET : Field := ⟨0xC08, 0, 16, 16, 0, .ro⟩
/-- RO, R493 -/
def ULG_COMMIT_STATUS_TICK : Field := ⟨0xC08, 0, 32, 32, 0, .ro⟩

/-- RW, R493 -/
def ULG_CFG_LSEL_OFFSET : Field := ⟨0xC10, 0, 3, 13, 0, .rw⟩

/-- RO, R493 -/
def ULG_CFG_LDATA_VALUE : Field := ⟨0xC18, 0, 0, 64, 0, .ro⟩

/-- RWS, R493 -/
def ULG_CFG_DIE_FLEET_DIE : Field := ⟨0xC20, 0, 0, 17, 0, .rws⟩
/-- RWS, R493 -/
def ULG_CFG_DIE_VALID : Field := ⟨0xC20, 0, 17, 1, 0, .rws⟩

end Sys2Proof.Machine
end

