-- ==== Sys2Proof/Machine/RegMap.lean ====
section
/-! DEFINITION. The register maps: at which byte offset each register lies and which fields it has (R14, R17, R491). -/

namespace Sys2Proof.Machine

/-- A register or an array of registers: its name, the offset of the first copy, how many copies at which stride,
how many inner copies at which stride, the select register that names the copy shown, and the fields of one copy. -/
structure RegDesc where
  name : String
  base : Nat
  count : Nat
  stride : Nat
  count2 : Nat
  stride2 : Nat
  sel : Option Field
  fields : Nat → List Field

/-- Chapter 01. -/
def regMapAgg01a : List RegDesc := [
  ⟨"TIME_SEC", 0x10000, 1, 0, 1, 0, none, fun _ => [TIME_SEC_SEC]⟩,
  ⟨"TIME_SUBSEC", 0x10008, 1, 0, 1, 0, none, fun _ => [TIME_SUBSEC_NS, TIME_SUBSEC_FRAC]⟩,
  ⟨"SERVO_STATUS", 0x10010, 1, 0, 1, 0, none, fun _ => [SERVO_STATUS_STATE, SERVO_STATUS_SRC_PORT, SERVO_STATUS_SYNCE_OK, SERVO_STATUS_ERR_NS, SERVO_STATUS_HOLD_S]⟩,
  ⟨"SERVO_OFFSET", 0x10018, 1, 0, 1, 0, none, fun _ => [SERVO_OFFSET_OFFSET]⟩,
  ⟨"SERVO_FREQ", 0x10020, 1, 0, 1, 0, none, fun _ => [SERVO_FREQ_FREQ]⟩,
  ⟨"SERVO_CFG", 0x10028, 1, 0, 1, 0, none, fun _ => [SERVO_CFG_KP_SHIFT, SERVO_CFG_KI_SHIFT, SERVO_CFG_LOCK_NS, SERVO_CFG_STEP_NS, SERVO_CFG_SLEW_PPB, SERVO_CFG_LARGE_US, SERVO_CFG_HOLD_LIMIT_S]⟩,
  ⟨"PTP_CFG", 0x10030, 1, 0, 1, 0, none, fun _ => [PTP_CFG_DOMAIN, PTP_CFG_SDO_ID, PTP_CFG_PORT_EN, PTP_CFG_TW_INTERVAL, PTP_CFG_ANN_TIMEOUT]⟩,
  ⟨"PTP_PORT_STATE", 0x10038, 1, 0, 1, 0, none, fun _ => [(PTP_PORT_STATE_ST 0), (PTP_PORT_STATE_ST 1), (PTP_PORT_STATE_ST 2), (PTP_PORT_STATE_ST 3), (PTP_PORT_STATE_ST 4), (PTP_PORT_STATE_ST 5), (PTP_PORT_STATE_ST 6), (PTP_PORT_STATE_ST 7), (PTP_PORT_STATE_ST 8), (PTP_PORT_STATE_ST 9), (PTP_PORT_STATE_ST 10), (PTP_PORT_STATE_ST 11)]⟩,
  ⟨"SYNCE_STATUS", 0x10040, 1, 0, 1, 0, none, fun _ => [SYNCE_STATUS_SRC_PORT, SYNCE_STATUS_QL, SYNCE_STATUS_STATE]⟩,
  ⟨"TICK_CFG", 0x10048, 1, 0, 1, 0, none, fun _ => [TICK_CFG_TICK_US, TICK_CFG_ROUND_TICKS]⟩,
  ⟨"TICK_ACT_SEC", 0x10050, 1, 0, 1, 0, none, fun _ => [TICK_ACT_SEC_ACT_SEC]⟩,
  ⟨"TICK_NOW", 0x10058, 1, 0, 1, 0, none, fun _ => [TICK_NOW_TICK]⟩,
  ⟨"ROUND_NOW", 0x10060, 1, 0, 1, 0, none, fun _ => [ROUND_NOW_ROUND, ROUND_NOW_IN_ROUND]⟩,
  ⟨"TIME_EVENT", 0x10068, 1, 0, 1, 0, none, fun _ => [TIME_EVENT_LOCK_LOST, TIME_EVENT_HOLD_ENTER, TIME_EVENT_STEP_SEEN, TIME_EVENT_LARGE_OFFSET, TIME_EVENT_HOLD_LIMIT, TIME_EVENT_TICK_LATE, TIME_EVENT_PTP_BAD, TIME_EVENT_DIE_DISAGREE, TIME_EVENT_SLEW_ENTER]⟩,
  ⟨"TIME_ERR_COUNT", 0x10070, 1, 0, 1, 0, none, fun _ => [TIME_ERR_COUNT_DROP, TIME_ERR_COUNT_STEPS]⟩,
  ⟨"FAB_LAT", 0x10100, 12, 8, 1, 0, none, fun i => [(FAB_LAT_RX_PS i), (FAB_LAT_TX_PS i)]⟩]

/-- Chapter 04. -/
def regMapAgg04a : List RegDesc := [
  ⟨"DP_STATUS", 0x20000, 16, 64, 1, 0, none, fun i => [(DP_STATUS_STATE i), (DP_STATUS_LANES i), (DP_STATUS_PAIR i), (DP_STATUS_ROLE i), (DP_STATUS_PEER_LINK i), (DP_STATUS_PEER_ROLE i), (DP_STATUS_SESSION i), (DP_STATUS_SILENT i), (DP_STATUS_MARKED i)]⟩,
  ⟨"DP_NONCE", 0x20008, 16, 64, 1, 0, none, fun i => [(DP_NONCE_NONCE i)]⟩,
  ⟨"DP_DIE_UID", 0x20010, 16, 64, 1, 0, none, fun i => [(DP_DIE_UID_UID i)]⟩,
  ⟨"DP_CMD_STATUS", 0x20018, 16, 64, 1, 0, none, fun i => [(DP_CMD_STATUS_OUTSTANDING i), (DP_CMD_STATUS_HELD i), (DP_CMD_STATUS_NEXT_SEQ i)]⟩,
  ⟨"DP_CFG", 0x20020, 16, 64, 1, 0, none, fun i => [(DP_CFG_EN i), (DP_CFG_DEGRADE_OK i), (DP_CFG_AUTO_TKO i), (DP_CFG_STREAM_TMO_US i), (DP_CFG_REUP_HOLD_US i), (DP_CFG_TRAIN_LIMIT_MS i)]⟩,
  ⟨"DP_ROLE_CTRL", 0x20028, 16, 64, 1, 0, none, fun i => [(DP_ROLE_CTRL_RELEASE i), (DP_ROLE_CTRL_CLAIM i)]⟩,
  ⟨"DP_EVENT", 0x20030, 16, 64, 1, 0, none, fun i => [(DP_EVENT_RETRY i), (DP_EVENT_DOWN i), (DP_EVENT_DEGRADED i), (DP_EVENT_VIOL i), (DP_EVENT_SILENT i), (DP_EVENT_TAKEOVER i), (DP_EVENT_ROLE_CONFLICT i), (DP_EVENT_UID_CHANGED i), (DP_EVENT_FULL_REQ i), (DP_EVENT_RESUME_FAIL i)]⟩,
  ⟨"DP_ERR_COUNT", 0x20038, 16, 64, 1, 0, none, fun i => [(DP_ERR_COUNT_REPLAYS i), (DP_ERR_COUNT_RETRIES i), (DP_ERR_COUNT_VIOL i), (DP_ERR_COUNT_STALE i)]⟩]

/-- Chapter 05. -/
def regMapAgg05a : List RegDesc := [
  ⟨"ING_CFG", 0x30000, 1, 0, 1, 0, none, fun _ => [ING_CFG_SWEEP_MS, ING_CFG_SBY_TICKS, ING_CFG_LEARN_EN]⟩,
  ⟨"ING_CLASS_MAP", 0x30008, 1, 0, 1, 0, none, fun _ => [ING_CLASS_MAP_SAMPLE, ING_CLASS_MAP_TRACE, ING_CLASS_MAP_FT, ING_CLASS_MAP_TILE]⟩,
  ⟨"ING_STATUS", 0x30010, 1, 0, 1, 0, none, fun _ => [ING_STATUS_ENTRIES, ING_STATUS_OVF_USED, ING_STATUS_SWEEPS]⟩,
  ⟨"ING_EVENT", 0x30018, 1, 0, 1, 0, none, fun _ => [ING_EVENT_VIOL, ING_EVENT_UID_UNBOUND, ING_EVENT_UID_FOREIGN, ING_EVENT_MISBOUND, ING_EVENT_CRC_BAD, ING_EVENT_RING_FULL, ING_EVENT_FIFO_FULL, ING_EVENT_STATIC_MISMATCH, ING_EVENT_UID_DUP, ING_EVENT_MOVED, ING_EVENT_LEARN_FULL, ING_EVENT_ORDER, ING_EVENT_PROMOTED, ING_EVENT_NO_ENTRY]⟩,
  ⟨"ING_ERR_COUNT", 0x30020, 1, 0, 1, 0, none, fun _ => [ING_ERR_COUNT_VIOL, ING_ERR_COUNT_DUP, ING_ERR_COUNT_REFUSED, ING_ERR_COUNT_CRC]⟩,
  ⟨"ING_UID_TRAP", 0x30028, 1, 0, 1, 0, none, fun _ => [ING_UID_TRAP_UID]⟩,
  ⟨"ING_UID_TRAP_INFO", 0x30030, 1, 0, 1, 0, none, fun _ => [ING_UID_TRAP_INFO_PORT, ING_UID_TRAP_INFO_REASON, ING_UID_TRAP_INFO_VALID]⟩,
  ⟨"ING_ST_CMD", 0x30040, 1, 0, 1, 0, none, fun _ => [ING_ST_CMD_OP, ING_ST_CMD_LOC]⟩,
  ⟨"ING_ST_RESULT", 0x30048, 1, 0, 1, 0, none, fun _ => [ING_ST_RESULT_DONE, ING_ST_RESULT_FOUND, ING_ST_RESULT_REFUSED, ING_ST_RESULT_LOC]⟩,
  ⟨"ING_ST_DATA0", 0x30050, 1, 0, 1, 0, none, fun _ => [ING_ST_DATA0_UID]⟩,
  ⟨"ING_ST_DATA1", 0x30058, 1, 0, 1, 0, none, fun _ => [ING_ST_DATA1_CLASS, ING_ST_DATA1_VALID, ING_ST_DATA1_STATIC, ING_ST_DATA1_HIT, ING_ST_DATA1_AGED, ING_ST_DATA1_PORT, ING_ST_DATA1_FLEET_DIE, ING_ST_DATA1_PADDOCK, ING_ST_DATA1_LOCAL_ONLY, ING_ST_DATA1_RING]⟩,
  ⟨"ING_PORT_STATUS", 0x30100, 16, 8, 1, 0, none, fun i => [(ING_PORT_STATUS_LEVEL i), (ING_PORT_STATUS_RECORDS i)]⟩,
  ⟨"ING_DIE_STATUS", 0x30200, 16, 32, 1, 0, none, fun i => [(ING_DIE_STATUS_ROLE i), (ING_DIE_STATUS_PORT i), (ING_DIE_STATUS_GAPS i)]⟩,
  ⟨"ING_DIE_TICK", 0x30208, 16, 32, 1, 0, none, fun i => [(ING_DIE_TICK_TICK i)]⟩,
  ⟨"ING_DIE_SEQ", 0x30210, 16, 32, 1, 0, none, fun i => [(ING_DIE_SEQ_CAPTURE i), (ING_DIE_SEQ_BLOCK i)]⟩]

/-- Chapter 06. -/
def regMapAgg06a : List RegDesc := [
  ⟨"SHED_CFG", 0x40000, 1, 0, 1, 0, none, fun _ => [SHED_CFG_STACK_OUT, SHED_CFG_SCRUB_H, SHED_CFG_CE_LIMIT, SHED_CFG_UE_LIMIT]⟩,
  ⟨"SHED_STATUS", 0x40008, 1, 0, 1, 0, none, fun _ => [SHED_STATUS_STACKS, SHED_STATUS_OUT, SHED_STATUS_SIZE_GIB, SHED_STATUS_SCRUB_PASSES]⟩,
  ⟨"SHED_EVENT", 0x40010, 1, 0, 1, 0, none, fun _ => [SHED_EVENT_CE_HIGH, SHED_EVENT_UE, SHED_EVENT_REPAIRED, SHED_EVENT_STACK_FAIL, SHED_EVENT_TXN_WAIT, SHED_EVENT_ARCH_EVICT, SHED_EVENT_DZ_ERR]⟩,
  ⟨"SHED_ECC_COUNT", 0x40018, 1, 0, 1, 0, none, fun _ => [SHED_ECC_COUNT_CORR, SHED_ECC_COUNT_UNCORR, SHED_ECC_COUNT_REPAIRED]⟩,
  ⟨"SHED_ECC_FIRST", 0x40020, 1, 0, 1, 0, none, fun _ => [SHED_ECC_FIRST_ADDR, SHED_ECC_FIRST_STACK, SHED_ECC_FIRST_UNCORR, SHED_ECC_FIRST_VALID]⟩,
  ⟨"SHED_TXN", 0x40028, 1, 0, 1, 0, none, fun _ => [(SHED_TXN_LVL 0), (SHED_TXN_LVL 1), (SHED_TXN_LVL 2), (SHED_TXN_LVL 3), (SHED_TXN_LVL 4), (SHED_TXN_LVL 5)]⟩,
  ⟨"SHED_RING_SEL", 0x40040, 1, 0, 1, 0, none, fun _ => [SHED_RING_SEL_INDEX]⟩,
  ⟨"SHED_RING_CFG", 0x40048, 1, 0, 1, 0, some SHED_RING_SEL_INDEX, fun i => [(SHED_RING_CFG_BASE_4K i), (SHED_RING_CFG_SIZE_4K i), (SHED_RING_CFG_EN i)]⟩,
  ⟨"SHED_RING_STATUS", 0x40050, 1, 0, 1, 0, some SHED_RING_SEL_INDEX, fun i => [(SHED_RING_STATUS_WRITE_SEQ i), (SHED_RING_STATUS_MIRROR_SEQ i)]⟩,
  ⟨"SHED_RING_CONS", 0x40058, 1, 0, 1, 0, some SHED_RING_SEL_INDEX, fun i => [(SHED_RING_CONS_ATTACHED i), (SHED_RING_CONS_MODE i), (SHED_RING_CONS_LOCAL_ONLY i), (SHED_RING_CONS_FREE_4K i)]⟩,
  ⟨"SHED_MIR_CFG", 0x40080, 1, 0, 1, 0, none, fun _ => [SHED_MIR_CFG_EN, SHED_MIR_CFG_PARTNER, SHED_MIR_CFG_PARTNER_TAG, SHED_MIR_CFG_OWN_TAG, SHED_MIR_CFG_LIMIT_GBPS]⟩,
  ⟨"SHED_MIR_SRC", 0x40088, 1, 0, 1, 0, none, fun _ => [SHED_MIR_SRC_SRC0, SHED_MIR_SRC_SRC0_EN, SHED_MIR_SRC_SRC1, SHED_MIR_SRC_SRC1_EN]⟩,
  ⟨"SHED_MIR_TIMING", 0x40090, 1, 0, 1, 0, none, fun _ => [SHED_MIR_TIMING_RTO_US, SHED_MIR_TIMING_TAIL_MAX_MIB]⟩,
  ⟨"SHED_MIR_STATUS", 0x40098, 1, 0, 1, 0, none, fun _ => [SHED_MIR_STATUS_STATE, SHED_MIR_STATUS_TAIL_KIB, SHED_MIR_STATUS_RATE_GBPS, SHED_MIR_STATUS_LO_COUNT]⟩,
  ⟨"SHED_MIR_EVENT", 0x400A0, 1, 0, 1, 0, none, fun _ => [SHED_MIR_EVENT_REFUSED, SHED_MIR_EVENT_STALLED, SHED_MIR_EVENT_FENCED, SHED_MIR_EVENT_LOCAL_ONLY, SHED_MIR_EVENT_MIRROR_OVER, SHED_MIR_EVENT_TAIL_FULL, SHED_MIR_EVENT_VIOL, SHED_MIR_EVENT_COPY_OVERWRITE, SHED_MIR_EVENT_FENCE_GIVEN]⟩,
  ⟨"SHED_ARCH_CFG", 0x400C0, 1, 0, 1, 0, none, fun _ => [SHED_ARCH_CFG_SEG_RAW_KIB, SHED_ARCH_CFG_SEG_BUF_KIB, SHED_ARCH_CFG_SEG_AGE_MS, SHED_ARCH_CFG_TABLES, SHED_ARCH_CFG_EN, SHED_ARCH_CFG_POOL_MIB]⟩,
  ⟨"SHED_ARCH_STATUS", 0x400C8, 1, 0, 1, 0, none, fun _ => [SHED_ARCH_STATUS_SEG_SEQ, SHED_ARCH_STATUS_EVICT_EARLY, SHED_ARCH_STATUS_POOL_FREE]⟩,
  ⟨"SHED_DZ_SRC", 0x400D0, 1, 0, 1, 0, none, fun _ => [SHED_DZ_SRC_ADDR]⟩,
  ⟨"SHED_DZ_DST", 0x400D8, 1, 0, 1, 0, none, fun _ => [SHED_DZ_DST_ADDR]⟩,
  ⟨"SHED_DZ_CTRL", 0x400E0, 1, 0, 1, 0, none, fun _ => [SHED_DZ_CTRL_GO]⟩,
  ⟨"SHED_DZ_STATUS", 0x400E8, 1, 0, 1, 0, none, fun _ => [SHED_DZ_STATUS_BUSY, SHED_DZ_STATUS_DONE, SHED_DZ_STATUS_ERR, SHED_DZ_STATUS_OUT_LEN, SHED_DZ_STATUS_ERR_OFFSET]⟩,
  ⟨"SHED_REGION", 0x40100, 8, 8, 1, 0, none, fun i => [(SHED_REGION_KIND i), (SHED_REGION_BASE_256M i), (SHED_REGION_SIZE_256M i)]⟩,
  ⟨"SHED_LO_RANK", 0x40140, 16, 8, 1, 0, none, fun i => [(SHED_LO_RANK_RANK i 0), (SHED_LO_RANK_RANK i 1), (SHED_LO_RANK_RANK i 2), (SHED_LO_RANK_RANK i 3), (SHED_LO_RANK_RANK i 4), (SHED_LO_RANK_RANK i 5), (SHED_LO_RANK_RANK i 6), (SHED_LO_RANK_RANK i 7), (SHED_LO_RANK_RANK i 8), (SHED_LO_RANK_RANK i 9), (SHED_LO_RANK_RANK i 10), (SHED_LO_RANK_RANK i 11), (SHED_LO_RANK_RANK i 12), (SHED_LO_RANK_RANK i 13), (SHED_LO_RANK_RANK i 14), (SHED_LO_RANK_RANK i 15)]⟩,
  ⟨"SHED_LO_STATE", 0x401C0, 4, 8, 1, 0, none, fun i => [(SHED_LO_STATE_LO i)]⟩]

/-- Chapter 06. -/
def regMapAgg06b : List RegDesc := [
  ⟨"SHED_ARCH_CLASS", 0x401E0, 4, 8, 1, 0, none, fun i => [(SHED_ARCH_CLASS_ARCH i)]⟩,
  ⟨"SHED_JRN_NEXT", 0x40200, 1, 0, 1, 0, none, fun _ => [SHED_JRN_NEXT_OP]⟩,
  ⟨"SHED_JRN_STATUS", 0x40208, 1, 0, 1, 0, none, fun _ => [SHED_JRN_STATUS_OPEN, SHED_JRN_STATUS_BEGUN, SHED_JRN_STATUS_WAIT_MIRROR]⟩,
  ⟨"SHED_JQ_CTRL", 0x40210, 1, 0, 1, 0, none, fun _ => [SHED_JQ_CTRL_GO, SHED_JQ_CTRL_FENCE, SHED_JQ_CTRL_MODE, SHED_JQ_CTRL_COUNT, SHED_JQ_CTRL_SUBJECT, SHED_JQ_CTRL_TARGET]⟩,
  ⟨"SHED_JQ_FIRST", 0x40218, 1, 0, 1, 0, none, fun _ => [SHED_JQ_FIRST_OP]⟩,
  ⟨"SHED_JQ_STATUS", 0x40220, 1, 0, 1, 0, none, fun _ => [SHED_JQ_STATUS_DONE, SHED_JQ_STATUS_RESULT, SHED_JQ_STATUS_N]⟩,
  ⟨"SHED_JQ_COVERED", 0x40228, 1, 0, 1, 0, none, fun _ => [SHED_JQ_COVERED_OP]⟩,
  ⟨"SHED_JQ_HELD", 0x40230, 1, 0, 1, 0, none, fun _ => [SHED_JQ_HELD_OP]⟩,
  ⟨"SHED_JQ_RESULT", 0x40400, 32, 8, 1, 0, none, fun i => [(SHED_JQ_RESULT_DATA i)]⟩]

/-- Chapter 07. -/
def regMapAgg07a : List RegDesc := [
  ⟨"TALLY_CFG", 0x50000, 1, 0, 1, 0, none, fun _ => [TALLY_CFG_EN, TALLY_CFG_MODE, TALLY_CFG_COMPACT_UP, TALLY_CFG_KEYS, TALLY_CFG_RESULT_RING, TALLY_CFG_PORTS, TALLY_CFG_RESULT_CLASS]⟩,
  ⟨"TALLY_ACT", 0x50008, 1, 0, 1, 0, none, fun _ => [TALLY_ACT_ROUND, TALLY_ACT_IMMEDIATE]⟩,
  ⟨"TALLY_TIMING", 0x50010, 1, 0, 1, 0, none, fun _ => [TALLY_TIMING_OBS_US, TALLY_TIMING_COVER_WAIT_US, TALLY_TIMING_COUNT_US, TALLY_TIMING_DATA_US, TALLY_TIMING_CLOSE_US]⟩,
  ⟨"TALLY_TIMING2", 0x50018, 1, 0, 1, 0, none, fun _ => [TALLY_TIMING2_RESULT_US, TALLY_TIMING2_RING_START_US, TALLY_TIMING2_STEP_NS, TALLY_TIMING2_SKIP_GUARD_US, TALLY_TIMING2_ATTEMPT_US]⟩,
  ⟨"TALLY_RING_CFG", 0x50020, 1, 0, 1, 0, none, fun _ => [TALLY_RING_CFG_AGGS, TALLY_RING_CFG_ROW, TALLY_RING_CFG_ATTEMPTS]⟩,
  ⟨"TALLY_STATUS", 0x50028, 1, 0, 1, 0, none, fun _ => [TALLY_STATUS_ROUND, TALLY_STATUS_INFLIGHT, TALLY_STATUS_MODE, TALLY_STATUS_EXCLUDED]⟩,
  ⟨"TALLY_LAST", 0x50030, 1, 0, 1, 0, none, fun _ => [TALLY_LAST_MEMBERS, TALLY_LAST_EXPECTED, TALLY_LAST_MISSING, TALLY_LAST_MISSING_VALID, TALLY_LAST_COMPLETE, TALLY_LAST_EXACT, TALLY_LAST_ATTEMPT, TALLY_LAST_FAILED]⟩,
  ⟨"TALLY_EVENT", 0x50038, 1, 0, 1, 0, none, fun _ => [TALLY_EVENT_NO_RESULT, TALLY_EVENT_PARTIAL, TALLY_EVENT_KEYSET_MISMATCH, TALLY_EVENT_LATE_POST, TALLY_EVENT_POST_VIOL, TALLY_EVENT_COVER_LATE, TALLY_EVENT_NOT_MIRRORED, TALLY_EVENT_SKIP_SENT, TALLY_EVENT_SKIPPED_SELF, TALLY_EVENT_ROUND_FAILED, TALLY_EVENT_VIOL, TALLY_EVENT_STALE, TALLY_EVENT_ACT_LATE]⟩,
  ⟨"TALLY_ERR_COUNT", 0x50040, 1, 0, 1, 0, none, fun _ => [TALLY_ERR_COUNT_VIOL, TALLY_ERR_COUNT_STALE, TALLY_ERR_COUNT_LATE_POST, TALLY_ERR_COUNT_SKIPS]⟩,
  ⟨"TALLY_POST_COUNT", 0x50048, 1, 0, 1, 0, none, fun _ => [TALLY_POST_COUNT_POSTS, TALLY_POST_COUNT_REFUSED]⟩,
  ⟨"TALLY_KEY_SEL", 0x50050, 1, 0, 1, 0, none, fun _ => [TALLY_KEY_SEL_KEY]⟩,
  ⟨"TALLY_KEY_CFG", 0x50058, 1, 0, 1, 0, some TALLY_KEY_SEL_KEY, fun i => [(TALLY_KEY_CFG_OCT i), (TALLY_KEY_CFG_SCOPE i)]⟩,
  ⟨"TALLY_EXCL_SEL", 0x50060, 1, 0, 1, 0, none, fun _ => [TALLY_EXCL_SEL_INDEX]⟩,
  ⟨"TALLY_EXCL", 0x50068, 1, 0, 1, 0, some TALLY_EXCL_SEL_INDEX, fun i => [(TALLY_EXCL_BITS i)]⟩]

/-- Chapter 08. -/
def regMapAgg08a : List RegDesc := [
  ⟨"DET_CFG", 0x60000, 1, 0, 1, 0, none, fun _ => [DET_CFG_EN, DET_CFG_VERDICT_RING, DET_CFG_STATE_RING, DET_CFG_STATE_CLASS, DET_CFG_CKPT_TICKS, DET_CFG_REPEAT_TICKS]⟩,
  ⟨"DET_RUN_CFG", 0x60008, 1, 0, 1, 0, none, fun _ => [DET_RUN_CFG_RUN_BUDGET_CYC, DET_RUN_CFG_EVID_WAIT_MS, DET_RUN_CFG_VERDICT_CLASS]⟩,
  ⟨"DET_STRAG_CFG", 0x60010, 1, 0, 1, 0, none, fun _ => [DET_STRAG_CFG_LOCAL_PCT, DET_STRAG_CFG_LOCAL_TICKS, DET_STRAG_CFG_FLEET_Q, DET_STRAG_CFG_FLEET_PCT, DET_STRAG_CFG_FLEET_ROUNDS, DET_STRAG_CFG_PROG_KEY]⟩,
  ⟨"DET_CAUSE_CFG", 0x60018, 1, 0, 1, 0, none, fun _ => [DET_CAUSE_CFG_CORE_MHZ, DET_CAUSE_CFG_THR_PCT, DET_CAUSE_CFG_MEM_PCT, DET_CAUSE_CFG_FT_MIN]⟩,
  ⟨"DET_HURDLE_CFG", 0x60020, 1, 0, 1, 0, none, fun _ => [DET_HURDLE_CFG_KINDS, DET_HURDLE_CFG_SEV, DET_HURDLE_CFG_EXCL_CAUSE, DET_HURDLE_CFG_MAX, DET_HURDLE_CFG_WIN_S, DET_HURDLE_CFG_ANS_MS]⟩,
  ⟨"DET_NQ_BASE", 0x60028, 1, 0, 1, 0, none, fun _ => [DET_NQ_BASE_ADDR]⟩,
  ⟨"DET_NQ_CFG", 0x60030, 1, 0, 1, 0, none, fun _ => [DET_NQ_CFG_EN, DET_NQ_CFG_SIZE_LOG2, DET_NQ_CFG_VECTOR, DET_NQ_CFG_COAL_US]⟩,
  ⟨"DET_NQ_TAIL", 0x60038, 1, 0, 1, 0, none, fun _ => [DET_NQ_TAIL_INDEX]⟩,
  ⟨"DET_NQ_HEAD", 0x60040, 1, 0, 1, 0, none, fun _ => [DET_NQ_HEAD_INDEX]⟩,
  ⟨"DET_STATUS", 0x60048, 1, 0, 1, 0, none, fun _ => [DET_STATUS_RUNS, DET_STATUS_PENDING, DET_STATUS_HELD]⟩,
  ⟨"DET_EVENT", 0x60050, 1, 0, 1, 0, none, fun _ => [DET_EVENT_OVERRUN, DET_EVENT_SKIPPED, DET_EVENT_EMIT_CUT, DET_EVENT_EVID_WAIT, DET_EVENT_NQ_FULL, DET_EVENT_VERDICT_RING_FULL, DET_EVENT_RESTORE_COLD, DET_EVENT_HURDLE_THROTTLED, DET_EVENT_HURDLE_UNANSWERED, DET_EVENT_SUB_UNACKED, DET_EVENT_PROG_REFUSED]⟩,
  ⟨"DET_ERR_COUNT", 0x60058, 1, 0, 1, 0, none, fun _ => [DET_ERR_COUNT_OVERRUN, DET_ERR_COUNT_SKIPPED, DET_ERR_COUNT_EMIT_CUT, DET_ERR_COUNT_VERDICTS_LOST]⟩,
  ⟨"DET_HURDLE_CTRL", 0x60060, 1, 0, 1, 0, none, fun _ => [DET_HURDLE_CTRL_SLOT, DET_HURDLE_CTRL_OP]⟩,
  ⟨"DET_DIE_CFG", 0x60100, 16, 8, 1, 0, none, fun i => [(DET_DIE_CFG_EN i), (DET_DIE_CFG_HOME i)]⟩,
  ⟨"DET_DIE_STATUS", 0x60180, 16, 8, 1, 0, none, fun i => [(DET_DIE_STATUS_STATE i), (DET_DIE_STATUS_HURDLE i), (DET_DIE_STATUS_LOCAL_RUN i), (DET_DIE_STATUS_FLEET_RUN i), (DET_DIE_STATUS_SKIPS i), (DET_DIE_STATUS_LAST_TICK i)]⟩,
  ⟨"DET_PAD_PROG", 0x60200, 64, 8, 1, 0, none, fun i => [(DET_PAD_PROG_ADDR_4K i), (DET_PAD_PROG_EN i), (DET_PAD_PROG_PROG_CRC i)]⟩,
  ⟨"DET_PAD_KEYS", 0x60400, 64, 8, 1, 0, none, fun i => [(DET_PAD_KEYS_KEY_LO i), (DET_PAD_KEYS_KEY_HI i)]⟩,
  ⟨"DET_CLUSTER", 0x60600, 32, 8, 1, 0, none, fun i => [(DET_CLUSTER_PAD i)]⟩,
  ⟨"DET_SUB", 0x60700, 8, 8, 1, 0, none, fun i => [(DET_SUB_AGG i), (DET_SUB_EN i), (DET_SUB_HURDLE i), (DET_SUB_PAD_LO i), (DET_SUB_PAD_HI i), (DET_SUB_NOTICE_RTO_US i)]⟩]

/-- Chapter 09. -/
def regMapAgg09a : List RegDesc := [
  ⟨"HDG_CFG", 0x70000, 1, 0, 1, 0, none, fun _ => [HDG_CFG_EN, HDG_CFG_RETAIN_TICKS]⟩,
  ⟨"HDG_STATUS", 0x70008, 1, 0, 1, 0, none, fun _ => [HDG_STATUS_QUEUE, HDG_STATUS_BUSY, HDG_STATUS_FREE_4K, HDG_STATUS_ACTIVE_SLOTS]⟩,
  ⟨"HDG_EVENT", 0x70010, 1, 0, 1, 0, none, fun _ => [HDG_EVENT_LOAD_REFUSED, HDG_EVENT_SWAP_LATE, HDG_EVENT_SWAP_BUSY, HDG_EVENT_NO_SPACE, HDG_EVENT_SRAM_CE, HDG_EVENT_SRAM_UE, HDG_EVENT_RELOADED, HDG_EVENT_MISSING_REQ]⟩,
  ⟨"HDG_ERR_COUNT", 0x70018, 1, 0, 1, 0, none, fun _ => [HDG_ERR_COUNT_MISSING, HDG_ERR_COUNT_CE, HDG_ERR_COUNT_UE, HDG_ERR_COUNT_REFUSED]⟩,
  ⟨"HDG_EVAL_COUNT", 0x70020, 1, 0, 1, 0, none, fun _ => [HDG_EVAL_COUNT_TREES]⟩,
  ⟨"HDG_REQ_COUNT", 0x70028, 1, 0, 1, 0, none, fun _ => [HDG_REQ_COUNT_REQUESTS]⟩,
  ⟨"HDG_SLOT_PKG", 0x70100, 16, 32, 1, 0, none, fun i => [(HDG_SLOT_PKG_ADDR_4K i), (HDG_SLOT_PKG_EN i), (HDG_SLOT_PKG_PKG_CRC i)]⟩,
  ⟨"HDG_SLOT_ACT", 0x70108, 16, 32, 1, 0, none, fun i => [(HDG_SLOT_ACT_ACT_TICK i)]⟩,
  ⟨"HDG_SLOT_STATUS", 0x70110, 16, 32, 1, 0, none, fun i => [(HDG_SLOT_STATUS_STATE i), (HDG_SLOT_STATUS_DEPTH i), (HDG_SLOT_STATUS_LEAF_FMT i), (HDG_SLOT_STATUS_LINK i), (HDG_SLOT_STATUS_NTREES i), (HDG_SLOT_STATUS_OFF_4K i), (HDG_SLOT_STATUS_MODEL_ID i)]⟩,
  ⟨"HDG_SLOT_CRC", 0x70118, 16, 32, 1, 0, none, fun i => [(HDG_SLOT_CRC_CUR i), (HDG_SLOT_CRC_OTHER i)]⟩]

/-- Chapter 10. -/
def regMapAgg10a : List RegDesc := [
  ⟨"VRF_CFG", 0x80000, 1, 0, 1, 0, none, fun _ => [VRF_CFG_EN, VRF_CFG_ARR_EN]⟩,
  ⟨"VRF_PRIO", 0x80008, 1, 0, 1, 0, none, fun _ => [VRF_PRIO_VERIFY_CLASS, VRF_PRIO_PRED_CLASS, VRF_PRIO_URGENT_CLASS, VRF_PRIO_AGE_US]⟩,
  ⟨"VRF_ST_CFG", 0x80010, 1, 0, 1, 0, none, fun _ => [VRF_ST_CFG_ST_PERIOD_MS, VRF_ST_CFG_AUTO_REPAIR]⟩,
  ⟨"VRF_ST_SEED", 0x80018, 1, 0, 1, 0, none, fun _ => [VRF_ST_SEED_SEED]⟩,
  ⟨"VRF_STATUS", 0x80020, 1, 0, 1, 0, none, fun _ => [VRF_STATUS_IN_SERVICE, VRF_STATUS_ARR_MASK, VRF_STATUS_CONFIRM_OK, VRF_STATUS_PREV_TABLE, VRF_STATUS_ST_COUNT]⟩,
  ⟨"VRF_QUEUE", 0x80028, 1, 0, 1, 0, none, fun _ => [VRF_QUEUE_C0, VRF_QUEUE_C1, VRF_QUEUE_C2, VRF_QUEUE_C3, VRF_QUEUE_PRED_JOBS]⟩,
  ⟨"VRF_EVENT", 0x80030, 1, 0, 1, 0, none, fun _ => [VRF_EVENT_COL_REPAIRED, VRF_EVENT_ARR_RETIRED, VRF_EVENT_ST_DISAGREE, VRF_EVENT_ST_ALONE, VRF_EVENT_OPERAND_CE, VRF_EVENT_OPERAND_UE, VRF_EVENT_PROF_REFUSED, VRF_EVENT_PRED_DROP, VRF_EVENT_PRED_PKG_REFUSED, VRF_EVENT_NO_ARRAY]⟩,
  ⟨"VRF_ERR_COUNT", 0x80038, 1, 0, 1, 0, none, fun _ => [VRF_ERR_COUNT_OPERAND_CE, VRF_ERR_COUNT_OPERAND_UE, VRF_ERR_COUNT_ST_FAIL, VRF_ERR_COUNT_PRED_DROP]⟩,
  ⟨"VRF_WORK_COUNT", 0x80040, 1, 0, 1, 0, none, fun _ => [VRF_WORK_COUNT_TILES, VRF_WORK_COUNT_PASSES]⟩,
  ⟨"VRF_PROF_SEL", 0x80048, 1, 0, 1, 0, none, fun _ => [VRF_PROF_SEL_ID]⟩,
  ⟨"VRF_PROF_DATA", 0x80050, 4, 8, 1, 0, some VRF_PROF_SEL_ID, fun x => [(VRF_PROF_DATA_BYTES (x / 4) (x % 4))]⟩,
  ⟨"VRF_PRED_CFG", 0x80070, 1, 0, 1, 0, none, fun _ => [VRF_PRED_CFG_EN]⟩,
  ⟨"VRF_PRED_STATUS", 0x80078, 1, 0, 1, 0, none, fun _ => [VRF_PRED_STATUS_QUEUED, VRF_PRED_STATUS_ABSENT]⟩,
  ⟨"VRF_ARR_STATUS", 0x80100, 8, 64, 1, 0, none, fun i => [(VRF_ARR_STATUS_STATE i), (VRF_ARR_STATUS_BUSY i), (VRF_ARR_STATUS_CLASS i), (VRF_ARR_STATUS_SPARES_USED i), (VRF_ARR_STATUS_MHZ i)]⟩,
  ⟨"VRF_ARR_ST", 0x80108, 8, 64, 1, 0, none, fun i => [(VRF_ARR_ST_LAST_PASS_SEC i), (VRF_ARR_ST_RESULT i), (VRF_ARR_ST_FAIL_COL i)]⟩,
  ⟨"VRF_ARR_SPARE_LO", 0x80110, 8, 64, 1, 0, none, fun i => [(VRF_ARR_SPARE_LO_SPARE i 0), (VRF_ARR_SPARE_LO_SPARE i 1), (VRF_ARR_SPARE_LO_SPARE i 2), (VRF_ARR_SPARE_LO_SPARE i 3)]⟩,
  ⟨"VRF_ARR_SPARE_HI", 0x80118, 8, 64, 1, 0, none, fun i => [(VRF_ARR_SPARE_HI_SPARE i 0), (VRF_ARR_SPARE_HI_SPARE i 1), (VRF_ARR_SPARE_HI_SPARE i 2), (VRF_ARR_SPARE_HI_SPARE i 3)]⟩,
  ⟨"VRF_ARR_CTRL", 0x80120, 8, 64, 1, 0, none, fun i => [(VRF_ARR_CTRL_RETIRE i), (VRF_ARR_CTRL_RETEST i), (VRF_ARR_CTRL_SELFTEST i)]⟩,
  ⟨"VRF_PRED_DIE", 0x80300, 16, 8, 1, 0, none, fun i => [(VRF_PRED_DIE_ADDR_4K i), (VRF_PRED_DIE_EN i), (VRF_PRED_DIE_PKG_CRC i)]⟩]

/-- Chapter 11. -/
def regMapAgg11a : List RegDesc := [
  ⟨"SE_CFG", 0x90000, 1, 0, 1, 0, none, fun _ => [SE_CFG_EN, SE_CFG_SE_RING, SE_CFG_SE_CLASS, SE_CFG_CLEAR_LAG, SE_CFG_LINGER, SE_CFG_LOOKBACK, SE_CFG_HOLD, SE_CFG_MIN_TILES]⟩,
  ⟨"SE_RPL_CFG", 0x90008, 1, 0, 1, 0, none, fun _ => [SE_RPL_CFG_AUTO, SE_RPL_CFG_RUNS, SE_RPL_CFG_RUN_US, SE_RPL_CFG_WAIT_MS]⟩,
  ⟨"SE_TAG_CFG", 0x90010, 1, 0, 1, 0, none, fun _ => [SE_TAG_CFG_DIE_TAGS]⟩,
  ⟨"SE_FLEECE_CFG", 0x90018, 1, 0, 1, 0, none, fun _ => [SE_FLEECE_CFG_EN, SE_FLEECE_CFG_DEST_EN, SE_FLEECE_CFG_DEST, SE_FLEECE_CFG_RTO_US]⟩,
  ⟨"SE_STATUS", 0x90020, 1, 0, 1, 0, none, fun _ => [SE_STATUS_TAGS, SE_STATUS_OPEN_CASES, SE_STATUS_QUEUED, SE_STATUS_RESTORING]⟩,
  ⟨"SE_EVENT", 0x90028, 1, 0, 1, 0, none, fun _ => [SE_EVENT_CONFIRMED, SE_EVENT_VERIFIER_SUSPECT, SE_EVENT_UNCONFIRMED, SE_EVENT_TAGS_FULL, SE_EVENT_TAINT_SENT, SE_EVENT_TAINT_PARTIAL, SE_EVENT_UNVERIFIED, SE_EVENT_STARVED, SE_EVENT_RPL_REFUSED, SE_EVENT_RPL_EXPIRED, SE_EVENT_NEED_TAINT, SE_EVENT_FLEECE_UNACKED, SE_EVENT_LATE_TILE, SE_EVENT_EPOCH_MISMATCH]⟩,
  ⟨"SE_ERR_COUNT", 0x90030, 1, 0, 1, 0, none, fun _ => [SE_ERR_COUNT_UNCHECKED, SE_ERR_COUNT_LATE, SE_ERR_COUNT_RPL_BAD]⟩,
  ⟨"SE_WORK_COUNT", 0x90038, 1, 0, 1, 0, none, fun _ => [SE_WORK_COUNT_PASSED, SE_WORK_COUNT_CONFIRMED, SE_WORK_COUNT_SUSPECT]⟩,
  ⟨"SE_DIE_CTRL", 0x90040, 1, 0, 1, 0, none, fun _ => [SE_DIE_CTRL_SLOT, SE_DIE_CTRL_OP]⟩,
  ⟨"SE_DIE_STATUS", 0x90100, 16, 32, 1, 0, none, fun i => [(SE_DIE_STATUS_DECIDED i), (SE_DIE_STATUS_STATE i), (SE_DIE_STATUS_TAINT_OPEN i), (SE_DIE_STATUS_CASE_OPEN i), (SE_DIE_STATUS_RPL_STATE i), (SE_DIE_STATUS_DSEQ_LO i)]⟩,
  ⟨"SE_DIE_TAINT", 0x90108, 16, 32, 1, 0, none, fun i => [(SE_DIE_TAINT_FIRST i), (SE_DIE_TAINT_LAST i)]⟩,
  ⟨"SE_DIE_TAGS", 0x90110, 16, 32, 1, 0, none, fun i => [(SE_DIE_TAGS_HELD i), (SE_DIE_TAGS_CHECKED_TO i)]⟩,
  ⟨"SE_DIE_EPOCH", 0x90118, 16, 32, 1, 0, none, fun i => [(SE_DIE_EPOCH_CUR_MS i), (SE_DIE_EPOCH_NEXT_MS i), (SE_DIE_EPOCH_ACT_SEC_LO i)]⟩]

/-- Chapter 12. -/
def regMapAgg12a : List RegDesc := [
  ⟨"FAB_CFG", 0xA0000, 1, 0, 1, 0, none, fun _ => [FAB_CFG_UDP_PORT, FAB_CFG_HOP_LIMIT, FAB_CFG_VLAN_EN, FAB_CFG_VID, FAB_CFG_PCP, FAB_CFG_YELLOW_PCT]⟩,
  ⟨"FAB_PREFIX", 0xA0008, 1, 0, 1, 0, none, fun _ => [FAB_PREFIX_PREFIX]⟩,
  ⟨"FAB_SPINE_IID", 0xA0010, 1, 0, 1, 0, none, fun _ => [FAB_SPINE_IID_IID]⟩,
  ⟨"FAB_CLASS_PORTS", 0xA0018, 1, 0, 1, 0, none, fun _ => [FAB_CLASS_PORTS_MIRROR, FAB_CLASS_PORTS_NOTICE]⟩,
  ⟨"FAB_TXN_CFG", 0xA0020, 1, 0, 1, 0, none, fun _ => [FAB_TXN_CFG_RTO_US, FAB_TXN_CFG_RETRIES, FAB_TXN_CFG_ACK_COAL_NS, FAB_TXN_CFG_ACK_EVERY]⟩,
  ⟨"FAB_SHP_CFG", 0xA0028, 1, 0, 1, 0, none, fun _ => [FAB_SHP_CFG_REFILL_NS, FAB_SHP_CFG_EN]⟩,
  ⟨"FAB_STAT_CFG", 0xA0030, 1, 0, 1, 0, none, fun _ => [FAB_STAT_CFG_RING, FAB_STAT_CFG_EN]⟩,
  ⟨"FAB_STATUS", 0xA0038, 1, 0, 1, 0, none, fun _ => [FAB_STATUS_PORTS_UP, FAB_STATUS_SAFE, FAB_STATUS_INCARN]⟩,
  ⟨"FAB_EVENT", 0xA0040, 1, 0, 1, 0, none, fun _ => [FAB_EVENT_VIOL, FAB_EVENT_TOO_LONG, FAB_EVENT_LAUNCH_LATE, FAB_EVENT_LAUNCH_BUSY, FAB_EVENT_TXN_FULL, FAB_EVENT_GIVE_UP, FAB_EVENT_RED_DROP, FAB_EVENT_RX_FULL, FAB_EVENT_PATH_NOTICE, FAB_EVENT_SAFE_FLUSH, FAB_EVENT_QUEUE_FULL]⟩,
  ⟨"FAB_ERR_COUNT", 0xA0048, 1, 0, 1, 0, none, fun _ => [FAB_ERR_COUNT_VIOL, FAB_ERR_COUNT_STALE, FAB_ERR_COUNT_GIVE_UP, FAB_ERR_COUNT_TOO_LONG]⟩,
  ⟨"FAB_EP_SEL", 0xA0050, 1, 0, 1, 0, none, fun _ => [FAB_EP_SEL_INDEX]⟩,
  ⟨"FAB_EP_ID", 0xA0058, 1, 0, 1, 0, some FAB_EP_SEL_INDEX, fun i => [(FAB_EP_ID_ID i), (FAB_EP_ID_EN i)]⟩,
  ⟨"FAB_EP_ADDR_HI", 0xA0060, 1, 0, 1, 0, some FAB_EP_SEL_INDEX, fun i => [(FAB_EP_ADDR_HI_ADDR i)]⟩,
  ⟨"FAB_EP_ADDR_LO", 0xA0068, 1, 0, 1, 0, some FAB_EP_SEL_INDEX, fun i => [(FAB_EP_ADDR_LO_ADDR i)]⟩,
  ⟨"FAB_PORT_CFG", 0xA0100, 12, 64, 1, 0, none, fun i => [(FAB_PORT_CFG_EN i), (FAB_PORT_CFG_MODE i), (FAB_PORT_CFG_DEGRADE_OK i), (FAB_PORT_CFG_QMAX_KIB i)]⟩,
  ⟨"FAB_PORT_SMAC", 0xA0108, 12, 64, 1, 0, none, fun i => [(FAB_PORT_SMAC_MAC i)]⟩,
  ⟨"FAB_PORT_DMAC", 0xA0110, 12, 64, 1, 0, none, fun i => [(FAB_PORT_DMAC_MAC i)]⟩,
  ⟨"FAB_PORT_STATUS", 0xA0118, 12, 64, 1, 0, none, fun i => [(FAB_PORT_STATUS_UP i), (FAB_PORT_STATUS_LANES i), (FAB_PORT_STATUS_TXN i), (FAB_PORT_STATUS_RX_KIB i)]⟩,
  ⟨"FAB_PORT_ERR", 0xA0120, 12, 64, 1, 0, none, fun i => [(FAB_PORT_ERR_FCS i), (FAB_PORT_ERR_RED i), (FAB_PORT_ERR_YELLOW i), (FAB_PORT_ERR_RX_FULL i)]⟩,
  ⟨"FAB_CAL_CFG", 0xA0128, 12, 64, 1, 0, none, fun i => [(FAB_CAL_CFG_CYCLE_NS i), (FAB_CAL_CFG_DEFAULT_GATE i)]⟩,
  ⟨"FAB_CAL_WIN", 0xA0400, 12, 64, 8, 8, none, fun x => [(FAB_CAL_WIN_START_NS (x / 8) (x % 8)), (FAB_CAL_WIN_LEN_NS (x / 8) (x % 8)), (FAB_CAL_WIN_GATE (x / 8) (x % 8)), (FAB_CAL_WIN_EN (x / 8) (x % 8))]⟩,
  ⟨"FAB_SHP", 0xA0800, 64, 8, 1, 0, none, fun i => [(FAB_SHP_RATE_MBPS i), (FAB_SHP_BURST_KIB i), (FAB_SHP_LEN_OVH i)]⟩,
  ⟨"FAB_MTR", 0xA0A00, 60, 8, 1, 0, none, fun i => [(FAB_MTR_CIR_MBPS i), (FAB_MTR_PIR_MBPS i), (FAB_MTR_CBS_KIB i), (FAB_MTR_PBS_KIB i)]⟩,
  ⟨"FAB_Q_STATUS", 0xA0C00, 12, 64, 8, 8, none, fun x => [(FAB_Q_STATUS_DEPTH (x / 8) (x % 8)), (FAB_Q_STATUS_HEAD_WAIT (x / 8) (x % 8)), (FAB_Q_STATUS_SHAPED_WAIT (x / 8) (x % 8))]⟩]

/-- Chapter 13. -/
def regMapAgg13a : List RegDesc := [
  ⟨"FLT_CFG", 0xB0000, 1, 0, 1, 0, none, fun _ => [FLT_CFG_SHEEPDOG_US, FLT_CFG_SAFE_US, FLT_CFG_QUIET_MS, FLT_CFG_AUTO_EXIT, FLT_CFG_RECOVER_MAX, FLT_CFG_RECOVER_WIN_S]⟩,
  ⟨"FLT_CFG2", 0xB0008, 1, 0, 1, 0, none, fun _ => [FLT_CFG2_FLT_RING, FLT_CFG2_FLT_CLASS, FLT_CFG2_VECTOR, FLT_CFG2_CAPTURE_MIN, FLT_CFG2_POLL_US, FLT_CFG2_CORE_WIN_S, FLT_CFG2_CLUSTER_MIN, FLT_CFG2_ROW_CE]⟩,
  ⟨"FLT_STATUS", 0xB0010, 1, 0, 1, 0, none, fun _ => [FLT_STATUS_STATE, FLT_STATUS_PENDING, FLT_STATUS_RECOVERIES, FLT_STATUS_FTM, FLT_STATUS_CAUSE_SRC, FLT_STATUS_NEXT_FSEQ]⟩,
  ⟨"FLT_EVENT", 0xB0018, 1, 0, 1, 0, none, fun _ => [FLT_EVENT_TMR_CORRECTED, FLT_EVENT_INJ_REFUSED, FLT_EVENT_LOG_FULL, FLT_EVENT_SHEEPDOG, FLT_EVENT_SAFE_ENTER, FLT_EVENT_SAFE_EXIT, FLT_EVENT_LATCHED, FLT_EVENT_PAIR_SWITCH, FLT_EVENT_CORE_RETIRED, FLT_EVENT_CLUSTER_RETIRED, FLT_EVENT_UNHOMED, FLT_EVENT_AGE_WARN, FLT_EVENT_AGE_LIMIT, FLT_EVENT_RPR_WRITE_FAIL]⟩,
  ⟨"FLT_COUNT", 0xB0020, 1, 0, 1, 0, none, fun _ => [FLT_COUNT_CORR, FLT_COUNT_CONT, FLT_COUNT_UNCONT, FLT_COUNT_ESCAL]⟩,
  ⟨"FLT_FIRST_SRC", 0xB0028, 1, 0, 1, 0, none, fun _ => [FLT_FIRST_SRC_SOURCE, FLT_FIRST_SRC_CLASS, FLT_FIRST_SRC_ACCESS, FLT_FIRST_SRC_MASTER, FLT_FIRST_SRC_VALID, FLT_FIRST_SRC_CAP_PARITY]⟩,
  ⟨"FLT_FIRST_ADDR", 0xB0030, 1, 0, 1, 0, none, fun _ => [FLT_FIRST_ADDR_ADDR]⟩,
  ⟨"FLT_FIRST_TIME", 0xB0038, 1, 0, 1, 0, none, fun _ => [FLT_FIRST_TIME_NS]⟩,
  ⟨"FLT_ACK", 0xB0040, 1, 0, 1, 0, none, fun _ => [FLT_ACK_FSEQ]⟩,
  ⟨"FLT_CTRL", 0xB0048, 1, 0, 1, 0, none, fun _ => [FLT_CTRL_EXIT, FLT_CTRL_ENTER_SAFE, FLT_CTRL_CLEAR_FIRST]⟩,
  ⟨"FLT_SRC_SEL", 0xB0050, 1, 0, 1, 0, none, fun _ => [FLT_SRC_SEL_SOURCE]⟩,
  ⟨"FLT_SRC_CFG", 0xB0058, 1, 0, 1, 0, some FLT_SRC_SEL_SOURCE, fun i => [(FLT_SRC_CFG_CLASS i), (FLT_SRC_CFG_CE_RATE i), (FLT_SRC_CFG_RATE_MAX i), (FLT_SRC_CFG_RATE_WIN_MS i)]⟩,
  ⟨"FLT_SRC_STATUS", 0xB0060, 1, 0, 1, 0, some FLT_SRC_SEL_SOURCE, fun i => [(FLT_SRC_STATUS_FLOOR i), (FLT_SRC_STATUS_COUNT i), (FLT_SRC_STATUS_LAST_FSEQ i)]⟩,
  ⟨"FLT_INJECT", 0xB0068, 1, 0, 1, 0, none, fun _ => [FLT_INJECT_SOURCE, FLT_INJECT_CLASS, FLT_INJECT_GO]⟩,
  ⟨"FLT_LOG_SEL", 0xB0070, 1, 0, 1, 0, none, fun _ => [FLT_LOG_SEL_INDEX]⟩,
  ⟨"FLT_PAIR_STATUS", 0xB0078, 1, 0, 1, 0, none, fun _ => [FLT_PAIR_STATUS_ACTIVE, FLT_PAIR_STATUS_P0_STATE, FLT_PAIR_STATUS_P1_STATE, FLT_PAIR_STATUS_SWITCHES]⟩,
  ⟨"FLT_DIE_HOME_LO", 0xB0080, 1, 0, 1, 0, none, fun _ => [(FLT_DIE_HOME_LO_HOME 0), (FLT_DIE_HOME_LO_UNHOMED 0), (FLT_DIE_HOME_LO_HOME 1), (FLT_DIE_HOME_LO_UNHOMED 1), (FLT_DIE_HOME_LO_HOME 2), (FLT_DIE_HOME_LO_UNHOMED 2), (FLT_DIE_HOME_LO_HOME 3), (FLT_DIE_HOME_LO_UNHOMED 3), (FLT_DIE_HOME_LO_HOME 4), (FLT_DIE_HOME_LO_UNHOMED 4), (FLT_DIE_HOME_LO_HOME 5), (FLT_DIE_HOME_LO_UNHOMED 5), (FLT_DIE_HOME_LO_HOME 6), (FLT_DIE_HOME_LO_UNHOMED 6), (FLT_DIE_HOME_LO_HOME 7), (FLT_DIE_HOME_LO_UNHOMED 7)]⟩,
  ⟨"FLT_DIE_HOME_HI", 0xB0088, 1, 0, 1, 0, none, fun _ => [(FLT_DIE_HOME_HI_HOME 0), (FLT_DIE_HOME_HI_UNHOMED 0), (FLT_DIE_HOME_HI_HOME 1), (FLT_DIE_HOME_HI_UNHOMED 1), (FLT_DIE_HOME_HI_HOME 2), (FLT_DIE_HOME_HI_UNHOMED 2), (FLT_DIE_HOME_HI_HOME 3), (FLT_DIE_HOME_HI_UNHOMED 3), (FLT_DIE_HOME_HI_HOME 4), (FLT_DIE_HOME_HI_UNHOMED 4), (FLT_DIE_HOME_HI_HOME 5), (FLT_DIE_HOME_HI_UNHOMED 5), (FLT_DIE_HOME_HI_HOME 6), (FLT_DIE_HOME_HI_UNHOMED 6), (FLT_DIE_HOME_HI_HOME 7), (FLT_DIE_HOME_HI_UNHOMED 7)]⟩,
  ⟨"FLT_AGE_CFG", 0xB0090, 1, 0, 1, 0, none, fun _ => [FLT_AGE_CFG_PERIOD_H, FLT_AGE_CFG_WARN_PS, FLT_AGE_CFG_MIN_PS]⟩,
  ⟨"FLT_AGE_SEL", 0xB0098, 1, 0, 1, 0, none, fun _ => [FLT_AGE_SEL_ISLAND]⟩,
  ⟨"FLT_AGE_STATUS", 0xB00A0, 1, 0, 1, 0, some FLT_AGE_SEL_ISLAND, fun i => [(FLT_AGE_STATUS_SLACK_PS i), (FLT_AGE_STATUS_LOSS_PS i), (FLT_AGE_STATUS_LAST_SEC i)]⟩,
  ⟨"FLT_RPR_STATUS", 0xB00A8, 1, 0, 1, 0, none, fun _ => [FLT_RPR_STATUS_ENTRIES, FLT_RPR_STATUS_GEN, FLT_RPR_STATUS_FREE, FLT_RPR_STATUS_VALID]⟩,
  ⟨"FLT_RPR_SEL", 0xB00B0, 1, 0, 1, 0, none, fun _ => [FLT_RPR_SEL_INDEX]⟩,
  ⟨"FLT_RPR_CTRL", 0xB00B8, 1, 0, 1, 0, none, fun _ => [FLT_RPR_CTRL_ESEQ, FLT_RPR_CTRL_GO]⟩]

/-- Chapter 13. -/
def regMapAgg13b : List RegDesc := [
  ⟨"FLT_LOG_DATA", 0xB0100, 8, 8, 1, 0, none, fun i => [(FLT_LOG_DATA_DATA i)]⟩,
  ⟨"FLT_RPR_DATA", 0xB0140, 4, 8, 1, 0, none, fun i => [(FLT_RPR_DATA_DATA i)]⟩,
  ⟨"FLT_DRV_CLUSTER", 0xB0200, 32, 8, 1, 0, none, fun i => [(FLT_DRV_CLUSTER_STATE i), (FLT_DRV_CLUSTER_IN_SERVICE i), (FLT_DRV_CLUSTER_RETIRED i)]⟩]

/-- Chapter 14. -/
def regMapAgg14a : List RegDesc := [
  ⟨"PWR_CFG", 0xC0000, 1, 0, 1, 0, none, fun _ => [PWR_CFG_GASP_EN, PWR_CFG_PF_FILT_US, PWR_CFG_ARM_MV, PWR_CFG_WARN_MV, PWR_CFG_FLUSH_LIMIT_MS, PWR_CFG_TEST_DROP]⟩,
  ⟨"PWR_STATUS", 0xC0008, 1, 0, 1, 0, none, fun _ => [PWR_STATUS_FLUSH, PWR_STATUS_MAIN_OK, PWR_STATUS_CELL_OK, PWR_STATUS_NEXT_SLOT, PWR_STATUS_CELL_MV, PWR_STATUS_GEN]⟩,
  ⟨"PWR_EVENT", 0xC0010, 1, 0, 1, 0, none, fun _ => [PWR_EVENT_GASP, PWR_EVENT_SEALED, PWR_EVENT_CUT, PWR_EVENT_INCOMPLETE, PWR_EVENT_UNARMED_GASP, PWR_EVENT_CELL_LOW, PWR_EVENT_CELL_TEST_FAIL, PWR_EVENT_DOM_REFUSED, PWR_EVENT_SLOT_TRIP, PWR_EVENT_SLOT_CTRL_TRIP, PWR_EVENT_SLOT_FAULTED, PWR_EVENT_SLOT_DRAIN_FAIL, PWR_EVENT_SLOT_FLT_UNEXPECTED, PWR_EVENT_FLASH_FAIL]⟩,
  ⟨"PWR_FLUSH_STATUS", 0xC0018, 1, 0, 1, 0, none, fun _ => [PWR_FLUSH_STATUS_RESULT, PWR_FLUSH_STATUS_MAIN_BACK, PWR_FLUSH_STATUS_UNFLUSHED, PWR_FLUSH_STATUS_GEN]⟩,
  ⟨"PWR_CTRL", 0xC0020, 1, 0, 1, 0, none, fun _ => [PWR_CTRL_CELL_TEST]⟩,
  ⟨"PWR_DOM_CTRL", 0xC0028, 1, 0, 1, 0, none, fun _ => [PWR_DOM_CTRL_DOMAIN, PWR_DOM_CTRL_TARGET, PWR_DOM_CTRL_GO]⟩,
  ⟨"PWR_DOM_SEL", 0xC0030, 1, 0, 1, 0, none, fun _ => [PWR_DOM_SEL_DOMAIN]⟩,
  ⟨"PWR_DOM_CFG", 0xC0038, 1, 0, 1, 0, some PWR_DOM_SEL_DOMAIN, fun i => [(PWR_DOM_CFG_FBB i), (PWR_DOM_CFG_WA i), (PWR_DOM_CFG_RA i), (PWR_DOM_CFG_RBB i), (PWR_DOM_CFG_RET_MV i), (PWR_DOM_CFG_OFF_OK i)]⟩,
  ⟨"PWR_DOM_STATUS", 0xC0040, 1, 0, 1, 0, some PWR_DOM_SEL_DOMAIN, fun i => [(PWR_DOM_STATUS_STATE i), (PWR_DOM_STATUS_BUSY i), (PWR_DOM_STATUS_TARGET i), (PWR_DOM_STATUS_PENDING i), (PWR_DOM_STATUS_PEND_TGT i), (PWR_DOM_STATUS_LAST_REFUSE i)]⟩,
  ⟨"PWR_DOM_REFUSE", 0xC0048, 1, 0, 1, 0, some PWR_DOM_SEL_DOMAIN, fun i => [(PWR_DOM_REFUSE_BUSY i), (PWR_DOM_REFUSE_DEPEND i), (PWR_DOM_REFUSE_POLICY i), (PWR_DOM_REFUSE_OTHER i)]⟩,
  ⟨"SLOT_CFG", 0xC0050, 1, 0, 1, 0, none, fun _ => [SLOT_CFG_TRIP_N, SLOT_CFG_RETRY_MAX, SLOT_CFG_BACKOFF_MS, SLOT_CFG_ISNS_LSB_MA, SLOT_CFG_REC_RING, SLOT_CFG_REC_EN]⟩,
  ⟨"SLOT_CTRL", 0xC0058, 1, 0, 1, 0, none, fun _ => [SLOT_CTRL_SLOT, SLOT_CTRL_OP]⟩,
  ⟨"SLOT_ENV0", 0xC0100, 16, 32, 1, 0, none, fun i => [(SLOT_ENV0_RAMP_US i), (SLOT_ENV0_I_RAMP0 i), (SLOT_ENV0_I_RAMP1 i), (SLOT_ENV0_I_ON i)]⟩,
  ⟨"SLOT_ENV1", 0xC0108, 16, 32, 1, 0, none, fun i => [(SLOT_ENV1_REF_TGT i), (SLOT_ENV1_I_OFF i), (SLOT_ENV1_DRAIN_US i)]⟩,
  ⟨"SLOT_STATUS", 0xC0110, 16, 32, 1, 0, none, fun i => [(SLOT_STATUS_STATE i), (SLOT_STATUS_OWNER i), (SLOT_STATUS_EN_SENSE i), (SLOT_STATUS_FLT_SENSE i), (SLOT_STATUS_TRIPS i), (SLOT_STATUS_LAST_CAUSE i), (SLOT_STATUS_I_NOW i), (SLOT_STATUS_REF_NOW i)]⟩,
  ⟨"SLOT_COUNT", 0xC0118, 16, 32, 1, 0, none, fun i => [(SLOT_COUNT_TRIPS i), (SLOT_COUNT_CTRL_TRIPS i), (SLOT_COUNT_RETRIES i), (SLOT_COUNT_FLT_UNEXPECTED i)]⟩]

/-- Chapter 15. -/
def regMapAgg15a : List RegDesc := [
  ⟨"CFG_STATUS", 0x0, 1, 0, 1, 0, none, fun _ => [CFG_STATUS_STATE, CFG_STATUS_REASON, CFG_STATUS_TWIN_SEL, CFG_STATUS_AGG_ID]⟩,
  ⟨"CFG_IMG_INFO", 0x8, 1, 0, 1, 0, none, fun _ => [CFG_IMG_INFO_CODE0, CFG_IMG_INFO_CODE1, CFG_IMG_INFO_LIVE, CFG_IMG_INFO_GEN0, CFG_IMG_INFO_GEN1]⟩,
  ⟨"CFG_EVENT", 0x10, 1, 0, 1, 0, none, fun _ => [CFG_EVENT_SLOT0_BAD, CFG_EVENT_SLOT1_BAD, CFG_EVENT_HELD, CFG_EVENT_COMMIT_REFUSED, CFG_EVENT_ADOPT_REFUSED, CFG_EVENT_UCFG_DIFF, CFG_EVENT_PUSH_FAIL, CFG_EVENT_PROXY_TMO, CFG_EVENT_APERTURE_VIOL, CFG_EVENT_PROG_FAIL, CFG_EVENT_PCIE_UE]⟩,
  ⟨"CFG_COMMIT", 0x18, 1, 0, 1, 0, none, fun _ => [CFG_COMMIT_GO]⟩,
  ⟨"CFG_COMMIT_STATUS", 0x20, 1, 0, 1, 0, none, fun _ => [CFG_COMMIT_STATUS_PENDING, CFG_COMMIT_STATUS_REASON, CFG_COMMIT_STATUS_OFFSET, CFG_COMMIT_STATUS_TICK]⟩,
  ⟨"CFG_LIVE_SEL", 0x28, 1, 0, 1, 0, none, fun _ => [CFG_LIVE_SEL_OFFSET]⟩,
  ⟨"CFG_LIVE_DATA", 0x30, 1, 0, 1, 0, none, fun _ => [CFG_LIVE_DATA_VALUE]⟩,
  ⟨"CFG_ADOPT", 0x38, 1, 0, 1, 0, none, fun _ => [CFG_ADOPT_GO, CFG_ADOPT_WRITE, CFG_ADOPT_LEN, CFG_ADOPT_CODE]⟩,
  ⟨"CFG_APERTURE", 0x40, 1, 0, 1, 0, none, fun _ => [CFG_APERTURE_BASE_4G]⟩,
  ⟨"CFG_FLASH_CTRL", 0x48, 1, 0, 1, 0, none, fun _ => [CFG_FLASH_CTRL_OP, CFG_FLASH_CTRL_SLOT, CFG_FLASH_CTRL_LEN]⟩,
  ⟨"CFG_FLASH_STATUS", 0x50, 1, 0, 1, 0, none, fun _ => [CFG_FLASH_STATUS_BUSY, CFG_FLASH_STATUS_DONE, CFG_FLASH_STATUS_OK]⟩,
  ⟨"CFG_PROXY_STATUS", 0x58, 1, 0, 1, 0, none, fun _ => [CFG_PROXY_STATUS_SLOT, CFG_PROXY_STATUS_STATUS, CFG_PROXY_STATUS_ARG]⟩,
  ⟨"CFG_UPUSH", 0x60, 1, 0, 1, 0, none, fun _ => [CFG_UPUSH_SLOT]⟩,
  ⟨"CFG_UCFG_STATUS", 0x68, 1, 0, 1, 0, none, fun _ => [CFG_UCFG_STATUS_DONE, CFG_UCFG_STATUS_BUSY, CFG_UCFG_STATUS_DIFF]⟩]

/-- All registers of the aggregator. -/
def regMapAgg : List RegDesc :=
  regMapAgg01a ++ regMapAgg04a ++ regMapAgg05a ++ regMapAgg06a ++ regMapAgg06b ++ regMapAgg07a ++ regMapAgg08a ++ regMapAgg09a ++ regMapAgg10a ++ regMapAgg11a ++ regMapAgg12a ++ regMapAgg13a ++ regMapAgg13b ++ regMapAgg14a ++ regMapAgg15a

/-- Chapter 01. -/
def regMapUlg01a : List RegDesc := [
  ⟨"ULG_TIME_SEC", 0x100, 1, 0, 1, 0, none, fun _ => [ULG_TIME_SEC_SEC]⟩,
  ⟨"ULG_TIME_SUBSEC", 0x108, 1, 0, 1, 0, none, fun _ => [ULG_TIME_SUBSEC_NS, ULG_TIME_SUBSEC_FRAC]⟩,
  ⟨"ULG_STAMP32", 0x110, 1, 0, 1, 0, none, fun _ => [ULG_STAMP32_STAMP]⟩,
  ⟨"ULG_TICK_NOW", 0x118, 1, 0, 1, 0, none, fun _ => [ULG_TICK_NOW_TICK]⟩,
  ⟨"ULG_SERVO_STATUS", 0x120, 1, 0, 1, 0, none, fun _ => [ULG_SERVO_STATUS_STATE, ULG_SERVO_STATUS_SRC, ULG_SERVO_STATUS_ERR_NS, ULG_SERVO_STATUS_A_VALID, ULG_SERVO_STATUS_B_VALID]⟩,
  ⟨"ULG_PORT_OFFSET", 0x128, 1, 0, 1, 0, none, fun _ => [ULG_PORT_OFFSET_OFF_A, ULG_PORT_OFFSET_OFF_B]⟩,
  ⟨"ULG_TIME_CFG", 0x130, 1, 0, 1, 0, none, fun _ => [ULG_TIME_CFG_KP_SHIFT, ULG_TIME_CFG_KI_SHIFT, ULG_TIME_CFG_LOCK_NS, ULG_TIME_CFG_STEP_NS, ULG_TIME_CFG_SLEW_PPB, ULG_TIME_CFG_SRC_PREF, ULG_TIME_CFG_DISAGREE_NS, ULG_TIME_CFG_COAST_US]⟩,
  ⟨"ULG_TICK_CFG", 0x138, 1, 0, 1, 0, none, fun _ => [ULG_TICK_CFG_TICK_US, ULG_TICK_CFG_ROUND_TICKS]⟩,
  ⟨"ULG_TICK_ACT_SEC", 0x140, 1, 0, 1, 0, none, fun _ => [ULG_TICK_ACT_SEC_ACT_SEC]⟩,
  ⟨"ULG_TIME_EVENT", 0x148, 1, 0, 1, 0, none, fun _ => [ULG_TIME_EVENT_LOCK_LOST, ULG_TIME_EVENT_HOLD_ENTER, ULG_TIME_EVENT_STEP_SEEN, ULG_TIME_EVENT_SRC_SWITCH, ULG_TIME_EVENT_DISAGREE, ULG_TIME_EVENT_ISLAND_MISSING, ULG_TIME_EVENT_PARTIAL, ULG_TIME_EVENT_TICK_LATE, ULG_TIME_EVENT_HOST_WRITE, ULG_TIME_EVENT_TW_BAD, ULG_TIME_EVENT_SLEW_ENTER, ULG_TIME_EVENT_LARGE_OFFSET, ULG_TIME_EVENT_HOLD_LIMIT]⟩,
  ⟨"ULG_PORT_ASYM", 0x150, 1, 0, 1, 0, none, fun _ => [ULG_PORT_ASYM_ASYM_A, ULG_PORT_ASYM_ASYM_B]⟩,
  ⟨"ULG_TIME_CFG2", 0x158, 1, 0, 1, 0, none, fun _ => [ULG_TIME_CFG2_LARGE_US, ULG_TIME_CFG2_HOLD_LIMIT_S]⟩]

/-- Chapter 02. -/
def regMapUlg02a : List RegDesc := [
  ⟨"ULG_CNT_CFG", 0x200, 1, 0, 1, 0, none, fun _ => [ULG_CNT_CFG_CLUSTERS, ULG_CNT_CFG_UNCORE_BUSES, ULG_CNT_CFG_QUEUES, ULG_CNT_CFG_HANG_TICKS, ULG_CNT_CFG_HANG_MIN_CYC]⟩,
  ⟨"ULG_PACK_CFG", 0x208, 1, 0, 1, 0, none, fun _ => [ULG_PACK_CFG_KEY_TICKS, ULG_PACK_CFG_OVS_TO_REC, ULG_PACK_CFG_RING_DUMP_EN]⟩,
  ⟨"ULG_PACK_CTRL", 0x210, 1, 0, 1, 0, none, fun _ => [ULG_PACK_CTRL_FULL_NEXT]⟩,
  ⟨"ULG_CNT_STATUS", 0x218, 1, 0, 1, 0, none, fun _ => [ULG_CNT_STATUS_LAST_LEN, ULG_CNT_STATUS_LAST_SECTIONS, ULG_CNT_STATUS_BUF_BUSY, ULG_CNT_STATUS_PACKING, ULG_CNT_STATUS_SKIPPED]⟩,
  ⟨"ULG_CNT_EVENT", 0x220, 1, 0, 1, 0, none, fun _ => [ULG_CNT_EVENT_TD_BEAT, ULG_CNT_EVENT_TD_SHADOW, ULG_CNT_EVENT_EV_PARITY, ULG_CNT_EVENT_EV_OVF, ULG_CNT_EVENT_HANG, ULG_CNT_EVENT_OVS_LOST, ULG_CNT_EVENT_PROBE_ERR, ULG_CNT_EVENT_CNT_PARITY, ULG_CNT_EVENT_BUS_VIOL, ULG_CNT_EVENT_HR_ERR, ULG_CNT_EVENT_HOST_WRITE, ULG_CNT_EVENT_REC_SKIP]⟩,
  ⟨"ULG_CNT_ERR_COUNT", 0x228, 1, 0, 1, 0, none, fun _ => [ULG_CNT_ERR_COUNT_TD, ULG_CNT_ERR_COUNT_PARITY, ULG_CNT_ERR_COUNT_OVF, ULG_CNT_ERR_COUNT_LOST]⟩,
  ⟨"ULG_TD_FIRST", 0x230, 1, 0, 1, 0, none, fun _ => [ULG_TD_FIRST_CORE, ULG_TD_FIRST_KIND, ULG_TD_FIRST_VALID, ULG_TD_FIRST_TICK]⟩,
  ⟨"ULG_CNT_IRQ", 0x238, 1, 0, 1, 0, none, fun _ => [ULG_CNT_IRQ_CORE, ULG_CNT_IRQ_EN]⟩,
  ⟨"ULG_SHADOW_SEL", 0x240, 1, 0, 1, 0, none, fun _ => [ULG_SHADOW_SEL_INDEX]⟩,
  ⟨"ULG_SHADOW_TICK", 0x248, 1, 0, 1, 0, none, fun _ => [ULG_SHADOW_TICK_TICK]⟩,
  ⟨"ULG_LIVE_SEL", 0x250, 1, 0, 1, 0, none, fun _ => [ULG_LIVE_SEL_INDEX]⟩,
  ⟨"ULG_LIVE_DATA", 0x258, 1, 0, 1, 0, none, fun _ => [ULG_LIVE_DATA_VALUE]⟩,
  ⟨"ULG_RING_SEL", 0x260, 1, 0, 1, 0, none, fun _ => [ULG_RING_SEL_CORE]⟩,
  ⟨"ULG_RING_STATUS", 0x268, 1, 0, 1, 0, some ULG_RING_SEL_CORE, fun i => [(ULG_RING_STATUS_FROZEN i), (ULG_RING_STATUS_VALID i), (ULG_RING_STATUS_DUMP_PENDING i)]⟩,
  ⟨"ULG_RING_UNFREEZE", 0x270, 1, 0, 1, 0, none, fun _ => [ULG_RING_UNFREEZE_CORE, ULG_RING_UNFREEZE_ALL]⟩,
  ⟨"ULG_FROZEN_COUNT", 0x278, 1, 0, 1, 0, none, fun _ => [ULG_FROZEN_COUNT_COUNT]⟩,
  ⟨"ULG_OVS_POP", 0x280, 1, 0, 1, 0, none, fun _ => [ULG_OVS_POP_VALID, ULG_OVS_POP_SLOT, ULG_OVS_POP_CORE, ULG_OVS_POP_STAMP]⟩,
  ⟨"ULG_OVS_PC", 0x288, 1, 0, 1, 0, none, fun _ => [ULG_OVS_PC_PC, ULG_OVS_PC_HOST]⟩,
  ⟨"ULG_OVS_LEVEL", 0x290, 1, 0, 1, 0, some ULG_OVS_PEEK_SEL_CORE, fun i => [(ULG_OVS_LEVEL_LEVEL i)]⟩,
  ⟨"ULG_OVS_PEEK_SEL", 0x298, 1, 0, 1, 0, none, fun _ => [ULG_OVS_PEEK_SEL_CORE]⟩,
  ⟨"ULG_SHADOW_DATA", 0x1000, 64, 8, 1, 0, none, fun i => [(ULG_SHADOW_DATA_VALUE i)]⟩,
  ⟨"ULG_RING_DATA", 0x1200, 64, 8, 1, 0, none, fun i => [(ULG_RING_DATA_STAMP i), (ULG_RING_DATA_CODE i), (ULG_RING_DATA_ARG i)]⟩,
  ⟨"ULG_OVS_SLOT", 0x1400, 64, 8, 1, 0, none, fun i => [(ULG_OVS_SLOT_COUNTER i), (ULG_OVS_SLOT_EN i), (ULG_OVS_SLOT_CTRL_CORE i), (ULG_OVS_SLOT_PERIOD i)]⟩]

/-- Chapter 03. -/
def regMapUlg03a : List RegDesc := [
  ⟨"ULG_TRC_CFG", 0x400, 1, 0, 1, 0, none, fun _ => [ULG_TRC_CFG_EN, ULG_TRC_CFG_MODE, ULG_TRC_CFG_STOP_ON_FULL, ULG_TRC_CFG_SYNC_INTERVAL]⟩,
  ⟨"ULG_TRC_CORE_EN", 0x408, 1, 0, 1, 0, none, fun _ => [ULG_TRC_CORE_EN_EN]⟩,
  ⟨"ULG_TRC_AUTH", 0x410, 1, 0, 1, 0, none, fun _ => [ULG_TRC_AUTH_PRIV_OK, ULG_TRC_AUTH_SECURE_OK, ULG_TRC_AUTH_EXPIRY]⟩,
  ⟨"ULG_TRC_SEL", 0x418, 1, 0, 1, 0, none, fun _ => [ULG_TRC_SEL_CORE]⟩,
  ⟨"ULG_TRC_STATUS", 0x420, 1, 0, 1, 0, some ULG_TRC_SEL_CORE, fun i => [(ULG_TRC_STATUS_ACTIVE i), (ULG_TRC_STATUS_FIFO_LEVEL i)]⟩,
  ⟨"ULG_TRC_RING_PTR", 0x428, 1, 0, 1, 0, none, fun _ => [ULG_TRC_RING_PTR_OFFSET, ULG_TRC_RING_PTR_WRAPPED]⟩,
  ⟨"ULG_TRC_RING_SEL", 0x430, 1, 0, 1, 0, none, fun _ => [ULG_TRC_RING_SEL_OFFSET]⟩,
  ⟨"ULG_TRC_RING_DATA", 0x438, 1, 0, 1, 0, none, fun _ => [ULG_TRC_RING_DATA_WORD]⟩,
  ⟨"ULG_TRC_EVENT", 0x440, 1, 0, 1, 0, none, fun _ => [ULG_TRC_EVENT_OVERFLOW, ULG_TRC_EVENT_PRIV_GAP, ULG_TRC_EVENT_PARITY, ULG_TRC_EVENT_AUTH_EXPIRED, ULG_TRC_EVENT_STREAM_LOST, ULG_TRC_EVENT_RING_FULL, ULG_TRC_EVENT_HOST_WRITE, ULG_TRC_EVENT_VIOL]⟩,
  ⟨"ULG_TRC_LOST", 0x448, 1, 0, 1, 0, none, fun _ => [ULG_TRC_LOST_BEATS, ULG_TRC_LOST_WORDS]⟩,
  ⟨"ULG_TRC_CMP", 0x480, 8, 8, 1, 0, some ULG_TRC_SEL_CORE, fun x => [(ULG_TRC_CMP_ADDR (x / 8) (x % 8)), (ULG_TRC_CMP_EN (x / 8) (x % 8)), (ULG_TRC_CMP_ON (x / 8) (x % 8)), (ULG_TRC_CMP_ACTION (x / 8) (x % 8))]⟩,
  ⟨"ULG_TRC_RANGE_LO", 0x4C0, 4, 16, 1, 0, some ULG_TRC_SEL_CORE, fun x => [(ULG_TRC_RANGE_LO_ADDR (x / 4) (x % 4)), (ULG_TRC_RANGE_LO_MODE (x / 4) (x % 4))]⟩,
  ⟨"ULG_TRC_RANGE_HI", 0x4C8, 4, 16, 1, 0, some ULG_TRC_SEL_CORE, fun x => [(ULG_TRC_RANGE_HI_ADDR (x / 4) (x % 4))]⟩,
  ⟨"ULG_FT_CFG", 0x500, 1, 0, 1, 0, none, fun _ => [ULG_FT_CFG_EN, ULG_FT_CFG_PERIOD_S, ULG_FT_CFG_DEADLINE_S, ULG_FT_CFG_DEFER_LIMIT, ULG_FT_CFG_PAIR_WAIT_S]⟩,
  ⟨"ULG_FT_SEED", 0x508, 1, 0, 1, 0, none, fun _ => [ULG_FT_SEED_SEED]⟩,
  ⟨"ULG_FT_STATUS", 0x518, 1, 0, 1, 0, none, fun _ => [ULG_FT_STATUS_OPEN, ULG_FT_STATUS_RUNNING, ULG_FT_STATUS_DEFERRED]⟩,
  ⟨"ULG_FT_SEQ", 0x520, 1, 0, 1, 0, none, fun _ => [ULG_FT_SEQ_SEQ]⟩,
  ⟨"ULG_FT_FORCE", 0x528, 1, 0, 1, 0, none, fun _ => [ULG_FT_FORCE_CORE, ULG_FT_FORCE_KERNEL, ULG_FT_FORCE_SEQ_LO]⟩,
  ⟨"ULG_FT_EVENT", 0x530, 1, 0, 1, 0, none, fun _ => [ULG_FT_EVENT_FAIL, ULG_FT_EVENT_NO_MAJORITY, ULG_FT_EVENT_TIMEOUT, ULG_FT_EVENT_STARVED, ULG_FT_EVENT_FT_VIOL, ULG_FT_EVENT_TABLE_FULL, ULG_FT_EVENT_HOST_WRITE, ULG_FT_EVENT_FORCE_REFUSED]⟩,
  ⟨"ULG_FT_COUNT", 0x538, 1, 0, 1, 0, none, fun _ => [ULG_FT_COUNT_PASS, ULG_FT_COUNT_FAIL, ULG_FT_COUNT_DEFER, ULG_FT_COUNT_TIMEOUT]⟩,
  ⟨"ULG_FT_CORE_SEL", 0x540, 1, 0, 1, 0, none, fun _ => [ULG_FT_CORE_SEL_CORE]⟩,
  ⟨"ULG_FT_CORE_STATUS", 0x548, 1, 0, 1, 0, some ULG_FT_CORE_SEL_CORE, fun i => [(ULG_FT_CORE_STATUS_STATE i), (ULG_FT_CORE_STATUS_FAILED i), (ULG_FT_CORE_STATUS_DEFERS i), (ULG_FT_CORE_STATUS_LAST_PASS_SEC i)]⟩,
  ⟨"ULG_FT_KTAB", 0x580, 16, 8, 1, 0, none, fun i => [(ULG_FT_KTAB_ID i), (ULG_FT_KTAB_EN i), (ULG_FT_KTAB_MAX_US i)]⟩,
  ⟨"ULG_TILE_CFG", 0x600, 1, 0, 1, 0, none, fun _ => [ULG_TILE_CFG_EN, ULG_TILE_CFG_LOG2N, ULG_TILE_CFG_TAPS, ULG_TILE_CFG_TIMEOUT_US]⟩]

/-- Chapter 03. -/
def regMapUlg03b : List RegDesc := [
  ⟨"ULG_TILE_SEED", 0x608, 1, 0, 1, 0, none, fun _ => [ULG_TILE_SEED_SEED]⟩,
  ⟨"ULG_TILE_FORCE", 0x610, 1, 0, 1, 0, none, fun _ => [ULG_TILE_FORCE_TAP]⟩,
  ⟨"ULG_TILE_STATUS", 0x618, 1, 0, 1, 0, none, fun _ => [ULG_TILE_STATUS_BUF_FREE_KIB, ULG_TILE_STATUS_OPEN]⟩,
  ⟨"ULG_TILE_SEQ", 0x620, 1, 0, 1, 0, none, fun _ => [ULG_TILE_SEQ_SEQ]⟩,
  ⟨"ULG_TILE_EVENT", 0x628, 1, 0, 1, 0, none, fun _ => [ULG_TILE_EVENT_VIOL, ULG_TILE_EVENT_PARITY, ULG_TILE_EVENT_TIMEOUT, ULG_TILE_EVENT_SKIPPED, ULG_TILE_EVENT_HOST_WRITE]⟩,
  ⟨"ULG_TILE_COUNT", 0x630, 1, 0, 1, 0, none, fun _ => [ULG_TILE_COUNT_CAPTURED, ULG_TILE_COUNT_SKIPPED]⟩,
  ⟨"ULG_TILE_DISCARD", 0x638, 1, 0, 1, 0, none, fun _ => [ULG_TILE_DISCARD_DISCARDED]⟩,
  ⟨"ULG_EPOCH_CFG", 0x700, 1, 0, 1, 0, none, fun _ => [ULG_EPOCH_CFG_EPOCH_MS]⟩,
  ⟨"ULG_EPOCH_ACT_SEC", 0x708, 1, 0, 1, 0, none, fun _ => [ULG_EPOCH_ACT_SEC_ACT_SEC]⟩,
  ⟨"ULG_EPOCH_NOW", 0x710, 1, 0, 1, 0, none, fun _ => [ULG_EPOCH_NOW_EPOCH, ULG_EPOCH_NOW_VALID]⟩,
  ⟨"ULG_EPOCH_EVENT", 0x718, 1, 0, 1, 0, none, fun _ => [ULG_EPOCH_EVENT_EPOCH_LATE, ULG_EPOCH_EVENT_HOST_WRITE]⟩]

/-- Chapter 04. -/
def regMapUlg04a : List RegDesc := [
  ⟨"ULG_LINK_STATUS", 0x800, 2, 64, 1, 0, none, fun i => [(ULG_LINK_STATUS_STATE i), (ULG_LINK_STATUS_LANES i), (ULG_LINK_STATUS_PAIR i), (ULG_LINK_STATUS_ROLE i), (ULG_LINK_STATUS_PRIMARY i), (ULG_LINK_STATUS_SESSION i), (ULG_LINK_STATUS_FULL_REQ i), (ULG_LINK_STATUS_SESS_TAG i)]⟩,
  ⟨"ULG_LINK_NONCE", 0x808, 2, 64, 1, 0, none, fun i => [(ULG_LINK_NONCE_NONCE i)]⟩,
  ⟨"ULG_LINK_CMD", 0x810, 2, 64, 1, 0, none, fun i => [(ULG_LINK_CMD_NEXT i), (ULG_LINK_CMD_CACHED i)]⟩,
  ⟨"ULG_LINK_EVENT", 0x818, 2, 64, 1, 0, none, fun i => [(ULG_LINK_EVENT_RETRY i), (ULG_LINK_EVENT_DOWN i), (ULG_LINK_EVENT_DEGRADED i), (ULG_LINK_EVENT_VIOL i), (ULG_LINK_EVENT_ROLE_CONFLICT i), (ULG_LINK_EVENT_FULL_REQ i), (ULG_LINK_EVENT_NEW_SESSION i), (ULG_LINK_EVENT_RESUMED i), (ULG_LINK_EVENT_HOST_WRITE i)]⟩,
  ⟨"ULG_LINK_ERR_COUNT", 0x820, 2, 64, 1, 0, none, fun i => [(ULG_LINK_ERR_COUNT_REPLAYS i), (ULG_LINK_ERR_COUNT_RETRIES i), (ULG_LINK_ERR_COUNT_VIOL i), (ULG_LINK_ERR_COUNT_STALE i)]⟩,
  ⟨"ULG_LINK_CFG", 0x880, 1, 0, 1, 0, none, fun _ => [ULG_LINK_CFG_EN_A, ULG_LINK_CFG_EN_B, ULG_LINK_CFG_DEGRADE_OK]⟩]

/-- Chapter 11. -/
def regMapUlg11a : List RegDesc := [
  ⟨"ULG_RPL_STATUS", 0x900, 1, 0, 1, 0, none, fun _ => [ULG_RPL_STATUS_STATE, ULG_RPL_STATUS_RUNS_DONE, ULG_RPL_STATUS_SEQ_LO, ULG_RPL_STATUS_CORE]⟩,
  ⟨"ULG_RPL_SEL", 0x908, 1, 0, 1, 0, none, fun _ => [ULG_RPL_SEL_OFFSET]⟩,
  ⟨"ULG_RPL_DATA", 0x910, 1, 0, 1, 0, none, fun _ => [ULG_RPL_DATA_WORD]⟩,
  ⟨"ULG_RPL_EVENT", 0x918, 1, 0, 1, 0, none, fun _ => [ULG_RPL_EVENT_REFUSED, ULG_RPL_EVENT_RUN_TIMEOUT, ULG_RPL_EVENT_BAD_SIG, ULG_RPL_EVENT_CLOSED]⟩]

/-- Chapter 13. -/
def regMapUlg13a : List RegDesc := [
  ⟨"ULG_FLT_CFG", 0xA00, 1, 0, 1, 0, none, fun _ => [ULG_FLT_CFG_SHEEPDOG_US, ULG_FLT_CFG_QUIET_MS, ULG_FLT_CFG_AUTO_EXIT, ULG_FLT_CFG_RECOVER_MAX, ULG_FLT_CFG_RECOVER_WIN_S, ULG_FLT_CFG_CAPTURE_MIN]⟩,
  ⟨"ULG_FLT_STATUS", 0xA08, 1, 0, 1, 0, none, fun _ => [ULG_FLT_STATUS_STATE, ULG_FLT_STATUS_PENDING, ULG_FLT_STATUS_LOG_LEVEL, ULG_FLT_STATUS_RECOVERIES, ULG_FLT_STATUS_FTM, ULG_FLT_STATUS_BIST_FAIL, ULG_FLT_STATUS_NEXT_FSEQ]⟩,
  ⟨"ULG_FLT_EVENT", 0xA10, 1, 0, 1, 0, none, fun _ => [ULG_FLT_EVENT_TMR_CORRECTED, ULG_FLT_EVENT_INJ_REFUSED, ULG_FLT_EVENT_LOG_FULL, ULG_FLT_EVENT_SHEEPDOG, ULG_FLT_EVENT_SAFE_ENTER, ULG_FLT_EVENT_SAFE_EXIT, ULG_FLT_EVENT_LATCHED, ULG_FLT_EVENT_AGE_WARN, ULG_FLT_EVENT_AGE_LIMIT, ULG_FLT_EVENT_HOST_WRITE]⟩,
  ⟨"ULG_FLT_ACK", 0xA18, 1, 0, 1, 0, none, fun _ => [ULG_FLT_ACK_FSEQ]⟩,
  ⟨"ULG_FLT_POP", 0xA20, 1, 0, 1, 0, none, fun _ => [ULG_FLT_POP_FSEQ]⟩,
  ⟨"ULG_FLT_CTRL", 0xA28, 1, 0, 1, 0, none, fun _ => [ULG_FLT_CTRL_EXIT, ULG_FLT_CTRL_ENTER_SAFE, ULG_FLT_CTRL_CLEAR_FIRST]⟩,
  ⟨"ULG_FLT_FIRST", 0xA30, 1, 0, 1, 0, none, fun _ => [ULG_FLT_FIRST_SOURCE, ULG_FLT_FIRST_CLASS, ULG_FLT_FIRST_ACCESS, ULG_FLT_FIRST_MASTER, ULG_FLT_FIRST_VALID, ULG_FLT_FIRST_CAP_PARITY, ULG_FLT_FIRST_STAMP]⟩,
  ⟨"ULG_FLT_FIRST_ADDR", 0xA38, 1, 0, 1, 0, none, fun _ => [ULG_FLT_FIRST_ADDR_ADDR]⟩,
  ⟨"ULG_HFLT_SEL", 0xA40, 1, 0, 1, 0, none, fun _ => [ULG_HFLT_SEL_INDEX]⟩,
  ⟨"ULG_HFLT_CFG", 0xA48, 1, 0, 1, 0, some ULG_HFLT_SEL_INDEX, fun i => [(ULG_HFLT_CFG_EN i), (ULG_HFLT_CFG_CLASS i), (ULG_HFLT_CFG_POL i), (ULG_HFLT_CFG_PULSE i), (ULG_HFLT_CFG_FILT i)]⟩,
  ⟨"ULG_HFLT_STATE", 0xA50, 1, 0, 1, 0, some ULG_HFLT_SEL_INDEX, fun i => [(ULG_HFLT_STATE_LEVEL i), (ULG_HFLT_STATE_COUNT i)]⟩,
  ⟨"ULG_FLT_INJECT", 0xA58, 1, 0, 1, 0, none, fun _ => [ULG_FLT_INJECT_SOURCE, ULG_FLT_INJECT_CLASS, ULG_FLT_INJECT_GO]⟩,
  ⟨"ULG_FLT_AGE_CFG", 0xA60, 1, 0, 1, 0, none, fun _ => [ULG_FLT_AGE_CFG_PERIOD_H, ULG_FLT_AGE_CFG_WARN_PS, ULG_FLT_AGE_CFG_MIN_PS]⟩,
  ⟨"ULG_FLT_AGE", 0xA68, 1, 0, 1, 0, none, fun _ => [ULG_FLT_AGE_ISLAND, ULG_FLT_AGE_SLACK_PS, ULG_FLT_AGE_LOSS_PS]⟩,
  ⟨"ULG_FLT_SRC_SEL", 0xA70, 1, 0, 1, 0, none, fun _ => [ULG_FLT_SRC_SEL_SOURCE]⟩,
  ⟨"ULG_FLT_SRC_CFG", 0xA78, 1, 0, 1, 0, some ULG_FLT_SRC_SEL_SOURCE, fun i => [(ULG_FLT_SRC_CFG_CLASS i), (ULG_FLT_SRC_CFG_FLOOR i)]⟩,
  ⟨"ULG_FLT_LOG_DATA", 0xA80, 4, 8, 1, 0, none, fun i => [(ULG_FLT_LOG_DATA_DATA i)]⟩]

/-- Chapter 14. -/
def regMapUlg14a : List RegDesc := [
  ⟨"ULG_PD_STATUS", 0xB00, 1, 0, 1, 0, none, fun _ => [(ULG_PD_STATUS_ST 0), (ULG_PD_STATUS_ST 1), (ULG_PD_STATUS_ST 2), (ULG_PD_STATUS_ST 3), (ULG_PD_STATUS_ST 4), (ULG_PD_STATUS_ST 5), (ULG_PD_STATUS_ST 6), (ULG_PD_STATUS_ST 7), (ULG_PD_STATUS_ST 8), (ULG_PD_STATUS_ST 9), (ULG_PD_STATUS_ST 10), (ULG_PD_STATUS_ST 11), (ULG_PD_STATUS_ST 12), (ULG_PD_STATUS_ST 13), (ULG_PD_STATUS_ST 14), (ULG_PD_STATUS_ST 15), (ULG_PD_STATUS_ST 16), (ULG_PD_STATUS_ST 17), (ULG_PD_STATUS_ST 18), (ULG_PD_STATUS_ST 19), (ULG_PD_STATUS_ST 20), (ULG_PD_STATUS_ST 21), ULG_PD_STATUS_BUSY]⟩,
  ⟨"ULG_PD_CFG", 0xB08, 1, 0, 1, 0, none, fun _ => [ULG_PD_CFG_OFF_OK, ULG_PD_CFG_HS_EN, ULG_PD_CFG_FBB, ULG_PD_CFG_RBB, ULG_PD_CFG_RET_MV, ULG_PD_CFG_WA, ULG_PD_CFG_RA]⟩,
  ⟨"ULG_PD_EVENT", 0xB10, 1, 0, 1, 0, none, fun _ => [ULG_PD_EVENT_REFUSED, ULG_PD_EVENT_HS_DENY, ULG_PD_EVENT_PD_BEAT, ULG_PD_EVENT_HS_VIOL, ULG_PD_EVENT_HOST_WRITE]⟩,
  ⟨"ULG_PD_REFUSE", 0xB18, 1, 0, 1, 0, none, fun _ => [ULG_PD_REFUSE_BUSY, ULG_PD_REFUSE_DEPEND, ULG_PD_REFUSE_POLICY, ULG_PD_REFUSE_OTHER]⟩]

/-- Chapter 15. -/
def regMapUlg15a : List RegDesc := [
  ⟨"ULG_CFG_ID", 0xC00, 1, 0, 1, 0, none, fun _ => [ULG_CFG_ID_UCFG_ID]⟩,
  ⟨"ULG_COMMIT_STATUS", 0xC08, 1, 0, 1, 0, none, fun _ => [ULG_COMMIT_STATUS_PENDING, ULG_COMMIT_STATUS_REASON, ULG_COMMIT_STATUS_OFFSET, ULG_COMMIT_STATUS_TICK]⟩,
  ⟨"ULG_CFG_LSEL", 0xC10, 1, 0, 1, 0, none, fun _ => [ULG_CFG_LSEL_OFFSET]⟩,
  ⟨"ULG_CFG_LDATA", 0xC18, 1, 0, 1, 0, none, fun _ => [ULG_CFG_LDATA_VALUE]⟩,
  ⟨"ULG_CFG_DIE", 0xC20, 1, 0, 1, 0, none, fun _ => [ULG_CFG_DIE_FLEET_DIE, ULG_CFG_DIE_VALID]⟩]

/-- All registers of the Uligo. -/
def regMapUlg : List RegDesc :=
  regMapUlg01a ++ regMapUlg02a ++ regMapUlg03a ++ regMapUlg03b ++ regMapUlg04a ++ regMapUlg11a ++ regMapUlg13a ++ regMapUlg14a ++ regMapUlg15a

/-- The copy of the register that lies at byte offset `a`, if one does. -/
def RegDesc.copyAt (d : RegDesc) (a : Nat) : Option Nat :=
  if a < d.base then none
  else
    let r := a - d.base
    let i := if d.stride = 0 then 0 else r / d.stride
    let r1 := if d.stride = 0 then r else r % d.stride
    let j := if d.stride2 = 0 then 0 else r1 / d.stride2
    let r2 := if d.stride2 = 0 then r1 else r1 % d.stride2
    if r2 = 0 ∧ i < d.count ∧ j < d.count2 then some (i * d.count2 + j) else none

/-- The register at byte offset `a` of a map, with its copy. -/
def findReg : List RegDesc → Nat → Option (RegDesc × Nat)
  | [], _ => none
  | d :: t, a =>
    match d.copyAt a with
    | some i => some (d, i)
    | none => findReg t a

/-- The fields that copy `i` shows: behind a select register, those of the selected entry. -/
def RegDesc.fieldsAt (d : RegDesc) (r : Store) (i : Nat) : List Field :=
  match d.sel with
  | none => d.fields i
  | some f => d.fields (r.get f * (d.count * d.count2) + i)

end Sys2Proof.Machine
end

