-- ==== Sys2Proof/Machine/Bytes.lean ====
section
/-! DEFINITION. Bytes and bits of records, flits and packages: byte orders (R14), the CRC-32C of every record, the
random-operand generator (R114), and packed values (R85, R126). -/

namespace Sys2Proof.Machine

/-! ### Small helpers -/

/-- A conditional change. -/
def when {α : Type} (c : Bool) (f : α → α) (x : α) : α := if c then f x else x

/-- Bit `k` of a number. -/
def bitAt (n k : Nat) : Bool := n / 2 ^ k % 2 == 1

/-- The number with bit `k` set or cleared. -/
def withBit (n k : Nat) (b : Bool) : Nat :=
  if bitAt n k = b then n else if b then n + 2 ^ k else n - 2 ^ k

/-- The number of ones of the lowest `w` bits. -/
def popCount (w n : Nat) : Nat := ((List.range w).filter (bitAt n ·)).length

/-- An integer held within bounds. -/
def clampInt (lo hi v : Int) : Int := if v < lo then lo else if hi < v then hi else v

/-- Ceiling division of natural numbers. -/
def ceilDiv (a b : Nat) : Nat := (a + b - 1) / b

/-! ### Byte orders (R14) -/

/-- The low `n` bytes of a number, least significant first: Shed records and registers. -/
def leBytes : Nat → Nat → List Byte
  | 0, _ => []
  | n + 1, v => BitVec.ofNat 8 v :: leBytes n (v / 256)

/-- The low `n` bytes of a number, most significant first: flit, frame and command headers. -/
def beBytes (n v : Nat) : List Byte := (leBytes n v).reverse

/-- The number that little-endian bytes spell. -/
def leNat : List Byte → Nat
  | [] => 0
  | b :: t => b.toNat + 256 * leNat t

/-- The number that big-endian bytes spell. -/
def beNat (l : List Byte) : Nat := leNat l.reverse

/-- `n` bytes at an offset as a little-endian number. -/
def leAt (l : List Byte) (off n : Nat) : Nat := leNat ((l.drop off).take n)

/-- Zero bytes. -/
def zeros (n : Nat) : List Byte := List.replicate n 0

/-- Bytes padded with zeros to a multiple of `m`. -/
def padTo (m : Nat) (l : List Byte) : List Byte := l ++ zeros ((m - l.length % m) % m)

/-- A signed value as the low bits of two's complement. -/
def twos (w : Nat) (v : Int) : Nat := (v % 2 ^ w).toNat

/-- The signed value of the low `w` bits. -/
def signed (w n : Nat) : Int :=
  let m := n % 2 ^ w
  if m < 2 ^ (w - 1) then (m : Int) else (m : Int) - 2 ^ w

/-! ### CRC-32C -/

/-- One bit of the reflected CRC with polynomial 0x1EDC6F41 (reflected 0x82F63B78). -/
def crcBit (c : BitVec 32) : BitVec 32 :=
  if c.getLsbD 0 then (c >>> 1) ^^^ 0x82F63B78#32 else c >>> 1

/-- One byte. -/
def crcByte (c : BitVec 32) (b : Byte) : BitVec 32 :=
  let x := c ^^^ b.setWidth 32
  crcBit (crcBit (crcBit (crcBit (crcBit (crcBit (crcBit (crcBit x)))))))

/-- The CRC-32C (Castagnoli) of bytes: initial value and final inversion all ones (log entry 17). -/
def crc32c (l : List Byte) : Nat := ((l.foldl crcByte 0xFFFF_FFFF#32) ^^^ 0xFFFF_FFFF#32).toNat

/-- A record with its 8-byte trailer: CRC-32C and 4 reserved bytes (R91, R111, R122, R129). -/
def withTrailer (l : List Byte) : List Byte := l ++ leBytes 4 (crc32c l) ++ zeros 4

/-- The trailer of a whole record is right (R177). -/
def trailerGood (l : List Byte) : Bool :=
  let n := l.length - 8
  leAt l n 4 == crc32c (l.take n)

/-! ### The UDP checksum of a one-step message (R28) -/

/-- The sum of the 16-bit words of an originTimestamp: 48 bits of seconds and 32 of nanoseconds; `q` is in 2^-16 ns. -/
def stampWords (q : Int) : Nat :=
  let ns := q.toNat / 65536
  let sec := ns / 1000000000 % 2 ^ 48
  let sub := ns % 1000000000
  sec / 2 ^ 32 + sec / 2 ^ 16 % 2 ^ 16 + sec % 2 ^ 16 + sub / 2 ^ 16 + sub % 2 ^ 16

/-- The two-octet Annex E trailer of a Delay_Req (R28). The frame is built with originTimestamp and trailer 0; the
trailer makes the ones'-complement sum of both 0, so the UDP checksum stays correct once the stamp is written. -/
def annexETrailer (q : Int) : Nat := (65535 - stampWords q % 65535) % 65535

/-! ### The generator (R114) -/

/-- Ten rounds of `gen` from words a and b under key k. -/
def genRounds : Nat → Nat → Nat → Nat → Nat × Nat
  | 0, a, b, _ => (b, a)
  | n + 1, a, b, k =>
    let pr := a * 0xD2B74407B1CE6E93
    let h := pr / 2 ^ 64
    let l := pr % 2 ^ 64
    genRounds n (h ^^^ b ^^^ k) l ((k + 0x9E3779B97F4A7C15) % 2 ^ 64)

/-- `gen(key, ctr_hi, ctr_lo)`: lo64 and hi64 of a block (R114). -/
def gen (key hi lo : Nat) : Nat × Nat := genRounds 10 (lo % 2 ^ 64) (hi % 2 ^ 64) (key % 2 ^ 64)

/-! ### Packing bits -/

/-- Values with their widths, packed from bit 0 upward, each least significant bit first. -/
def packBits (l : List (Nat × Nat)) : Nat × Nat :=
  l.foldl (fun (acc : Nat × Nat) (e : Nat × Nat) => (acc.1 + (e.1 % 2 ^ e.2) * 2 ^ acc.2, acc.2 + e.2)) (0, 0)

/-- The same as bytes, the last one zero-filled. -/
def packBytes (l : List (Nat × Nat)) : List Byte :=
  let r := packBits l
  leBytes (ceilDiv r.2 8) r.1

/-- The bit length of a number; 0 has none. -/
def bitLen (n : Nat) : Nat := if n = 0 then 0 else Nat.log2 n + 1

/-- The XOR of all bits of a number below 2^w. -/
def parityOf (w n : Nat) : Bool := popCount w n % 2 == 1

end Sys2Proof.Machine
end

