-- ==== Sys2Proof/Machine/Wire.lean ====
section
/-! DEFINITION. What stands on the wires of a die link (04): the time words of R34, the control slots of R141, the flit
of R138 and the command and response headers of R152. Every message is laid out in network order; what reads one gives
the operand of the command that its arrival is. -/

namespace Sys2Proof

open Machine

/-- `n` bytes at an offset as a big-endian number (R14). -/
def beAt (l : List Byte) (off n : Nat) : Nat := beNat ((l.drop off).take n)

/-- A flag as a bit of the given weight. -/
def flag (b : Bool) (w : Nat) : Nat := if b then w else 0

/-- The multicast address of PTP, FF0E::181 (R27). -/
def ptpGroup : Nat := 0xFF0E * 2 ^ 112 + 0x181

/-! ### Time words (R34) -/

/-- FLAGS of a time word: its reserved bit [3] stands for any reserved flag. -/
def TimeWord.flags (w : TimeWord) : Nat :=
  flag w.echoValid 1 + flag w.dUpSat 2 + flag w.srcDegraded 4 + flag w.reservedSet 8 + 16 * (w.srcErrNs % 16)

/-- The first four bytes: TYPE, SEQ, FLAGS and ECHO_SEQ. -/
def TimeWord.head (w : TimeWord) (type echoSeq : Nat) : List Byte :=
  beBytes 1 type ++ beBytes 1 w.seq ++ beBytes 1 w.flags ++ beBytes 1 echoSeq

/-- The whole seconds, nanoseconds and FRAC of a time in 2^-16 ns. -/
def secNsFrac (q : Nat) : List Byte :=
  beBytes 6 (q / (65536 * 1000000000)) ++ beBytes 4 (q / 65536 % 1000000000) ++ beBytes 2 (q % 65536)

/-- TW_SYNC. -/
def TimeWord.syncBytes (w : TimeWord) : List Byte := w.head 1 w.echoSeq ++ beBytes 8 w.depart ++ beBytes 4 (twos 32 w.dUp)

/-- TW_ECHO: ECHO_SEQ and D_UP are reserved. -/
def TimeWord.echoBytes (w : TimeWord) : List Byte := w.head 2 0 ++ beBytes 8 w.depart ++ zeros 4

/-- TW_FULL: ECHO_SEQ is reserved. -/
def TimeWord.fullBytes (w : TimeWord) : List Byte := w.head 3 0 ++ secNsFrac w.depart

/-- The fields that every time word has. -/
def timeHead (l : List Byte) : TimeWord :=
  let f := beAt l 2 1
  { seq := beAt l 1 1, echoValid := bitAt f 0, dUpSat := bitAt f 1, srcDegraded := bitAt f 2, reservedSet := bitAt f 3
    srcErrNs := f / 16 % 16 }

/-- A TW_SYNC read. -/
def readSync (l : List Byte) : TimeWord :=
  { timeHead l with echoSeq := beAt l 3 1, depart := beAt l 4 8, dUp := signed 32 (beAt l 12 4) }

/-- A TW_ECHO read: reserved fields are ignored (R15). -/
def readEcho (l : List Byte) : TimeWord := { timeHead l with depart := beAt l 4 8 }

/-- A TW_FULL read. -/
def readFull (l : List Byte) : TimeWord :=
  { timeHead l with depart := (beAt l 4 6 * 1000000000 + beAt l 10 4) * 65536 + beAt l 14 2 }

/-! ### The control slot (R141) -/

/-- A slot's 16 bytes. -/
def CtrlSlot.bytes : CtrlSlot → List Byte
  | .empty => zeros 16
  | .timeSync w => w.syncBytes
  | .timeEcho w => w.echoBytes
  | .timeFull w => w.fullBytes
  | .hello r v n => beBytes 1 0x10 ++ beBytes 1 (flag r 1 + flag v 2) ++ zeros 2 ++ beBytes 8 n ++ zeros 4
  | .helloAck a =>
    beBytes 1 0x11 ++ beBytes 1 (flag a.resumed 1 + flag a.unknown 2 + flag a.fullReq 4 + flag a.reservedSet 8) ++
      zeros 2 ++ beBytes 8 a.dieUid ++ beBytes 4 a.prevNext
  | .other t => beBytes 1 t ++ zeros 15

/-- A slot read, in a flit with the given SESS_TAG (R141, R149). -/
def readSlot (sessTag : Nat) (l : List Byte) : CtrlSlot :=
  let f := beAt l 1 1
  match beAt l 0 1 with
  | 0 => .empty
  | 1 => .timeSync (readSync l)
  | 2 => .timeEcho (readEcho l)
  | 3 => .timeFull (readFull l)
  | 0x10 => .hello (bitAt f 0) (decide (2 ≤ f)) (beAt l 4 8)
  | 0x11 =>
    .helloAck {
      resumed := bitAt f 0, unknown := bitAt f 1, fullReq := bitAt f 2, reservedSet := decide (8 ≤ f)
      dieUid := beAt l 4 8, prevNext := beAt l 12 4, sessTag := sessTag }
  | t => .other t

/-- A slot as it crosses the timestamp point at `q`, in 2^-16 ns: DEPART, or SEC, NS and FRAC, is written there (R35). -/
def CtrlSlot.stamped (q : Nat) : CtrlSlot → CtrlSlot
  | .timeSync w => .timeSync { w with depart := q % 2 ^ 64 }
  | .timeEcho w => .timeEcho { w with depart := q % 2 ^ 64 }
  | .timeFull w => .timeFull { w with depart := q }
  | c => c

/-- The slot of a received flit breaks R167: a reserved TYPE or flag, or a HELLO or HELLO_ACK at the wrong end. The
reserved flags of a HELLO and of a HELLO_ACK are counted by the commands that these are. -/
def CtrlSlot.breaks (isAgg : Bool) : CtrlSlot → Bool
  | .empty => false
  | .timeSync w | .timeEcho w | .timeFull w => w.reservedSet
  | .hello _ _ _ => isAgg
  | .helloAck _ => !isAgg
  | .other _ => true

/-! ### The flit (R138) -/

/-- The 252 bytes that the CRC covers. -/
def Flit.body (f : Flit) (data : Bool) : List Byte :=
  beBytes 1 (f.ftypeOther.getD (if data then 1 else 2)) ++ beBytes 1 f.fseq ++ beBytes 1 f.ackSeq ++
    beBytes 1 (flag f.nak 1 + flag f.mark 2 + 16 * (f.stateNibble : Nat)) ++ beBytes 2 f.sessTag ++
    beBytes 1 ((f.stream : Nat) + flag f.first 16 + flag f.last 32) ++ beBytes 1 f.plen ++ f.ctrl.bytes ++
    f.payload ++ zeros (228 - f.payload.length)

/-- A flit's 256 bytes: the CRC-32C of the others stands last. -/
def Flit.bytes (f : Flit) (data : Bool) : List Byte := f.body data ++ beBytes 4 (crc32c (f.body data))

/-- A flit read from its 256 bytes, and whether it is DATA: what the FEC corrected and the state of the port FIFO are
not in them. -/
def readFlit (l : List Byte) : Flit × Bool :=
  let t := beAt l 0 1
  let fl := beAt l 3 1
  let st := beAt l 6 1
  ({ fseq := beAt l 1 1, ackSeq := beAt l 2 1, nak := bitAt fl 0, mark := bitAt fl 1
     stateNibble := Fin.ofNat 16 (fl / 16), sessTag := beAt l 4 2, stream := Fin.ofNat 16 st
     first := bitAt st 4, last := bitAt st 5, plen := beAt l 7 1
     ctrl := readSlot (beAt l 4 2) ((l.drop 8).take 16), payload := (l.drop 24).take (min 228 (beAt l 7 1))
     crcGood := beAt l 252 4 == crc32c (l.take 252)
     ftypeOther := if t = 1 ∨ t = 2 then none else some t }, t == 1)

/-! ### Commands and responses (R152, R153) -/

/-- A command of an opcode: the 16-byte header and its words, each little-endian. -/
def Cmd.bytes (opcode : Nat) (c : Cmd) : List Byte :=
  beBytes 1 opcode ++ zeros 2 ++ beBytes 1 c.count ++ beBytes 4 c.seq ++ beBytes 4 c.addr ++ beBytes 4 c.arg ++
    (c.data.map (leBytes 8)).flatten

/-- A response. Its ADDR is 0 (log entry 167). -/
def Resp.bytes (r : Resp) : List Byte :=
  beBytes 1 r.opcode ++ beBytes 1 (flag r.dup 1) ++ beBytes 1 r.status ++ beBytes 1 r.data.length ++
    beBytes 4 r.seq ++ zeros 4 ++ beBytes 4 r.arg ++ (r.data.map (leBytes 8)).flatten

/-- The little-endian words after a header, as many as COUNT says and the payload holds. -/
def dataWords (l : List Byte) : List Nat :=
  (List.range (min (beAt l 3 1) ((l.length - 16) / 8))).map fun i => leAt l (16 + 8 * i) 8

/-- The fields of a command read from its payload. -/
def readCmd (l : List Byte) : Cmd :=
  { seq := beAt l 4 4, count := beAt l 3 1, addr := beAt l 8 4, arg := beAt l 12 4, data := dataWords l }

/-- The row of the opcode table that a command on port `x` is (R153, R362, R449); `none` for a reserved opcode and for a
reserved sub-operation of TILE_REPLAY. -/
def commandOf (x : Fin 2) (opcode : Nat) (c : Cmd) : Option Instr :=
  match opcode with
  | 0x01 => some (.read x c)
  | 0x02 => some (.write x c)
  | 0x04 => some (.commit x c)
  | 0x05 => some (.sessionStatus x c)
  | 0x06 => some (.nop x c)
  | 0x10 =>
    match c.arg % 8 with
    | 1 => some (.replayOpen x c)
    | 2 => some (.replayLoad x c)
    | 3 => some (.replayStart x c)
    | 4 => some (.replayStatus x c)
    | 5 => some (.replayClose x c)
    | _ => none
  | 0x20 => if c.arg / 256 % 4 = 3 then some (.domainQuery x c) else some (.domain x c)
  | _ => none

/-! ### Rycon-F packets (R391, R392, R399, R405) -/

/-- MIRROR and NOTICE packets ask for an acknowledgement (R392). -/
def OutPacket.ackReq (o : OutPacket) : Bool := o.rclass == 1 || o.rclass == 3

/-- DST of a packet; that of one to the spine is ignored, and 0. -/
def OutPacket.dstField (o : OutPacket) : Nat := if o.spine then 0 else o.dst % 2 ^ 14

/-- The egress queue of a notice, by NTYPE. -/
def noticeQueue (ntype : Nat) : Nat := match ntype with | 1 | 2 | 4 => 3 | _ => 0

/-- The egress queue of a Rycon-F packet, by what it carries (R399): of a mirror message, its MTYPE, ring and FETCHED; of an ACK,
its ACK_CLASS. -/
def OutPacket.queue (o : OutPacket) : Nat :=
  match o.rclass with
  | 1 =>
    if leAt o.payload 0 1 ≠ 0x32 then 4
    else if bitAt (leAt o.payload 2 2) 2 then 6
    else if leAt o.payload 16 2 = 65534 then 4 else 5
  | 3 => match o.msgType with
    | 1 => noticeQueue (leAt o.payload 0 1)
    | 2 => 2
    | _ => 0
  | 5 => if leAt o.payload 0 1 = 3 then 0 else 4
  | _ => 2

/-- The frames that a paddock's shaper covers (R405). -/
def OutPacket.shaped (o : OutPacket) : Bool := o.rclass != 0 && (o.queue == 3 || o.queue == 5 || o.queue == 6)

/-! ### Mirror and journal messages (R218, R219) -/

/-- A mirror message with a reserved MTYPE or VERSION is refused (R15). -/
def MirHead.taken (h : MirHead) : Bool := h.typeOther.isNone && h.version == 1

/-- A mirror or journal message. -/
inductive MirMsg where
  | hello (tag : Nat) (reset : Bool)
  | helloAck (tag status : Nat)
  | data (m : MirrorPart)
  | ack (ring ackSeq : Nat)
  | jquery (q : JQueryMsg)
  | janswer (a : JAnswerMsg)
  | fetch (f : FetchMsg)
  | fetchEnd (qid count firstHeld : Nat)
  deriving DecidableEq, Repr, Inhabited

/-- MTYPE. -/
def MirMsg.type : MirMsg → Nat
  | .hello _ _ => 0x30 | .helloAck _ _ => 0x31 | .data _ => 0x32 | .ack _ _ => 0x33 | .jquery _ => 0x34
  | .janswer _ => 0x35 | .fetch _ => 0x36 | .fetchEnd _ _ _ => 0x37

/-- MFLAGS: RESET, FENCE, FETCHED. -/
def MirMsg.flags : MirMsg → Nat
  | .hello _ r => flag r 1
  | .jquery q => flag q.fence 2
  | .data m => flag m.fetched 4
  | _ => 0

/-- The body of a message, from offset 16 (R219). -/
def MirMsg.body : MirMsg → List Byte
  | .hello tag _ => leBytes 2 tag ++ zeros 6
  | .helloAck tag status => leBytes 2 tag ++ leBytes 1 status ++ zeros 5
  | .data m => leBytes 2 m.ring ++ zeros 2 ++ leBytes 4 m.ringSeq ++ leBytes 4 m.offset ++ leBytes 4 m.total ++ m.bytes
  | .ack ring seq => leBytes 2 ring ++ zeros 2 ++ leBytes 4 seq
  | .jquery q =>
    leBytes 4 q.qid ++ leBytes 1 q.mode ++ zeros 1 ++ leBytes 2 q.subject ++ leBytes 8 q.firstOp ++ leBytes 4 q.count ++ zeros 4
  | .janswer a =>
    leBytes 4 a.qid ++ leBytes 1 a.result ++ zeros 3 ++ leBytes 8 a.heldFrom ++ leBytes 8 a.coveredTo ++
      leBytes 4 a.codes.length ++ zeros 4 ++
      (if a.mode = 0 then packBytes (a.codes.map fun c => (c, 2)) else (a.codes.map (leBytes 8)).flatten)
  | .fetch f =>
    leBytes 4 f.qid ++ leBytes 4 f.fleetDie ++ leBytes 1 f.cls ++ zeros 7 ++ leBytes 8 f.firstIdent ++ leBytes 8 f.lastIdent
  | .fetchEnd qid count first => leBytes 4 qid ++ leBytes 4 count ++ leBytes 8 first

/-- A whole message (R218): the 16-byte header and the body, zero-padded to 8 bytes. -/
def MirMsg.bytes (src dst msess : Nat) (m : MirMsg) : List Byte :=
  let b := padTo 8 m.body
  leBytes 1 m.type ++ leBytes 1 1 ++ leBytes 2 m.flags ++ leBytes 4 (16 + b.length) ++ leBytes 2 src ++ leBytes 2 dst ++
    leBytes 4 msess ++ b

/-- The command that a received mirror message is (R218, R219): `port` is the fabric port of its arrival, `mode` the MODE of
the query that an answer belongs to, and `len` the bytes of a DATA part before the padding. Reserved bits are ignored: those
above SRC_AGG[13:0], and those of a FETCH beside FLEET_DIE[16:0] and the NO_DIE bit (R15, log entry 142). -/
def mirCommand (port mode len : Nat) (l : List Byte) : Option Instr :=
  let t := leAt l 0 1
  let h : MirHead := { version := leAt l 1 1 }
  let fl := leAt l 2 2
  let src := leAt l 8 2 % 2 ^ 14
  match t with
  | 0x30 => some (.mirrorHello src (leAt l 16 2) port (leAt l 12 4) (bitAt fl 0) h)
  | 0x31 => some (.mirrorHelloAck src (leAt l 16 2) (leAt l 18 1) h)
  | 0x32 => some (.mirrorData {
      src := src, ring := leAt l 16 2, ringSeq := leAt l 20 4, offset := leAt l 24 4, total := leAt l 28 4
      bytes := (l.drop 32).take len, fetched := bitAt fl 2, head := h })
  | 0x33 => some (.mirrorAck src (leAt l 16 2) (leAt l 20 4) h)
  | 0x34 => some (.jquery {
      src := src, qid := leAt l 16 4, mode := leAt l 20 1, subject := leAt l 22 2, firstOp := leAt l 24 8
      count := leAt l 32 4, fence := bitAt fl 1, head := h })
  | 0x35 =>
    let n := leAt l 40 4
    let codes := if mode = 0 then (List.range n).map fun i => leAt l (48 + i / 4) 1 / 4 ^ (i % 4) % 4
      else (List.range n).map fun i => leAt l (48 + 8 * i) 8
    some (.janswer {
      qid := leAt l 16 4, result := leAt l 20 1, heldFrom := leAt l 24 8, coveredTo := leAt l 32 8, codes := codes
      mode := mode, head := h })
  | 0x36 => some (.fetch {
      src := src, qid := leAt l 16 4
      fleetDie := if bitAt (leAt l 20 4) 31 then 2 ^ 31 else leAt l 20 4 % 2 ^ 17, cls := leAt l 24 1, firstIdent := leAt l 32 8
      lastIdent := leAt l 40 8, head := h })
  | 0x37 => some (.fetchEnd (leAt l 16 4) (leAt l 20 4) (leAt l 24 8) h)
  | _ => none

end Sys2Proof
end

