-- ==== Sys2Proof/Machine/State.lean ====
section
/-! DEFINITION. The state of Glenyx: one aggregator, one Uligo and the queue of commands that wait. Every register
field lies in a store (non-RWS fields in `regs`, live RWS fields in `live`, staged ones in `staged`); everything else
the spec gives the parts is named data, chapter by chapter. Every field's default is its value at reset. -/

namespace Sys2Proof.Machine

/-! ### Faults and records of the fault collector (13) -/

/-- An occurrence on its way to the fault collector (R412, R417). `cls` raises the class above the floor; with
`exact` it is the class itself (R427, R416). -/
structure Occ where
  source : Nat := 0
  cls : Nat := 0
  exact : Bool := false
  die : Option Nat := none
  addr : Nat := 0
  master : Nat := 0xFFFF
  access : Nat := 0
  detail : Nat := 0
  injected : Bool := false
  /-- the host cores that the fault names (R81, R118) -/
  cores : List Nat := []
  deriving DecidableEq, Repr, Inhabited

/-- A fault record (R418, R419). -/
structure FltRec where
  fseq : Nat := 0
  source : Nat := 0
  cls : Nat := 0
  orig : Nat := 0
  first : Bool := false
  escalated : Bool := false
  fromUligo : Bool := false
  injected : Bool := false
  safeEntered : Bool := false
  die : Option Nat := none
  stamp : Nat := 0
  addr : Nat := 0
  master : Nat := 0xFFFF
  access : Nat := 0
  detail : Nat := 0
  count : Nat := 1
  ufseq : Nat := 0
  /-- the host cores that the fault names; the record's bytes have no field for them (log entry 127) -/
  cores : List Nat := []
  /-- committed into the fault ring (R418) -/
  committed : Bool := false
  deriving DecidableEq, Repr, Inhabited

/-- A record in the pending list (R420). `up` is the collector's link time at its stamp (R421). -/
structure Pend where
  fseq : Nat := 0
  source : Nat := 0
  cls : Nat := 1
  stamp : Nat := 0
  up : Nat := 0
  die : Option Nat := none
  addr : Nat := 0
  master : Nat := 0xFFFF
  access : Nat := 0
  deriving DecidableEq, Repr, Inhabited

/-- What the collector keeps per source: occurrences since reset, last FSEQ, occurrences of the present fleet-time
hour, whether CE_RATE has raised it, and the stamps within RATE_WIN_MS (R413, R438). -/
structure SrcStat where
  count : Nat := 0
  lastFseq : Nat := 0
  hour : Nat := 0
  hourCount : Nat := 0
  raised : Bool := false
  win : List Nat := []
  deriving DecidableEq, Repr, Inhabited

/-- A fault collector (R412 to R427). Its state code, counts and first-error capture are register fields. -/
structure Collector where
  /-- notified and not yet recorded -/
  notified : List Occ := []
  /-- oldest first -/
  pending : List Pend := []
  /-- source 0x0004 raised since the list last had a place (R420) -/
  fullRaised : Bool := false
  nextFseq : Nat := 0
  /-- the on-die log: newest first in the aggregator, oldest first in the Uligo -/
  log : List FltRec := []
  srcs : Tab SrcStat := []
  /-- the last record of class contained or above, ns -/
  lastSerious : Option Nat := none
  /-- EXITING starts, ns, newest first (R424) -/
  exits : List Nat := []
  /-- entry into SAFE, ns -/
  safeAt : Option Nat := none
  /-- the copies of the configuration, and those of the pending list, that differ from what was written (R425) -/
  cfgBad : List Nat := []
  pendBad : List Nat := []
  /-- all three copies differ: only floors count (R425) -/
  floorOnly : Bool := false
  /-- level sources whose condition still holds (R424, log entry 178) -/
  levels : List Nat := []
  /-- the power domains in a transition at entry into SAFE, with the instant at which it completed, ns (R447) -/
  moving : List (Nat × Option Nat) := []
  /-- the heartbeat monitor drives the safe output by itself; after a reset STATE reads 4 until the first record (R426) -/
  monitor : Bool := false
  beatLost : Bool := false
  /-- of a Uligo: time with a port UP or in RETRY, ns, up to the last change, and the instant from which it runs on (R421) -/
  upNs : Nat := 0
  upFrom : Option Nat := none
  deriving DecidableEq, Repr, Inhabited

/-! ### Time (01) -/

/-- The servo (R38 to R42). `inLock` and `outLock` count consecutive updates, `guard` and `meas` the re-measurement's
discarded and used ones; `holdFrom` is the instant of entry to HOLDOVER in 2^-56 ns and `holdBase` the ERR_NS held
there; `large` keeps ERR_NS at 15 (R42). Offsets are in 2^-16 ns. -/
structure Servo where
  /-- state code of R38: 0 UNSET, 1 ACQUIRE, 2 LOCKED, 3 SLEW, 4 HOLDOVER -/
  state : Nat := 0
  /-- rate correction in use, units of 2^-40 -/
  rate : Int := 0
  inLock : Nat := 0
  outLock : Nat := 0
  guard : Nat := 0
  meas : Nat := 0
  measSum : Int := 0
  integ : Int := 0
  last : Int := 0
  lastAt : Nat := 0
  holdFrom : Nat := 0
  holdBase : Nat := 15
  large : Bool := false
  refPresent : Bool := false
  deriving DecidableEq, Repr, Inhabited

/-- The tick set in force and the waiting change (R49, R50); `latched` says that a first tick was taken (R22). -/
structure TickSet where
  us : Nat := 100
  ticks : Nat := 10
  /-- TICK_US, ROUND_TICKS and the activation instant in ns of a committed change -/
  wait : Option (Nat × Nat × Nat) := none
  /-- LOCKED has been entered since reset (R22) -/
  started : Bool := false
  /-- the last latch instant, ns, with the period that governed it -/
  lastNs : Option Nat := none
  lastUs : Nat := 100
  lastTicks : Nat := 10
  /-- islands that did not acknowledge the last latch (R46) -/
  missing : List Nat := []
  deriving DecidableEq, Repr, Inhabited

/-- What both parts have: registers, fleet time, servo, ticks and fault collector. -/
structure Part where
  /-- fields that are not staged -/
  regs : Store := []
  /-- live values of RWS fields -/
  live : Store := []
  /-- staged values of RWS fields (R483) -/
  staged : Store := []
  /-- the copy of a COMMIT that waits for its tick boundary (R483) -/
  copy : Option Store := none
  /-- the tick boundary at which it becomes live, ns -/
  copyNs : Nat := 0
  /-- fleet time, 2^-56 ns since the epoch (or since reset in UNSET) -/
  now : Nat := 0
  servo : Servo := {}
  tick : TickSet := {}
  col : Collector := {}
  /-- free values drawn so far (the model's own, log entry 7) -/
  free : Nat := 0
  deriving DecidableEq, Repr, Inhabited

/-- The PTP instance of a fabric port (R27 to R31). Times are in 2^-16 ns. -/
structure PtpPort where
  master : Option AnnounceData := none
  /-- t1 and t2 of the last complete Sync, corrected -/
  sync : Option (Int × Int) := none
  /-- sequenceId, t2 and correction of a two-step Sync that waits for its Follow_Up -/
  twoStep : Option (Nat × Int × Int) := none
  /-- sequenceId and t3 of the outstanding Delay_Req -/
  req : Option (Nat × Int) := none
  nextReq : Nat := 0
  delay : Int := 0
  offset : Option Int := none
  /-- a mean path delay has been measured since the master announced itself -/
  measured : Bool := false
  /-- logMinDelayReqInterval, taken from Delay_Resp (R27) -/
  reqLog : Int := -7
  /-- arrival of the last Announce, 2^-56 ns, and its logMessageInterval (R27) -/
  annAt : Option Nat := none
  annLog : Int := 0
  /-- of a re-measurement (R41): t4 − t3 of the exchanges after its guard interval, and their number -/
  upSum : Int := 0
  upN : Nat := 0
  deriving DecidableEq, Repr, Inhabited

/-- The time words of a die port at the aggregator (R35): words sent, and the D_UP to carry next. -/
structure TwPort where
  seq : Nat := 0
  count : Nat := 0
  /-- echoed SEQ, D_UP in 2^-16 ns, saturated -/
  dUp : Option (Nat × Int × Bool) := none
  /-- the instant of the last word sent, ns -/
  lastNs : Option Nat := none
  deriving DecidableEq, Repr, Inhabited

/-- Time received on a port of the Uligo (R35 to R37). -/
structure UlgTimePort where
  offset : Int := 0
  /-- the instant of the last valid word, 2^-56 ns -/
  lastAt : Option Nat := none
  /-- the instant of the last valid offset, 2^-56 ns -/
  offAt : Option Nat := none
  srcErr : Nat := 15
  degraded : Bool := false
  /-- t1 and t2 of the words received, by SEQ -/
  words : List (Nat × Int × Int) := []
  echoSeq : Nat := 0
  guard : Nat := 0
  meas : Nat := 0
  measSum : Int := 0
  deriving DecidableEq, Repr, Inhabited

/-- Time of the aggregator beyond the shared part (R27 to R35). -/
structure AggTime where
  ptp : Tab PtpPort := []
  /-- enhanced SSM code per fabric port, 0 none received (R32) -/
  ql : Tab Nat := []
  tw : Tab TwPort := []
  deriving DecidableEq, Repr, Inhabited

/-- A source chosen at the end of a re-measurement (R37): its instant, 2^-56 ns, the servo as it was before, and the event
bits that the choice set for the first time. -/
structure SrcChoice where
  at_ : Nat := 0
  servo : Servo := {}
  set : List Field := []
  deriving DecidableEq, Repr, Inhabited

/-- Time of the Uligo beyond the shared part. `heldSrc` is the source held before HOLDOVER (R37). -/
structure UlgTime where
  port : Tab UlgTimePort := []
  heldSrc : Option Nat := none
  src : Option Nat := none
  /-- what the last choice of a source by a re-measurement found, for a choice of SRC_PREF on the same update (R37) -/
  chosen : Option SrcChoice := none
  disagree : Nat := 0
  deriving DecidableEq, Repr, Inhabited

/-! ### Counting (02) -/

/-- An overflow sample in a FIFO (R76, R90). -/
structure OvsEntry where
  slot : Nat := 0
  ctrl : Nat := 0
  core : Nat := 0
  stamp : Nat := 0
  data : Nat := 0
  deriving DecidableEq, Repr, Inhabited

/-- The event ring of a core (R80 to R82): entries (stamp, code, argument), newest first, at most 64; the beats
refused while frozen; the pending dump; the ticks in a row that show a hang. -/
structure EvRing where
  entries : List (Nat × Nat × Nat) := []
  frozen : Bool := false
  refused : Nat := 0
  dump : Bool := false
  hangTicks : Nat := 0
  /-- this hang has been detected -/
  hung : Bool := false
  deriving DecidableEq, Repr, Inhabited

/-- Statistics of a queue over an interval (R69, R88). `lastEdge` is the probe-clock edge up to which `depthSum`
counts. -/
structure QueueStat where
  depthMax : Nat := 0
  depthSum : Nat := 0
  delayMax : Nat := 0
  delaySum : Nat := 0
  pops : Nat := 0
  pushes : Nat := 0
  lastEdge : Nat := 0
  depthSat : Bool := false
  ageSat : Bool := false
  probeErr : Bool := false
  parity : Bool := false
  deriving DecidableEq, Repr, Inhabited

/-- The command tag of a cluster over an interval (R70, R89). -/
structure TagStat where
  layer0 : Nat := 0
  op0 : Nat := 0
  layer : Nat := 0
  op : Nat := 0
  changes : Nat := 0
  parity : Bool := false
  deriving DecidableEq, Repr, Inhabited

/-- What is gathered over one interval (R84 to R90): core masks per cluster, section flags by section number (clusters
0 to 127, uncore buses 128 to 143, queues 144, tags 145), queues, probe edges per bus, tags, and the sample-FIFO
entries pushed. -/
structure Interval where
  mask : Tab Nat := []
  sflags : Tab Nat := []
  queues : Tab QueueStat := []
  edges : Tab Nat := []
  tags : Tab TagStat := []
  ovs : List OvsEntry := []
  ovsLost : Bool := false
  /-- counter sections in which a read found a parity error (R74, R87) -/
  cntPar : List Nat := []
  deriving DecidableEq, Repr, Inhabited

/-- A section of a sample record (R84): type, flags, index and the bytes after the header. -/
structure Section where
  type : Nat := 0
  sflags : Nat := 0
  index : Nat := 0
  body : List Byte := []
  deriving DecidableEq, Repr, Inhabited

/-- The latch whose record is due or being packed (R83): what the header takes from the latch. -/
structure Latched where
  tick : Nat := 0
  us : Nat := 0
  ticks : Nat := 0
  round : Nat := 0
  tq : Nat := 0
  epoch : Nat := 0xFFFF_FFFF
  clusters : Nat := 0
  buses : Nat := 0
  queues : Nat := 0
  /-- FULL_ALL is due, by a change of ULG_CNT_CFG or a skipped tick (R87) -/
  full : Bool := false
  /-- ticks without a record went before (R93) -/
  skipped : Bool := false
  /-- counter domains that have been OFF in the interval (R444) -/
  dark : List Nat := []
  iv : Interval := {}
  deriving DecidableEq, Repr, Inhabited

/-- A record being packed (R92): its buffer, its flags and its sections in order. -/
structure PackJob where
  l : Latched := {}
  buf : Nat := 0
  full : Bool := false
  first : Bool := false
  missing : List Nat := []
  /-- FULL_NEXT was set when packing began -/
  fullNext : Bool := false
  sections : List Section := []
  deriving DecidableEq, Repr, Inhabited

/-- Counting (02). -/
structure UlgCount where
  /-- counters that are not 0, by number (R71) -/
  counters : Tab Nat := []
  shadow : Tab Nat := []
  prev : Tab Nat := []
  cur : Interval := {}
  depth : Tab Nat := []
  /-- per sampling slot (R75) -/
  remainder : Tab Nat := []
  /-- per core: slot and stamp of the outstanding request (R76) -/
  request : Tab (Option (Nat × Nat)) := []
  /-- sample FIFO per control core, oldest first, at most 16 (R78) -/
  fifo : Tab (List OvsEntry) := []
  /-- `EV_DATA` of the last sample each control core popped -/
  popped : Tab Nat := []
  rings : Tab EvRing := []
  /-- a latch whose packing has not begun -/
  due : Option Latched := none
  pack : Option PackJob := none
  /-- sections due full in the next record (R87) -/
  owed : List Nat := []
  /-- the next latch's record is all full -/
  fullAll : Bool := false
  firstDone : Bool := false
  deriving DecidableEq, Repr, Inhabited

/-! ### Trace, field tests, tiles, epoch (03), replay (11) -/

/-- The encoder of a control core (R103 to R109): whether a START has set it ACTIVE, pending COND outcomes (oldest at
bit 0), words since the last SYNC, whether a beat was traced since the last break, the SYNC reason owed, and the input
FIFO's overflow with the beats it dropped. -/
structure TraceCore where
  started : Bool := false
  nbits : Nat := 0
  bits : Nat := 0
  words : Nat := 0
  traced : Bool := false
  syncDue : Nat := 5
  overflowing : Bool := false
  dropped : Nat := 0
  /-- Stamp32 of the first pending outcome's beat (R111) -/
  condStamp : Nat := 0
  /-- beats in the input FIFO, 0 to 32 (R109) -/
  level : Nat := 0
  deriving DecidableEq, Repr, Inhabited

/-- Control-core trace (R101 to R111). -/
structure UlgTrace where
  core : Tab TraceCore := []
  /-- ring words by word offset -/
  ring : Tab Nat := []
  ringCount : Nat := 0
  /-- a full ring has stopped the writing, and RING_FULL is set for it (R110) -/
  ringStopped : Bool := false
  /-- the block under construction: stamp of its first word's beat, and its words, newest first -/
  openStamp : Nat := 0
  openWords : List Nat := []
  nextBlock : Nat := 0
  lost : Bool := false
  /-- bytes of closed blocks that wait or are being sent, at most 64 KiB -/
  buffered : Nat := 0
  /-- EXPIRY has been passed and reported -/
  expired : Bool := false
  deriving DecidableEq, Repr, Inhabited

/-- A test instance (R116 to R120), named by `id`: it awaits the result of `coreA` until `sigA` is held, then a
partner and its result, and with `arb` an arbiter and its result. -/
structure FtInst where
  id : Nat := 0
  seq : Nat := 0
  kernel : Nat := 0
  maxUs : Nat := 0
  coreA : Nat := 0
  coreB : Option Nat := none
  coreC : Option Nat := none
  sigA : Option Nat := none
  sigB : Option Nat := none
  forced : Bool := false
  aWasDeferred : Bool := false
  /-- the signatures differ: an arbiter decides -/
  arb : Bool := false
  /-- since when the instance waits for a partner or an arbiter, ns -/
  waitFrom : Nat := 0
  deriving DecidableEq, Repr, Inhabited

/-- A host core in the field tests (R115 to R121): its place in the schedule (0 WAITING, 1 DUE, 2 DEFERRED), failure,
consecutive deferred cycles, seconds of the last PASS, the instant it last fell due, whether it was deferred and
granted in this cycle, the instance it runs, the grant instant in ns, its kernel's MAX_US, the half signature
received, and whether the signature of a run is discarded when it arrives (R119). -/
structure FtCore where
  state : Nat := 0
  failed : Bool := false
  defers : Nat := 0
  lastPass : Nat := 0
  dueAt : Nat := 0
  deferred : Bool := false
  done : Bool := false
  run : Option Nat := none
  grantAt : Nat := 0
  maxUs : Nat := 0
  sigLo : Option Nat := none
  discard : Bool := false
  deriving DecidableEq, Repr, Inhabited

/-- An outcome that waits for a field-test record (R122). -/
structure FtOut where
  seq : Nat := 0
  kernel : Nat := 0
  outcome : Nat := 0
  flags : Nat := 0
  stamp : Nat := 0
  coreA : Nat := 0xFFFF
  coreB : Nat := 0xFFFF
  coreC : Nat := 0xFFFF
  epoch : Nat := 0
  sigA : Nat := 0
  sigB : Nat := 0
  deriving DecidableEq, Repr, Inhabited

/-- The field-test sequencer (R112 to R122). -/
structure UlgFt where
  /-- oldest first -/
  inst : List FtInst := []
  nextInst : Nat := 0
  core : Tab FtCore := []
  /-- the pending force: core, kernel, sequence (R120) -/
  force : Option (Nat × Nat × Nat) := none
  waiting : List FtOut := []
  deriving DecidableEq, Repr, Inhabited

/-- The open tile of a tap (R127, R128): its descriptor, count, instant and stamp of its CMD beat, reservation, tag,
and the beats of each kind, newest first. -/
structure OpenTile where
  desc : Nat := 0
  cmdIndex : Nat := 0
  cmdNs : Nat := 0
  reserved : Nat := 0
  forced : Bool := false
  layer : Nat := 0
  op : Nat := 0
  /-- data beats received, newest first: kind and 32 bytes as a number -/
  beats : List (Nat × Nat) := []
  deriving DecidableEq, Repr, Inhabited

/-- Tile capture (R123 to R129, R516). -/
structure UlgTile where
  /-- CMD beats per tap since reset -/
  count : Tab Nat := []
  tile : Tab (Option OpenTile) := []
  /-- bytes of the 6 MiB capture buffer reserved, by tiles, records and the replay -/
  reserved : Nat := 0
  deriving DecidableEq, Repr, Inhabited

/-- The epoch setting (R130 to R132): length in force, waiting change, and the outputs. -/
structure UlgEpoch where
  ms : Nat := 100
  /-- EPOCH_MS and activation instant in ns of a committed change -/
  wait : Option (Nat × Nat) := none
  /-- `EP_EPOCH`, `EP_VALID`, `EP_PAR` -/
  outEpoch : Nat := 0xFFFF_FFFF
  outValid : Bool := false
  outPar : Bool := false
  /-- the last boundary acted on, ns, with the length that governed it -/
  lastNs : Option Nat := none
  deriving DecidableEq, Repr, Inhabited

/-- The replay of a Uligo (R362, R363). Its state, runs, sequence and core are register fields. -/
structure UlgReplay where
  seq : Nat := 0
  runs : Nat := 0
  runUs : Nat := 0
  imgLen : Nat := 0
  /-- bytes of the tile's OUT section (R363) -/
  outLen : Nat := 0
  desc : Nat := 0
  /-- cores whose run was closed or aborted while RUNNING: its signature is discarded when it arrives -/
  late : List Nat := []
  /-- image words loaded, in order -/
  words : List Nat := []
  /-- runs done, oldest first: SIG_LO, SIG_HI and whether the signature was valid -/
  sigs : List (Nat × Nat × Bool) := []
  sigLo : Option Nat := none
  grantAt : Nat := 0
  deriving DecidableEq, Repr, Inhabited

/-! ### Die link (04) -/

/-- A DATA flit sent and not yet acknowledged (R142): its FSEQ, what it carries, and the record it belongs to. -/
structure TxFlit where
  fseq : Nat := 0
  stream : Nat := 0
  first : Bool := false
  last : Bool := false
  payload : List Byte := []
  recId : Nat := 0
  deriving DecidableEq, Repr, Inhabited

/-- One end of a link: what both ends keep (R142 to R150). Its state, lanes, role and session codes are register
fields. -/
structure LinkPort where
  /-- FSEQ of the next DATA flit to send -/
  txSeq : Nat := 0
  /-- unacknowledged DATA flits, oldest first, at most 64 -/
  unacked : List TxFlit := []
  /-- FSEQ expected next -/
  rxNext : Nat := 0
  /-- NAK goes into the next flit -/
  nakOwed : Bool := false
  /-- entry to RETRY, ns -/
  retryAt : Nat := 0
  /-- flits unacknowledged at entry to RETRY -/
  retrySet : List Nat := []
  lockHeld : Bool := false
  /-- flits in a row that break R167, up to and with the last one received -/
  violRun : Nat := 0
  /-- the same up to the flit before it -/
  violPrev : Nat := 0
  /-- messages that wait for the control slot of a flit (R141) -/
  slots : List CtrlSlot := []
  /-- symbol errors that the FEC has corrected (R136) -/
  fecCorrected : Nat := 0
  /-- entry to DOWN, ns -/
  downAt : Nat := 0
  /-- entry to TRAIN, ns -/
  trainAt : Nat := 0
  /-- entry to ALIGN, ns -/
  alignAt : Nat := 0
  /-- the port has been brought out of OFF (R146) -/
  started : Bool := false
  /-- streams with a record in progress on receipt, with the bytes so far -/
  rx : Tab (Option (List Byte)) := []
  /-- the session's HELLO was a resume (R150) -/
  resuming : Bool := false
  nonce : Nat := 0
  /-- SESS_TAG of the port's previous session (R148) -/
  prevTag : Nat := 0
  /-- PREV_NEXT of the HELLO_ACK that opened or resumed the session (R149) -/
  prevNext : Nat := 0
  deriving DecidableEq, Repr, Inhabited

/-- A record that waits in the Uligo for its ports (R158, R159): its stream, its bytes, the record buffer or tile
reservation it holds, and the ports that still have to acknowledge it. -/
structure HeldRec where
  id : Nat := 0
  stream : Nat := 1
  bytes : List Byte := []
  /-- record buffer 0 or 1 of R92 -/
  buf : Option Nat := none
  /-- CAPTURE_SEQ of a tile record -/
  tile : Option Nat := none
  ports : List Nat := []
  /-- transmission has begun on some port -/
  begun : Bool := false
  /-- a replayed read of the words failed: the trailer CRC will fail (R516) -/
  spoiled : Bool := false
  deriving DecidableEq, Repr, Inhabited

/-- The command layer of a session at the Uligo (R155), the responses to send, and the record in progress per stream
with the bytes sent. -/
structure UlgPort where
  l : LinkPort := {}
  next : Nat := 0
  /-- cached responses, newest first, at most 64 -/
  cache : List Resp := []
  /-- a command that has begun and not completed: its sequence and opcode -/
  running : List (Nat × Nat) := []
  respQ : List Resp := []
  /-- records of streams 1 and 2 to send on this port, by id -/
  queue : List Nat := []
  /-- per stream: the record in progress and the bytes sent -/
  prog : Tab (Option (Nat × Nat)) := []
  /-- the role that the port's aggregator last advertised (R140) -/
  lastRole : Nat := 0
  /-- disabled by a COMMIT; the port goes OFF once its responses have been sent (R170) -/
  closing : Bool := false
  deriving DecidableEq, Repr, Inhabited

/-- What an aggregator command is for, so that its response is understood. -/
inductive CmdUse where
  | plain | push (slot : Nat) (last : Bool) | pushSel | pushId (slot : Nat) | proxy (slot : Nat) (read : Bool)
  | replay (slot : Nat) | epoch (slot : Nat) (word : Nat) | poll (slot : Nat) | domain (slot : Nat)
  | fltStatus (slot : Nat) | fltEntry (slot : Nat)
  deriving DecidableEq, Repr, Inhabited

/-- A command of the aggregator's queue (R157). -/
structure OutCmd where
  seq : Nat := 0
  opcode : Nat := 0x06
  addr : Nat := 0
  arg : Nat := 0
  count : Nat := 0
  data : List Nat := []
  use : CmdUse := .plain
  /-- handed to the link -/
  sent : Bool := false
  deriving DecidableEq, Repr, Inhabited

/-- A die port of the aggregator. -/
structure DiePort where
  l : LinkPort := {}
  /-- DIE_UID of the port's previous session (R151) -/
  uid : Option Nat := none
  /-- commands without a response, in sequence order, at most 64 -/
  cmds : List OutCmd := []
  /-- commands held at the bound -/
  heldCmds : List OutCmd := []
  /-- commands of a closed session that wait for the push of the new one (R157) -/
  again : List OutCmd := []
  /-- the die refused to resume with FULL_REQ, so the next session reads the state of its domains (R166) -/
  fullReq : Bool := false
  /-- after FULL_REQ further commands wait for the push (R166) -/
  mustPush : Bool := false
  /-- time in UP since the last sample record's first flit, ns, up to the last change (R164) -/
  silentNs : Nat := 0
  /-- the instant from which UP time runs on, ns -/
  upSince : Option Nat := none
  deriving DecidableEq, Repr, Inhabited

/-- Link state of the Uligo: its ports, the records that wait, and the next record id. -/
structure UlgLink where
  port : Tab UlgPort := []
  recs : List HeldRec := []
  nextId : Nat := 1
  deriving DecidableEq, Repr, Inhabited

/-! ### The image (15), ingest (05) and the Shed (06) -/

/-- A DIES entry of the image (R476). -/
structure DieBind where
  fleetDie : Option Nat := none
  /-- 1 PRIMARY, 2 STANDBY -/
  role : Nat := 0
  port : Nat := 0
  uid : Nat := 0
  deriving DecidableEq, Repr, Inhabited

/-- A STATIC entry of the image (R476). -/
structure StaticEnt where
  uid : Nat := 0
  cls : Nat := 0
  port : Nat := 31
  paddock : Nat := 0
  fleetDie : Nat := 0
  ring : Nat := 0
  deriving DecidableEq, Repr, Inhabited

/-- A ULIGO entry of the image (R476). -/
structure UligoEnt where
  off : Nat := 0
  slots : Nat := 0
  value : Nat := 0
  deriving DecidableEq, Repr, Inhabited

/-- A parsed image (R475, R476). `bytes` is its length. -/
structure Image where
  gen : Nat := 0
  aggId : Nat := 0
  keyId : Nat := 0
  len : Nat := 0
  ownTag : Nat := 0
  fleetAggs : Nat := 0
  dies : List DieBind := []
  /-- aggregators of the fleet list -/
  members : List Nat := []
  registers : List (Nat × Nat) := []
  uligo : List UligoEnt := []
  static : List StaticEnt := []
  /-- 256 profile records of 32 bytes as numbers, when the section is present -/
  profiles : List Nat := []
  shedLoad : List (Nat × List Byte) := []
  /-- 16 TRACE_AUTH entries, when present -/
  traceAuth : List Nat := []
  deriving DecidableEq, Repr, Inhabited

/-- A stream-table entry (R179, R199). -/
structure StEntry where
  uid : Nat := 0
  cls : Nat := 0
  static : Bool := false
  hit : Bool := false
  aged : Bool := false
  port : Nat := 31
  fleetDie : Nat := 0
  paddock : Nat := 0
  ring : Nat := 0
  /-- the mirror source for whose copies it was installed (R222) -/
  copySrc : Option Nat := none
  deriving DecidableEq, Repr, Inhabited

/-- A record being reassembled from a die port (R173). `dead` says that it was discarded or refused: its further flits
are dropped up to LAST. -/
structure IngRec where
  bytes : List Byte := []
  len : Nat := 0
  slot : Nat := 0
  die : Nat := 0
  cls : Nat := 0
  ring : Nat := 0
  /-- port code of the stream-table entry -/
  port : Nat := 31
  moved : Bool := false
  dead : Bool := false
  /-- where its reservation stands in the ring -/
  off : Nat := 0
  deriving DecidableEq, Repr, Inhabited

/-- An entry of a port FIFO (R187): a flit payload with its stream and flags, and the ring and offset at which the Shed
writer puts it; none for a record given up since. -/
structure FifoEnt where
  stream : Nat := 0
  first : Bool := false
  last : Bool := false
  bytes : List Byte := []
  place : Option (Nat × Nat) := none
  deriving DecidableEq, Repr, Inhabited

/-- Ingest (R173 to R199). `last`, `gap` are keyed by 8 × die slot + stream. -/
structure AggIngest where
  /-- stream table by location: 4 × bucket + way, or 65,536 + overflow index -/
  table : Tab (Option StEntry) := []
  /-- records in progress, by 16 × die port + stream -/
  rx : Tab (Option IngRec) := []
  /-- records whose trailer passed and whose Shed writes are under way, oldest first -/
  ready : Tab (List IngRec) := []
  last : Tab (Option Nat) := []
  gap : Tab Bool := []
  /-- TICK_US of the last committed sample, by die slot -/
  tickUs : Tab Nat := []
  /-- port FIFOs by die port, oldest entry first, at most 1,024 (R187) -/
  fifo : Tab (List FifoEnt) := []
  sweepLoc : Nat := 0
  /-- the start of the sweep that runs or comes next, ns (R183) -/
  sweepFrom : Option Nat := none
  deriving DecidableEq, Repr, Inhabited

/-- A record held in a ring: what its descriptor says, where it stands (bytes since the ring began), and whether it is
to be mirrored (R175, R213, R214). -/
structure RingRec where
  seq : Nat := 0
  type : Nat := 0
  cls : Nat := 0
  die : Option Nat := none
  ident : Nat := 0
  off : Nat := 0
  len : Nat := 0
  arriveNs : Nat := 0
  standby : Bool := false
  localOnly : Bool := false
  /-- to be mirrored -/
  mirror : Bool := false
  /-- acknowledged in the present mirroring (R221); `mirrored` keeps that it ever was (R215) -/
  acked : Bool := false
  mirrored : Bool := false
  /-- the instant at which its parts were last sent, ns (R220) -/
  sentNs : Nat := 0
  deriving DecidableEq, Repr, Inhabited

/-- A record to commit: what its descriptor says. -/
structure NewRec where
  ring : Nat
  type : Nat
  cls : Nat
  port : Nat := 31
  die : Option Nat := none
  ident : Nat := 0
  /-- GAP_BEFORE and MOVED -/
  gap : Bool := false
  moved : Bool := false
  standby : Bool := false
  /-- EVENT_NS, when it is not the commit instant -/
  eventNs : Option Nat := none
  /-- FAB_STAT_CFG.RING and SLOT_CFG.REC_RING are never mirrored (R213) -/
  never : Bool := false
  /-- LOCAL_ONLY stays clear (R213) -/
  noLocal : Bool := false
  /-- the descriptor of the sample of which an evidence copy is made (R294) -/
  keep : Option (List Byte) := none
  /-- the offset of the reservation that holds the record's bytes already (R173) -/
  place : Option Nat := none
  bytes : List Byte := []
  deriving DecidableEq, Repr, Inhabited

/-- A ring (R193, R212). Sequences are counted without the wrap of RING_SEQ, offsets without that of the ring. `mode`: 0
none, 1 PRIMARY, 2 STANDBY, 3 RELEASING. -/
structure Ring where
  mode : Nat := 0
  writeSeq : Nat := 0
  /-- the end of what is written or reserved -/
  writeOff : Nat := 0
  /-- records not yet overwritten, oldest first -/
  recs : List RingRec := []
  /-- archive cursor -/
  archSeq : Nat := 0
  /-- consumer cursors, none where not attached (R212): 0 detection on samples, 1 tile checks, 2 the delivery of verdicts -/
  cursors : Tab (Option Nat) := []
  /-- reservations of records in progress: offset, bytes -/
  reserved : List (Nat × Nat) := []
  /-- records that the aggregator produced and that wait for space, oldest first (log entry 44) -/
  waits : List NewRec := []
  /-- sequences of records that left the ring without having been mirrored -/
  gone : List Nat := []
  deriving DecidableEq, Repr, Inhabited

/-- Memory of the Shed or of the flash: bytes by rising address; an unlisted byte reads 0 (log entry 10). -/
abbrev Memory := List Host.Cell

/-- An entry of the tail list (R224), with the RING_SEQ of its record. -/
structure TailEnt where
  addr : Nat := 0
  ring : Nat := 0
  seq : Nat := 0
  len : Nat := 0
  acked : Bool := false
  /-- its place in the Tail region, in entries since reset -/
  place : Nat := 0
  deriving DecidableEq, Repr, Inhabited

/-- A journal record (R233). -/
structure JrnRec where
  /-- 0x10 BEGIN, 0x11 DONE, 0x12 ABANDON -/
  type : Nat := 0x10
  kind : Nat := 0
  replayed : Bool := false
  origAgg : Nat := 0
  op : Nat := 0
  origOp : Nat := 0
  stampNs : Nat := 0
  die : Option Nat := none
  outcome : Nat := 0
  arg : Nat := 0
  /-- RING_SEQ in ring 65,534 -/
  seq : Nat := 0
  deriving DecidableEq, Repr, Inhabited

/-- A copy held for a mirror source (R221, R222): its key and its place in the copy log. -/
structure CopyRec where
  src : Nat := 0
  die : Option Nat := none
  cls : Nat := 0
  type : Nat := 0
  ident : Nat := 0
  ring : Nat := 0
  seq : Nat := 0
  off : Nat := 0
  len : Nat := 0
  deriving DecidableEq, Repr, Inhabited

/-- A record of a source ring under assembly (R221): its parts by offset. -/
structure Assembly where
  ring : Nat := 0
  seq : Nat := 0
  total : Nat := 0
  parts : List (Nat × List Byte) := []
  deriving DecidableEq, Repr, Inhabited

/-- A mirror source at the receiver (R216, R221, R236, R237). -/
structure MirrorSrc where
  accepted : Bool := false
  fenced : Bool := false
  msess : Nat := 0
  /-- fabric port on which its HELLO arrived -/
  port : Nat := 0
  /-- next RING_SEQ to commit, per source ring, once a part of the ring has come -/
  next : Tab (Option Nat) := []
  asm : List Assembly := []
  journal : List JrnRec := []
  deriving DecidableEq, Repr, Inhabited

/-- An archive segment (R226 to R230): open until `closed`, in the log once `addr` is given. -/
structure SegRec where
  ring : Nat := 0
  firstSeq : Nat := 0
  /-- the sequences of its records -/
  seqs : List Nat := []
  rawLen : Nat := 0
  openNs : Nat := 0
  closed : Bool := false
  seq : Nat := 0
  addr : Option Nat := none
  /-- addresses of its overflow buffers -/
  over64 : List Nat := []
  deriving DecidableEq, Repr, Inhabited

/-- A journal query in flight (R237). -/
structure JQuery where
  count : Nat := 0
  qid : Nat := 0
  mode : Nat := 0
  sentNs : Nat := 0
  subject : Nat := 0
  fence : Bool := false
  deriving DecidableEq, Repr, Inhabited

/-- What a FETCH is for: the repair of a record (R205), a die's drift state (R285), a die's silent-error records, its
tile records (R378), or the record of an operation begun again (R238). -/
inductive FetchUse where
  | repair (ring seq : Nat) | drift (slot : Nat) | errors (slot : Nat) | tiles (slot : Nat) | rerun (op : Nat)
  deriving DecidableEq, Repr, Inhabited

/-- A FETCH sent and not yet ended (R222). -/
structure FetchAsk where
  qid : Nat := 0
  use : FetchUse := .repair 0 0
  die : Nat := 0
  cls : Nat := 0
  sentNs : Nat := 0
  deriving DecidableEq, Repr, Inhabited

/-- The Shed (06): memory and what lies in it. -/
structure AggShed where
  mem : Memory := []
  ring : Tab Ring := []
  tail : List TailEnt := []
  /-- entries written to the Tail region since reset -/
  tailNext : Nat := 0
  /-- bytes that an uncorrectable granule lost and that nothing has written since: address, bytes (R205, log entry 141) -/
  bad : List (Nat × Nat) := []
  /-- own journal, oldest first -/
  journal : List JrnRec := []
  /-- OP_SEQ of own operations begun and not ended -/
  begun : List Nat := []
  /-- operations below this OP_SEQ began before a fence and are never completed here (R238) -/
  fenceOp : Nat := 0
  /-- COVERED_TO answered for the opening of the journal (R235) -/
  covered : Option Nat := none
  openQuery : Option JQuery := none
  query : Option JQuery := none
  /-- BEGUN operations that an answer about another aggregator has listed, and whether it was fenced for it (R238) -/
  left : List (BegunOp × Bool) := []
  /-- operations of another aggregator that an answer has shown DONE or ABANDONED -/
  ended : List BegunOp := []
  /-- fenced aggregators whose BEGUN list has been answered whole: what it and `ended` do not name was NEVER begun -/
  leftOf : List Nat := []
  nextQid : Nat := 0
  msess : Nat := 0
  progressNs : Nat := 0
  stalledNs : Nat := 0
  /-- the next HELLO carries RESET: after a reset or a safe-state exit (R217) -/
  resetHello : Bool := true
  src : Tab MirrorSrc := []
  /-- the copy log, oldest first, and its write offset -/
  copies : List CopyRec := []
  copyOff : Nat := 0
  /-- last held identity per (source or die, kind) key: key and identity -/
  copyLast : List ((Nat × Nat × Nat × Nat) × Nat) := []
  /-- bytes mirrored and bytes that would be mirrored in the present window, its end, windows below 80 % (R223) -/
  winBytes : Nat := 0
  winWould : Nat := 0
  winNs : Nat := 0
  calm : Nat := 0
  /-- classes marked LOCAL_ONLY, the last marked first -/
  marked : List Nat := []
  segs : List SegRec := []
  archOff : Nat := 0
  poolUsed : List Nat := []
  idxOff : Nat := 0
  dz : Bool := false
  /-- records received marked FETCHED: parts of those incomplete, then whole ones, oldest first (R222) -/
  fetchAsm : List Assembly := []
  fetched : List (List Byte) := []
  /-- records being repaired: ring and RING_SEQ, oldest first (R205) -/
  repair : List (Nat × Nat) := []
  fetches : List FetchAsk := []
  /-- errors per stack in the present hour: hour, corrected, uncorrectable (R207, R240) -/
  stackErr : Tab (Nat × Nat × Nat) := []
  scrubPos : Nat := 0
  /-- stacks whose controller is throttled for temperature (R202, R509) -/
  throttled : List Nat := []
  deriving DecidableEq, Repr, Inhabited

/-! ### Fabric ports (12) -/

/-- What an egress queue carries (R399): a Rycon-F packet, a Delay_Req with its sequenceId (R28), ESMC with QL-DNU (R32), a
Neighbor Advertisement or an Echo Reply to an address (R389). -/
inductive EgressFrame where
  | rycon (o : OutPacket)
  | delayReq (port seq : Nat)
  | esmc (port : Nat)
  | neighborAdv (port dst : Nat)
  | echoReply (port dst ident seq : Nat) (data : List Byte)
  deriving DecidableEq, Repr, Inhabited

/-- A frame in an egress queue (R399, R400): its PSN, the instant of its enqueue, its bytes with FCS, and its transmission
number, 0 for the first (R390, R395). -/
structure FabPkt where
  f : EgressFrame
  psn : Nat := 0
  enqNs : Nat := 0
  bytes : Nat := 0
  tx : Nat := 0
  /-- it has been counted in WIN_WAITS -/
  waited : Bool := false
  deriving DecidableEq, Repr

/-- A transaction entry (R395), on the port of the packet's latest transmission; `queued` says that a retransmission waits in
a queue. -/
structure Txn where
  port : Nat
  pkt : FabPkt
  sentNs : Nat
  retx : Nat := 0
  queued : Bool := false
  deriving DecidableEq, Repr

/-- What a timed launch carries (R404): a burst of REDUCE packets, or a round's COUNT or DATA frames (R253). -/
inductive LaunchKind where
  | frames (l : List OutPacket)
  | count (round : Nat)
  | data (round : Nat)
  deriving DecidableEq, Repr

/-- A pending timed launch. -/
structure Launch where
  port : Nat
  ns : Nat
  kind : LaunchKind
  deriving DecidableEq, Repr

/-- A receive window (R393): the sender's INCARN, the highest PSN accepted and the accepted ones of the window. -/
structure RxWin where
  incarn : Nat := 0
  high : Nat := 0
  seen : List Nat := []
  deriving DecidableEq, Repr, Inhabited

/-- PSNs accepted and not yet acknowledged, by sender, class and INCARN, and the port of the latest arrival (R394, R396). -/
structure AckPend where
  src : Nat := 0
  cls : Nat := 0
  incarn : Nat := 0
  port : Nat := 0
  psns : List Nat := []
  oldestNs : Nat := 0
  deriving DecidableEq, Repr, Inhabited

/-- An accepted NOTICE packet whose consumer has not taken it (R394). -/
structure HeldNotice where
  src : Nat
  psn : Nat
  incarn : Nat
  port : Nat
  deriving DecidableEq, Repr

/-- Statistics of an egress queue over the interval (R408). -/
structure FabQStat where
  depthMax : Nat := 0
  depthSum : Nat := 0
  /-- the instant up to which the depth has been sampled, once the queue has been used -/
  lastNs : Option Nat := none
  delayMax : Nat := 0
  delaySum : Nat := 0
  sent : Nat := 0
  sentBytes : Nat := 0
  winWaits : Nat := 0
  refused : Nat := 0
  deriving DecidableEq, Repr, Inhabited

/-- A port's calendar (R402): cycle, default gate, windows by start, length and gate, and the instant, ns, up to which it
stays in force after a change (R403). -/
structure Calendar where
  cycle : Nat := 0
  gate : Nat := 255
  wins : List (Nat × Nat × Nat) := []
  untilNs : Nat := 0
  deriving DecidableEq, Repr, Inhabited

/-- The fabric (R388 to R409). Queues and statistics are keyed by 8 × port + queue, next PSNs by 8 × destination +
class, receive windows by 8 × sender + class. -/
structure AggFab where
  queue : Tab (List FabPkt) := []
  psn : Tab Nat := []
  txn : List Txn := []
  win : Tab (Option RxWin) := []
  /-- frames that a full queue refused, or that no port that is up can take: their requesters keep them and offer them again
  (R400) -/
  wait : List EgressFrame := []
  acks : List AckPend := []
  held : List HeldNotice := []
  /-- the lanes in use of a port that is up, as a mask (R388) -/
  lanes : Tab Nat := []
  /-- PATH notices on ports that are neither SLAVE nor STANDBY (R398) -/
  pathOther : Nat := 0
  launches : List Launch := []
  /-- shaper credit, bytes, once it has changed (R405) -/
  credit : Tab (Option Int) := []
  /-- remainder of the refill division -/
  refillRem : Tab Nat := []
  refillNs : Nat := 0
  /-- rate, burst and length overhead of a shaper still in force after a COMMIT that changed them (R406) -/
  shpOld : Tab (Option (Nat × Nat × Nat)) := []
  /-- the calendar of a port still in force after a COMMIT that changed it (R403) -/
  calOld : Tab (Option Calendar) := []
  /-- committed and peak bucket in 10^-3 bytes, and the instant, ns, once a meter has been used (R407) -/
  meter : Tab (Option (Nat × Nat × Nat)) := []
  stat : Tab FabQStat := []
  /-- the latest tick's latch of the statistics, ns (R408) -/
  latchNs : Option Nat := none
  /-- drops that R409 counts and no register shows -/
  otherDrops : Nat := 0
  /-- safe state has been seen in the interval -/
  safeSeen : Bool := false
  deriving DecidableEq, Repr, Inhabited

/-! ### Tallies (07) -/

/-- What TALLY_ACT activates (R259, R268): MODE, KEYS, the ring's shape, and OCT and SCOPE by key. -/
structure TlySet where
  mode : Nat := 0
  keys : Nat := 4096
  aggs : Nat := 0
  row : Nat := 128
  attempts : Nat := 2
  keyTab : Tab (Nat × Nat) := []
  deriving DecidableEq, Repr, Inhabited

/-- A round in flight (R250 to R263). -/
structure TRound where
  round : Nat := 0
  /-- close C, ns -/
  closeNs : Nat := 0
  /-- MODE, KEYS, key table and ring shape of the round (R268) -/
  set : TlySet := {}
  ring : Bool := false
  compact : Bool := true
  /-- die slots contributed, once fixed (R251) -/
  cover : Option Nat := none
  /-- OP_SEQ of the contribution's BEGIN -/
  op : Option Nat := none
  /-- nothing is contributed: NOT_MIRRORED or DATA_US missed (R252, R258) -/
  out : Bool := false
  dataSent : Bool := false
  /-- the ports over which its DATA leave, and the instant of the launch (R253) -/
  ports : List Nat := []
  dataNs : Nat := 0
  /-- MEMBERS, DIES, MEMBER_HASH of COUNT_RESULT -/
  count : Option (Nat × Nat × Nat) := none
  /-- KEYSET_MISMATCH withholds the DATA -/
  mismatch : Bool := false
  /-- RESULT frames by group -/
  results : List (Nat × RedFrame) := []
  /-- CLOSE_NS of its frames -/
  spineNs : Nat := 0
  /-- KEYSET of the round -/
  keyset : Nat := 0
  attempt : Nat := 0
  /-- COUNT or attempt 0 has been launched: the round is in flight -/
  started : Bool := false
  step : Nat := 0
  stopped : Bool := false
  /-- members out of the present attempt -/
  without : List Nat := []
  /-- members named in SKIPs, with the attempt -/
  skips : List (Nat × Nat) := []
  /-- blocks held, by ring position acted for and key (65,536 × position + key, R260) -/
  acc : Tab (Option Block) := []
  /-- MEMBERS, DIES and MEMBER_HASH gathered, by 256 × position + slice -/
  sums : Tab (Nat × Nat × Nat) := []
  /-- chunks that wait for their step -/
  inbox : List RedFrame := []
  deriving DecidableEq, Repr, Inhabited

/-- A committed result record (R257, R281): its round, its place, and its blocks by key. -/
structure BellRec where
  round : Nat := 0
  ring : Nat := 0
  seq : Nat := 0
  failed : Bool := false
  blocks : List Block := []
  /-- MEMBERS, DIES and MEMBER_HASH of each group, and what COUNT expects of them (R256) -/
  groups : List (Nat × Nat × Nat) := []
  expected : Nat := 0
  expHash : Nat := 0
  deriving DecidableEq, Repr, Inhabited

/-- The tally engine. -/
structure AggTally where
  /-- local tallies by ((round × 65,536) + key) × 16 + die slot (R242) -/
  local_ : Tab (Option Block) := []
  rounds : List TRound := []
  /-- the last round closed for posting -/
  closed : Option Nat := none
  /-- COVER masks received before the round's own close: round, mask -/
  covers : List (Nat × Nat) := []
  /-- what the latest activation put in force (R268) -/
  set : TlySet := {}
  /-- what it and those before it replaced, newest first: the first round of the new settings, and the settings of the
  rounds before it that are still open for posts (R241) -/
  prev : List (Nat × TlySet) := []
  /-- a committed change waits for this round, `none` for none -/
  waitRound : Option Nat := none
  /-- members skipped: the member, the earliest SEND_NS of a SKIP and the round in which it was sent (R262) -/
  excluded : List (Nat × Nat × Nat) := []
  /-- joined members: member and FROM_ROUND -/
  joined : List (Nat × Nat) := []
  /-- a JOIN is owed: ring mode has started, or a SKIP names this aggregator (R262) -/
  joinDue : Bool := false
  /-- result records committed, newest first (R281) -/
  results : List BellRec := []
  /-- values posted and not yet in a result: round, key, die slot, value (R282) -/
  posts : List (Nat × Nat × Nat × Nat) := []
  deriving DecidableEq, Repr, Inhabited

/-! ### Detection (08) -/

/-- What the feature unit keeps of a committed sample (R274, R275): the deltas of every counter by number (core × 8 +
event; 64 + counter of the uncore), queue statistics by 8 × queue + statistic, tags by cluster. -/
structure TickFeat where
  tick : Nat := 0
  us : Nat := 100
  rticks : Nat := 10
  round : Nat := 0
  latchNs : Nat := 0
  commitNs : Nat := 0
  ring : Nat := 0
  seq : Nat := 0
  flags : Nat := 0
  err : Nat := 0
  epoch : Nat := 0xFFFF_FFFF
  clusters : Nat := 0
  /-- the port entered RETRY since the previous sample, or the sample carries GAP_BEFORE -/
  link : Bool := false
  ev : Tab Nat := []
  /-- clusters whose cores count as missing -/
  missing : List Nat := []
  /-- clusters whose section carries MISSING -/
  gone : List Nat := []
  mask : Tab Nat := []
  dumps : List Nat := []
  unc : Tab Nat := []
  queue : Tab Nat := []
  tag : Tab Nat := []
  deriving DecidableEq, Repr, Inhabited

/-- A verdict that a run emits (R277, R287, R288). -/
structure Emit where
  /-- its slot in IDENT (R292) -/
  slot : Nat := 0
  kind : Nat := 0
  cleared : Bool := false
  sev : Nat := 0
  rule : Nat := 0
  /-- emitted by the program, not by the straggler unit -/
  prog : Bool := false
  count : Nat := 0
  obs : Int := 0
  ref : Int := 0
  spread : Int := 0
  rank : Option Nat := none
  deriving DecidableEq, Repr, Inhabited

/-- A run (R269 to R271, R277 to R283). -/
structure Run where
  /-- the round of a ROUND run -/
  round : Option Nat := none
  tick : Nat := 0
  /-- it rebuilds state after a takeover (R285) -/
  restore : Bool := false
  /-- the cluster that it runs on, and the lanes that had no core as it started (R429) -/
  cluster : Nat := 0
  missing : List Nat := []
  /-- the program: it has one, its number, its PROG_CRC, its operations as words, its parameters, its entries -/
  prog : Bool := false
  progId : Nat := 0
  crc : Nat := 0
  ops : List Nat := []
  params : List Int := []
  coreEntry : Nat := 0
  roundEntry : Nat := 0
  pc : Nat := 0
  /-- the place in the CORE section -/
  cpc : Nat := 0
  /-- predictor outputs at its start (R283) -/
  pred : List (Option Int) := []
  /-- its section has ended -/
  ended : Bool := false
  /-- field-test entries of its TICK, or of its round's ticks -/
  ftest : Nat := 0
  /-- the result record that it reads (R281), and what NBR reads (R282): posts of its round by key, die slot and value, and
  of each other die of the paddock the latest sample with its field-test entries; all as they stood at its start (R271) -/
  result : Option BellRec := none
  posted : List (Nat × Nat × Nat) := []
  near : List (TickFeat × Nat) := []
  /-- V0 to V31, and those of the lanes by 32 × lane + register -/
  v : Tab Int := []
  lane : Tab Int := []
  /-- host core of the CORE section in progress -/
  core : Option Nat := none
  /-- state words, and core words by 4 × core + word, as the run sees them -/
  words : Tab Int := []
  cwords : Tab Int := []
  acc : Tab Int := []
  vec : Tab Nat := []
  cause : Nat := 0
  /-- VFLAGS that the run has set -/
  flags : Nat := 0
  /-- round of the Bellwether read -/
  bell : Option Nat := none
  emits : List Emit := []
  cut : Nat := 0
  /-- keys and values to post -/
  posts : List (Nat × Int) := []
  cycles : Nat := 0
  laneCyc : Tab Nat := []
  /-- destination register of a HEDGE that waits for its score -/
  hedge : Option Nat := none
  deriving DecidableEq, Repr, Inhabited

/-- An open straggler state (R289): intervals that opened it, intervals failed in a row, TICK_LAST of its last verdict. -/
structure StragOpen where
  need : Nat := 0
  fail : Nat := 0
  last : Nat := 0
  deriving DecidableEq, Repr, Inhabited

/-- A committed verdict or case record that waits for its delivery (R294). -/
structure HeldVerdict where
  ident : Nat := 0
  kind : Nat := 0
  cleared : Bool := false
  sev : Nat := 0
  prime : Nat := 0
  paddock : Nat := 0
  rule : Nat := 0
  program : Nat := 0xFFFF
  obs : Int := 0
  ref : Int := 0
  causes : Nat := 0
  /-- NTYPE of its notice: 1 verdict, 5 case -/
  ntype : Nat := 1
  ring : Nat := 0
  seq : Nat := 0
  /-- evidence: ring and RING_SEQ of each record, and the round whose result it needs -/
  evid : List (Nat × Nat) := []
  round : Option Nat := none
  commitNs : Nat := 0
  /-- OP_SEQ of its delivery's BEGIN -/
  op : Option Nat := none
  /-- EVID_WAIT has been set for it -/
  late : Bool := false
  /-- its record is a mirrored one of the former primary (R238) -/
  copied : Bool := false
  deriving DecidableEq, Repr, Inhabited

/-- A Hurdle of a die (R299, R300): its operation and what it cites. -/
structure Hurdle where
  op : Nat := 0
  ident : Nat := 0
  kind : Nat := 0
  paddock : Nat := 0
  /-- the instant its notice was written -/
  askNs : Option Nat := none
  deriving DecidableEq, Repr, Inhabited

/-- Detection of one die slot. -/
structure DieDet where
  /-- samples committed, oldest first -/
  hist : List TickFeat := []
  /-- absolute counters, and the sections known (cluster, or 128 + uncore bus) -/
  abs : Tab Nat := []
  known : List Nat := []
  retrySeen : Bool := false
  /-- field-test entries by TICK -/
  ftest : Tab Nat := []
  /-- TICK runs to come: the tick, and whether it rebuilds state -/
  jobs : List (Nat × Bool) := []
  /-- rounds whose ROUND run is to come: the round and its close, ns -/
  rounds : List (Nat × Nat) := []
  /-- the latch instant up to which rounds have been queued or passed over, ns (R269) -/
  roundsTo : Option Nat := none
  run : Option Run := none
  /-- the tick whose TICK run ended last, and the latch instant of the one that ended or was skipped last -/
  lastTick : Nat := 0
  lastNs : Nat := 0
  words : Tab Int := []
  cwords : Tab Int := []
  localRun : Nat := 0
  fleetRun : Nat := 0
  localOpen : Option StragOpen := none
  fleetOpen : Option StragOpen := none
  /-- TICK_LAST of the last verdict, by rule of the program -/
  rules : Tab (Option Nat) := []
  skipped : Bool := false
  /-- ticks that still run COLD -/
  cold : Nat := 0
  restored : Bool := false
  /-- verdicts in commit order -/
  held : List HeldVerdict := []
  hurdle : Option Hurdle := none
  /-- the home cluster after a move, and that no cluster is left (R430) -/
  home : Option Nat := none
  unhomed : Bool := false
  /-- the copy of its state words to the new home has not been seen finished (R430) -/
  copying : Bool := false
  deriving DecidableEq, Repr, Inhabited

/-- A recipient of a notice over the fabric (R298, R375). -/
structure NoticeTo where
  agg : Nat := 0
  rtoUs : Nat := 100
  resends : Nat := 0
  sentNs : Nat := 0
  acked : Bool := false
  gaveUp : Bool := false
  /-- it is sent the Fleece record, not the notice (R382) -/
  record : Bool := false
  deriving DecidableEq, Repr, Inhabited

/-- A delivery under way: a journalled operation whose notice goes to the host ring and to recipients (R295, R298,
R301, R375, R382). -/
structure Delivery where
  op : Nat := 0
  kind : Nat := 1
  slot : Nat := 0
  die : Nat := 0
  /-- the entry with PHASE 0, and the Fleece record -/
  entry : List Byte := []
  body : List Byte := []
  /-- 0 not yet offered, 1 waits for the ring, 2 written, 3 the ring is disabled -/
  host : Nat := 0
  toAggs : List NoticeTo := []
  /-- DSEQ of a taint or clear -/
  dseq : Nat := 0
  /-- the verdict or case that is delivered -/
  verdict : Option HeldVerdict := none
  /-- the Hurdle has been answered, and its DONE is written: the recipients that have not acknowledged are still sent to (R298,
  R300) -/
  answered : Bool := false
  deriving DecidableEq, Repr, Inhabited

/-- An entry that waits for the host ring: an own delivery, or a notice received from an aggregator (R296, R375). -/
inductive NqItem where
  | own (op : Nat)
  /-- a notice received: the packets that brought it, by sender and PSN, and the entry -/
  | received (from_ : List (Nat × Nat)) (entry : List Byte)
  deriving DecidableEq, Repr, Inhabited

/-- Detection and notices. -/
structure AggDet where
  die : Tab DieDet := []
  /-- rule program images in force, by paddock (R276) -/
  prog : Tab (List Byte) := []
  /-- drover cores retired, in order, by cluster (R429) -/
  lost : Tab (List Nat) := []
  /-- the lane that a cluster's spare has taken, and the cores, by cluster, whose retirement awaits the end of a run (R429) -/
  spare : Tab (Option Nat) := []
  retiring : List (Nat × Nat) := []
  /-- the last run fault of a core, ns, by 33 × cluster + core -/
  coreFault : Tab (Option Nat) := []
  deliv : List Delivery := []
  /-- entries that wait for the host ring, oldest first -/
  wait : List NqItem := []
  /-- the instant of the last MSI-X message of the ring -/
  irqNs : Option Nat := none
  /-- Hurdles that wait for the journal to take a BEGIN: die slot, die, verdict (R235, R299) -/
  hurdleWait : List (Nat × Nat × HeldVerdict) := []
  /-- Hurdles begun, by paddock: the window and the count -/
  window : Tab (Nat × Nat) := []
  /-- notices received: NTYPE, ORIG_AGG, ORIG_OP, and the die and DSEQ of a taint -/
  taken : List (Nat × Nat × Nat × Nat × Nat) := []
  deriving DecidableEq, Repr, Inhabited

/-! ### Hedge engine (09) -/

/-- A copy of a model in tree SRAM (R309, R314): its package bytes and its range in every bank. -/
structure HdgCopy where
  crc : Nat := 0
  addr : Nat := 0
  bytes : List Byte := []
  off : Nat := 0
  size : Nat := 0
  deriving DecidableEq, Repr, Inhabited

/-- A model slot (R315 to R319). Its state code is a register field. -/
structure HdgSlot where
  cur : Option HdgCopy := none
  next : Option HdgCopy := none
  kept : Option HdgCopy := none
  /-- ACT_TICK of the swap under way, and the tick at which the current copy became so -/
  actTick : Nat := 0
  swapTick : Nat := 0
  /-- ACT_TICK as the COMMIT gave it, by which a repeat of the swap is recognised (R319) -/
  asked : Nat := 0
  /-- state before LOADING -/
  prev : Nat := 0
  op : Option Nat := none
  /-- operations of the former primary that the same swap completes (R319) -/
  again : List Nat := []
  /-- PKG_CRC and address of the package being loaded -/
  crc : Nat := 0
  addr : Nat := 0
  /-- the slot is emptied at this tick -/
  emptyAt : Option Nat := none
  deriving DecidableEq, Repr, Inhabited

/-- A request (R305, R312, R315): the die slot whose run waits, the model slot, the copy for its tick, the slots'
values. -/
structure HdgReq where
  die : Nat := 0
  model : Nat := 0
  copy : HdgCopy := {}
  vec : Tab Nat := []
  /-- the instant of its HEDGE, in sixths of a nanosecond (R313) -/
  issued : Nat := 0
  deriving DecidableEq, Repr, Inhabited

/-- The Hedge engine. -/
structure AggHedge where
  slot : Tab HdgSlot := []
  queue : List HdgReq := []
  /-- the lanes take the next request from this instant on, in sixths of a nanosecond (R313) -/
  free : Nat := 0
  /-- bank ranges withheld from placement: offset and size (R431) -/
  withheld : List (Nat × Nat) := []
  deriving DecidableEq, Repr, Inhabited

/-! ### Verifier (10) -/

/-- A tile that an array passed, as a reference to its record (R357, R360, R369). -/
structure TileRef where
  slot : Nat := 0
  ring : Nat := 0
  seq : Nat := 0
  captureSeq : Nat := 0
  epoch : Nat := 0
  endNs : Nat := 0
  deriving DecidableEq, Repr, Inhabited

/-- One pass of a tile check that ended (R338, R359): the array, its summary, and the reference OUT in row-major order. -/
structure TilePass where
  array : Nat := 0
  summary : List Byte := []
  ref : List Nat := []
  deriving DecidableEq, Repr, Inhabited

/-- A tile check under its tag (R355, R359). `bytes` is the tile record; START and END are instants in ns. -/
structure TileCheck where
  tag : Nat := 0
  slot : Nat := 0
  die : Nat := 0
  ring : Nat := 0
  seq : Nat := 0
  captureSeq : Nat := 0
  epoch : Nat := 0
  core : Nat := 0
  startNs : Nat := 0
  endNs : Nat := 0
  bytes : List Byte := []
  /-- passes ended, oldest first -/
  passes : List TilePass := []
  /-- it was checked before, by an array since retired (R360) -/
  again : Bool := false
  deriving DecidableEq, Repr, Inhabited

/-- What a job computes (R346). -/
inductive VWork where
  | tile (tag : Nat)
  | predict (slot tick : Nat) (pkg : List Byte)
  | selfTest (id : Nat)
  deriving DecidableEq, Repr, Inhabited

/-- A job (R346, R347): its class now, the arrays it may not take, the instant since which it waits in its class. -/
structure VJob where
  id : Nat := 0
  work : VWork := .selfTest 0
  cls : Nat := 0
  mask : Nat := 0
  sinceNs : Nat := 0
  /-- run again after an uncorrectable operand (R348) -/
  again : Bool := false
  /-- a predictor job for a rebuilding run: never urgent (R346) -/
  rebuild : Bool := false
  /-- a predictor job whose tick has latched: it has moved to URGENT_CLASS (R346) -/
  urgent : Bool := false
  /-- AGE_US has moved it up a class (R347) -/
  aged : Bool := false
  deriving DecidableEq, Repr, Inhabited

/-- A pass of an array (R325): its job, its start in ns, and the predictor jobs batched with it (R344). -/
structure Pass where
  job : VJob := {}
  startNs : Nat := 0
  more : List VJob := []
  deriving DecidableEq, Repr, Inhabited

/-- A self-test (R349 to R352): its number and VRF_ST_SEED as it was queued, the array it tests, the arrays it runs on, and per array that has run it the
columns that differ from the exact result. -/
structure SelfTest where
  id : Nat := 0
  num : Nat := 0
  seed : Nat := 0
  target : Nat := 0
  arrays : List Nat := []
  /-- array, column and the difference of its bits -/
  results : List (Nat × List (Nat × Nat)) := []
  /-- start of its first pass, ns -/
  beganNs : Option Nat := none
  /-- 0 as due, 1 the rerun after a repair, 2 RETEST -/
  kind : Nat := 0
  /-- the majority's result, for the rerun -/
  expect : List (Nat × Nat) := []
  deriving DecidableEq, Repr, Inhabited

/-- An array (R323, R325, R349 to R352): the pass that occupies it; the passes before it, oldest first, whose results have
not left it; the repair that waits for the pass boundary: its column and the rerun; the tiles it passed since its last PASS. -/
structure VArray where
  job : Option Pass := none
  drain : List Pass := []
  repair : Option (Nat × SelfTest) := none
  since : List TileRef := []
  deriving DecidableEq, Repr, Inhabited

/-- The passes whose results have not left an array, oldest first. -/
def VArray.passes (v : VArray) : List Pass := v.drain ++ v.job.toList

/-- The predictor of a die slot: its package and the outputs held by tick (R343, R344). -/
structure PredDie where
  /-- address ÷ 4,096 and PKG_CRC of the package read last -/
  tried : Option (Nat × Nat) := none
  pkg : List Byte := []
  outs : List (Nat × List (Option Int)) := []
  deriving DecidableEq, Repr, Inhabited

/-- The Verifier. -/
structure AggVrf where
  arr : Tab VArray := []
  /-- jobs that wait, in their order within each class -/
  jobs : List VJob := []
  nextJob : Nat := 0
  tests : List SelfTest := []
  nextTest : Nat := 0
  checks : List TileCheck := []
  /-- profile records as numbers (R330): live, and the previous table with the instant of the change -/
  prof : Tab Nat := []
  profPrev : Option (Tab Nat × Nat) := none
  pred : Tab PredDie := []
  /-- per compute die: its arrays' clock is being lowered for temperature, and the instant of the last step (R509) -/
  cooling : Tab Bool := []
  stepNs : Tab (Option Nat) := []
  deriving DecidableEq, Repr, Inhabited
/-! ### Silent errors and taint (11) -/

/-- A committed tile record that waits for a tag (R355): its place in its ring, or its bytes when it was fetched (R378). -/
structure TileWait where
  ring : Nat := 0
  seq : Nat := 0
  captureSeq : Nat := 0
  epoch : Nat := 0
  /-- END, ns -/
  endNs : Nat := 0
  bytes : List Byte := []
  deriving DecidableEq, Repr, Inhabited

/-- Good evidence of a core (R366, R370): the epoch, and the END or close instant, ns. -/
structure GoodEv where
  core : Nat := 0
  epoch : Nat := 0
  ns : Nat := 0
  deriving DecidableEq, Repr, Inhabited

/-- A committed epoch record: a taint or a decision (R373). -/
structure EpochRec where
  dseq : Nat := 0
  /-- EFLAGS -/
  flags : Nat := 0
  first : Nat := 0
  last : Nat := 0
  checked : Nat := 0
  unchecked : Nat := 0
  core : Nat := 0xFFFF
  checkedTo : Nat := 0
  caseSeq : Nat := 0
  /-- case kind of a taint -/
  kind : Nat := 0
  /-- LAST_TAINT of a clear (R374) -/
  lastTaint : Nat := 0
  ring : Nat := 0
  seq : Nat := 0
  /-- the check and case records it rests on: ring, RING_SEQ (R375) -/
  needs : List (Nat × Nat) := []
  /-- OP_SEQ of its BEGIN -/
  op : Option Nat := none
  /-- its delivery has begun: it is announced -/
  begun : Bool := false
  /-- a clear abandoned before its delivery began (R376) -/
  dropped : Bool := false
  /-- read back from a mirrored record of the former primary (R378) -/
  copied : Bool := false
  deriving DecidableEq, Repr, Inhabited

/-- An open case (R364, R365, R370): what its records and its classification need. -/
structure SeCase where
  seq : Nat := 0
  /-- a tile's, not a field test's -/
  tile : Bool := true
  core : Nat := 0
  epoch : Nat := 0
  /-- CAPTURE_SEQ or TEST_SEQ -/
  source : Nat := 0
  endNs : Nat := 0
  /-- the tile record -/
  bytes : List Byte := []
  refCrc : Nat := 0
  hostCrc : Nat := 0
  /-- BOUND profile -/
  bound : Bool := false
  summary : List Byte := []
  arrays : Nat := 0
  kernel : Nat := 0
  /-- the check record or field-test record -/
  evRing : Nat := 0
  evSeq : Nat := 0
  /-- taken over from another aggregator (R378) -/
  restored : Bool := false
  /-- the instant of the retest's force, ns -/
  forceNs : Nat := 0
  /-- GOOD_EPOCH as the case opened with it (R370) -/
  good : Nat := 2 ^ 32 - 1
  deriving DecidableEq, Repr, Inhabited

/-- The replay that the aggregator drives on a die (R364). `phase`: 0 its BEGIN is not mirrored, 1 OPEN sent, 2 LOADs and
START sent, 3 started. `sigs` holds the runs of the last STATUS: SIG_LO and whether it is valid. -/
structure SeReplay where
  caseSeq : Nat := 0
  op : Nat := 0
  runs : Nat := 0
  phase : Nat := 0
  startNs : Nat := 0
  sigs : List (Nat × Bool) := []
  deriving DecidableEq, Repr, Inhabited

/-- A Fleece record that waits for its export (R382). -/
structure FleecePend where
  caseSeq : Nat := 0
  kind : Nat := 0
  body : List Byte := []
  ring : Nat := 0
  seq : Nat := 0
  op : Option Nat := none
  /-- a mirrored record of the former primary (R238) -/
  copied : Bool := false
  deriving DecidableEq, Repr, Inhabited

/-- Silent errors of one die slot. -/
structure DieSE where
  /-- next DSEQ and next CASE_SEQ -/
  dseq : Nat := 0
  caseSeq : Nat := 0
  wait : List TileWait := []
  /-- the last tile committed, and per tap the CMD_INDEX of its last tile (R357) -/
  lastCapture : Option Nat := none
  cmdIndex : Tab (Option Nat) := []
  /-- tiles refused at ingest: CAPTURE_SEQ, TAP, CMD_INDEX -/
  refused : List (Nat × Nat × Nat) := []
  /-- tiles missing by CAPTURE_SEQ that the sampling rule has not shown yet -/
  credit : Nat := 0
  /-- CHECKED and UNCHECKED by epoch -/
  counts : Tab (Nat × Nat) := []
  good : List GoodEv := []
  /-- epochs not decided, in the order in which they began; the last is the present one (R369) -/
  epochs : List Nat := []
  /-- epochs decided -/
  past : List Nat := []
  /-- epoch records, oldest first -/
  recs : List EpochRec := []
  cases : List SeCase := []
  rpl : Option SeReplay := none
  fleece : List FleecePend := []
  /-- the faulty EPOCH that stops decisions: instant, epoch (R367) -/
  bad : Option (Nat × Nat) := none
  /-- EPOCH_MS as read, its ACT_SEC to come (R367), and the whole activation second -/
  readMs : Nat := 0
  actSec : Nat := 0
  /-- the length before the last activation, ms; 0 none -/
  prevMs : Nat := 0
  /-- CHECKED_TO of the fetched epoch record (R378) -/
  restoreFrom : Nat := 0
  /-- the last epoch that the former primary decided, as far as it has not been decided again since (R372, R378) -/
  decidedTo : Option Nat := none
  /-- field-test records committed while RESTORING: ring, RING_SEQ, bytes (R378) -/
  ftWait : List (Nat × Nat × List Byte) := []
  /-- the epoch of a LIFT written while RESTORING -/
  lift : Option Nat := none
  deriving DecidableEq, Repr, Inhabited

/-- Silent errors: the die slots, and the number of the next check without a tag (R360). -/
structure AggSE where
  die : Tab DieSE := []
  /-- the die slot that the dispatcher serves next (R355) -/
  turn : Nat := 0
  nextAgain : Nat := 4096
  deriving DecidableEq, Repr, Inhabited

/-! ### Self-repair (13) -/

/-- A sector of the repair log (R432): its header, empty when erased, and the places written in order; a place whose write
failed holds nothing that passes its CRC. -/
structure RprSector where
  header : List Byte := []
  places : List (Option (List Byte)) := []
  deriving DecidableEq, Repr, Inhabited

/-- Control pairs, spare rows and aging (R428, R431, R436): the last mismatch of a pair, ns; the spare rows mapped per SRAM
instance; the islands whose warning has an entry. -/
structure AggFlt where
  pairMiss : Tab (Option Nat) := []
  rows : Tab Nat := []
  aged : List Nat := []
  /-- spare rows that are mapped at their owner's next reload: owner, instance, row, spare (R431) -/
  rowsDue : List (SramOwner × Nat × Nat × Nat) := []
  /-- how far a compaction of the repair log is: 1 entries written, 2 header written, 3 done (R434) -/
  compact : Nat := 0
  /-- the repair-log entry at the head is written a second time (R434) -/
  again : Bool := false
  /-- the last poll of a die slot's fault log, ns (R419) -/
  pollNs : Tab (Option Nat) := []
  /-- the ACTIVE pair was halted and a STANDBY pair takes over (R428) -/
  switch : Bool := false
  /-- the stack that the repair log mapped out at this start (R207, R435) -/
  stackOut : Option Nat := none
  deriving DecidableEq, Repr, Inhabited
/-! ### Power (14) -/

/-- A domain request (R446, R449, R450): its target and where it came from: 0 `PWR_DOM_CTRL`, 1 port A, 2 port B, 3 the host
handshake; SEQ of its DOMAIN command and the nonce of the session that carried it (R155). -/
structure DomReq where
  tgt : Nat := 0
  from_ : Nat := 0
  seq : Nat := 0
  nonce : Nat := 0
  deriving DecidableEq, Repr, Inhabited

/-- The controller of a domain: the request that asks the owner to quiesce, the transition that runs, and the pending
request (R446, R447). -/
structure Dom where
  asked : Option DomReq := none
  running : Option DomReq := none
  pending : Option DomReq := none
  deriving DecidableEq, Repr, Inhabited

/-- A slot of the flush record (R455): its BEGIN and END pages, empty when erased. -/
structure FlushPages where
  begin_ : List Byte := []
  end_ : List Byte := []
  deriving DecidableEq, Repr, Inhabited

/-- The flush under way (R453 to R455): whether it writes flash, its slot and GEN, the instant of entry to GASP, what the
tail was then, and the flags of END. Its state is a register field. -/
structure AggFlush where
  armed : Bool := false
  slot : Nat := 0
  gen : Nat := 0
  atNs : Nat := 0
  bytes : Nat := 0
  incomplete : Bool := false
  mainBack : Bool := false
  deriving DecidableEq, Repr, Inhabited

/-- A slot channel (R459 to R465): the requests in progress (OP_SEQ), an ON that waits for its BEGIN to be mirrored, samples
in a row above the limit and at or below `I_ON`, the entry into the present state, ns, and the statistics of the tick. -/
structure SlotCh where
  ops : List Nat := []
  waiting : Option Nat := none
  over_ : Nat := 0
  ok : Nat := 0
  atNs : Nat := 0
  /-- the instant of the latest sample -/
  sampleNs : Nat := 0
  iMax : Nat := 0
  iMin : Nat := 0
  iSum : Nat := 0
  samples : Nat := 0
  /-- EFLAGS of the slot record: a trip, `SLOT_FLT_N` seen low, a sample at full scale -/
  eflags : Nat := 0
  deriving DecidableEq, Repr, Inhabited

/-- Power of the aggregator. -/
structure AggPwr where
  dom : Tab Dom := []
  flush : AggFlush := {}
  slot : Tab SlotCh := []
  deriving DecidableEq, Repr, Inhabited

/-- Power of the Uligo: its domains, and the host handshake: `PD_REQ` is held, and its answer. -/
structure UlgPwr where
  dom : Tab Dom := []
  req : Bool := false
  ack : Bool := false
  deny : Bool := false
  /-- counter domains that have been OFF since the last latch (R444) -/
  dark : List Nat := []
  /-- beats that met a domain that was not ON, by domain; no register shows them (R444) -/
  dropped : Tab Nat := []
  deriving DecidableEq, Repr, Inhabited
/-! ### Start-up and configuration (15) -/

/-- The flash (R473): the bytes of the image slots from their start (all others read 0xFF), the sectors of the repair log,
and the flush record. -/
structure Flash where
  img : Tab (List Byte) := []
  rpr : Tab RprSector := []
  flush : Tab FlushPages := []
  deriving DecidableEq, Repr, Inhabited

/-- The push of a die slot (R486, R487): its cause, its OP_SEQ once it has begun (before, it awaits the live `ULG_CFG_ID`),
whether it waits for its BEGIN to be mirrored, and the cause held for a further one. -/
structure Push where
  running : Bool := false
  cause : Nat := 0
  op : Option Nat := none
  waiting : Bool := false
  held : Option Nat := none
  deriving DecidableEq, Repr, Inhabited

/-- Start-up and configuration of the aggregator: the flash, the loader's slots tried (the last one first), the operation
of the flash, the pushes, and the proxied reads that wait, oldest first (slot, instant in ns). -/
structure AggCfg where
  flash : Flash := {}
  tried : List Nat := []
  /-- operation running: 1 ERASE, 2 PROGRAM; slot; bytes -/
  flashOp : Option (Nat × Nat × List Byte) := none
  push : Tab Push := []
  proxy : List (Nat × Nat) := []
  /-- words of the MSI-X table, two for each of the 64 vectors (R488, R491) -/
  msix : Tab Nat := []
  /-- `RST_N` is high but a supply or `OSC_CLK` holds the part in RESET (R503) -/
  held : Bool := false
  /-- a die port has left OFF since reset (R210) -/
  portsLeft : Bool := false
  deriving DecidableEq, Repr, Inhabited

/-! ### What the parts send -/

/-- A message, frame, word or transfer that leaves a part; the newest stands first in the part's `sent` list. What
its receiver does with it is a command of its own. -/
inductive Sent where
  /-- TW_SYNC or TW_FULL, given to the control slot of a die port's next flit (R35) -/
  | timeWord (port : Nat) (full : Bool) (w : TimeWord)
  /-- TW_ECHO, given to the control slot of the next flit of a port of the Uligo (R35) -/
  | twEcho (x : Nat) (w : TimeWord)
  /-- the disagreement reported on both ports (R36) -/
  | disagree (x : Nat)
  /-- a Delay_Req leaves a port: its sequenceId, domainNumber, sdoId, originTimestamp in 2^-16 ns and Annex E trailer, to UDP port
  319 of FF0E::181 (R27, R28) -/
  | delayReq (port seq domain sdoId : Nat) (stamp : Int) (trailer : Nat := annexETrailer stamp) (udpPort : Nat := 319)
    (dst : Nat := ptpGroup)
  /-- ESMC with QL-DNU (R32) -/
  | esmcDnu (port : Nat)
  /-- `SMP_REQ` with the core (R75) -/
  | smpReq (core : Nat)
  /-- a field-test grant: core, kernel, key, sequence (R112) -/
  | ftGrant (core kernel key seq : Nat)
  /-- `TT_CAPTURE` of a tap (R123) -/
  | ttCapture (tap : Nat)
  /-- the epoch-stamp outputs took a value (R132) -/
  | epochStamp (epoch : Nat)
  /-- a flit sent on a link end, DATA or IDLE, and its bytes (R138); a replayed one is sent again (R143) -/
  | flit (e : LinkEnd) (data : Bool) (f : Flit) (wire : List Byte := f.bytes data)
  /-- HELLO, given to the control slot of the next flit (R141) -/
  | hello (port : Nat) (resume : Bool) (nonce : Nat)
  /-- HELLO_ACK, given to the control slot of the next flit (R141) -/
  | helloAck (x : Nat) (a : HelloAck)
  /-- a frame leaves a fabric port: its bytes from the destination address on, without FCS (R389 to R391, R400, R404) -/
  | frame (port : Nat) (k : FabPkt) (wire : List Byte)
  /-- an entry written to the host notice ring at a host address, and the read that flushes it (R296) -/
  | hostNotice (addr : Nat) (entry : List Byte)
  | hostFlush (addr : Nat)
  /-- an MSI-X message (R296) -/
  | msix (vector : Nat)
  /-- data that an SMBus block read returns (R489) -/
  | smbus (bytes : List Byte)
  /-- an SMBus write with the wrong key is not acknowledged (R489) -/
  | smbusNack
  /-- the test load of the backup cell is applied for 1 ms (R467) -/
  | cellTest
  /-- `SLOT_EN` of a slot is driven to a level (R458) -/
  | slotEn (slot : Nat) (level : Bool)
  deriving DecidableEq, Repr


/-! ### The two parts and the whole -/

/-- The aggregator, Flidovan-2 (R1, R4). -/
structure Agg where
  p : Part := {}
  time : AggTime := {}
  die : Tab DiePort := []
  /-- the role held for the die of each slot: 0 NONE, 1 PRIMARY, 2 STANDBY (R140, R160) -/
  role : Tab Nat := []
  img : Image := {}
  ing : AggIngest := {}
  shed : AggShed := {}
  fab : AggFab := {}
  tly : AggTally := {}
  det : AggDet := {}
  hdg : AggHedge := {}
  vrf : AggVrf := {}
  se : AggSE := {}
  flt : AggFlt := {}
  pwr : AggPwr := {}
  conf : AggCfg := {}
  /-- repair-log entries due to be written (R433) -/
  rprQueue : List RepairEntry := []
  /-- data of the last register read that left the part: BAR0, SMBus or proxy -/
  rdata : Nat := 0
  /-- what left the part, newest first -/
  sent : List Sent := []
  deriving DecidableEq, Repr, Inhabited

/-- The Uligo, GXU-2 (R1). -/
structure Ulg where
  p : Part := {}
  /-- DIE_UID from the host's fuses (R5) -/
  uid : Nat := 0
  time : UlgTime := {}
  cnt : UlgCount := {}
  trc : UlgTrace := {}
  ft : UlgFt := {}
  tile : UlgTile := {}
  ep : UlgEpoch := {}
  rpl : UlgReplay := {}
  link : UlgLink := {}
  pwr : UlgPwr := {}
  /-- data of the last host-port read, and its `HR_RERR` (R94) -/
  rdata : Nat := 0
  rerr : Bool := false
  sent : List Sent := []
  deriving DecidableEq, Repr, Inhabited

/-- The machine: both parts, and the commands that wait, first in first out. -/
structure State where
  agg : Agg := {}
  ulg : Ulg := {}
  pending : List Instr := []
  deriving DecidableEq, Repr, Inhabited

/-- Why the machine stops. No rule of the spec stops it, so no meaning answers with a fault; the one constructor
keeps the type inhabited. -/
inductive Fault where
  /-- Raised by nobody. Safe: it never occurs. -/
  | none
  deriving DecidableEq, Repr

/-- Why a command has no meaning. -/
inductive Refusal where
  /-- The command's arm is not modelled; raised by the dispatch alone. Safe: the model stops. -/
  | notModelled (mnemonic : String)
  deriving DecidableEq, Repr

/-- The machine right after reset: every field at its reset value, the queue empty. -/
def State.reset : State := {}

end Sys2Proof.Machine
end

