-- ==== Sys2Proof/Machine/Ops.lean ====
section
/-! DEFINITION. The operations that every chapter uses: reading and writing register fields, fleet-time arithmetic
(R21 to R26), and setting an event bit, which notifies the fault collector (R412, R414). -/

namespace Sys2Proof.Machine

/-! ### Register fields of a part -/

/-- A field that is not staged. -/
def Part.reg (p : Part) (f : Field) : Nat := p.regs.get f
/-- The live value of a staged field (R483). -/
def Part.cfg (p : Part) (f : Field) : Nat := p.live.get f
/-- A one-bit field that is not staged. -/
def Part.bit (p : Part) (f : Field) : Bool := p.regs.get f != 0
/-- A live one-bit field. -/
def Part.cfgOn (p : Part) (f : Field) : Bool := p.live.get f != 0
/-- The part with a field written. -/
def Part.put (p : Part) (f : Field) (v : Nat) : Part := { p with regs := p.regs.set f v }
/-- The part with a signed field written. -/
def Part.putInt (p : Part) (f : Field) (v : Int) : Part := { p with regs := p.regs.setInt f v }
/-- The part with a count field advanced; counts hold at their largest value (log entry 13). -/
def Part.count (p : Part) (f : Field) (n : Nat := 1) : Part := { p with regs := p.regs.count f n }
/-- The part with a live field written (by hardware, as at an image COMMIT). -/
def Part.putLive (p : Part) (f : Field) (v : Nat) : Part := { p with live := p.live.set f v }

/-- A field of the aggregator that is not staged. -/
def Agg.reg (a : Agg) (f : Field) : Nat := a.p.reg f
/-- A live field of the aggregator. -/
def Agg.cfg (a : Agg) (f : Field) : Nat := a.p.cfg f
/-- A one-bit field of the aggregator. -/
def Agg.bit (a : Agg) (f : Field) : Bool := a.p.bit f
/-- A live one-bit field of the aggregator. -/
def Agg.cfgOn (a : Agg) (f : Field) : Bool := a.p.cfgOn f
/-- The aggregator with a field written. -/
def Agg.put (a : Agg) (f : Field) (v : Nat) : Agg := { a with p := a.p.put f v }
/-- The aggregator with a signed field written. -/
def Agg.putInt (a : Agg) (f : Field) (v : Int) : Agg := { a with p := a.p.putInt f v }
/-- The aggregator with a count advanced. -/
def Agg.count (a : Agg) (f : Field) (n : Nat := 1) : Agg := { a with p := a.p.count f n }
/-- The aggregator with one more message sent. -/
def Agg.send (a : Agg) (m : Sent) : Agg := { a with sent := m :: a.sent }

/-- A field of the Uligo that is not staged. -/
def Ulg.reg (u : Ulg) (f : Field) : Nat := u.p.reg f
/-- A live field of the Uligo. -/
def Ulg.cfg (u : Ulg) (f : Field) : Nat := u.p.cfg f
/-- A one-bit field of the Uligo. -/
def Ulg.bit (u : Ulg) (f : Field) : Bool := u.p.bit f
/-- A live one-bit field of the Uligo. -/
def Ulg.cfgOn (u : Ulg) (f : Field) : Bool := u.p.cfgOn f
/-- The Uligo with a field written. -/
def Ulg.put (u : Ulg) (f : Field) (v : Nat) : Ulg := { u with p := u.p.put f v }
/-- The Uligo with a signed field written. -/
def Ulg.putInt (u : Ulg) (f : Field) (v : Int) : Ulg := { u with p := u.p.putInt f v }
/-- The Uligo with a count advanced. -/
def Ulg.count (u : Ulg) (f : Field) (n : Nat := 1) : Ulg := { u with p := u.p.count f n }
/-- The Uligo with one more message sent. -/
def Ulg.send (u : Ulg) (m : Sent) : Ulg := { u with sent := m :: u.sent }

/-- The Uligo answers a read that it takes (R94): the data, without `HR_RERR`. -/
def Ulg.answer (u : Ulg) (v : Nat) : Ulg := { u with rdata := v, rerr := false }

/-- A message waits for the control slot of the next flit of a die port (R141). -/
def Agg.slotOut (a : Agg) (p : Nat) (c : CtrlSlot) : Agg :=
  { a with die := a.die.upd p fun d => { d with l := { d.l with slots := d.l.slots ++ [c] } } }
/-- The same for a port of the Uligo. -/
def Ulg.slotOut (u : Ulg) (x : Nat) (c : CtrlSlot) : Ulg :=
  { u with link := { u.link with port := u.link.port.upd x fun q => { q with l := { q.l with slots := q.l.slots ++ [c] } } } }

/-- The state with the aggregator changed. -/
def State.onAgg (s : State) (f : Agg → Agg) : State := { s with agg := f s.agg }
/-- The state after a write to a register outside the configuration and fault windows: in HELD the aggregator ignores it
(R481). -/
def State.onWrite (s : State) (f : Agg → Agg) : State := s.onAgg fun a => if a.reg CFG_STATUS_STATE = 5 then a else f a
/-- The state with the Uligo changed. -/
def State.onUlg (s : State) (f : Ulg → Ulg) : State := { s with ulg := f s.ulg }
/-- The state with the named part changed. -/
def State.onPart (s : State) (w : PartSel) (f : Agg → Agg) (g : Ulg → Ulg) : State :=
  match w with
  | .agg => s.onAgg f
  | .ulg => s.onUlg g

/-! ### Fleet time (R21 to R26) -/

/-- One nanosecond in the unit of `Part.now`. -/
def oneNs : Nat := 2 ^ 56

/-- Nanoseconds since the fleet epoch (R21). -/
def Part.nowNs (p : Part) : Nat := p.now / 2 ^ 56
/-- Fleet time in 2^-16 ns. -/
def Part.nowQ (p : Part) : Nat := p.now / 2 ^ 40
/-- Fleet seconds. -/
def Part.nowSec (p : Part) : Nat := p.nowNs / 1000000000
/-- Stamp32 (R26). -/
def Part.stamp32 (p : Part) : Nat := p.nowNs % 2 ^ 32
/-- Time moved on to an instant in ns, never back (R22, log entry 4). -/
def Part.until (p : Part) (ns : Nat) : Part := { p with now := max p.now (ns * 2 ^ 56) }
/-- Fleet time exists: ticks are taken (R38). -/
def Part.timed (p : Part) : Bool := p.servo.state ≥ 2

/-- Tick number of an instant (R23). -/
def tickOf (ns us : Nat) : Nat := ns / (us * 1000)
/-- Round index of an instant; the round number is this mod 2^32 (R24). -/
def roundIndex (ns us ticks : Nat) : Nat := ns / (us * ticks * 1000)
/-- Round number of an instant (R24). -/
def roundOf (ns us ticks : Nat) : Nat := roundIndex ns us ticks % 2 ^ 32
/-- The round an interval belongs to: that of the instant 1 ns before its latch (R25). -/
def intervalRound (latchNs us ticks : Nat) : Nat := roundOf (latchNs - 1) us ticks
/-- Round number `a` is later than `b` (R24); GENs compare alike (R432, R475). -/
def laterRound (a b : Nat) : Bool :=
  let d := (a + 2 ^ 32 - b % 2 ^ 32) % 2 ^ 32
  1 ≤ d && d ≤ 2 ^ 31 - 1

/-- A JOIN in force by a round lifts a SKIP that was sent in a round before it (R262, log entry 152). -/
def AggTally.lifted (t : AggTally) (k : Nat) (e : Nat × Nat × Nat) : Bool :=
  t.joined.any fun j => j.1 = e.1 && !laterRound j.2 k && laterRound j.2 e.2.2

/-- The value nearest to `t` that is `s` mod 2^w; of two equally near, the earlier (R26, with its modulus). No value lies
before the epoch. -/
def extendNear (w s t : Nat) : Nat :=
  let m := 2 ^ w
  let d := (s + m - t % m) % m
  if d < m / 2 ∨ t + d < m then t + d else t + d - m

/-- R26 for a Stamp32. -/
def extendStamp (s t : Nat) : Nat := extendNear 32 s t

/-! ### Servo views (R38) -/

/-- The drift bound of R40, ns/s: 1 for the aggregator, 2 for a Uligo. -/
def driftAgg : Nat := 1
/-- The Uligo's. -/
def driftUlg : Nat := 2

/-- ERR_NS: 15 outside time, `base` in LOCKED, plus the offset in SLEW, growing in HOLDOVER, at most 15 (R38, R42). -/
def errNs (sv : Servo) (base drift now : Nat) : Nat :=
  if sv.large then 15
  else match sv.state with
    | 2 => min base 15
    | 3 => min (base + ceilDiv sv.last.natAbs 65536) 15
    | 4 => min (ceilDiv (sv.holdBase * (10 ^ 9 * 2 ^ 56) + drift * (now - sv.holdFrom)) (10 ^ 9 * 2 ^ 56)) 15
    | _ => 15

/-- ERR_NS of the aggregator: its base is 4 (R38). -/
def Agg.errNs (a : Agg) : Nat := Machine.errNs a.p.servo 4 driftAgg a.p.now

/-- The Uligo's base: ceil(SRC_ERR_NS + 1.5) of its source (R38). -/
def Ulg.errBase (u : Ulg) : Nat :=
  match u.time.src with
  | some x => (u.time.port.get x).srcErr + 2
  | none => 15

/-- ERR_NS of the Uligo. -/
def Ulg.errNs (u : Ulg) : Nat := Machine.errNs u.p.servo u.errBase driftUlg u.p.now

/-- Whole seconds in HOLDOVER, 0 in other states (R54). -/
def Part.holdS (p : Part) : Nat :=
  if p.servo.state = 4 then min ((p.now - p.servo.holdFrom) / (10 ^ 9 * 2 ^ 56)) 65535 else 0

/-! ### Events (R412, R414) -/

/-- The fault source block of an event register of the aggregator, by its offset (R414). -/
def evBlockAgg (off : Nat) : Option Nat :=
  match off with
  | 0x10068 => some 0x01
  | 0x20030 => some 0x02
  | 0x30018 => some 0x03
  | 0x40010 => some 0x04
  | 0x400A0 => some 0x05
  | 0x50038 => some 0x06
  | 0x60050 => some 0x07
  | 0x70010 => some 0x08
  | 0x80030 => some 0x09
  | 0x90028 => some 0x0A
  | 0xA0040 => some 0x0B
  | 0xC0010 => some 0x0C
  | 0x00010 => some 0x0D
  | _ => none

/-- The fault source block of an event register of the Uligo, by its offset (R414). -/
def evBlockUlg (off : Nat) : Option Nat :=
  match off with
  | 0x148 => some 0x01
  | 0x220 => some 0x02
  | 0x440 => some 0x03
  | 0x530 => some 0x04
  | 0x628 => some 0x05
  | 0x718 => some 0x06
  | 0x818 => some 0x07
  | 0x918 => some 0x08
  | 0xB10 => some 0x09
  | _ => none

/-- The source number of an event bit: block × 256 + bit, with 16 × the port for die and link ports (R414). -/
def evSource (blk : Nat → Option Nat) (f : Field) : Option Nat :=
  (blk f.off).map (fun b => b * 256 + 16 * f.idx + f.lsb)

/-- The value of an event register, from its 16 lowest bits. -/
def eventWord (r : Store) (f : Field) : Nat :=
  ((List.range 16).map (fun b => r.get ⟨f.off, f.idx, b, 1, 0, .w1c⟩ * 2 ^ b)).sum

/-- Put an occurrence into the collector's notifications (R412). -/
def Part.notify (p : Part) (o : Occ) : Part := { p with col := { p.col with notified := p.col.notified ++ [o] } }

/-- The owners of spare rows that are due reload: the rows are mapped, each with its repair-log entry and source 0x1022
(R431). -/
def Agg.rowsMap (a : Agg) (mine : SramOwner → Bool) : Agg :=
  let due := a.flt.rowsDue.filter fun e => mine e.1
  due.foldl (fun a e => { a with
    p := a.p.notify { source := 0x1022, addr := e.2.1 * 2 ^ 32 + e.2.2.1 % 2 ^ 32 }
    rprQueue := a.rprQueue ++ [{ etype := 6, unit := e.2.1, place := e.2.2.1 % 2 ^ 20, detail := e.2.2.2 % 16 }] })
    { a with flt := { a.flt with rowsDue := a.flt.rowsDue.filter fun e => !mine e.1 } }

/-- Set an event bit and notify the collector, also when the bit is already set (R412); ADDR is the register's
address and DETAIL its value after the set (R417). `cls` is a class above the floor that the rule names, `cores` the host
cores that the fault names (log entry 127). -/
def Part.event (blk : Nat → Option Nat) (p : Part) (f : Field) (die : Option Nat := none) (cls : Nat := 0)
    (cores : List Nat := []) : Part :=
  let p := p.put f 1
  match evSource blk f with
  | none => p
  | some src =>
    p.notify {
      source := src, cls := cls, die := die, addr := f.off + 64 * f.idx, detail := eventWord p.regs f, cores := cores }

/-- An event of the aggregator. -/
def Agg.event (a : Agg) (f : Field) (die : Option Nat := none) (cls : Nat := 0) : Agg :=
  { a with p := a.p.event evBlockAgg f die cls }

/-- An event of the Uligo. -/
def Ulg.event (u : Ulg) (f : Field) (die : Option Nat := none) (cls : Nat := 0) (cores : List Nat := []) : Ulg :=
  { u with p := u.p.event evBlockUlg f die cls cores }

/-- The flush has stopped the aggregator's work: it is in GASP, SEALING, SEALED or CUT (R454). -/
def Agg.gasp (a : Agg) : Bool := decide (2 ≤ a.reg PWR_STATUS_FLUSH)

/-- A power domain of the aggregator is ON, and no transition takes it elsewhere (R442, R443, R446). -/
def Agg.domOn (a : Agg) (d : Nat) : Bool := a.reg (PWR_DOM_STATUS_STATE d) == 0 && a.reg (PWR_DOM_STATUS_BUSY d) == 0

/-- The next free value of a part (log entry 7). -/
def Part.draw (p : Part) : Nat × Part := (Config.freeNat p.free, { p with free := p.free + 1 })

end Sys2Proof.Machine
end

