-- ==== Sys2Proof/Machine/Operands.lean ====
section
/-! DEFINITION. Small encodings of the parts' own state: time-quality bytes (R48), the trust epoch (R130), FLEET_DIE
(R515), safe state and power domains. -/

namespace Sys2Proof.Machine

/-! ### Small encodings -/

/-- The time-quality byte (R48). -/
def timeQuality (state src err : Nat) : Nat := state % 8 + src % 2 * 8 + err % 16 * 16

/-- The time-quality byte of the Uligo now. In HOLDOVER the Uligo has no source, and R48 and R57 state no SRC for it: it reads
0 then (log entry 125). -/
def Ulg.tq (u : Ulg) : Nat := timeQuality u.p.servo.state (u.time.src.getD 0) u.errNs

/-- FLEET_DIE as the Uligo's records carry it: the live index, or UNSET in bit 31 while no push has set it (R515). -/
def Ulg.fleetDie (u : Ulg) : Nat :=
  if u.cfgOn ULG_CFG_DIE_VALID then u.cfg ULG_CFG_DIE_FLEET_DIE else 2 ^ 31

/-- The trust epoch of an instant under a length in ms (R130). -/
def epochOf (ns ms : Nat) : Nat := ns / (ms * 1000000) % (2 ^ 32 - 1)

/-- The value that means NONE (R130). -/
def epochNone : Nat := 0xFFFF_FFFF

/-- Epoch `a` is later than `b`; NONE takes no part (R130). -/
def laterEpoch (a b : Nat) : Bool :=
  if a = epochNone ∨ b = epochNone then false
  else
    let d := (a + (2 ^ 32 - 1) - b % (2 ^ 32 - 1)) % (2 ^ 32 - 1)
    1 ≤ d && d ≤ 2 ^ 31 - 1

/-- The Uligo's epoch now: NONE until the servo has been LOCKED (R130, R132). -/
def Ulg.epoch (u : Ulg) : Nat := if u.p.timed then epochOf u.p.nowNs u.ep.ms else epochNone

/-- The Uligo is in safe state: any collector state but RUN (R20, R422). -/
def Ulg.safe (u : Ulg) : Bool := u.reg ULG_FLT_STATUS_STATE != 0

/-- The aggregator is in safe state. -/
def Agg.safe (a : Agg) : Bool := a.reg FLT_STATUS_STATE != 0

/-- A power domain of the Uligo is ON, and no transition takes it elsewhere (R442, R444, R446). -/
def Ulg.domainOn (u : Ulg) (d : Nat) : Bool := u.reg (ULG_PD_STATUS_ST d) == 0 && (u.pwr.dom.get d).running.isNone

end Sys2Proof.Machine
end

