-- ==== Sys2Proof/Machine/Inflate.lean ====
section
/-! DEFINITION. Decompression (R227, R231): raw DEFLATE of RFC 1951 with stored, fixed and dynamic blocks, ending with
a code of R231; and compression into blocks as R227 chooses them. -/

namespace Sys2Proof.Machine

/-- The codes of R231 that the stream itself can end with. -/
inductive ZErr where
  | btype | storedLen | table | symbol | distCode | tooFar | inputEnd | outputOver
  deriving DecidableEq, Repr

/-- The number of a code. -/
def ZErr.code : ZErr → Nat
  | .btype => 1 | .storedLen => 2 | .table => 3 | .symbol => 4 | .distCode => 5 | .tooFar => 6 | .inputEnd => 7
  | .outputOver => 8

/-- A decompression under way: the bits left, the bits read, and the output, last byte first. -/
structure ZState where
  bits : List Bool
  pos : Nat := 0
  out : List Byte := []
  len : Nat := 0

/-- The bits of bytes, each byte from its lowest bit. -/
def bitsOfBytes (l : List Byte) : List Bool := (l.map fun b => (List.range 8).map fun i => b.getLsbD i).flatten

/-- Read `n` bits as a number, lowest first. -/
def ZState.take (z : ZState) : Nat → Except (ZErr × Nat × Nat) (Nat × ZState)
  | 0 => .ok (0, z)
  | n + 1 => match z.take n with
    | .error e => .error e
    | .ok (v, z) => match z.bits with
      | [] => .error (.inputEnd, z.pos, z.len)
      | b :: t => .ok (v + (if b then 2 ^ n else 0), { z with bits := t, pos := z.pos + 1 })

/-- A Huffman code as code lengths by symbol (0: not used). -/
abbrev ZCode := List Nat

/-- How many codes have a length. -/
def ZCode.count (c : ZCode) (l : Nat) : Nat := (c.filter (· = l)).length

/-- What is left of the code space after lengths 1 to 15, in units of 2^-15; negative when over-subscribed. -/
def ZCode.left (c : ZCode) : Int :=
  (List.range 15).foldl (fun acc i => acc * 2 - c.count (i + 1)) (1 : Int)

/-- The space never goes below 0 on the way. -/
def ZCode.overSubscribed (c : ZCode) : Bool :=
  ((List.range 15).foldl (fun (acc : Int × Bool) i =>
    let v := acc.1 * 2 - c.count (i + 1)
    (v, acc.2 || decide (v < 0))) ((1 : Int), false)).2

/-- The symbol with the `k`-th code of a length, symbols in order. -/
def ZCode.symbolAt (c : ZCode) (l k : Nat) : Option Nat :=
  ((c.zipIdx.filter fun e => e.1 = l).map Prod.snd)[k]?

/-- Decode one symbol: `code` and `first` run over the lengths as in RFC 1951, 3.2.2; `bad` is the error of a code that
no symbol has. -/
def ZCode.decode (c : ZCode) (bad : ZErr) : Nat → Nat → Nat → Nat → ZState → Except (ZErr × Nat × Nat) (Nat × ZState)
  | 0, _, _, _, z => .error (bad, z.pos, z.len)
  | fuel + 1, l, code, first, z =>
    match z.take 1 with
    | .error e => .error e
    | .ok (b, z) =>
      let code := code * 2 + b
      let first := first * 2
      let n := c.count l
      if code < first + n then
        match c.symbolAt l (code - first) with
        | some s => .ok (s, z)
        | none => .error (bad, z.pos, z.len)
      else c.decode bad fuel (l + 1) code (first + n) z

/-- Decode a symbol from its first bit. -/
def ZCode.symbol (c : ZCode) (bad : ZErr) (z : ZState) : Except (ZErr × Nat × Nat) (Nat × ZState) := c.decode bad 15 1 0 0 z

/-- Base lengths and extra bits of symbols 257 to 285. -/
def zLens : List (Nat × Nat) :=
  [(3, 0), (4, 0), (5, 0), (6, 0), (7, 0), (8, 0), (9, 0), (10, 0), (11, 1), (13, 1), (15, 1), (17, 1), (19, 2), (23, 2),
   (27, 2), (31, 2), (35, 3), (43, 3), (51, 3), (59, 3), (67, 4), (83, 4), (99, 4), (115, 4), (131, 5), (163, 5),
   (195, 5), (227, 5), (258, 0)]

/-- Base distances and extra bits of distance symbols 0 to 29. -/
def zDists : List (Nat × Nat) :=
  [(1, 0), (2, 0), (3, 0), (4, 0), (5, 1), (7, 1), (9, 2), (13, 2), (17, 3), (25, 3), (33, 4), (49, 4), (65, 5), (97, 5),
   (129, 6), (193, 6), (257, 7), (385, 7), (513, 8), (769, 8), (1025, 9), (1537, 9), (2049, 10), (3073, 10), (4097, 11),
   (6145, 11), (8193, 12), (12289, 12), (16385, 13), (24577, 13)]

/-- The fixed literal code. -/
def zFixedLit : ZCode :=
  List.replicate 144 8 ++ List.replicate 112 9 ++ List.replicate 24 7 ++ List.replicate 8 8

/-- The fixed distance code. -/
def zFixedDist : ZCode := List.replicate 32 5

/-- One byte of output within the limit. -/
def ZState.emit (z : ZState) (limit : Nat) (b : Byte) : Except (ZErr × Nat × Nat) ZState :=
  if z.len < limit then .ok { z with out := b :: z.out, len := z.len + 1 } else .error (.outputOver, z.pos, z.len)

/-- Copy `n` bytes from a distance back. -/
def ZState.copy (limit dist : Nat) : Nat → ZState → Except (ZErr × Nat × Nat) ZState
  | 0, z => .ok z
  | n + 1, z => match z.emit limit (z.out.getD (dist - 1) 0) with
    | .error e => .error e
    | .ok z => ZState.copy limit dist n z

/-- Carry out the length symbol `s`: its extra bits, then a distance symbol and its extra bits, and copy. -/
def zMatch (dist : ZCode) (limit s : Nat) (z : ZState) : Except (ZErr × Nat × Nat) ZState :=
  (zLens[s - 257]?).elim (.error (.symbol, z.pos, z.len)) fun (lb, le) =>
    (z.take le).bind fun (x, z) => (dist.symbol .distCode z).bind fun (d, z) =>
      (zDists[d]?).elim (.error (.distCode, z.pos, z.len)) fun (db, de) => (z.take de).bind fun (y, z) =>
        if z.len < db + y then .error (.tooFar, z.pos, z.len) else z.copy limit (db + y) (lb + x)

/-- Decode the symbols of a block up to its end. -/
def zBlock (lit dist : ZCode) (limit : Nat) : Nat → ZState → Except (ZErr × Nat × Nat) ZState
  | 0, z => .error (.inputEnd, z.pos, z.len)
  | fuel + 1, z => (lit.symbol .symbol z).bind fun (s, z) =>
    if s < 256 then (z.emit limit (BitVec.ofNat 8 s)).bind (zBlock lit dist limit fuel)
    else if s = 256 then .ok z
    else (zMatch dist limit s z).bind (zBlock lit dist limit fuel)

/-- The bits up to the next byte are skipped. -/
def ZState.align (z : ZState) : ZState :=
  let pad := (8 - z.pos % 8) % 8
  { z with bits := z.bits.drop pad, pos := z.pos + pad }

/-- Copy `n` bytes of the stream. -/
def zLiteral (limit : Nat) : Nat → ZState → Except (ZErr × Nat × Nat) ZState
  | 0, z => .ok z
  | n + 1, z => (z.take 8).bind fun (b, z) => (z.emit limit (BitVec.ofNat 8 b)).bind (zLiteral limit n)

/-- A stored block. -/
def zStored (limit : Nat) (z : ZState) : Except (ZErr × Nat × Nat) ZState :=
  (z.align.take 16).bind fun (len, z) => (z.take 16).bind fun (nlen, z) =>
    if len + nlen ≠ 65535 then .error (.storedLen, z.pos, z.len) else zLiteral limit len z

/-- The order of the code-length code lengths. -/
def zOrder : List Nat := [16, 17, 18, 0, 8, 7, 9, 6, 10, 5, 11, 4, 12, 3, 13, 2, 14, 1, 15]

/-- The code lengths of a dynamic block, `n` in all. -/
def zLengths (c : ZCode) (n : Nat) : Nat → List Nat → ZState → Except (ZErr × Nat × Nat) (List Nat × ZState)
  | 0, acc, z => .ok (acc, z)
  | fuel + 1, acc, z =>
    if n ≤ acc.length then .ok (acc, z)
    else match c.symbol .table z with
      | .error e => .error e
      | .ok (s, z) =>
        let rep (v base extra : Nat) : Except (ZErr × Nat × Nat) (List Nat × ZState) :=
          match z.take extra with
          | .error e => .error e
          | .ok (x, z) =>
            if n < acc.length + base + x then .error (.table, z.pos, z.len)
            else zLengths c n fuel (acc ++ List.replicate (base + x) v) z
        if s < 16 then zLengths c n fuel (acc ++ [s]) z
        else if s = 16 then match acc.getLast? with
          | none => .error (.table, z.pos, z.len)
          | some v => rep v 3 2
        else if s = 17 then rep 0 3 3
        else rep 0 11 7

/-- The codes of a dynamic block (R231, BAD_TABLE). A distance code that is not complete has exactly one code. -/
def zDynamic (z : ZState) : Except (ZErr × Nat × Nat) (ZCode × ZCode × ZState) :=
  match z.take 14 with
  | .error e => .error e
  | .ok (h, z) =>
    let hlit := h % 32 + 257
    let hdist := h / 32 % 32 + 1
    let hclen := h / 1024 + 4
    if 286 < hlit ∨ 30 < hdist then .error (.table, z.pos, z.len)
    else
      let rd := (zOrder.take hclen).foldl (fun (acc : Except (ZErr × Nat × Nat) (List (Nat × Nat) × ZState)) o =>
        match acc with
        | .error e => .error e
        | .ok (l, z) => match z.take 3 with
          | .error e => .error e
          | .ok (v, z) => .ok ((o, v) :: l, z)) (.ok ([], z))
      match rd with
      | .error e => .error e
      | .ok (l, z) =>
        let cl : ZCode := (List.range 19).map fun i => (l.find? fun e => e.1 = i).elim 0 Prod.snd
        if cl.left ≠ 0 ∨ cl.overSubscribed then .error (.table, z.pos, z.len)
        else match zLengths cl (hlit + hdist) (hlit + hdist) [] z with
          | .error e => .error e
          | .ok (ls, z) =>
            let lit : ZCode := ls.take hlit
            let dist : ZCode := ls.drop hlit
            if lit.left ≠ 0 ∨ lit.overSubscribed then .error (.table, z.pos, z.len)
            else if dist.overSubscribed ∨ (dist.left ≠ 0 ∧ (dist.filter (· ≠ 0)).length ≠ 1) then .error (.table, z.pos, z.len)
            else .ok (lit, dist, z)

/-- One block: whether it is the final one, and what it leaves. -/
def zOne (limit : Nat) (z : ZState) : Except (ZErr × Nat × Nat) (Bool × ZState) :=
  match z.take 3 with
  | .error e => .error e
  | .ok (h, z) =>
    let r := match h / 2 with
      | 0 => zStored limit z
      | 1 => zBlock zFixedLit zFixedDist limit (z.bits.length + 1) z
      | 2 => match zDynamic z with
        | .error e => .error e
        | .ok (lit, dist, z) => zBlock lit dist limit (z.bits.length + 1) z
      | _ => .error (.btype, z.pos, z.len)
    match r with
    | .error e => .error e
    | .ok z => .ok (h % 2 = 1, z)

/-- The blocks of a stream up to the final one. -/
def zBlocks (limit : Nat) : Nat → ZState → Except (ZErr × Nat × Nat) ZState
  | 0, z => .error (.inputEnd, z.pos, z.len)
  | fuel + 1, z =>
    match zOne limit z with
    | .error e => .error e
    | .ok (last, z) => if last then .ok z else zBlocks limit fuel z

/-- What a decompression gives: its code, the bytes it leaves, how many it produced, the byte offset of an error. -/
structure ZResult where
  code : Nat
  out : List Byte := []
  len : Nat := 0
  offset : Nat := 0

/-- Decompress a stream into exactly `raw` bytes whose CRC-32C is `crc` (R231). -/
def inflate (inp : List Byte) (raw crc : Nat) : ZResult :=
  match zBlocks raw (8 * inp.length + 1) { bits := bitsOfBytes inp } with
  | .error (e, pos, len) => { code := e.code, len := len, offset := pos / 8 }
  | .ok z =>
    if z.len < raw then { code := 9, len := z.len, offset := z.pos / 8 }
    else if crc32c z.out.reverse ≠ crc then { code := 10, len := z.len, offset := z.pos / 8 }
    else { code := 0, out := z.out.reverse, len := z.len }

/-! ### Compression (R227, R228) -/

/-- The bits of a number, lowest first. -/
def lowBits (n v : Nat) : List Bool := (List.range n).map fun i => bitAt v i

/-- Bits packed into bytes, each from its lowest bit, the last padded with 0. -/
def bytesOfBits : Nat → List Bool → List Byte
  | 0, _ => []
  | fuel + 1, l =>
    if l = [] then []
    else BitVec.ofNat 8 (((l.take 8).zipIdx.map fun e => if e.1 then 2 ^ e.2 else 0).sum) :: bytesOfBits fuel (l.drop 8)

/-- A stored block at a bit position of the stream. -/
def storedBits (pos : Nat) (final : Bool) (p : List Byte) : List Bool :=
  final :: [false, false] ++ List.replicate ((8 - (pos + 3) % 8) % 8) false ++ lowBits 16 p.length ++
    lowBits 16 (65535 - p.length) ++ bitsOfBytes p

/-- A piece of at most 64 KiB stored: a stored block holds 65,535 bytes, so a full piece takes two. -/
def storedPiece (pos : Nat) (final : Bool) (p : List Byte) : List Bool :=
  if p.length ≤ 65535 then storedBits pos final p
  else
    let b := storedBits pos false (p.take 65535)
    b ++ storedBits (pos + b.length) final (p.drop 65535)

/-- Bits are one block of the wanted type that decodes to the piece after what went before. -/
def huffGood (dyn : Bool) (before piece : List Byte) (final : Bool) (b : List Bool) : Bool :=
  b.take 3 == [final, !dyn, dyn] &&
    (match zOne (before.length + piece.length) { bits := b, out := before.reverse, len := before.length } with
      | .ok (_, z) => z.bits.isEmpty && z.out == (before ++ piece).reverse
      | .error _ => false)

/-- The encoder's block of a kind, if it is one. -/
def huffTry (dyn : Bool) (before piece : List Byte) (final : Bool) : Option (List Bool) :=
  let b := Config.huffBlock dyn before piece final
  if huffGood dyn before piece final b then some b else none

/-- The Huffman block that a TABLES setting takes, and whether it is a dynamic one (R227): with AUTO the shorter, the fixed
one of two equals (log entry 20). -/
def huffPick (tables : Nat) (before piece : List Byte) (final : Bool) : Option (Bool × List Bool) :=
  let fix := (huffTry false before piece final).map fun b => (false, b)
  let dyn := (huffTry true before piece final).map fun b => (true, b)
  match tables with
  | 0 => fix
  | 1 => dyn
  | _ => match fix, dyn with
    | some f, some d => if d.2.length < f.2.length then some d else some f
    | f, d => f.or d

/-- The block or blocks of one piece at a bit position: their bits, and DYNAMIC_USED (1) or STORED_USED (2) of them (R227,
R228). A stored block replaces the Huffman block when it is shorter. -/
def pieceBits (tables pos : Nat) (before piece : List Byte) (final : Bool) : List Bool × Nat :=
  let st := storedPiece pos final piece
  match huffPick tables before piece final with
  | some (d, b) => if st.length < b.length then (st, 2) else (b, if d then 1 else 0)
  | none => (st, 2)

/-- The bits and the flags of a stream: a block ends every 64 KiB of input; every stream starts with empty history. -/
def deflateBits (tables : Nat) : Nat → List Byte → List Byte → List Bool → Nat → List Bool × Nat
  | 0, _, _, acc, fl => (acc, fl)
  | fuel + 1, before, rest, acc, fl =>
    let piece := rest.take 65536
    let left := rest.drop 65536
    let r := pieceBits tables acc.length before piece (left = [])
    if left = [] then (acc ++ r.1, fl ||| r.2)
    else deflateBits tables fuel (before ++ piece) left (acc ++ r.1) (fl ||| r.2)

/-- Compress raw bytes under a TABLES setting: the stream and SFLAGS [1:0] (R227, R228). -/
def deflate (tables : Nat) (raw : List Byte) : List Byte × Nat :=
  let r := deflateBits tables (raw.length / 65536 + 1) [] raw [] 0
  (bytesOfBits (r.1.length / 8 + 1) r.1, r.2)

end Sys2Proof.Machine
end

