-- ==== Sys2Proof/Machine/Flags.lean ====
section
/-! DEFINITION. What the parts show on their output pins, and what they write into the frames of the fabric: functions of
the state that no register holds (R95, R389 to R391, R422, R426, R458). -/

namespace Sys2Proof.Machine

/-! ### Output pins -/

/-- The event bits of `ULG_CNT_EVENT`, in bit order. -/
def cntEvents : List Field :=
  [ULG_CNT_EVENT_TD_BEAT, ULG_CNT_EVENT_TD_SHADOW, ULG_CNT_EVENT_EV_PARITY, ULG_CNT_EVENT_EV_OVF, ULG_CNT_EVENT_HANG,
    ULG_CNT_EVENT_OVS_LOST, ULG_CNT_EVENT_PROBE_ERR, ULG_CNT_EVENT_CNT_PARITY, ULG_CNT_EVENT_BUS_VIOL, ULG_CNT_EVENT_HR_ERR,
    ULG_CNT_EVENT_HOST_WRITE]

/-- `ULG_IRQ[c]` (R95): the sample FIFO of control core `c` holds an entry, or an enabled counting event is routed to it. -/
def Ulg.irq (u : Ulg) (c : Nat) : Bool :=
  !(u.cnt.fifo.get c).isEmpty ||
    (u.reg ULG_CNT_IRQ_CORE == c && cntEvents.any fun f => u.bit f && bitAt (u.reg ULG_CNT_IRQ_EN) f.lsb)

/-- `SAFE_OUT` (R422, R426): high in safe state, or driven by the heartbeat monitor. -/
def Ulg.safeOut (u : Ulg) : Bool := u.safe || u.p.col.monitor

/-- `SAFE_N` (R422, R426): low in safe state, or driven low by the heartbeat monitor. -/
def Agg.safeN (a : Agg) : Bool := !(a.safe || a.p.col.monitor)

/-- `SLOT_EN` and `SLOT_REF` of a slot are driven: the aggregator owns the slot, and its loader is not in HELD (R458, R481). -/
def Agg.slotDriven (a : Agg) (s : Nat) : Bool := a.bit (SLOT_STATUS_OWNER s) && a.reg CFG_STATUS_STATE == 4

/-! ### Addresses (R389) -/

/-- The enabled endpoint entry of an aggregator ID. -/
def Agg.endpoint (a : Agg) (id : Nat) : Option Nat :=
  (List.range 64).find? fun i => a.cfgOn (FAB_EP_ID_EN i) && a.cfg (FAB_EP_ID_ID i) == id

/-- The IPv6 address of an aggregator ID. -/
def Agg.addressOf (a : Agg) (id : Nat) : Nat :=
  match a.endpoint id with
  | some i => a.cfg (FAB_EP_ADDR_HI_ADDR i) * 2 ^ 64 + a.cfg (FAB_EP_ADDR_LO_ADDR i)
  | none => a.cfg FAB_PREFIX_PREFIX * 2 ^ 64 + id % 2 ^ 14

/-- The own address of every port. -/
def Agg.ownAddress (a : Agg) : Nat := a.cfg FAB_PREFIX_PREFIX * 2 ^ 64 + a.reg CFG_STATUS_AGG_ID % 2 ^ 14

/-- The address of the spine's reduction service. -/
def Agg.spineAddress (a : Agg) : Nat := a.cfg FAB_PREFIX_PREFIX * 2 ^ 64 + a.cfg FAB_SPINE_IID_IID

/-! ### Frames (R389 to R391, R399) -/

/-- DSCP of an egress queue. -/
def dscpOf (q : Nat) : Nat := ([46, 48, 40, 34, 26, 10, 8, 16][q]?).getD 0

/-- Traffic class: DSCP in bits 7 to 2, ECN 0. -/
def trafficClass (q : Nat) : Nat := 4 * dscpOf q

/-- The Ethernet header of a port's frame: the next hop, the port's own address, and the EtherType of IPv6. -/
def Agg.etherHead (a : Agg) (p : Nat) (tag : Option Nat) : List Byte :=
  beBytes 6 (a.cfg (FAB_PORT_DMAC_MAC p)) ++ beBytes 6 (a.cfg (FAB_PORT_SMAC_MAC p)) ++
    tag.elim [] (fun t => beBytes 2 0x8100 ++ beBytes 2 t) ++ beBytes 2 0x86DD

/-- The 802.1Q tag of a Rycon-F packet, when VLAN_EN is set: PCP in bits 15 to 13, VID in bits 11 to 0. -/
def Agg.vlanTag (a : Agg) : Option Nat :=
  if a.cfgOn FAB_CFG_VLAN_EN then some (a.cfg FAB_CFG_PCP * 2 ^ 13 + a.cfg FAB_CFG_VID) else none

/-- An IPv6 header (RFC 8200). -/
def ipv6Head (tclass flow len next hop src dst : Nat) : List Byte :=
  beBytes 4 (6 * 2 ^ 28 + tclass * 2 ^ 20 + flow) ++ beBytes 2 len ++ beBytes 1 next ++ beBytes 1 hop ++ beBytes 16 src ++
    beBytes 16 dst

/-- The sum of the 16-bit words of a list of bytes. -/
def wordSum : List Byte → Nat
  | a :: b :: t => a.toNat * 256 + b.toNat + wordSum t
  | [a] => a.toNat * 256
  | [] => 0

/-- The Internet checksum of a message after its IPv6 pseudo-header (RFC 8200, RFC 768). -/
def inetSum (next src dst : Nat) (l : List Byte) : Nat :=
  let s := wordSum (beBytes 16 src ++ beBytes 16 dst ++ beBytes 4 l.length ++ beBytes 4 next ++ l)
  let fold (n : Nat) : Nat := n % 65536 + n / 65536
  65535 - fold (fold s)

/-- The entropy value: CRC-32C of SRC, DST, PSN and the transmission number, each as in the header, the last as one byte (log
entry 171). -/
def entropy (src dst psn transmission : Nat) : Nat :=
  crc32c (beBytes 2 src ++ beBytes 2 dst ++ beBytes 4 psn ++ leBytes 1 transmission)

/-- Flow label. -/
def flowLabel (e : Nat) : Nat := e % 2 ^ 20

/-- UDP source port. -/
def udpSource (e : Nat) : Nat := 49152 + e % 16384

/-- The 28 bytes of a Rycon-F header before FCRC, in network order. -/
def Agg.packetHead (a : Agg) (o : OutPacket) (psn sendNs : Nat) (retx : Bool) : List Byte :=
  beBytes 1 1 ++ beBytes 1 o.rclass ++ beBytes 1 o.msgType ++ beBytes 1 (flag o.ackReq 1 + flag retx 2 + flag o.spine 8) ++
    beBytes 2 (a.reg CFG_STATUS_AGG_ID) ++ beBytes 2 o.dstField ++ beBytes 4 psn ++ beBytes 4 (a.reg FAB_STATUS_INCARN) ++
    beBytes 2 o.payload.length ++ beBytes 1 (o.paddock % 64) ++ zeros 1 ++ beBytes 8 sendNs

/-- The Rycon-F packet: header with FCRC over its first 28 bytes and the payload, then the payload. -/
def Agg.packet (a : Agg) (o : OutPacket) (psn sendNs : Nat) (retx : Bool) : List Byte :=
  let h := a.packetHead o psn sendNs retx
  h ++ beBytes 4 (crc32c (h ++ o.payload)) ++ o.payload

/-- A Rycon-F packet as IPv6 and UDP on a port, with the DSCP of queue `q`; a checksum of 0 is sent as 0xFFFF (RFC 768). -/
def Agg.ryconWire (a : Agg) (p q : Nat) (o : OutPacket) (psn sendNs tx : Nat) : List Byte :=
  let e := entropy (a.reg CFG_STATUS_AGG_ID) o.dstField psn tx
  let dst := if o.spine then a.spineAddress else a.addressOf o.dst
  let l := a.packet o psn sendNs (tx != 0)
  let n := 8 + l.length
  let udp (sum : Nat) : List Byte :=
    beBytes 2 (udpSource e) ++ beBytes 2 (a.cfg FAB_CFG_UDP_PORT) ++ beBytes 2 n ++ beBytes 2 sum ++ l
  let sum := inetSum 17 a.ownAddress dst (udp 0)
  a.etherHead p a.vlanTag ++
    ipv6Head (trafficClass q) (flowLabel e) n 17 (a.cfg FAB_CFG_HOP_LIMIT) a.ownAddress dst ++
    udp (if sum = 0 then 0xFFFF else sum)

/-- An ICMPv6 message on a port (R389): its checksum stands in bytes 2 and 3. -/
def Agg.icmpWire (a : Agg) (p hop dst type : Nat) (body : List Byte) : List Byte :=
  let msg (sum : Nat) : List Byte := beBytes 1 type ++ zeros 1 ++ beBytes 2 sum ++ body
  a.etherHead p none ++ ipv6Head (trafficClass 7) 0 (4 + body.length) 58 hop a.ownAddress dst ++
    msg (inetSum 58 a.ownAddress dst (msg 0))

/-- A Neighbor Advertisement of the own address (R389): solicited unless it goes to all nodes, overriding, with the port's MAC
address as the target link-layer address option; its hop limit is 255 (RFC 4861, log entry 171). -/
def Agg.advertWire (a : Agg) (p dst : Nat) : List Byte :=
  a.icmpWire p 255 dst 136 (beBytes 4 (flag (dst != 0xFF02 * 2 ^ 112 + 1) (2 ^ 30) + 2 ^ 29) ++ beBytes 16 a.ownAddress ++
    beBytes 1 2 ++ beBytes 1 1 ++ beBytes 6 (a.cfg (FAB_PORT_SMAC_MAC p)))

/-- An Echo Reply (R389, RFC 4443): identifier, sequence number and data of the request. -/
def Agg.echoWire (a : Agg) (p dst ident seq : Nat) (data : List Byte) : List Byte :=
  a.icmpWire p (a.cfg FAB_CFG_HOP_LIMIT) dst 129 (beBytes 2 ident ++ beBytes 2 seq ++ data)

end Sys2Proof.Machine
end

