-- ==== Sys2Proof/Machine/Egress.lean ====
section
/-! DEFINITION. The egress of the fabric ports (12): calendars (R402, R403), egress queues and what is offered to them (R396,
R399, R400), and the meters of what arrives (R407). -/

namespace Sys2Proof.Machine

/-- The aggregator with the fabric changed. -/
def Agg.onFab (a : Agg) (f : AggFab → AggFab) : Agg := { a with fab := f a.fab }

/-- A fabric port is up. -/
def Agg.fabUp (a : Agg) (p : Nat) : Bool := a.bit (FAB_PORT_STATUS_UP p)

/-- Bytes per ns of a port (R388). -/
def Agg.fabRate (a : Agg) (p : Nat) : Nat := if a.reg (FAB_PORT_STATUS_LANES p) = 8 then 200 else 100

/-- The key of a port's queue. -/
def fabKey (p q : Nat) : Nat := 8 * p + q

/-! ### Calendars (R402, R403) -/

/-- The calendar that live fields give a port. -/
def calOf (live : Store) (p : Nat) : Calendar := {
  cycle := live.get (FAB_CAL_CFG_CYCLE_NS p), gate := live.get (FAB_CAL_CFG_DEFAULT_GATE p)
  wins := (List.range 8).filterMap fun w =>
    if live.on (FAB_CAL_WIN_EN p w) then
      some (live.get (FAB_CAL_WIN_START_NS p w), live.get (FAB_CAL_WIN_LEN_NS p w), live.get (FAB_CAL_WIN_GATE p w))
    else none }

/-- The calendar in force: after a COMMIT the old one up to the next cycle (R403). -/
def Agg.calendar (a : Agg) (p : Nat) : Calendar :=
  match a.fab.calOld.get p with
  | some c => if a.p.nowNs < c.untilNs then c else calOf a.p.live p
  | none => calOf a.p.live p

/-- The cycle in use: none while the servo is in UNSET or ACQUIRE (R403). -/
def Agg.calCycle (a : Agg) (p : Nat) : Nat := if a.p.timed then (a.calendar p).cycle else 0

/-- The gate of a queue is open at an offset of the cycle; queue 0's always is. Without a cycle only the default gate
applies. -/
def Agg.gateAt (a : Agg) (p q off : Nat) : Bool :=
  let c := a.calendar p
  let g := match c.wins.find? (fun w => decide (w.1 ≤ off) && decide (off < w.1 + w.2.1)) with
    | some w => if a.calCycle p = 0 then c.gate else w.2.2
    | none => c.gate
  q == 0 || bitAt g q

/-- The segments of a cycle: start, length, open. -/
def Agg.calSegs (a : Agg) (p q : Nat) : List (Nat × Nat × Bool) :=
  let c := a.calCycle p
  let cuts := (0 :: ((a.calendar p).wins.map fun w => [w.1, w.1 + w.2.1]).flatten).filter (· < c)
  let cuts := (cuts.mergeSort (· ≤ ·)).eraseDups
  (cuts.zip (cuts.drop 1 ++ [c])).map fun e => (e.1, e.2 - e.1, a.gateAt p q e.1)

/-- Open time from the head of a list of segments on; `none` when every segment is open. -/
def openRun : List (Nat × Nat × Bool) → Option Nat
  | [] => none
  | (_, l, o) :: t => if o then (openRun t).map (· + l) else some 0

/-- What is left of the open period of a queue at an instant; `none` for a gate that never closes (R402). -/
def Agg.openLeft (a : Agg) (p q ns : Nat) : Option Nat :=
  let c := a.calCycle p
  if c = 0 then (if a.gateAt p q (2 ^ 20) then none else some 0)
  else
    let off := ns % c
    let segs := a.calSegs p q
    let here := segs.filter fun s => decide (s.1 ≤ off) && decide (off < s.1 + s.2.1)
    let after := segs.filter fun s => off < s.1
    let before := segs.filter fun s => s.1 + s.2.1 ≤ off
    match here with
    | s :: _ =>
      if s.2.2 then
        (openRun (after ++ before ++ [(s.1, off - s.1, true)])).map (· + (s.1 + s.2.1 - off))
      else some 0
    | [] => none

/-- The longest open period of a queue on a port (R403). -/
def Agg.openLongest (a : Agg) (p q : Nat) : Option Nat :=
  let c := a.calCycle p
  if c = 0 then a.openLeft p q 0
  else (a.calSegs p q).foldl (fun m s => match m, a.openLeft p q s.1 with
    | some x, some y => some (max x y)
    | _, _ => none) (some 0)

/-- A frame's wire time fits an open period (R402). -/
def Agg.wireFits (a : Agg) (p bytes : Nat) (open_ : Option Nat) : Bool :=
  match open_ with
  | none => true
  | some l => decide (bytes + 20 ≤ l * a.fabRate p)

/-! ### What is sent (R392, R396, R399) -/

/-- The egress queue of a frame. -/
def EgressFrame.queue : EgressFrame → Nat
  | .rycon o => o.queue
  | .delayReq _ _ | .esmc _ => 1
  | .neighborAdv _ _ | .echoReply _ _ _ _ _ => 7

/-- The packet of a frame that is a Rycon-F packet; another frame is of no class. -/
def FabPkt.o (k : FabPkt) : OutPacket := match k.f with
  | .rycon o => o
  | _ => { rclass := 0 }

/-- The port set of a frame (R396): the ports of its class, or the one port that it is for. -/
def Agg.portSet (a : Agg) (f : EgressFrame) : List Nat :=
  (List.range 12).filter fun p => match f with
    | .rycon o => match o.rclass with
      | 1 => bitAt (a.cfg FAB_CLASS_PORTS_MIRROR) p
      | 2 => bitAt (a.cfg TALLY_CFG_PORTS) p
      | 3 => bitAt (a.cfg FAB_CLASS_PORTS_NOTICE) p
      | _ => p == o.port
    | .delayReq q _ | .esmc q | .neighborAdv q _ | .echoReply q _ _ _ _ => p == q

/-- Bytes of a frame from the destination address through FCS (R390, R391): headers of 98 bytes, and a tag, around the payload
of a Rycon-F packet; for the others log entry 171. -/
def Agg.lengthOf (a : Agg) : EgressFrame → Nat
  | .rycon o => (if a.cfgOn FAB_CFG_VLAN_EN then 102 else 98) + o.payload.length
  | .delayReq _ _ => 112
  | .esmc _ => 64
  | .neighborAdv _ _ => 90
  | .echoReply _ _ _ _ data => max 64 (66 + data.length)

/-! ### Queues (R399, R400) and their statistics (R408) -/

/-- Bytes in a queue. -/
def Agg.qDepth (a : Agg) (p q : Nat) : Nat := ((a.fab.queue.get (fabKey p q)).map (·.bytes)).sum

/-- Take the depth samples of every 64 ns up to now (R408). A queue was empty before its first use. -/
def Agg.qSample (a : Agg) (p q : Nat) : Agg :=
  let now := a.p.nowNs
  let d := a.qDepth p q
  a.onFab fun f => { f with stat := f.stat.upd (fabKey p q) fun s =>
    let n := now / 64 - (s.lastNs.getD now) / 64
    { s with
      depthSum := s.depthSum + n * d, lastNs := some now, depthMax := if n = 0 then s.depthMax else max s.depthMax d } }

/-- A queue changed, its statistics sampled before, and DEPTH shown after. -/
def Agg.qPut (a : Agg) (p q : Nat) (l : List FabPkt) : Agg :=
  let a := (a.qSample p q).onFab fun f => { f with queue := f.queue.set (fabKey p q) l }
  a.put (FAB_Q_STATUS_DEPTH p q) (a.qDepth p q)

/-- A statistic of a queue changed. -/
def Agg.qStat (a : Agg) (p q : Nat) (f : FabQStat → FabQStat) : Agg :=
  a.onFab fun b => { b with stat := b.stat.upd (fabKey p q) f }

/-- The up ports of a frame's set on which it can ever be sent (R396). -/
def Agg.placeable (a : Agg) (f : EgressFrame) : List Nat :=
  (a.portSet f).filter fun p => a.fabUp p && a.wireFits p (a.lengthOf f) (a.openLongest p f.queue)

/-- The queue of the set with the fewest bytes, ties to the lower port (R396). -/
def Agg.placeAt (a : Agg) (q : Nat) (ps : List Nat) : Option Nat :=
  ps.foldl (fun best p => match best with
    | none => some p
    | some b => if a.qDepth p q < a.qDepth b q then some p else some b) none

/-- A queue of a port takes `n` more bytes: within QMAX_KIB, and within the 4 MiB egress buffer of the port (R399). -/
def Agg.roomAt (a : Agg) (p q n : Nat) : Bool :=
  decide (a.qDepth p q + n ≤ a.cfg (FAB_PORT_CFG_QMAX_KIB p) * 1024) &&
    decide (((List.range 8).map (a.qDepth p)).sum + n ≤ 4 * 1024 * 1024)

/-- What becomes of a frame that is offered (R396, R400, R403, R401): it is placed on a port, that port's queue is full, no port
of its set is up, no port of its set can ever send it, or safe state sends nothing of its queue. -/
inductive Offer where
  | placed (p : Nat) | full (p : Nat) | down | tooLong | safe
  deriving DecidableEq, Repr

/-- Judge an offer. -/
def Agg.judgeOffer (a : Agg) (f : EgressFrame) : Offer :=
  if a.safe ∧ f.queue ≠ 0 then .safe
  else match a.placeAt f.queue (a.placeable f) with
    | some p => if a.roomAt p f.queue (a.lengthOf f) then .placed p else .full p
    | none => if (a.portSet f).any a.fabUp then .tooLong else .down

/-- The next PSN of a packet's receiver and class is drawn (R391). Of a frame that is no Rycon-F packet it is 0. -/
def Agg.drawPsn (a : Agg) : EgressFrame → Nat × Agg
  | .rycon o =>
    let k := 8 * (if o.spine then 2 ^ 14 else o.dst) + o.rclass
    let n := a.fab.psn.get k
    (n, a.onFab fun f => { f with psn := f.psn.set k ((n + 1) % 2 ^ 32) })
  | _ => (0, a)

/-- Put a frame at the end of its queue on a port. -/
def Agg.enqueue (a : Agg) (p : Nat) (f : EgressFrame) : Agg :=
  let r := a.drawPsn f
  r.2.qPut p f.queue (a.fab.queue.get (fabKey p f.queue) ++
    [{ f := f, psn := r.1, enqNs := a.p.nowNs, bytes := a.lengthOf f }])

/-- The requester keeps a frame, to offer it again (R400). -/
def Agg.keep (a : Agg) (f : EgressFrame) : Agg := a.onFab fun x => { x with wait := x.wait ++ [f] }

/-- A refusal of a port's queue is counted (R408). -/
def Agg.refused (a : Agg) (p q : Nat) : Agg := a.qStat p q fun s => { s with refused := s.refused + 1 }

/-- A frame that no open period can hold is refused as TOO_LONG, and its requester has it back as failed (R403). -/
def Agg.tooLong (a : Agg) (f : EgressFrame) : Agg :=
  let a := (((a.portSet f).filter a.fabUp).take 1).foldl (fun a p => a.refused p f.queue) a
  (a.count FAB_ERR_COUNT_TOO_LONG).event FAB_EVENT_TOO_LONG

/-- Offer a frame to the egress queues (R396, R399, R400, R403): placed, or refused as QUEUE_FULL and kept by its requester, or
failed as TOO_LONG. A Rycon-F packet also waits where no port of its set is up; another frame is of the one port, and is lost
with it. In safe state only queue FAULT takes anything (R401; log entry 172). -/
def Agg.offer (a : Agg) (f : EgressFrame) : Agg :=
  match a.judgeOffer f with
  | .placed p => a.enqueue p f
  | .full p => ((a.refused p f.queue).keep f).event FAB_EVENT_QUEUE_FULL
  | .down => match f with
    | .rycon _ => a.keep f
    | _ => a
  | .tooLong => a.tooLong f
  | .safe => a

/-- Offer a packet. -/
def Agg.offerPacket (a : Agg) (o : OutPacket) : Agg := a.offer (.rycon o)

/-- The frames that wait at their requesters are offered again in order, space being free or a port up again (R400). One that
still finds no place waits on. -/
def Agg.reoffer (a : Agg) : Agg :=
  a.fab.wait.foldl (fun a f => match a.judgeOffer f with
    | .placed p => a.enqueue p f
    | .full _ | .down => a.keep f
    | .tooLong => a.tooLong f
    | .safe => a) (a.onFab fun x => { x with wait := [] })

/-- PACKET_ENQUEUE (R400). -/
def execPacketEnqueue (o : OutPacket) (s : State) : Host.Outcome State Fault Refusal := .next (s.onAgg fun a => a.offerPacket o)

/-! ### Meters (R407) -/

/-- The group of a meter for a packet (R407). -/
def meterGroup (rclass ackClass : Nat) : Nat :=
  let c := if rclass = 5 then ackClass else rclass
  match c with | 1 => 3 | 3 => 2 | _ => 1

/-- The colours of RFC 2698, color-blind. -/
inductive Colour where
  | green | yellow | red
  deriving DecidableEq, Repr

/-- Meter a frame (R407): both buckets fill at their rates, and a frame takes from them by its colour. -/
def Agg.meterFrame (a : Agg) (m bytes : Nat) : Agg × Colour :=
  let cbs := 1024000 * a.cfg (FAB_MTR_CBS_KIB m)
  let pbs := 1024000 * a.cfg (FAB_MTR_PBS_KIB m)
  let now := a.p.nowNs
  let (tc, tp, t) := (a.fab.meter.get m).getD (cbs, pbs, now)
  let tc := min cbs (tc + a.cfg (FAB_MTR_CIR_MBPS m) * (now - t))
  let tp := min pbs (tp + a.cfg (FAB_MTR_PIR_MBPS m) * (now - t))
  let b := 1000 * bytes
  let put (tc tp : Nat) : Agg := a.onFab fun f => { f with meter := f.meter.set m (some (tc, tp, now)) }
  if tp < b then (put tc tp, .red)
  else if tc < b then (put tc (tp - b), .yellow)
  else (put (tc - b) (tp - b), .green)

/-- Police a frame on a port (R407): whether it is accepted. RX_KIB shows the fill of the receive buffer that it finds (log entry
173). -/
def Agg.police (a : Agg) (p group : Nat) (rx : RxInfo) : Agg × Bool :=
  let a := a.put (FAB_PORT_STATUS_RX_KIB p) rx.rxKib
  let r := a.meterFrame (5 * p + group) rx.bytes
  if r.2 = .red then ((r.1.count (FAB_PORT_ERR_RED p)).event FAB_EVENT_RED_DROP, false)
  else if r.2 = .yellow ∧ a.cfg FAB_CFG_YELLOW_PCT * 4096 < rx.rxKib * 100 then (r.1.count (FAB_PORT_ERR_YELLOW p), false)
  else if 4096 ≤ rx.rxKib then ((r.1.count (FAB_PORT_ERR_RX_FULL p)).event FAB_EVENT_RX_FULL, false)
  else (r.1, true)

/-- A violation of R409. -/
def Agg.fabViol (a : Agg) : Agg := (a.count FAB_ERR_COUNT_VIOL).event FAB_EVENT_VIOL

/-- A drop that is counted only. -/
def Agg.fabDrop (a : Agg) : Agg := a.onFab fun f => { f with otherDrops := f.otherDrops + 1 }

/-- What an arriving frame does, once the meters of its port accept it (R407). -/
def Agg.metered (a : Agg) (p group : Nat) (rx : RxInfo) (f : Agg → Agg) : Agg :=
  let r := a.police p group rx
  if r.2 then f r.1 else r.1

end Sys2Proof.Machine
end

