-- ==== Sys2Proof/Machine/Rings.lean ====
section
/-! DEFINITION. The Shed as a store (06): its memory, its regions (R209), its rings with their cursors (R211, R212),
the commit of a record (R174, R175, R213), the unmirrored tail (R224), the mirror window (R223), the open archive
segment (R226) and the completion journal (R233, R234). -/

namespace Sys2Proof.Machine

/-! ### Memory -/

/-- The byte at an address. -/
def Memory.get (m : Memory) (a : Nat) : Byte := (assocGet m a).getD 0

/-- The memory with one byte written; writing what an unlisted byte reads removes the entry. -/
def Memory.put (m : Memory) (a : Nat) (b : Byte) : Memory := if b = 0 then assocDel m a else assocPut m a b

/-- The memory with bytes written from an address on. -/
def Memory.write (m : Memory) (a : Nat) : List Byte → Memory
  | [] => m
  | b :: t => Memory.write (m.put a b) (a + 1) t

/-- Bytes read from an address on. -/
def Memory.read (m : Memory) (a n : Nat) : List Byte := (List.range n).map fun i => m.get (a + i)

/-- Canonical form: addresses rise and no entry is 0. -/
def Memory.wf (m : Memory) : Bool := risesFrom 0 m && m.all (fun e => decide (e.2 ≠ 0))

/-- The aggregator with the Shed changed. -/
def Agg.onShed (a : Agg) (f : AggShed → AggShed) : Agg := { a with shed := f a.shed }

/-- The aggregator with ingest changed. -/
def Agg.onIng (a : Agg) (f : AggIngest → AggIngest) : Agg := { a with ing := f a.ing }

/-- The aggregator's own ID, from the image (R13). -/
def Agg.id (a : Agg) : Nat := a.reg CFG_STATUS_AGG_ID

/-- Two ranges of bytes, each by address and length, share a byte. -/
def overlap (x y : Nat × Nat) : Bool := decide (x.1 < y.1 + y.2) && decide (y.1 < x.1 + x.2)

/-- What is left of a range of bytes without another one. -/
def rangeLess (x y : Nat × Nat) : List (Nat × Nat) :=
  if overlap x y then
    [(x.1, y.1 - x.1), (y.1 + y.2, x.1 + x.2 - (y.1 + y.2))].filter fun e => decide (0 < e.2)
  else [x]

/-- Shed bytes written: what an uncorrectable granule lost of them is there again; its other bytes stay lost (R204, R205, log
entry 141). -/
def Agg.shedWrite (a : Agg) (addr : Nat) (l : List Byte) : Agg :=
  a.onShed fun s => { s with
    mem := s.mem.write addr l, bad := s.bad.flatMap fun e => rangeLess e (addr, l.length) }

/-- The offset of the first byte of a range that an uncorrectable granule lost (R205). -/
def Agg.shedBad (a : Agg) (addr n : Nat) : Option Nat :=
  ((a.shed.bad.filter fun e => overlap e (addr, n)).map fun e => e.1 - addr).min?

/-- Bytes of a granule are lost (R205). -/
def Agg.granuleLost (a : Agg) (g : Nat) : Bool := a.shed.bad.any fun e => overlap e (g * 64, 64)

/-- Shed bytes read; an uncorrectable read never returns data (R205). -/
def Agg.shedRead (a : Agg) (addr n : Nat) : List Byte :=
  if a.shedBad addr n = none then a.shed.mem.read addr n else []

/-! ### Stacks and regions (R201, R208, R209) -/

/-- The stack that an address lies on, skipping the one mapped out (R201). -/
def Agg.stackOf (a : Agg) (addr : Nat) : Nat :=
  let s := a.reg SHED_STATUS_STACKS
  let k := addr / 4096 % (if s = 0 then 6 else s)
  if a.reg SHED_STATUS_OUT ≤ k then k + 1 else k

/-- The address within its stack (R201). -/
def Agg.stackAddr (a : Agg) (addr : Nat) : Nat :=
  let s := a.reg SHED_STATUS_STACKS
  let s := if s = 0 then 6 else s
  addr / (4096 * s) * 4096 + addr % 4096

/-- The Shed's size in bytes. -/
def Agg.shedSize (a : Agg) : Nat := a.reg SHED_STATUS_SIZE_GIB * 2 ^ 30

/-- The Shed's size in GiB: 288, or 240 with a stack mapped out (R208). -/
def shedGib (out : Nat) : Nat := if out < 6 then 240 else 288

/-- Base and size in bytes of entry `i` of a region table (R208, R209): a Model region of size 0 takes what the others
leave, and one of a stated size shrinks by 48 GiB with a stack mapped out. -/
def regionPlace (c : Store) (out i : Nat) : Nat × Nat :=
  let size (j : Nat) : Nat := if c.get (SHED_REGION_KIND j) = 0 then 0 else c.get (SHED_REGION_SIZE_256M j) * 2 ^ 28
  let base := c.get (SHED_REGION_BASE_256M i) * 2 ^ 28
  if c.get (SHED_REGION_KIND i) = 8 then
    if size i = 0 then (base, shedGib out * 2 ^ 30 - ((List.range 8).map size).sum)
    else (base, if out < 6 then size i - 48 * 2 ^ 30 else size i)
  else (base, size i)

/-- The regions of a KIND. -/
def regionsOf (c : Store) (out kind : Nat) : List (Nat × Nat) :=
  ((List.range 8).filter fun i => c.get (SHED_REGION_KIND i) = kind).map (regionPlace c out)

/-- Base and size in bytes of the region of a KIND. -/
def Agg.region (a : Agg) (kind : Nat) : Option (Nat × Nat) := (regionsOf a.p.live (a.reg SHED_STATUS_OUT) kind).head?

/-- `n` bytes from an address on lie within one of the regions. -/
def within (l : List (Nat × Nat)) (addr n : Nat) : Bool :=
  l.any fun r => decide (r.1 ≤ addr) && decide (addr + n ≤ r.1 + r.2)

/-- The address lies in a region of the KIND with `n` bytes after it. -/
def Agg.inRegion (a : Agg) (kind addr n : Nat) : Bool :=
  within (regionsOf a.p.live (a.reg SHED_STATUS_OUT) kind) addr n

/-! ### Rings (R211, R212) -/

/-- The journal's ring (R211). -/
def ringJournal : Nat := 65534
/-- The copy log's ring (R211). -/
def ringCopy : Nat := 65535

/-- The ring is in use: the configured ones by EN, the two fixed ones with their region. -/
def Agg.ringOn (a : Agg) (r : Nat) : Bool :=
  if r = ringJournal then (a.region 5).isSome
  else if r = ringCopy then (a.region 3).isSome
  else a.cfgOn (SHED_RING_CFG_EN r)

/-- Base and size of a ring in bytes; the journal is the first half of its region (R209). -/
def Agg.ringPlace (a : Agg) (r : Nat) : Nat × Nat :=
  if r = ringJournal then match a.region 5 with | some (b, s) => (b, s / 2) | none => (0, 0)
  else if r = ringCopy then (a.region 3).getD (0, 0)
  else (a.cfg (SHED_RING_CFG_BASE_4K r) * 4096, a.cfg (SHED_RING_CFG_SIZE_4K r) * 4096)

/-- A ring of the ring table. -/
def Agg.ring (a : Agg) (r : Nat) : Ring := a.shed.ring.get r

/-- The aggregator with a ring changed. -/
def Agg.onRing (a : Agg) (r : Nat) (f : Ring → Ring) : Agg := a.onShed fun s => { s with ring := s.ring.upd r f }

/-- The record of a ring with a sequence. -/
def Ring.find (g : Ring) (seq : Nat) : Option RingRec := g.recs.find? fun q => q.seq = seq

/-- The first record that mirroring still owes, as a sequence: `MIRROR_SEQ` (R212). -/
def Ring.mirrorSeq (g : Ring) : Nat := (g.recs.find? fun q => q.mirror && !q.acked).elim g.writeSeq (·.seq)

/-- The attached consumer cursors (R212). -/
def Ring.consumers (g : Ring) : List Nat := g.cursors.filterMap (·.2)

/-- The first sequence that a PRIMARY ring must keep (R212): the earliest of the attached consumer cursors, the mirror
cursor and the archive cursor. -/
def Ring.keepFrom (g : Ring) : Nat := (g.mirrorSeq :: g.consumers).foldl min g.archSeq

/-- The records before the reclaim point's end that may not be overwritten (R212): in a STANDBY ring those of the last
`sby` ticks, never fewer than 8, else those from the earliest cursor on. -/
def Ring.kept (g : Ring) (sby : Nat) : List RingRec :=
  if g.mode = 2 then
    match g.recs.getLast? with
    | none => []
    | some l => g.recs.filter fun q => l.ident < q.ident + max sby 8
  else g.recs.filter fun q => g.keepFrom ≤ q.seq

/-- The reclaim point as an offset (R212): the lowest of what is kept or reserved. -/
def Ring.reclaim (g : Ring) (sby : Nat) : Nat :=
  ((g.kept sby).map (·.off) ++ g.reserved.map Prod.fst).foldl min g.writeOff

/-- Bytes free before the reclaim point. -/
def Agg.ringFree (a : Agg) (r : Nat) : Nat :=
  let g := a.ring r
  (a.ringPlace r).2 - (g.writeOff - g.reclaim (a.cfg ING_CFG_SBY_TICKS))

/-- A record's bytes with its descriptor fit (R173, R212); nothing passes records that wait for space. -/
def Agg.ringFits (a : Agg) (r len : Nat) : Bool :=
  a.ringOn r && (a.ring r).waits.isEmpty && decide (40 + len ≤ a.ringFree r)

/-- Records that later bytes have overwritten leave the ring. -/
def Ring.trim (g : Ring) (size : Nat) : Ring :=
  { g with
    recs := g.recs.filter fun q => g.writeOff ≤ q.off + size
    gone := g.gone ++ (g.recs.filter fun q => !decide (g.writeOff ≤ q.off + size) && !q.mirrored).map (·.seq) }

/-- Reserve room for a record at the ring's end (R173). -/
def Agg.ringReserve (a : Agg) (r len : Nat) : Agg :=
  a.onRing r fun g =>
    ({ g with writeOff := g.writeOff + 40 + len, reserved := g.reserved ++ [(g.writeOff, 40 + len)] } : Ring).trim
      (a.ringPlace r).2

/-- Give a reservation up whole (R174): the ring's last one is free at once, another is passed over (log entry 43). -/
def Agg.ringRelease (a : Agg) (r off len : Nat) : Agg :=
  a.onRing r fun g => { g with
    reserved := g.reserved.filter fun e => e.1 ≠ off
    writeOff := if off + 40 + len = g.writeOff then off else g.writeOff }

/-- A ring's memory written circularly from an offset. -/
def Agg.ringWrite (a : Agg) (r off : Nat) (l : List Byte) : Agg :=
  let (base, size) := a.ringPlace r
  let o := if size = 0 then 0 else off % size
  (a.shedWrite (base + o) (l.take (size - o))).shedWrite base (l.drop (size - o))

/-- A ring's memory read circularly; nothing where a granule of it is uncorrectable (R205). -/
def Agg.ringRead (a : Agg) (r off n : Nat) : List Byte :=
  let (base, size) := a.ringPlace r
  let o := if size = 0 then 0 else off % size
  let h := min n (size - o)
  let l := a.shedRead (base + o) h ++ a.shedRead base (n - h)
  if l.length = n then l else []

/-- The Shed address of an offset of a ring. -/
def Agg.ringAddr (a : Agg) (r off : Nat) : Nat :=
  let (base, size) := a.ringPlace r
  base + (if size = 0 then 0 else off % size)

/-- The bytes of a record held in a ring, without its descriptor. -/
def Agg.recordBytes (a : Agg) (r : Nat) (q : RingRec) : List Byte := a.ringRead r (q.off + 40) q.len

/-- A RELEASING ring whose consumers have reached the head becomes STANDBY (R193). -/
def Ring.released (g : Ring) : Ring :=
  if g.mode = 3 ∧ g.consumers.all (fun c => decide (g.writeSeq ≤ c)) then { g with mode := 2, cursors := [] } else g

/-! ### Local-only marks and the mirror window (R223) -/

/-- The local-only rank of a class. -/
def Agg.loRank (a : Agg) (cls : Nat) : Nat := a.cfg (SHED_LO_RANK_RANK (cls / 16) (cls % 16))

/-- Mark or unmark a class in the LO_STATE registers and the list of marks. -/
def Agg.loMark (a : Agg) (cls : Nat) (on : Bool) : Agg :=
  let f := SHED_LO_STATE_LO (cls / 64)
  let a := a.put f (withBit (a.reg f) (cls % 64) on)
  let a := a.onShed fun s =>
    { s with marked := if on then cls :: s.marked.filter (· ≠ cls) else s.marked.filter (· ≠ cls) }
  a.put SHED_MIR_STATUS_LO_COUNT a.shed.marked.length

/-- The class is marked LOCAL_ONLY. -/
def Agg.isLocalOnly (a : Agg) (cls : Nat) : Bool := a.shed.marked.contains cls

/-- Every ranked class is marked at once (R224). -/
def Agg.loAll (a : Agg) : Agg :=
  let todo := (List.range 256).filter fun c => a.loRank c != 0 && !a.isLocalOnly c
  if todo = [] then a else (todo.foldl (fun a c => a.loMark c true) a).event SHED_MIR_EVENT_LOCAL_ONLY

/-! ### The mirror sender's messages (R218 to R220) -/

/-- The mirror session's state code (R217). -/
def Agg.mirState (a : Agg) : Nat := a.reg SHED_MIR_STATUS_STATE

/-- The mirror partner. -/
def Agg.partner (a : Agg) : Nat := a.cfg SHED_MIR_CFG_PARTNER

/-- MSESS of a message (R218): an answer to a source carries the session number of that source's HELLO, every other message
the sender's own (log entry 143). -/
def Agg.mirSess (a : Agg) (dst : Nat) : MirMsg → Nat
  | .helloAck _ _ => (a.shed.src.get dst).msess
  | .ack _ _ => (a.shed.src.get dst).msess
  | _ => a.shed.msess

/-- The paddock of a record's die: that of an entry of the die in the stream table, or in the image; 0 for a record that names no
die (R391, log entry 175). -/
def Agg.diePaddock (a : Agg) (die : Option Nat) : Nat :=
  match die with
  | none => 0
  | some d =>
    match a.ing.table.findSome? (fun e => match e.2 with
      | some t => if t.fleetDie = d then some t.paddock else none
      | none => none) with
    | some p => p
    | none => (a.img.static.find? fun e => e.fleetDie = d).elim 0 (·.paddock)

/-- Offer a mirror or journal message as a MIRROR packet (R218, R390, R392). -/
def Agg.mirSend (a : Agg) (dst : Nat) (m : MirMsg) (pad : Nat := 0) : Agg :=
  a.offerPacket { rclass := 1, dst := dst, paddock := pad, payload := m.bytes a.id dst (a.mirSess dst m) }

/-- The largest part of a record that fits a message: a payload of 8,192 bytes holds the header and the fields before the
bytes (R219, R391, log entry 144). -/
def mirPartMax : Nat := 8160

/-- Split bytes into pieces of `n`. -/
def piecesOf (n : Nat) : Nat → List Byte → List (List Byte)
  | 0, _ => []
  | fuel + 1, l => if l = [] then [] else l.take n :: piecesOf n fuel (l.drop n)

/-- The DATA parts of a record with its descriptor, in OFFSET order (R219, R220). -/
def mirParts (src r seq : Nat) (l : List Byte) (fetched : Bool) : List MirrorPart :=
  (piecesOf mirPartMax (l.length + 1) l).zipIdx.map fun e => {
    src := src, ring := r, ringSeq := seq % 2 ^ 32, offset := e.2 * mirPartMax, total := l.length, bytes := e.1
    fetched := fetched }

/-- Send parts, each with its paddock, to an aggregator. -/
def Agg.mirSendParts (a : Agg) (dst : Nat) (l : List (Nat × MirrorPart)) : Agg :=
  l.foldl (fun a m => a.mirSend dst (.data m.2) m.1) a

/-- The record of a ring has been sent now (R220). -/
def Agg.mirSent (a : Agg) (r seq : Nat) : Agg :=
  a.onRing r fun g => { g with recs := g.recs.map fun q => if q.seq = seq then { q with sentNs := a.p.nowNs } else q }

/-- Send one record to the mirror partner while a session takes DATA (R217, R220). -/
def Agg.mirOne (a : Agg) (r seq : Nat) (l : List Byte) : Agg :=
  if a.mirState = 2 ∨ a.mirState = 3 then
    let pad := a.diePaddock (((a.ring r).recs.find? fun q => q.seq = seq).bind (·.die))
    (a.mirSendParts a.partner ((mirParts a.id r seq l false).map fun m => (pad, m))).mirSent r seq
  else a

/-- The session is lost: no port of the MIRROR class is up (R217, R396, log entry 145). -/
def Agg.mirLost (a : Agg) : Agg :=
  if (a.mirState = 2 ∨ a.mirState = 3) ∧
      ((List.range 12).all fun p => !bitAt (a.cfg FAB_CLASS_PORTS_MIRROR) p || !a.bit (FAB_PORT_STATUS_UP p)) then
    a.put SHED_MIR_STATUS_STATE 1
  else a

/-! ### The tail (R224) -/

/-- A tail entry (R224). -/
def TailEnt.bytes (t : TailEnt) : List Byte :=
  leBytes 8 t.addr ++ leBytes 2 t.ring ++ leBytes 1 (flag t.acked 1) ++ zeros 1 ++ leBytes 4 t.len

/-- Write a tail entry at its place in the Tail region, which the list uses circularly (R224, log entry 45). -/
def Agg.tailPut (a : Agg) (t : TailEnt) : Agg :=
  match a.region 6 with
  | some (b, s) => a.shedWrite (b + t.place % (s / 16) * 16) t.bytes
  | none => a

/-- The entries of the records of a ring below a sequence are marked acknowledged (R224). -/
def Agg.tailAck (a : Agg) (r upto : Nat) : Agg :=
  let hit (t : TailEnt) : Bool := t.ring == r && decide (t.seq < upto) && !t.acked
  let a := (a.shed.tail.filter hit).foldl (fun a t => a.tailPut { t with acked := true }) a
  a.onShed fun s => { s with tail := s.tail.map fun t => if hit t then { t with acked := true } else t }

/-- Bytes of the unmirrored tail. -/
def Agg.tailBytes (a : Agg) : Nat := (a.shed.tail.map fun t => if t.acked then 0 else t.len).sum

/-- The head of the tail list advances over acknowledged entries, and the status shows the tail's length. -/
def Agg.tailAdvance (a : Agg) : Agg :=
  let a := a.onShed fun s => { s with tail := s.tail.dropWhile (·.acked) }
  a.put SHED_MIR_STATUS_TAIL_KIB (a.tailBytes / 1024)

/-- The tail has reached TAIL_MAX_MIB. -/
def Agg.tailFull (a : Agg) : Bool := decide (a.cfg SHED_MIR_TIMING_TAIL_MAX_MIB * 2 ^ 20 ≤ a.tailBytes)

/-- A record joins the tail; reaching the limit sets TAIL_FULL and marks every ranked class (R224). -/
def Agg.tailAppend (a : Agg) (t : TailEnt) : Agg :=
  let was := a.tailFull
  let t : TailEnt := { t with place := a.shed.tailNext }
  let a := ((a.tailPut t).onShed fun s => { s with tail := s.tail ++ [t], tailNext := s.tailNext + 1 }).tailAdvance
  if a.tailFull && !was then (a.event SHED_MIR_EVENT_TAIL_FULL).loAll else a

/-! ### Commit (R174, R175, R213) -/

/-- A descriptor (R175). That of an evidence copy is the sample's own, but for LOCAL_ONLY and RING_SEQ (R213, R294). -/
def descBytes (n : NewRec) (lo : Bool) (now seq : Nat) : List Byte :=
  match n.keep with
  | some l => l.take 1 ++ leBytes 1 (withBit (leAt l 1 1) 2 false) ++ (l.take 36).drop 2 ++ leBytes 4 seq
  | none =>
  let fl := (if n.standby then 1 else 0) + (if n.gap then 2 else 0) + (if lo then 4 else 0) + (if n.moved then 8 else 0)
  leBytes 1 0xD1 ++ leBytes 1 fl ++ leBytes 1 n.cls ++ leBytes 1 (n.port % 32) ++
    leBytes 4 (n.die.elim (2 ^ 31) (· % 2 ^ 17)) ++ leBytes 8 n.ident ++ leBytes 8 now ++
    leBytes 8 (n.eventNs.getD now) ++ leBytes 4 n.bytes.length ++ leBytes 4 seq

/-- The class is archived (R226). -/
def Agg.archived (a : Agg) (cls : Nat) : Bool :=
  a.cfgOn SHED_ARCH_CFG_EN && bitAt (a.cfg (SHED_ARCH_CLASS_ARCH (cls / 64))) (cls % 64)

/-- Close the open segment of a ring (R226). -/
def Agg.segClose (a : Agg) (r : Nat) : Agg :=
  a.onShed fun s => { s with segs := s.segs.map fun g => if g.ring = r ∧ ¬ g.closed then { g with closed := true } else g }

/-- A committed record of an archived class joins its ring's open segment, which closes first when the record would take
it beyond SEG_RAW_KIB (R226). -/
def Agg.segAppend (a : Agg) (r seq len : Nat) : Agg :=
  let open? (a : Agg) := a.shed.segs.find? fun g => g.ring = r && !g.closed
  let a := match open? a with
    | some g => if a.cfg SHED_ARCH_CFG_SEG_RAW_KIB * 1024 < g.rawLen + len then a.segClose r else a
    | none => a
  match open? a with
  | some _ => a.onShed fun s => { s with segs := s.segs.map fun g =>
      if g.ring = r ∧ ¬ g.closed then { g with seqs := g.seqs ++ [seq], rawLen := g.rawLen + len } else g }
  | none => a.onShed fun s => { s with
      segs := s.segs ++ [{ ring := r, firstSeq := seq, seqs := [seq], rawLen := len, openNs := a.p.nowNs }] }

/-- Commit a record into its ring (R174): the descriptor and the bytes are written (a received record's bytes stand in its
reservation already), the record joins the ring, and in a PRIMARY ring it joins the tail, the mirror stream and the archive
unless its class is LOCAL_ONLY. A ring not in use takes nothing, and after GASP none does (R454). The RING_SEQ is
returned. -/
def Agg.commitRec (a : Agg) (n : NewRec) : Agg × Nat :=
  let g := a.ring n.ring
  if a.ringOn n.ring ∧ ¬ a.gasp then
    let prim := g.mode == 1 || n.ring == ringJournal
    let lo := !n.noLocal && prim && n.ring != ringJournal && !n.never && a.isLocalOnly n.cls
    let mir := prim && !n.never && !lo
    let len := 40 + n.bytes.length
    let off := n.place.getD g.writeOff
    let desc := descBytes n lo a.p.nowNs (g.writeSeq % 2 ^ 32)
    let q : RingRec := {
      seq := g.writeSeq, type := n.type, cls := n.cls, die := n.die, ident := n.ident, off := off
      len := n.bytes.length, arriveNs := n.keep.elim a.p.nowNs (leAt · 16 8), standby := n.standby, localOnly := lo, mirror := mir }
    let arch := prim && n.ring != ringJournal && a.archived n.cls
    let a1 := (a.ringWrite n.ring off (if n.place.isSome then desc else desc ++ n.bytes)).onRing n.ring fun g =>
      ({ g with
        recs := g.recs ++ [q], writeSeq := g.writeSeq + 1
        writeOff := if n.place.isSome then g.writeOff else off + len
        reserved := g.reserved.filter fun e => n.place ≠ some e.1
        archSeq := if !arch && g.archSeq == g.writeSeq then g.writeSeq + 1 else g.archSeq } : Ring).trim
        (a.ringPlace n.ring).2
    let a2 := a1.onShed fun s =>
      if prim && !n.never then
        { s with winWould := s.winWould + len, winBytes := if mir then s.winBytes + len else s.winBytes }
      else s
    let a3 := if mir then
        (a2.tailAppend { addr := a2.ringAddr n.ring off, ring := n.ring, seq := g.writeSeq, len := len }).mirOne n.ring
          g.writeSeq (desc ++ n.bytes)
      else a2
    (if arch then a3.segAppend n.ring g.writeSeq len else a3, g.writeSeq)
  else (a, g.writeSeq)

/-- Commit a record that the aggregator produces, or let it wait in order for space before the reclaim point (R212, log
entry 44). Its RING_SEQ, also where it waits. -/
def Agg.produceRec (a : Agg) (n : NewRec) : Agg × Nat :=
  if ¬ a.ringOn n.ring ∨ a.gasp ∨ a.ringFits n.ring n.bytes.length then a.commitRec n
  else (a.onRing n.ring fun g => { g with waits := g.waits ++ [n] }, (a.ring n.ring).writeSeq + (a.ring n.ring).waits.length)

/-- The records that wait for space are committed while they fit; the first argument bounds their number. -/
def Agg.ringDrainN (r : Nat) : Nat → Agg → Agg
  | 0, a => a
  | k + 1, a =>
    match (a.ring r).waits with
    | [] => a
    | n :: t =>
      let b := a.onRing r fun g => { g with waits := [] }
      if b.ringFits r n.bytes.length then Agg.ringDrainN r k ((b.commitRec n).1.onRing r fun g => { g with waits := t })
      else a

/-- Space of a ring may have come free: what waits for it is committed. -/
def Agg.ringDrain (a : Agg) (r : Nat) : Agg := Agg.ringDrainN r (a.ring r).waits.length a

/-- A consumer `k` of a ring has read on (R212): its cursor moves to the first of the records, given by ring and
sequence, that it still needs, or to the head. -/
def Agg.ringConsume (a : Agg) (r k : Nat) (owed : List (Nat × Nat)) : Agg :=
  (a.onRing r fun g =>
    match g.cursors.get k with
    | none => g
    | some c =>
      let next := ((owed.filter fun e => e.1 = r).map Prod.snd).foldl min g.writeSeq
      { g with cursors := g.cursors.set k (some (max c next)) }).ringDrain r

/-- Commit a record that the aggregator produces; its ring, if it holds nothing yet, is PRIMARY without consumers unless
it is one that is never mirrored (R213, R214). -/
def Agg.produce (a : Agg) (n : NewRec) : Agg × Nat :=
  let a := a.onRing n.ring fun g => if g.mode = 0 ∧ ¬ n.never then { g with mode := 1 } else g
  a.produceRec n

/-- The record has been mirrored (R215); one that has left its ring since may have been (R212). -/
def Agg.mirrored (a : Agg) (r seq : Nat) : Bool :=
  let g := a.ring r
  (g.find seq).elim (decide (seq < g.writeSeq) && !g.gone.contains seq) (·.mirrored)

/-! ### The completion journal (R233, R234) -/

/-- A journal record (R233). -/
def JrnRec.bytes (j : JrnRec) : List Byte :=
  let l := leBytes 1 j.type ++ leBytes 1 1 ++ leBytes 1 j.kind ++ leBytes 1 (if j.replayed then 1 else 0) ++
    leBytes 2 j.origAgg ++ zeros 2 ++ leBytes 8 j.op ++ leBytes 8 j.origOp ++ leBytes 8 j.stampNs ++
    leBytes 4 (j.die.elim (2 ^ 31) (· % 2 ^ 17)) ++ leBytes 4 j.outcome ++ leBytes 16 j.arg
  l ++ leBytes 4 (crc32c l) ++ zeros 4

/-- Write a journal record into ring 65,534. -/
def Agg.jrnWrite (a : Agg) (j : JrnRec) : Agg :=
  let j : JrnRec := { j with stampNs := a.p.nowNs }
  let r := a.produceRec { ring := ringJournal, type := j.type, cls := 0, die := j.die, ident := j.op, bytes := j.bytes }
  r.1.onShed fun s => { s with journal := s.journal ++ [{ j with seq := r.2 }] }

/-- The last OP_SEQ that may be allocated now (R235). -/
def Agg.opBound (a : Agg) : Nat := (a.p.nowSec + 1) * 2 ^ 24 - 1

/-- The journal ring has room for one more BEGIN and for the end of every operation then begun (R236). -/
def Agg.jrnRoom (a : Agg) : Bool := a.ringFits ringJournal (64 + 104 * (a.shed.begun.length + 1))

/-- A new operation can begin: the journal is open, the sender is not FENCED, and the journal ring has room before its
mirror cursor (R217, R235, R236, R454). -/
def Agg.jrnReady (a : Agg) : Bool :=
  !a.gasp && a.bit SHED_JRN_STATUS_OPEN && a.mirState != 5 && a.jrnRoom

/-- An allocation of OP_SEQ that would pass its bound waits for the second that allows it (R235). -/
def Agg.opWait (a : Agg) : Agg :=
  if a.reg SHED_JRN_NEXT_OP ≤ a.opBound then a
  else { a with p := a.p.until (a.reg SHED_JRN_NEXT_OP / 2 ^ 24 * 1000000000) }

/-- Begin an operation (R234): BEGIN is written with the next OP_SEQ, which is returned, once OP_SEQ is within its bound; an operation begun again for
another aggregator carries REPLAYED and the original (R238). -/
def Agg.jrnBegin (a : Agg) (kind : Nat) (die : Option Nat) (arg : Nat) (orig : Option (Nat × Nat) := none) : Agg × Nat :=
  let a := a.opWait
  let op := a.reg SHED_JRN_NEXT_OP
  let j : JrnRec := {
    type := 0x10, kind := kind, replayed := orig.isSome, origAgg := orig.elim a.id Prod.fst, op := op
    origOp := orig.elim op Prod.snd, die := die, arg := arg }
  let a := (a.jrnWrite j).put SHED_JRN_NEXT_OP (op + 1)
  let a := a.onShed fun s => { s with begun := s.begun ++ [op] }
  (a.put SHED_JRN_STATUS_BEGUN a.shed.begun.length, op)

/-- The BEGIN of an operation. -/
def Agg.jrnFind (a : Agg) (op : Nat) : Option JrnRec := a.shed.journal.find? fun j => j.op = op && j.type == 0x10

/-- This aggregator's own operation that runs a BEGUN one of another again (R238). -/
def Agg.rerunOf (a : Agg) (b : BegunOp) : Option Nat :=
  (a.shed.journal.find? fun j => j.type == 0x10 && j.replayed && j.origAgg == b.origAgg && j.origOp == b.origOp).map (·.op)

/-- End an operation with DONE (0x11) or ABANDON (0x12) and an outcome (R234); one that has ended stays as it is, and one
that began before a fence is never completed (R238). -/
def Agg.jrnEnd (a : Agg) (op type outcome : Nat) : Agg :=
  if a.shed.begun.contains op ∧ ¬ a.gasp ∧ a.shed.fenceOp ≤ op then
    match a.jrnFind op with
    | none => a
    | some b =>
      let a := a.jrnWrite { b with type := type, outcome := outcome }
      let a := a.onShed fun s => { s with begun := s.begun.filter (· ≠ op) }
      a.put SHED_JRN_STATUS_BEGUN a.shed.begun.length
  else a

/-- The BEGIN of an operation has been mirrored, so that it may take effect outside (R234); after a fence none that began
before it does (R238). -/
def Agg.beginMirrored (a : Agg) (op : Nat) : Bool :=
  match a.jrnFind op with
  | some j => decide (a.shed.fenceOp ≤ op) && a.mirrored ringJournal j.seq
  | none => false

/-- FLEET_DIE of a FETCH for records that name no die, as a descriptor has it (R175, log entry 142). -/
def noDie : Nat := 2 ^ 31

/-- Send a FETCH and keep what it is for (R222). -/
def Agg.fetchAsk (a : Agg) (use : FetchUse) (dst die cls first last : Nat) : Agg :=
  let qid := a.shed.nextQid
  let a := a.onShed fun s => { s with
    nextQid := (s.nextQid + 1) % 2 ^ 32
    fetches := s.fetches ++ [{ qid := qid, use := use, die := die, cls := cls, sentNs := a.p.nowNs }] }
  a.mirSend dst (.fetch { src := a.id, qid := qid, fleetDie := die, cls := cls, firstIdent := first, lastIdent := last })

/-- BEGIN records that await acknowledgement (R240). -/
def Agg.jrnWaiting (a : Agg) : Nat :=
  (a.shed.journal.filter fun j => j.type == 0x10 && !a.mirrored ringJournal j.seq).length

end Sys2Proof.Machine
end

