-- ==== Sys2Proof/Machine/Archive.lean ====
section
/-! DEFINITION. The archive (R226 to R231): segments, their buffers and index, and decompression requests. -/

namespace Sys2Proof.Machine

/-! ### The Archive region: primary log, overflow pool, index (R209, log entry 21) -/

/-- The archive index takes the last 64 MiB. -/
def idxBytes : Nat := 64 * 2 ^ 20

/-- Bytes of the overflow pool. -/
def Agg.poolBytes (a : Agg) : Nat := a.cfg SHED_ARCH_CFG_POOL_MIB * 2 ^ 20

/-- Base and size of the primary log, which fills the rest of the region. -/
def Agg.archLog (a : Agg) : Nat × Nat :=
  match a.region 2 with
  | some (b, s) => (b, s - a.poolBytes - idxBytes)
  | none => (0, 0)

/-- Base of the overflow pool. -/
def Agg.poolBase (a : Agg) : Nat := a.archLog.1 + a.archLog.2

/-- Base of the archive index. -/
def Agg.idxBase (a : Agg) : Nat := a.poolBase + a.poolBytes

/-- Bytes of a primary buffer. -/
def Agg.segBuf (a : Agg) : Nat := a.cfg SHED_ARCH_CFG_SEG_BUF_KIB * 1024

/-- The number of overflow buffers. -/
def Agg.poolCount (a : Agg) : Nat := a.poolBytes / 65536

/-- POOL_FREE follows the list of buffers in use. -/
def Agg.poolShow (a : Agg) : Agg := a.put SHED_ARCH_STATUS_POOL_FREE (a.poolCount - a.shed.poolUsed.length)

/-- A written segment goes: its overflow buffers return to the pool (R229). -/
def Agg.segDrop (a : Agg) (g : SegRec) : Agg :=
  (a.onShed fun s => { s with
    segs := s.segs.filter fun h => h.seq != g.seq || h.addr.isNone
    poolUsed := s.poolUsed.filter fun b => !g.over64.contains b }).poolShow

/-- Evict the oldest written segments until `k` overflow buffers are free (R229). -/
def Agg.poolMake (a : Agg) (k : Nat) : Nat → Agg
  | 0 => a
  | fuel + 1 =>
    if k ≤ a.poolCount - a.shed.poolUsed.length then a
    else match a.shed.segs.find? (fun g => g.addr.isSome) with
      | none => a
      | some g => (((a.segDrop g).count SHED_ARCH_STATUS_EVICT_EARLY).event SHED_EVENT_ARCH_EVICT).poolMake k fuel

/-- The records of a segment: those that joined it as they were committed (R226). -/
def Agg.segRecords (a : Agg) (g : SegRec) : List RingRec := (a.ring g.ring).recs.filter fun q => g.seqs.contains q.seq

/-- Write overflow buffers, each with the 16-byte header of R229. -/
def Agg.writeOverflow (a : Agg) : List (Nat × List Byte) → Agg
  | [] => a
  | (addr, p) :: t =>
    let next := match t with | (n, _) :: _ => n | [] => 0
    (a.shedWrite addr (leBytes 1 0x21 ++ zeros 3 ++ leBytes 4 p.length ++ leBytes 8 next ++ p)).writeOverflow t

/-- A segment header (R228). -/
def segHeader (flags comp raw count die cls tables first last next rawCrc seq : Nat) : List Byte :=
  let h := leBytes 1 0x20 ++ leBytes 1 1 ++ leBytes 2 flags ++ leBytes 4 comp ++ leBytes 4 raw ++ leBytes 4 count ++
    leBytes 4 die ++ leBytes 1 cls ++ leBytes 1 tables ++ zeros 2 ++ leBytes 8 first ++ leBytes 8 last ++
    leBytes 8 next ++ leBytes 4 rawCrc ++ leBytes 4 seq
  h ++ leBytes 4 (crc32c h) ++ zeros 4

/-- A segment has been written: it stands behind those written before it, so that the oldest one comes first (R229). -/
def segWritten (l : List SegRec) (g : SegRec) : List SegRec :=
  l.filter (fun h => !(h.ring == g.ring && h.firstSeq == g.firstSeq && h.addr.isNone)) ++ [g]

/-- Compress and write the oldest closed segment of a ring (R226 to R230). -/
def Agg.segWrite (a : Agg) (r : Nat) : Agg :=
  match a.shed.segs.find? (fun g => g.ring = r && g.closed && g.addr.isNone && !a.gasp && a.domOn 0x0D) with
  | none => a
  | some g =>
    let recs := a.segRecords g
    let raw := (recs.map fun q => a.ringRead r q.off (40 + q.len)).flatten
    let tables := a.cfg SHED_ARCH_CFG_TABLES
    let z := deflate tables raw
    let comp := z.1
    let cap := a.segBuf - 64
    let pieces := piecesOf (65536 - 16) comp.length (comp.drop cap)
    let off := if a.shed.archOff + a.segBuf ≤ a.archLog.2 then a.shed.archOff else 0
    let addr := a.archLog.1 + off
    let hit := a.shed.segs.filter fun h => match h.addr with
      | some b => decide (b < addr + a.segBuf) && decide (addr < b + a.segBuf)
      | none => false
    let a := hit.foldl Agg.segDrop a
    let a := a.poolMake pieces.length (a.shed.segs.length + 1)
    let bufs := ((List.range a.poolCount).filter fun b => !a.shed.poolUsed.contains b).take pieces.length
    let places := bufs.map fun b => a.poolBase + b * 65536
    let seq := a.reg SHED_ARCH_STATUS_SEG_SEQ
    let fst := recs.head?.getD {}
    let lst := recs.getLast?.getD {}
    let fl := z.2 + (if pieces = [] then 0 else 4)
    let hd := segHeader fl comp.length raw.length recs.length (fst.die.getD 0) fst.cls tables fst.ident lst.ident
      (places.headD 0) (crc32c raw) seq
    let a := (a.shedWrite addr (hd ++ comp.take cap)).writeOverflow (places.zip pieces)
    let idx := leBytes 4 (fst.die.getD 0) ++ leBytes 1 fst.cls ++ zeros 3 ++ leBytes 8 fst.ident ++
      leBytes 8 lst.ident ++ leBytes 8 addr
    let a := a.shedWrite (a.idxBase + a.shed.idxOff) idx
    let cur := match a.shed.segs.find? (fun h => h.ring = r && h.addr.isNone && g.firstSeq < h.firstSeq) with
      | some h => h.firstSeq
      | none => (a.ring r).writeSeq
    let a := a.onShed fun s => { s with
      idxOff := (s.idxOff + 32) % idxBytes, archOff := off + a.segBuf, poolUsed := s.poolUsed ++ bufs
      segs := segWritten s.segs { g with seq := seq, addr := some addr, over64 := bufs } }
    let a := (a.onRing r fun q => { q with archSeq := max q.archSeq cur }).ringDrain r
    (a.put SHED_ARCH_STATUS_SEG_SEQ ((seq + 1) % 2 ^ 32)).poolShow

/-- SEGMENT_AGE (R226): the ring's open segment has been open for SEG_AGE_MS. -/
def execSegmentAge (ring : Nat) (s : State) : Host.Outcome State Fault Refusal :=
  .next (s.onAgg fun a =>
    match a.shed.segs.find? (fun g => g.ring = ring && !g.closed) with
    | none => a
    | some g => ({ a with p := a.p.until (g.openNs + a.cfg SHED_ARCH_CFG_SEG_AGE_MS * 1000000) }).segClose ring)

/-- SEGMENT_WRITTEN (R226). -/
def execSegmentWritten (ring : Nat) (s : State) : Host.Outcome State Fault Refusal :=
  .next (s.onAgg fun a => a.segWrite ring)

/-! ### Decompression requests (R231) -/

/-- Collect the overflow buffers of a chain from a byte offset of the stream on: the bytes, or the code and the byte offset
of what breaks R229 (CHAIN_BAD) or cannot be read (ECC). -/
def Agg.chain (a : Agg) : Nat → Nat → Nat → Except (Nat × Nat) (List Byte)
  | 0, _, at_ => .error (11, at_)
  | fuel + 1, addr, at_ =>
    if addr = 0 then .ok []
    else if addr < a.poolBase ∨ a.idxBase < addr + 65536 then .error (11, at_)
    else if a.shedBad addr 16 ≠ none then .error (13, at_)
    else
      let used := leNat (a.shedRead (addr + 4) 4)
      if leNat (a.shedRead addr 1) ≠ 0x21 ∨ 65536 - 16 < used then .error (11, at_)
      else match a.shedBad (addr + 16) used with
        | some k => .error (13, at_ + k)
        | none => match a.chain fuel (leNat (a.shedRead (addr + 8) 8)) (at_ + used) with
          | .error e => .error e
          | .ok t => .ok (a.shedRead (addr + 16) used ++ t)

/-- The compressed stream of a segment, from its primary buffer and its chain. -/
def Agg.dzStream (a : Agg) (src comp next : Nat) : Except (Nat × Nat) (List Byte) :=
  let n := min comp (a.segBuf - 64)
  match a.shedBad (src + 64) n with
  | some k => .error (13, k)
  | none => match a.chain (a.poolCount + 1) next n with
    | .error e => .error e
    | .ok rest =>
      let all := a.shedRead (src + 64) n ++ rest
      if all.length = comp then .ok all else .error (11, min all.length comp)

/-- The result of the request in the source and destination registers; `ecc` is the stream offset of a Shed read that
failed now. -/
def Agg.dzRun (a : Agg) (ecc : Option Nat) : ZResult :=
  let src := a.reg SHED_DZ_SRC_ADDR
  let h := a.shedRead src 64
  let raw := leAt h 8 4
  if a.shedBad src 64 ≠ none then { code := 13 }
  else if leAt h 0 1 ≠ 0x20 ∨ leAt h 1 1 ≠ 1 ∨ leAt h 56 4 ≠ crc32c (h.take 56) then { code := 12 }
  else if ¬ a.inRegion 7 (a.reg SHED_DZ_DST_ADDR) raw then { code := 14 }
  else match ecc with
    | some k => { code := 13, offset := k }
    | none => match a.dzStream src (leAt h 4 4) (leAt h 40 8) with
      | .error (c, k) => { code := c, offset := k }
      | .ok all => inflate all raw (leAt h 48 4)

/-- DZ_GO (R231): ignored while BUSY. -/
def Agg.dzGo (a : Agg) : Agg :=
  if a.bit SHED_DZ_STATUS_BUSY then a else (a.put SHED_DZ_STATUS_BUSY 1).put SHED_DZ_STATUS_DONE 0

/-- DZ_GO (R231). -/
def execDzGo (s : State) : Host.Outcome State Fault Refusal := .next (s.onWrite Agg.dzGo)

/-- DZ_DONE (R231): the request ends with its code; only code 0 leaves valid data. -/
def execDzDone (ecc : Option Nat) (s : State) : Host.Outcome State Fault Refusal :=
  .next (s.onAgg fun a =>
    if a.bit SHED_DZ_STATUS_BUSY ∧ ¬ a.gasp ∧ a.domOn 0x0D then
      let r := a.dzRun ecc
      let a := if r.code = 0 then a.shedWrite (a.reg SHED_DZ_DST_ADDR) r.out else a
      let a := (((a.put SHED_DZ_STATUS_BUSY 0).put SHED_DZ_STATUS_DONE 1).put SHED_DZ_STATUS_ERR r.code).put
        SHED_DZ_STATUS_OUT_LEN r.len
      let a := a.put SHED_DZ_STATUS_ERR_OFFSET r.offset
      if r.code = 0 then a else a.event SHED_EVENT_DZ_ERR
    else a)

end Sys2Proof.Machine
end

