-- ==== Sys2Proof/Machine/Views.lean ====
section
/-! DEFINITION. Detection, the Verifier and the silent errors as parts of the aggregator, and their status registers, which
follow their state (R304, R354, R385). -/

namespace Sys2Proof.Machine

/-! ### Detection (R304) -/

/-- The aggregator with detection changed. -/
def Agg.onDet (a : Agg) (f : AggDet → AggDet) : Agg := { a with det := f a.det }

/-- Detection of a die slot. -/
def Agg.dieDet (a : Agg) (s : Nat) : DieDet := a.det.die.get s

/-- The aggregator with detection of a die slot changed. -/
def Agg.onSlot (a : Agg) (s : Nat) (f : DieDet → DieDet) : Agg := a.onDet fun d => { d with die := d.die.upd s f }

/-- The counts of the status register (R304). -/
def Agg.detShow (a : Agg) : Agg :=
  let ds := (List.range 16).map a.dieDet
  ((a.put DET_STATUS_RUNS (ds.filter fun d => d.run.isSome).length).put DET_STATUS_PENDING
    (min a.det.wait.length 4095)).put DET_STATUS_HELD (min ((ds.map fun d => d.held.length).sum) 4095)

/-! ### The Verifier (R354) -/

/-- The aggregator with the Verifier changed. -/
def Agg.onVrf (a : Agg) (f : AggVrf → AggVrf) : Agg := { a with vrf := f a.vrf }

/-- The aggregator with one array changed. -/
def Agg.onArr (a : Agg) (x : Nat) (f : VArray → VArray) : Agg := a.onVrf fun v => { v with arr := v.arr.upd x f }

/-- Array `x` is IN_SERVICE; none is while the Verifier is disabled (R354). -/
def Agg.inService (a : Agg) (x : Nat) : Bool := a.cfgOn VRF_CFG_EN && a.reg (VRF_ARR_STATUS_STATE x) == 0

/-- Predictor jobs queued. -/
def Agg.predJobs (a : Agg) : Nat :=
  (a.vrf.jobs.filter fun j => match j.work with | .predict _ _ _ => true | _ => false).length

/-- The status registers follow (R354). -/
def Agg.vrfShow (a : Agg) : Agg :=
  let ins := (List.range 8).filter a.inService
  let n (c : Nat) : Nat := min (a.vrf.jobs.filter fun j => j.cls = c).length 4095
  let a := ((a.put VRF_STATUS_IN_SERVICE ins.length).put VRF_STATUS_ARR_MASK ((ins.map (2 ^ ·)).sum)).put
    VRF_STATUS_CONFIRM_OK (if 2 ≤ ins.length then 1 else 0)
  let a := (((a.put VRF_QUEUE_C0 (n 0)).put VRF_QUEUE_C1 (n 1)).put VRF_QUEUE_C2 (n 2)).put VRF_QUEUE_C3 (n 3)
  let a := (a.put VRF_QUEUE_PRED_JOBS a.predJobs).put VRF_PRED_STATUS_QUEUED a.predJobs
  (List.range 8).foldl (fun a x =>
    let l := (a.vrf.arr.get x).passes
    (a.put (VRF_ARR_STATUS_BUSY x) (if l = [] then 0 else 1)).put (VRF_ARR_STATUS_CLASS x)
      (l.getLast?.elim 0 (·.job.cls))) a

/-! ### Silent errors (R357, R385) -/

/-- Silent errors of a die slot. -/
def Agg.seDie (a : Agg) (s : Nat) : DieSE := a.se.die.get s

/-- The aggregator with the silent errors of a die slot changed. -/
def Agg.onSE (a : Agg) (s : Nat) (f : DieSE → DieSE) : Agg := { a with se := { a.se with die := a.se.die.upd s f } }

/-- CHECKED_TO: the lowest CAPTURE_SEQ of the die without a final outcome (R373). -/
def Agg.checkedTo (a : Agg) (s : Nat) : Nat :=
  let d := a.seDie s
  let l := d.wait.map (·.captureSeq) ++ (a.vrf.checks.filter fun c => c.slot = s).map (·.captureSeq)
  match l with
  | [] => d.lastCapture.elim d.restoreFrom (· + 1)
  | x :: t => t.foldl min x

/-- Tags held by a die slot. -/
def Agg.tagsHeld (a : Agg) (s : Nat) : Nat := (a.vrf.checks.filter fun c => c.slot = s && decide (c.tag < 4096)).length

/-- Tags held in all. -/
def Agg.tagsUsed (a : Agg) : Nat := (a.vrf.checks.filter fun c => decide (c.tag < 4096)).length

/-- An open taint that no LIFT has closed (R371). -/
def DieSE.isOpen (d : DieSE) (r : EpochRec) : Bool :=
  bitAt r.flags 2 && !(d.recs.any fun c => bitAt c.flags 3 && c.first = r.first && decide (r.dseq < c.dseq))

/-- Effective taint ranges of a die, or of those taints that have been announced: an open one ends where its LIFT closed it
(R371). -/
def DieSE.taints (d : DieSE) (announced : Bool := false) : List (Nat × Nat) :=
  (d.recs.filter fun r => bitAt r.flags 0 && !bitAt r.flags 3 && (!announced || r.begun)).map fun r =>
    if r.last = epochNone then
      (r.first, (d.recs.find? fun c => bitAt c.flags 3 && c.first = r.first && decide (r.dseq < c.dseq)).elim epochNone
        (·.last))
    else (r.first, r.last)

/-- The registers of a die slot follow (R385). -/
def Agg.seShow (a : Agg) (s : Nat) : Agg :=
  let d := a.seDie s
  let b (c : Bool) : Nat := if c then 1 else 0
  let isTile (j : VJob) : Bool := match j.work with
    | .tile _ => true
    | _ => false
  let cases := ((List.range 16).map fun i => (a.seDie i).cases.length).sum
  let a := ((a.put SE_STATUS_TAGS a.tagsUsed).put SE_STATUS_OPEN_CASES (min cases 255)).put SE_STATUS_QUEUED
    (min (a.vrf.jobs.filter isTile).length 8191)
  let a := (a.put (SE_DIE_TAGS_HELD s) (a.tagsHeld s)).put (SE_DIE_TAGS_CHECKED_TO s) (a.checkedTo s)
  let a := ((a.put (SE_DIE_STATUS_TAINT_OPEN s) (b (d.recs.any d.isOpen))).put (SE_DIE_STATUS_CASE_OPEN s)
    (b (d.cases ≠ []))).put (SE_DIE_STATUS_DSEQ_LO s) d.dseq
  a.put SE_STATUS_RESTORING (((List.range 16).map fun i => if a.reg (SE_DIE_STATUS_STATE i) = 1 then 2 ^ i else 0).sum)

end Sys2Proof.Machine
end

