-- ==== Sys2Proof/Machine/Ingest.lean ====
section
/-! DEFINITION. Ingest (05): reassembly and the checks of R173 and R177, the stream table (R179 to R184), ordering (R190,
R191), the commit of a received record (R174 to R178), ring modes and promotion (R193 to R195), and the commands of
`ING_ST_CMD` (R199). -/

namespace Sys2Proof.Machine

/-! ### Dies of the tray (R5, R476) -/

/-- The die slot of a UID and its fleet index, from the image. -/
def Agg.dieOfUid (a : Agg) (uid : Nat) : Option (Nat × Nat) :=
  a.img.dies.zipIdx.findSome? fun e => match e.1.fleetDie with
    | some d => if e.1.uid = uid then some (e.2, d) else none
    | none => none

/-- The die slot of a fleet die. -/
def Agg.slotOfDie (a : Agg) (die : Nat) : Option Nat := a.img.dies.findIdx? fun d => d.fleetDie = some die

/-- The fleet die of a die slot. -/
def Agg.dieOfSlot (a : Agg) (s : Nat) : Option Nat := (a.img.dies[s]?).bind (·.fleetDie)

/-- The die port of a die slot: the one with an ACTIVE session of the die, else the image's. -/
def Agg.portOfSlot (a : Agg) (s : Nat) : Nat :=
  match a.img.dies[s]? with
  | none => 31
  | some d =>
    let here (p : Nat) : Bool := a.reg (DP_STATUS_SESSION p) == 2 && a.reg (DP_DIE_UID_UID p) == d.uid
    ((List.range 16).find? here).getD d.port

/-- The die slot whose session stands on a die port. -/
def Agg.slotOfPort (a : Agg) (p : Nat) : Option Nat := (a.dieOfUid (a.reg (DP_DIE_UID_UID p))).map Prod.fst

/-- The die slot that a die port serves: that of the session's DIE_UID; before any session, the image's. -/
def Agg.slotServed (a : Agg) (p : Nat) : Option Nat :=
  if a.reg (DP_DIE_UID_UID p) = 0 then a.img.dies.findIdx? fun d => d.fleetDie.isSome && d.port == p
  else a.slotOfPort p

/-- The role held for the die that a port serves (R160). -/
def Agg.heldAt (a : Agg) (p : Nat) : Nat := (a.slotServed p).elim 0 a.role.get

/-! ### The stream table (R179, R180) -/

/-- Number of locations: 16,384 buckets of 4 ways and 1,024 overflow entries. -/
def stSize : Nat := 65536 + 1024

/-- The bucket of a key. -/
def stBucket (uid cls : Nat) : Nat := crc32c (leBytes 8 uid ++ leBytes 1 cls) % 16384

/-- The locations that a lookup of a key searches. -/
def stPlaces (uid cls : Nat) : List Nat :=
  (List.range 4).map (stBucket uid cls * 4 + ·) ++ (List.range 1024).map (65536 + ·)

/-- The location and entry of a key; a key is never held twice. -/
def Agg.stFind (a : Agg) (uid cls : Nat) : Option (Nat × StEntry) :=
  a.ing.table.findSome? fun e => match e.2 with
    | some t => if t.uid = uid ∧ t.cls = cls then some (e.1, t) else none
    | none => none

/-- The entry at a location. -/
def Agg.stAt (a : Agg) (loc : Nat) : Option StEntry := a.ing.table.get loc

/-- The table with a location written. -/
def Agg.stPut (a : Agg) (loc : Nat) (e : Option StEntry) : Agg := a.onIng fun i => { i with table := i.table.set loc e }

/-- The lowest free way of the key's bucket, or else the lowest free overflow location. -/
def Agg.stFree (a : Agg) (uid cls : Nat) : Option Nat := (stPlaces uid cls).find? fun l => a.stAt l = none

/-- The image's entry for a die and class: what a learned entry takes (R180, log entry 19). -/
def Agg.stImage (a : Agg) (die cls : Nat) : Option StaticEnt :=
  a.img.static.find? fun e => e.fleetDie = die && e.cls = cls

/-! ### Record headers (R83, R111, R122, R129) -/

/-- What ingest reads from a record's header. -/
structure RecHeader where
  type : Nat
  version : Nat
  len : Nat
  fleetDie : Nat
  uid : Nat
  ident : Nat
  stamp : Nat := 0
  epoch : Nat := 0
  tickUs : Nat := 0

/-- The record type that a stream carries (R177). -/
def typeOfStream (st : Nat) : Nat := match st with | 1 => 1 | 2 => 3 | 3 => 4 | _ => 2

/-- Header bytes of a record type. -/
def headerLen (t : Nat) : Nat := match t with | 1 => 64 | 4 => 128 | _ => 32

/-- The largest record of a type (R177). -/
def largestRecord (t : Nat) : Nat := match t with | 1 => 434272 | 3 => 4136 | 4 => 4194440 | _ => 4136

/-- The header of a record of type `t`. -/
def parseHeader (t : Nat) (l : List Byte) : RecHeader :=
  let base (len die id : Nat) : RecHeader := {
    type := leAt l 0 1, version := leAt l 1 1, len := len, fleetDie := die, uid := leAt l 16 8, ident := id }
  match t with
  | 1 => { base (leAt l 8 4) (leAt l 12 4) (leAt l 24 8) with
           stamp := leAt l 44 4, epoch := leAt l 40 4, tickUs := leAt l 32 4 }
  | 3 => base (leAt l 4 4) (leAt l 8 4) (leAt l 24 8)
  | 4 => { base (leAt l 4 4) (leAt l 8 4) (leAt l 24 8) with stamp := leAt l 48 4, epoch := leAt l 40 4 }
  | _ => { base (leAt l 4 4) (leAt l 12 4) (leAt l 8 4) with stamp := leAt l 24 4 }

/-! ### Discards and refusals (R177, R178, R181) -/

/-- Trap the first refused UID (R181). -/
def Agg.trapUid (a : Agg) (uid port reason : Nat) : Agg :=
  if a.bit ING_UID_TRAP_INFO_VALID then a
  else (((a.put ING_UID_TRAP_UID uid).put ING_UID_TRAP_INFO_PORT port).put ING_UID_TRAP_INFO_REASON reason).put
    ING_UID_TRAP_INFO_VALID 1

/-- A violation of R177. -/
def Agg.ingViol (a : Agg) : Agg := (a.count ING_ERR_COUNT_VIOL).event ING_EVENT_VIOL

/-- The next committed record of the stream carries GAP_BEFORE (R178). -/
def Agg.gapMark (a : Agg) (slot st : Nat) : Agg := a.onIng fun i => { i with gap := i.gap.set (8 * slot + st) true }

/-- A discarded record counts for its stream, the die of the port's session (R178). -/
def Agg.gapPort (a : Agg) (p st : Nat) : Agg :=
  match a.slotOfPort p with
  | some s => a.gapMark s st
  | none => a

/-- A tile refused at ingest counts UNCHECKED against the EPOCH of its header, and is no further gap (R357). -/
def Agg.tileRefused (a : Agg) (s : Nat) (head : List Byte) : Agg :=
  if a.cfgOn SE_CFG_EN then
    let e := leAt head 40 4
    let a := a.count SE_ERR_COUNT_UNCHECKED
    { a with se := { a.se with die := a.se.die.upd s fun d => { d with
      counts := if e = epochNone then d.counts else d.counts.upd e fun c => (c.1, c.2 + 1)
      refused := d.refused ++ [(leAt head 24 8, leAt head 12 1, leAt head 32 8)] } } }
  else a

/-- Why a record is discarded or refused (R177). -/
inductive IngDefect where
  | viol | unbound | foreign | misbound | noEntry | learnFull | uidDup | staticMismatch | ringFull | fifoFull | crc
  deriving DecidableEq, Repr

/-- The answer to a defect (R177, R180, R184); `die` is the record's die where it is known. -/
def Agg.ingDefect (a : Agg) (d : IngDefect) (p uid : Nat) (die : Option Nat) : Agg :=
  match d with
  | .viol => a.ingViol
  | .unbound => (a.trapUid uid p 1).event ING_EVENT_UID_UNBOUND
  | .foreign => (a.trapUid uid p 2).event ING_EVENT_UID_FOREIGN
  | .misbound => (a.trapUid uid p 5).event ING_EVENT_MISBOUND die
  | .noEntry => (a.count ING_ERR_COUNT_REFUSED).event ING_EVENT_NO_ENTRY die
  | .learnFull => (a.count ING_ERR_COUNT_REFUSED).event ING_EVENT_LEARN_FULL die
  | .uidDup => (a.trapUid uid p 3).event ING_EVENT_UID_DUP die
  | .staticMismatch => (a.trapUid uid p 4).event ING_EVENT_STATIC_MISMATCH die
  | .ringFull => (a.count ING_ERR_COUNT_REFUSED).event ING_EVENT_RING_FULL die
  | .fifoFull => (a.count ING_ERR_COUNT_REFUSED).event ING_EVENT_FIFO_FULL die
  | .crc => (a.count ING_ERR_COUNT_CRC).event ING_EVENT_CRC_BAD die

/-- The key of a stream of a die port. -/
def rxKey (p st : Nat) : Nat := 16 * p + st

/-- The record in progress on a stream of a die port. -/
def Agg.rxRec (a : Agg) (p st : Nat) : Option IngRec := a.ing.rx.get (rxKey p st)

/-- The record in progress replaced. -/
def Agg.rxPut (a : Agg) (p st : Nat) (r : Option IngRec) : Agg :=
  a.onIng fun i => { i with rx := i.rx.set (rxKey p st) r }

/-- A record in progress is given up: its reservation is released, nothing more of it is written, and it counts for
GAP_BEFORE (R174, R178). With `last` its last flit has come and nothing more is dropped. -/
def Agg.rxDrop (a : Agg) (p st : Nat) (last : Bool) : Agg :=
  match a.rxRec p st with
  | none => a
  | some r =>
    let own (e : FifoEnt) : Bool := e.place.any fun l => l.1 == r.ring && decide (r.off ≤ l.2) && decide (l.2 < r.off + 40 + r.len)
    let a := if r.dead then a else
      ((a.ringRelease r.ring r.off r.len).gapPort p st).onIng fun i => { i with
        fifo := i.fifo.upd p fun l => l.map fun e => if own e then { e with place := none } else e }
    a.rxPut p st (if last then none else some { dead := true })

/-! ### The port FIFO (R187, R188) -/

/-- The entries of a port FIFO replaced; LEVEL follows. -/
def Agg.fifoSet (a : Agg) (p : Nat) (l : List FifoEnt) : Agg :=
  (a.onIng fun i => { i with fifo := i.fifo.set p l }).put (ING_PORT_STATUS_LEVEL p) l.length

/-- The Shed writer drains a port FIFO down to its newest `left` entries (R173, R187): each payload is written at its place
in its record's reservation. -/
def Agg.fifoDrain (a : Agg) (p left : Nat) : Agg :=
  let l := a.ing.fifo.get p
  let out := l.take (l.length - left)
  (out.foldl (fun a e => e.place.elim a fun x => a.ringWrite x.1 x.2 e.bytes) a).fifoSet p (l.drop out.length)

/-- The payload of a flit joins the port FIFO with its place, the last bytes of its record so far. A flit whose record has
been given up takes no entry (log entry 41). -/
def Agg.fifoPush (a : Agg) (p st : Nat) (f : Flit) : Agg :=
  let pay := f.payload.take f.plen
  match a.rxRec p st with
  | none => a
  | some r =>
    if r.dead then a
    else a.fifoSet p (a.ing.fifo.get p ++ [{
      stream := st, first := f.first, last := f.last, bytes := pay
      place := some (r.ring, r.off + 40 + r.bytes.length - pay.length) }])

/-! ### Lookup and reservation (R173, R180, R184) -/

/-- The class of a record type (R199). -/
def Agg.classOf (a : Agg) (t : Nat) : Nat :=
  match t with
  | 1 => a.cfg ING_CLASS_MAP_SAMPLE
  | 3 => a.cfg ING_CLASS_MAP_FT
  | 4 => a.cfg ING_CLASS_MAP_TILE
  | _ => a.cfg ING_CLASS_MAP_TRACE

/-- The port of a die is UP or in RETRY with a session of that UID (R184). -/
def Agg.portHolds (a : Agg) (p uid : Nat) : Bool :=
  let st := a.reg (DP_STATUS_STATE p)
  decide (p < 16) && (st == 3 || st == 4) && a.reg (DP_DIE_UID_UID p) == uid

/-- The lookup for an arriving record (R180): a hit sets HIT and clears AGED; a miss learns, or names why not. -/
def Agg.stLookup (a : Agg) (uid cls die p : Nat) : Agg × Except IngDefect (Nat × StEntry) :=
  match a.stFind uid cls with
  | some (loc, e) =>
    let e : StEntry := { e with hit := true, aged := false }
    (a.stPut loc (some e), .ok (loc, e))
  | none =>
    match a.cfgOn ING_CFG_LEARN_EN, a.stImage die cls with
    | true, some im =>
      match a.stFree uid cls with
      | none => (a, .error .learnFull)
      | some loc =>
        let e : StEntry := {
          uid := uid, cls := cls, hit := true, port := p, fleetDie := die, paddock := im.paddock, ring := im.ring }
        (a.stPut loc (some e), .ok (loc, e))
    | _, _ => (a, .error .noEntry)

/-- A record for an entry of another port (R184): refused, or the entry moves. -/
def Agg.stMove (a : Agg) (loc : Nat) (e : StEntry) (p uid : Nat) : Agg × Except IngDefect (StEntry × Bool) :=
  if e.port = p then (a, .ok (e, false))
  else if e.static then (a, .error .staticMismatch)
  else if a.portHolds e.port uid then (a, .error .uidDup)
  else
    let e : StEntry := { e with port := p }
    ((a.stPut loc (some e)).event ING_EVENT_MOVED, .ok (e, true))

/-- The header checks of R177 up to the binding of the UID, in the table's order: the die slot and index. -/
def Agg.headerCheck (a : Agg) (p st : Nat) (h : RecHeader) : Except IngDefect (Nat × Nat) :=
  let t := typeOfStream st
  if h.type ≠ t ∨ h.version ≠ 1 then .error .viol
  else if h.len % 8 ≠ 0 ∨ h.len < headerLen t + 8 ∨ largestRecord t < h.len then .error .viol
  else if t = 4 ∧ h.epoch = epochNone then .error .viol
  else if h.uid ≠ a.reg (DP_DIE_UID_UID p) then .error .viol
  else if (t = 4 ∨ t = 2) ∧ a.reg (DP_STATUS_ROLE p) = 2 then .error .viol
  else match a.dieOfUid h.uid with
    | none => .error (if a.img.static.any (fun e => e.uid = h.uid) then .foreign else .unbound)
    | some (s, d) => if h.fleetDie / 2 ^ 31 % 2 = 0 ∧ h.fleetDie % 2 ^ 17 ≠ d then .error .misbound else .ok (s, d)

/-- The rings of the class run in a mode on a standby too: sample and field-test streams (R193). -/
def Agg.keptOnStandby (a : Agg) (cls : Nat) : Bool := cls == a.cfg ING_CLASS_MAP_SAMPLE || cls == a.cfg ING_CLASS_MAP_FT

/-- A ring's memory is laid out anew: what was arriving for it is given up (R210, R211), which marks a gap of each stream
that loses a record (R178). -/
def Agg.rxRingGone (a : Agg) (r : Nat) : Agg :=
  let keys := (a.ing.rx.filter fun e => e.2.any fun q => !q.dead && q.ring == r).map Prod.fst
  let a := keys.foldl (fun a k => a.rxDrop (k / 16) (k % 16) false) a
  let lost := a.ing.ready.flatMap fun e => (e.2.filter fun q => q.ring = r).map fun q => 8 * q.slot + e.1 % 16
  a.onIng fun i => { i with
    gap := lost.foldl (fun t k => t.set k true) i.gap
    ready := i.ready.map fun e => (e.1, e.2.filter fun q => q.ring ≠ r)
    fifo := i.fifo.map fun e => (e.1, e.2.map fun x => if x.place.any (·.1 == r) then { x with place := none } else x) }

/-- A ring begins to serve a stream of a die: it is PRIMARY or STANDBY by the role held for the die (R193, R195). -/
def Agg.ringServe (a : Agg) (r slot : Nat) : Agg :=
  a.onRing r fun g => if g.mode = 0 then { g with mode := if a.role.get slot = 1 then 1 else 2 } else g

/-- A record's first flit (R173): header check, lookup and reservation. The record in progress is `dead` where it is
discarded or refused. -/
def Agg.rxStart (a : Agg) (p st : Nat) (pay : List Byte) : Agg :=
  let t := typeOfStream st
  let h := parseHeader t pay
  let bad (a : Agg) (d : IngDefect) (die : Option Nat) : Agg :=
    ((a.ingDefect d p h.uid die).gapPort p st).rxPut p st (some { dead := true })
  if a.gasp then (a.gapPort p st).rxPut p st (some { dead := true })
  else if pay.length < headerLen t then bad a .viol none
  else match a.headerCheck p st h with
    | .error d => bad a d ((a.dieOfUid h.uid).map Prod.snd)
    | .ok (s, die) =>
      let cls := a.classOf t
      let refuse (a : Agg) (d : IngDefect) : Agg := when (t == 4) (·.tileRefused s pay) (bad a d (some die))
      match a.stLookup h.uid cls die p with
      | (a, .error d) => refuse a d
      | (a, .ok (loc, e)) =>
        match a.stMove loc e p h.uid with
        | (a, .error d) => refuse a d
        | (a, .ok (e, moved)) =>
          let a := a.ringServe e.ring s
          if a.ringFits e.ring h.len then
            (a.ringReserve e.ring h.len).rxPut p st (some {
              bytes := pay, len := h.len, slot := s, die := die, cls := cls, ring := e.ring, port := e.port
              moved := moved, off := (a.ring e.ring).writeOff })
          else refuse a .ringFull

/-- A further flit joins the record in progress (R173). -/
def Agg.rxMore (a : Agg) (p st : Nat) (pay : List Byte) : Agg :=
  match a.rxRec p st with
  | none => a
  | some r => if r.dead then a else a.rxPut p st (some { r with bytes := r.bytes ++ pay })

/-- RECORD_LEN is passed, or reached without LAST: the record in progress is discarded (R177). -/
def Agg.rxLenCheck (a : Agg) (p st : Nat) (last : Bool) : Agg :=
  match a.rxRec p st with
  | none => a
  | some r =>
    if ¬ r.dead ∧ (r.len < r.bytes.length ∨ (r.len = r.bytes.length ∧ ¬ last)) then
      (a.rxDrop p st false).ingDefect .viol p 0 none
    else a

/-- The checks at a record's last flit (R173, R177): its length and its trailer; a record that passes waits for its Shed
writes. -/
def Agg.rxEnd (a : Agg) (p st : Nat) : Agg :=
  match a.rxRec p st with
  | none => a
  | some r =>
    if r.dead then a.rxPut p st none
    else if r.bytes.length ≠ r.len then (a.rxDrop p st true).ingDefect .viol p 0 none
    else if trailerGood r.bytes then
      (a.rxPut p st none).onIng fun i => { i with ready := i.ready.upd (rxKey p st) (· ++ [r]) }
    else (a.rxDrop p st true).ingDefect .crc p 0 (some r.die)

/-- A flit finds the port FIFO full (R177): the record in progress is discarded, and its further flits are dropped. -/
def Agg.rxFull (a : Agg) (p st : Nat) : Agg :=
  match a.rxRec p st with
  | some r => if r.dead then a else (a.rxDrop p st false).ingDefect .fifoFull p 0 (some r.die)
  | none => ((a.ingDefect .fifoFull p 0 none).gapPort p st).rxPut p st (some { dead := true })

/-- Entries of a port FIFO (R187). -/
def fifoMax : Nat := 1024

/-- An accepted DATA flit of streams 1 to 4 reaches ingest (R173). The Shed writer has drained the port FIFO down to
`fifoLeft` entries: a pop frees its space before the push (R188). -/
def Agg.ingestFlit (a : Agg) (p st : Nat) (f : Flit) : Agg :=
  let pay := f.payload.take f.plen
  let a := a.fifoDrain p f.fifoLeft
  let a :=
    if fifoMax ≤ (a.ing.fifo.get p).length then a.rxFull p st
    else ((if f.first then a.rxStart p st pay else a.rxMore p st pay).rxLenCheck p st f.last).fifoPush p st f
  if f.last then a.rxEnd p st else a

/-! ### Ordering and commit (R174 to R178, R190, R191) -/

/-- What ordering says of a record (R177, R190, R191): dropped as duplicate or out of order, or in order with its
identity and whether it is not the successor of the last one. -/
inductive OrderVerdict where
  | dup | early | inOrder (ident : Nat) (jump : Bool)
  deriving DecidableEq, Repr

/-- Compare a record's identity with the last committed one of its die and kind. -/
def Agg.judge (a : Agg) (slot st : Nat) (h : RecHeader) : OrderVerdict :=
  match a.ing.last.get (8 * slot + st) with
  | none => .inOrder h.ident false
  | some l =>
    let id := if st = 4 then extendNear 32 h.ident l else h.ident
    if id = l then .dup
    else if id < l then .early
    else .inOrder id (match st with
      | 1 => id ≠ l + 1 && h.tickUs == a.ing.tickUs.get slot
      | 2 => false
      | _ => id ≠ l + 1)

/-- EVENT_NS of a record (R176). -/
def Agg.eventNs (a : Agg) (st : Nat) (h : RecHeader) : Nat :=
  if st = 2 then h.ident * a.p.tick.us * 1000 else extendStamp h.stamp a.p.nowNs

/-- What a commit gives to the consumers inside the aggregator. -/
structure Committed where
  slot : Nat
  die : Nat
  stream : Nat
  ident : Nat
  ring : Nat
  seq : Nat
  head : RecHeader
  bytes : List Byte
  primary : Bool
  /-- it carries GAP_BEFORE -/
  gap : Bool := false

/-- The consumer of a stream's records is attached (R193): detection for samples, tile checks for tiles. -/
def Agg.consumerOn (a : Agg) (st slot : Nat) : Bool :=
  match st with
  | 1 => a.cfgOn DET_CFG_EN && a.cfgOn (DET_DIE_CFG_EN slot)
  | 3 => a.cfgOn SE_CFG_EN
  | _ => false

/-- The registers that a commit of ingest updates (R199). -/
def Agg.commitRegs (a : Agg) (p slot st ident : Nat) (gap : Bool) : Agg :=
  let f := ING_PORT_STATUS_RECORDS p
  let a := a.put f ((a.reg f + 1) % 2 ^ 32)
  let a := if gap then a.count (ING_DIE_STATUS_GAPS slot) else a
  match st with
  | 1 => a.put (ING_DIE_TICK_TICK slot) ident
  | 3 => a.put (ING_DIE_SEQ_CAPTURE slot) ident
  | 4 => a.put (ING_DIE_SEQ_BLOCK slot) ident
  | _ => a

/-- The consumer of a stream's records (R212): detection reads samples, the tile checks read tiles. -/
def consumerOf (st : Nat) : Option Nat := match st with | 1 => some 0 | 3 => some 1 | _ => none

/-- A record has joined a ring: the consumer of its stream, if it is on and the ring is PRIMARY, attaches at it at the
latest; every other cursor at the record passes it (R193, R212). -/
def Agg.ringAttach (a : Agg) (r seq st slot : Nat) : Agg :=
  a.onRing r fun g =>
    let takes (k : Nat) : Bool := g.mode == 1 && consumerOf st == some k && a.consumerOn st slot
    let passed : Tab (Option Nat) := g.cursors.map fun e => (e.1, if !takes e.1 && e.2 == some seq then some (seq + 1) else e.2)
    { g with cursors := match consumerOf st with
        | some k => if takes k ∧ g.cursors.get k = none then passed.set k (some seq) else passed
        | none => passed }

/-- The ordering check and the commit of the oldest record of a stream, once its Shed writes are complete (R174 to
R178). -/
def Agg.ingestCommit (a : Agg) (p st : Nat) : Agg × Option Committed :=
  match a.ing.ready.get (rxKey p st) with
  | [] => (a, none)
  | r :: rest =>
    let a := (a.fifoDrain p 0).onIng fun i => { i with ready := i.ready.set (rxKey p st) rest }
    if a.gasp then
      ((a.ringRelease r.ring r.off r.len).onIng (fun i => { i with gap := i.gap.set (8 * r.slot + st) true }), none)
    else
    let h := parseHeader (typeOfStream st) r.bytes
    match a.judge r.slot st h with
    | .dup => ((a.ringRelease r.ring r.off r.len).count ING_ERR_COUNT_DUP, none)
    | .early => ((a.ringRelease r.ring r.off r.len).ingViol.event ING_EVENT_ORDER, none)
    | .inOrder id jump =>
      let k := 8 * r.slot + st
      let gap := jump || a.ing.gap.get k
      let c := a.commitRec {
        ring := r.ring, type := h.type, cls := r.cls, port := r.port, die := some r.die, ident := id, gap := gap
        moved := r.moved, standby := a.role.get r.slot != 1, eventNs := some (a.eventNs st h), place := some r.off
        bytes := r.bytes }
      let a := c.1.onIng fun i => { i with
        last := i.last.set k (some id), gap := i.gap.set k false
        tickUs := if st = 1 then i.tickUs.set r.slot h.tickUs else i.tickUs }
      let a := (a.commitRegs p r.slot st id gap).ringAttach r.ring c.2 st r.slot
      (a, some {
        slot := r.slot, die := r.die, stream := st, ident := id, ring := r.ring, seq := c.2, head := h
        bytes := r.bytes, primary := (a.ring r.ring).mode == 1, gap := gap })

/-- Discard every record in progress and every record not yet committed on a die port whose link has stopped: the Uligo
abandoned it there (R159, R178). -/
def Agg.ingestLinkLost (a : Agg) (p : Nat) : Agg :=
  [1, 2, 3, 4].foldl (fun a st => (a.rxDrop p st true)) a

/-! ### Ring modes, promotion and release (R193 to R195) -/

/-- The rings that serve a die, from its stream-table entries and the image. -/
def Agg.ringsOfDie (a : Agg) (die : Nat) : List Nat :=
  let own := a.ing.table.filterMap fun e => match e.2 with
    | some t => if t.fleetDie = die ∧ t.ring ≠ ringCopy then some t.ring else none
    | none => none
  (own ++ (a.img.static.filter (fun e => e.fleetDie = die)).map (·.ring)).eraseDups

/-- PORT of `ING_DIE_STATUS` (R199): the port of the stream-table entry of the die's samples, 0x1F without one. -/
def Agg.samplePort (a : Agg) (slot : Nat) : Nat :=
  ((a.dieOfSlot slot).bind fun d => a.ing.table.findSome? fun e => e.2.bind fun t =>
    if t.fleetDie = d ∧ t.cls = a.cfg ING_CLASS_MAP_SAMPLE then some t.port else none).getD 0x1F

/-- ROLE of `ING_DIE_STATUS` (R199): the role held, or 3 while a ring of the die is RELEASING. -/
def Agg.dieRole (a : Agg) (slot : Nat) : Nat :=
  match a.dieOfSlot slot with
  | none => 0
  | some d =>
    if (a.ringsOfDie d).any (fun r => (a.ring r).mode == 3) then 3 else a.role.get slot

/-- Unacknowledged records of a ring that is PRIMARY again are to be mirrored, from the oldest one held (R194). -/
def Agg.mirrorOldest (a : Agg) (r : Nat) : Agg :=
  let owed := (a.ring r).recs.filter fun q => !q.mirror && !q.localOnly && !q.mirrored
  let a := a.onRing r fun g => { g with recs := g.recs.map fun q =>
    if !q.mirror && !q.localOnly && !q.mirrored then { q with mirror := true, acked := false } else q }
  owed.foldl (fun a q =>
    (a.tailAppend { addr := a.ringAddr r q.off, ring := r, seq := q.seq, len := 40 + q.len }).mirOne r q.seq
      (a.ringRead r q.off (40 + q.len))) a

/-- The ring of a die's records of a class: that of its stream-table entry, else of the image's. -/
def Agg.ringOfDie (a : Agg) (die cls : Nat) : Option Nat :=
  match a.ing.table.findSome? (fun e => match e.2 with
    | some t => if t.fleetDie = die ∧ t.cls = cls ∧ t.ring ≠ ringCopy then some t.ring else none
    | none => none) with
  | some r => some r
  | none => (a.stImage die cls).map (·.ring)

/-- The mirror partner of the twin, from which a successor fetches (R285, R378, log entry 23). -/
def Agg.twinPartner (a : Agg) : Nat := Config.mirrorPartner (if a.id % 2 = 0 then a.id + 1 else a.id - 1)

/-- At promotion the drift state of the die is fetched: the copies of the ticks that its sample ring holds (R285). -/
def Agg.driftAsk (a : Agg) (slot die : Nat) : Agg :=
  if a.consumerOn 1 slot then
    let a := ((a.onSlot slot fun d => { d with jobs := [], rounds := [], run := none }).put (DET_DIE_STATUS_STATE slot) 1).detShow
    let recs := (a.ringOfDie die (a.cfg ING_CLASS_MAP_SAMPLE)).elim [] fun r => (a.ring r).recs
    match recs.head?, recs.getLast? with
    | some f, some l => a.fetchAsk (.drift slot) a.twinPartner die (a.cfg DET_CFG_STATE_CLASS) f.ident l.ident
    | _, _ => a
  else a

/-- At promotion the silent-error records of the die are fetched (R378). -/
def Agg.errorsAsk (a : Agg) (slot die : Nat) : Agg :=
  if a.cfgOn SE_CFG_EN then
    let a := (a.onSE slot fun d => { d with
      good := [], epochs := [], counts := [], past := [], lastCapture := none, cmdIndex := [], credit := 0, refused := [] }).put
        (SE_DIE_STATUS_STATE slot) 1
    (a.seShow slot).fetchAsk (.errors slot) a.twinPartner die (a.cfg SE_CFG_SE_CLASS) 0 (2 ^ 64 - 1)
  else a

/-- Promote the rings of a die (R194): every consumer attaches at the oldest record of the ring that it reads. -/
def Agg.promote (a : Agg) (slot : Nat) : Agg :=
  match a.dieOfSlot slot with
  | none => a
  | some d =>
    let sample := a.ringOfDie d (a.cfg ING_CLASS_MAP_SAMPLE)
    let tile := a.ringOfDie d (a.cfg ING_CLASS_MAP_TILE)
    let a := (a.ringsOfDie d).foldl (fun a r =>
      let a := a.onRing r fun g =>
        let first := (g.recs.head?).elim g.writeSeq (·.seq)
        let join (k : Nat) (on : Bool) (c : Tab (Option Nat)) : Tab (Option Nat) := if on then c.set k (some first) else c
        { g with
          mode := 1
          cursors := join 1 (a.consumerOn 3 slot && tile == some r) (join 0 (a.consumerOn 1 slot && sample == some r)
            g.cursors) }
      a.mirrorOldest r) a
    ((a.event ING_EVENT_PROMOTED).driftAsk slot d).errorsAsk slot d

/-- Runs and the Hurdle of a die whose rings leave PRIMARY: no new run starts, and an open Hurdle request ends ABANDON,
OUTCOME 3 (R269, R300). -/
def Agg.driftLeave (a : Agg) (slot : Nat) : Agg :=
  let h := (a.det.die.get slot).hurdle
  let a := match h with
    | some h => a.jrnEnd h.op 0x12 3
    | none => a
  let a : Agg := { a with det := { a.det with
    deliv := a.det.deliv.filter fun x => some x.op ≠ h.map (·.op)
    hurdleWait := a.det.hurdleWait.filter fun e => e.1 ≠ slot
    die := a.det.die.upd slot fun d => { d with jobs := [], rounds := [], hurdle := none } } }
  ((a.put (DET_DIE_STATUS_STATE slot) 0).put (DET_DIE_STATUS_HURDLE slot) 0).detShow

/-- The queued and running checks of a die whose rings leave PRIMARY are dropped and their tags freed (R358). -/
def Agg.checksLeave (a : Agg) (slot : Nat) : Agg :=
  let tags := (a.vrf.checks.filter fun c => c.slot = slot).map (·.tag)
  let mine (j : VJob) : Bool := match j.work with
    | .tile t => tags.contains t
    | _ => false
  let a : Agg := { a with
    vrf := { a.vrf with
      checks := a.vrf.checks.filter fun c => c.slot ≠ slot
      jobs := a.vrf.jobs.filter fun j => !mine j
      arr := (a.vrf.arr.map fun e => (e.1, { e.2 with
        job := e.2.job.filter fun p => !mine p.job, drain := e.2.drain.filter fun p => !mine p.job })).filter fun e =>
          decide (e.2 ≠ {}) }
    se := { a.se with die := a.se.die.upd slot fun d => { d with
      wait := [], cases := [], epochs := [], rpl := none, ftWait := [], lift := none } } }
  (((a.put (SE_DIE_STATUS_STATE slot) 0).put (SE_DIE_STATUS_RPL_STATE slot) 0).seShow slot).vrfShow

/-- The places of the samples whose TICK runs are still to come or run, in every die. -/
def Agg.driftOwed (a : Agg) : List (Nat × Nat) :=
  a.det.die.flatMap fun e =>
    let ticks := e.2.jobs.map Prod.fst ++ ((e.2.run.filter fun r => r.round.isNone).map (·.tick)).toList
    (e.2.hist.filter fun t => ticks.contains t.tick).map fun t => (t.ring, t.seq)

/-- The places of the tiles that wait for a tag, in every die. -/
def Agg.tilesOwed (a : Agg) : List (Nat × Nat) :=
  a.se.die.flatMap fun e => (e.2.wait.filter fun w => w.bytes = []).map fun w => (w.ring, w.seq)

/-- The rings of a die enter RELEASING, and their open segments close (R195, R226). Consumers whose work ends with the
role reach the head at once (log entry 42). -/
def Agg.releaseRings (a : Agg) (slot : Nat) : Agg :=
  match a.dieOfSlot slot with
  | none => a
  | some d =>
    let was := (a.ringsOfDie d).any fun r => (a.ring r).mode == 1
    let a := (a.ringsOfDie d).foldl (fun a r =>
      if (a.ring r).mode = 1 then (a.onRing r fun g => { g with mode := 3 }).segClose r else a) a
    let a := if was then (a.driftLeave slot).checksLeave slot else a
    (a.ringsOfDie d).foldl (fun a r => ((a.ringConsume r 0 a.driftOwed).ringConsume r 1 a.tilesOwed).onRing r Ring.released) a

/-- RING_RELEASED (R193): the last consumer of a RELEASING ring has reached the head. -/
def execRingReleased (ring : Nat) (s : State) : Host.Outcome State Fault Refusal :=
  .next (s.onAgg fun a => a.onRing ring Ring.released)

/-! ### Sweeping (R183) -/

/-- SWEEP_VISIT (R183): the sweep visits its next location, at its share of the period. A sweep starts at a whole multiple
of SWEEP_MS since the epoch: the first at the next one, the others where the last one ends. -/
def execSweepVisit (s : State) : Host.Outcome State Fault Refusal :=
  .next (s.onAgg fun a =>
    if a.cfg ING_CFG_SWEEP_MS = 0 then a
    else
      let l := a.ing.sweepLoc
      let per := a.cfg ING_CFG_SWEEP_MS * 1000000
      let start := a.ing.sweepFrom.getD ((a.p.nowNs + per - 1) / per * per)
      let a : Agg := { a with p := a.p.until (start + l * per / stSize) }
      let a := match a.stAt l with
        | none => a
        | some e =>
          if e.hit then a.stPut l (some { e with hit := false, aged := false })
          else if !e.aged then a.stPut l (some { e with aged := true })
          else if e.static then a
          else a.stPut l none
      let a := a.onIng fun i => { i with
        sweepLoc := if l + 1 < stSize then l + 1 else 0
        sweepFrom := some (if l + 1 < stSize then start else start + per) }
      if l + 1 < stSize then a else a.put ING_STATUS_SWEEPS ((a.reg ING_STATUS_SWEEPS + 1) % 2 ^ 32))

/-! ### The commands of `ING_ST_CMD` (R180, R182, R199) -/

/-- Show an entry in the data registers. -/
def Agg.stShow (a : Agg) (e : StEntry) : Agg :=
  let b (c : Bool) : Nat := if c then 1 else 0
  let a := ((a.put ING_ST_DATA0_UID e.uid).put ING_ST_DATA1_CLASS e.cls).put ING_ST_DATA1_VALID 1
  let a := ((a.put ING_ST_DATA1_STATIC (b e.static)).put ING_ST_DATA1_HIT (b e.hit)).put ING_ST_DATA1_AGED (b e.aged)
  let a := ((a.put ING_ST_DATA1_PORT e.port).put ING_ST_DATA1_FLEET_DIE e.fleetDie).put ING_ST_DATA1_PADDOCK e.paddock
  (a.put ING_ST_DATA1_LOCAL_ONLY (b (a.isLocalOnly e.cls))).put ING_ST_DATA1_RING e.ring

/-- The data registers show no entry in use: VALID, STATIC, HIT and AGED are clear, and the other fields keep what they hold
(log entry 168). -/
def Agg.stShowNone (a : Agg) : Agg :=
  (((a.put ING_ST_DATA1_VALID 0).put ING_ST_DATA1_STATIC 0).put ING_ST_DATA1_HIT 0).put ING_ST_DATA1_AGED 0

/-- The result of a table command. -/
def Agg.stResult (a : Agg) (found refused : Bool) (loc : Nat) : Agg :=
  (((a.put ING_ST_RESULT_DONE 1).put ING_ST_RESULT_FOUND (if found then 1 else 0)).put ING_ST_RESULT_REFUSED
    (if refused then 1 else 0)).put ING_ST_RESULT_LOC loc

/-- READ_LOC. -/
def Agg.stReadLoc (a : Agg) (loc : Nat) : Agg :=
  match a.stAt loc with
  | some e => (a.stShow e).stResult true false loc
  | none => a.stShowNone.stResult false false loc

/-- LOOKUP by the key in the data registers. -/
def Agg.stLookupCmd (a : Agg) : Agg :=
  match a.stFind (a.reg ING_ST_DATA0_UID) (a.reg ING_ST_DATA1_CLASS) with
  | some (loc, e) => (a.stShow e).stResult true false loc
  | none => a.stShowNone.stResult false false 0

/-- The static entry that the data registers describe. -/
def Agg.stFromRegs (a : Agg) : StEntry := {
  uid := a.reg ING_ST_DATA0_UID, cls := a.reg ING_ST_DATA1_CLASS, static := true, port := a.reg ING_ST_DATA1_PORT
  fleetDie := a.reg ING_ST_DATA1_FLEET_DIE, paddock := a.reg ING_ST_DATA1_PADDOCK, ring := a.reg ING_ST_DATA1_RING }

/-- The ring of a static entry begins to serve its stream, where it is one of samples or field-test records (R193). -/
def Agg.stServe (a : Agg) (e : StEntry) : Agg :=
  match a.slotOfDie e.fleetDie with
  | some s => if a.keptOnStandby e.cls then a.ringServe e.ring s else a
  | none => a

/-- INSERT_STATIC (R182): refused for port codes 28 to 30, a ring not enabled, or want of a place; an entry of the key
becomes static in place. -/
def Agg.stInsert (a : Agg) : Agg :=
  let e := a.stFromRegs
  if (28 ≤ e.port ∧ e.port ≤ 30) ∨ ¬ a.ringOn e.ring then a.stResult false true 0
  else match a.stFind e.uid e.cls with
    | some (loc, o) => ((a.stPut loc (some { e with hit := o.hit, aged := o.aged })).stResult true false loc).stServe e
    | none => match a.stFree e.uid e.cls with
      | some loc => ((a.stPut loc (some e)).stResult false false loc).stServe e
      | none => a.stResult false true 0

/-- DELETE by key. -/
def Agg.stDelete (a : Agg) : Agg :=
  match a.stFind (a.reg ING_ST_DATA0_UID) (a.reg ING_ST_DATA1_CLASS) with
  | some (loc, _) => (a.stPut loc none).stResult true false loc
  | none => a.stResult false false 0

/-- READ_LOC (R199). -/
def execReadLoc (loc : Nat) (s : State) : Host.Outcome State Fault Refusal := .next (s.onWrite fun a => a.stReadLoc loc)

/-- LOOKUP (R199). -/
def execLookup (s : State) : Host.Outcome State Fault Refusal := .next (s.onWrite Agg.stLookupCmd)

/-- INSERT_STATIC (R182). -/
def execInsertStatic (s : State) : Host.Outcome State Fault Refusal := .next (s.onWrite Agg.stInsert)

/-- DELETE (R199). -/
def execDelete (s : State) : Host.Outcome State Fault Refusal := .next (s.onWrite Agg.stDelete)

end Sys2Proof.Machine
end

