-- ==== Sys2Proof/Machine/Mirror.lean ====
section
/-! DEFINITION. Mirroring (R214 to R225), the journal's opening and queries (R235 to R238), and Shed errors and repair
(R205 to R207). -/

namespace Sys2Proof.Machine

/-! ### The sender (R216, R217, R220) -/

/-- Records of a ring that mirroring still owes. -/
def Ring.owed (g : Ring) : List RingRec := g.recs.filter fun q => q.mirror && !q.acked

/-- The parts that a ring owes, in RING_SEQ and OFFSET order, each with its paddock (R220). -/
def Agg.mirOwed (a : Agg) (r : Nat) : List (Nat × MirrorPart) :=
  (a.ring r).owed.flatMap fun q =>
    (mirParts a.id r q.seq (a.ringRead r q.off (40 + q.len)) false).map fun m => (a.diePaddock q.die, m)

/-- What a ring owes has been sent now. -/
def Agg.mirSentAll (a : Agg) (r : Nat) : Agg :=
  a.onRing r fun g => { g with recs := g.recs.map fun q => if q.mirror && !q.acked then { q with sentNs := a.p.nowNs } else q }

/-- A waiting frame is a DATA part of the aggregator's own ring `r`. -/
def EgressFrame.isPart (r : Nat) : EgressFrame → Bool
  | .rycon o => o.rclass == 1 && leAt o.payload 0 1 == 0x32 && !bitAt (leAt o.payload 2 2) 2 && leAt o.payload 16 2 == r
  | _ => false

/-- The parts of a ring that still wait for space in an egress queue are not kept beside the ones sent again. -/
def Agg.mirUnwait (a : Agg) (r : Nat) : Agg := a.onFab fun f => { f with wait := f.wait.filter fun x => !x.isPart r }

/-- Everything that a ring owes, sent or sent again (R220). -/
def Agg.mirSendRing (a : Agg) (r : Nat) : Agg := ((a.mirUnwait r).mirSendParts a.partner (a.mirOwed r)).mirSentAll r

/-- One part of each queue in turn; the first argument bounds the turns. -/
def roundRobin {α : Type} : Nat → List (List α) → List α
  | 0, _ => []
  | n + 1, ls => ls.filterMap List.head? ++ roundRobin n (ls.map List.tail)

/-- The whole tail again: journal records first, then the other rings round-robin, a part at a time (R220). -/
def Agg.mirSendAll (a : Agg) : Agg :=
  let a := a.mirSendRing ringJournal
  let rs := (a.shed.ring.map Prod.fst).filter (· ≠ ringJournal)
  let qs := rs.map a.mirOwed
  let a := rs.foldl Agg.mirUnwait a
  rs.foldl Agg.mirSentAll (a.mirSendParts a.partner (roundRobin ((qs.map List.length).foldl max 0) qs))

/-- The parts of one record that mirroring owes, each with its paddock. -/
def Agg.mirOwedOne (a : Agg) (r seq : Nat) : List (Nat × MirrorPart) := (a.mirOwed r).filter fun m => m.2.ringSeq = seq % 2 ^ 32

/-- The last gasp sends the tail: journal first, then in commit order (R454). -/
def Agg.mirSendTail (a : Agg) : Agg :=
  let a := a.mirSendRing ringJournal
  let rest := a.shed.tail.filter fun t => t.ring ≠ ringJournal && !t.acked
  let parts := rest.flatMap fun t => a.mirOwedOne t.ring t.seq
  let rs := (rest.map (·.ring)).eraseDups
  let a := rs.foldl Agg.mirUnwait a
  rs.foldl Agg.mirSentAll (a.mirSendParts a.partner parts)

/-- Refuse a mirror message for a reserved encoding (R15, log entry 146). -/
def Agg.mirReserved (a : Agg) : Agg := a.event SHED_MIR_EVENT_VIOL

/-- The session is refused (R216, R217). -/
def Agg.mirRefuse (a : Agg) : Agg := (a.put SHED_MIR_STATUS_STATE 4).event SHED_MIR_EVENT_REFUSED

/-- Operations under way stop: an operation that began before the fence is never completed here (R238). -/
def Agg.opsFenced (a : Agg) : Agg :=
  let own (x : NqItem) : Bool := match x with
    | .own _ => true
    | .received _ _ => false
  ({ a with
    shed := { a.shed with fenceOp := a.reg SHED_JRN_NEXT_OP }
    det := { a.det with deliv := [], wait := a.det.wait.filter fun x => !own x } } : Agg).detShow

/-- The session becomes FENCED (R217, R237). -/
def Agg.mirFenced (a : Agg) : Agg :=
  if a.mirState = 5 then a else ((a.put SHED_MIR_STATUS_STATE 5).event SHED_MIR_EVENT_FENCED).opsFenced

/-- The JQUERY for the opening of the journal (R235). -/
def Agg.openAsk (a : Agg) : Agg :=
  let q : JQuery := { qid := a.shed.nextQid, mode := 0, sentNs := a.p.nowNs }
  let m : JQueryMsg := { src := a.id, qid := q.qid, mode := 0, subject := a.id, firstOp := 0, count := 1 }
  (a.onShed fun s => { s with openQuery := some q, nextQid := (s.nextQid + 1) % 2 ^ 32 }).mirSend a.partner (.jquery m)

/-- The journal may open: time LOCKED, the session ACTIVE, and it is not open (R235). -/
def Agg.openDue (a : Agg) : Bool :=
  a.p.servo.state == 2 && a.mirState == 2 && !a.bit SHED_JRN_STATUS_OPEN

/-- MIRROR_HELLO_SEND (R217): in CONNECTING a HELLO with the next session number; a FENCED sender leaves that state
only with RESET. -/
def execMirrorHelloSend (s : State) : Host.Outcome State Fault Refusal :=
  .next (s.onAgg fun a =>
    if ¬ a.safe ∧ (a.mirState = 1 ∨ (a.mirState = 5 ∧ a.shed.resetHello ∧ a.cfgOn SHED_MIR_CFG_EN)) then
      if a.cfg SHED_MIR_CFG_OWN_TAG = a.cfg SHED_MIR_CFG_PARTNER_TAG then a.mirRefuse
      else
        let a := (a.put SHED_MIR_STATUS_STATE 1).onShed fun s => { s with msess := (s.msess + 1) % 2 ^ 32 }
        a.mirSend a.partner (.hello (a.cfg SHED_MIR_CFG_OWN_TAG) a.shed.resetHello)
    else a)

/-- MIRROR_HELLO_ACK (R216, R217). -/
def execMirrorHelloAck (src tag status : Nat) (h : MirHead) (s : State) : Host.Outcome State Fault Refusal :=
  .next (s.onAgg fun a =>
    if ¬ h.taken ∨ 3 < status then a.mirReserved
    else if src ≠ a.partner then a
    else if status = 3 then (if 1 ≤ a.mirState ∧ a.mirState ≤ 3 then a.mirFenced else a)
    else if a.mirState ≠ 1 then a
    else if status = 1 ∨ status = 2 ∨ tag = a.cfg SHED_MIR_CFG_OWN_TAG then a.mirRefuse
    else if status = 0 then
      let a := (a.put SHED_MIR_STATUS_STATE 2).onShed fun s => { s with resetHello := false, progressNs := a.p.nowNs }
      let a := a.mirSendAll
      if a.openDue ∧ a.shed.covered = none ∧ a.shed.openQuery = none then a.openAsk else a
    else a)

/-- An acknowledgement by the partner: every record below ACK_SEQ is acknowledged (R220, R224). -/
def Agg.mirAckTake (a : Agg) (ring ackSeq : Nat) : Agg :=
  if a.mirState = 2 ∨ a.mirState = 3 then
    let g := a.ring ring
    let upto := min (extendNear 32 ackSeq g.writeSeq) g.writeSeq
    let progress := g.recs.any fun q => q.seq < upto && q.mirror && !q.acked
    let a := a.onRing ring fun g => { g with recs := g.recs.map fun q =>
      if q.seq < upto ∧ q.mirror then { q with acked := true, mirrored := true } else q }
    let a := ((a.tailAck ring upto).onShed fun s => { s with
      progressNs := if progress then a.p.nowNs else s.progressNs }).tailAdvance.ringDrain ring
    if progress ∧ a.mirState = 3 then a.put SHED_MIR_STATUS_STATE 2 else a
  else a

/-- MIRROR_RESEND (R220): RTO_US has passed since the oldest unacknowledged part of the ring was sent; it is sent again
with the ring's later parts. -/
def execMirrorResend (ring : Nat) (s : State) : Host.Outcome State Fault Refusal :=
  .next (s.onAgg fun a =>
    match (a.ring ring).owed with
    | [] => a
    | q :: _ =>
      if a.mirState = 2 ∨ a.mirState = 3 then
        let a : Agg := { a with p := a.p.until (q.sentNs + a.cfg SHED_MIR_TIMING_RTO_US * 1000) }
        a.mirSendRing ring
      else a)

/-- MIRROR_STALL (R217). -/
def execMirrorStall (s : State) : Host.Outcome State Fault Refusal :=
  .next (s.onAgg fun a =>
    if a.mirState = 2 ∧ a.tailBytes ≠ 0 then
      let a : Agg := { a with p := a.p.until (a.shed.progressNs + 1000000) }
      (a.put SHED_MIR_STATUS_STATE 3).onShed fun s => { s with stalledNs := a.p.nowNs }
    else a)

/-- STALLED (R217): more than 1 s in STALLED. -/
def execStalled (s : State) : Host.Outcome State Fault Refusal :=
  .next (s.onAgg fun a =>
    if a.mirState = 3 then
      ({ a with p := a.p.until (a.shed.stalledNs + 1000000001) }).event SHED_MIR_EVENT_STALLED
    else a)

/-- The unmarked class with the highest rank, the lowest class of equal ones (R223, log entry 22). -/
def Agg.loNext (a : Agg) : Option Nat :=
  let cs := (List.range 256).filter fun c => a.loRank c != 0 && !a.isLocalOnly c
  let top := cs.foldl (fun m c => max m (a.loRank c)) 0
  cs.find? fun c => a.loRank c = top

/-- MIRROR_RATE_WINDOW (R223): a window of 100 µs ends. -/
def execMirrorRateWindow (s : State) : Host.Outcome State Fault Refusal :=
  .next (s.onAgg fun a =>
    let a : Agg := { a with p := a.p.until (a.shed.winNs + 100000) }
    let limit := a.cfg SHED_MIR_CFG_LIMIT_GBPS * 100000
    let bytes := a.shed.winBytes
    let quiet := decide (a.shed.winWould * 100 < limit * 80)
    let a := a.put SHED_MIR_STATUS_RATE_GBPS (min (bytes / 100000) 4095)
    let a := a.onShed fun s => { s with
      winBytes := 0, winWould := 0, winNs := a.p.nowNs / 100000 * 100000, calm := if quiet then s.calm + 1 else 0 }
    if limit < bytes then
      match a.loNext with
      | some c => (a.loMark c true).event SHED_MIR_EVENT_LOCAL_ONLY
      | none => a.event SHED_MIR_EVENT_MIRROR_OVER
    else if 100 ≤ a.shed.calm then
      match a.shed.marked with
      | c :: _ => (a.loMark c false).onShed fun s => { s with calm := 0 }
      | [] => a
    else a)

/-! ### The receiver (R216, R221, R222) -/

/-- The aggregator is a configured mirror source. -/
def Agg.isSource (a : Agg) (src : Nat) : Bool :=
  (a.cfgOn SHED_MIR_SRC_SRC0_EN && a.cfg SHED_MIR_SRC_SRC0 == src) ||
    (a.cfgOn SHED_MIR_SRC_SRC1_EN && a.cfg SHED_MIR_SRC_SRC1 == src)

/-- Which of the two journal copies a source uses (R209). -/
def Agg.srcIndex (a : Agg) (src : Nat) : Nat :=
  if a.cfgOn SHED_MIR_SRC_SRC0_EN && a.cfg SHED_MIR_SRC_SRC0 == src then 0 else 1

/-- The aggregator with a mirror source changed. -/
def Agg.onSrc (a : Agg) (src : Nat) (f : MirrorSrc → MirrorSrc) : Agg :=
  a.onShed fun s => { s with src := s.src.upd src f }

/-- MIRROR_HELLO (R216, R237). -/
def execMirrorHello (src tag port msess : Nat) (reset : Bool) (h : MirHead) (s : State) :
    Host.Outcome State Fault Refusal :=
  .next (s.onAgg fun a =>
    let own := a.cfg SHED_MIR_CFG_OWN_TAG
    if ¬ h.taken then a.mirReserved
    else if ¬ a.isSource src then (a.mirSend src (.helloAck own 2)).event SHED_MIR_EVENT_REFUSED
    else if tag = own then (a.mirSend src (.helloAck own 1)).event SHED_MIR_EVENT_REFUSED
    else if (a.shed.src.get src).fenced ∧ ¬ reset then a.mirSend src (.helloAck own 3)
    else
      let a := a.onSrc src fun m => { m with
        accepted := true, fenced := false, msess := msess, port := port
        next := if reset then [] else m.next, asm := if reset then [] else m.asm }
      a.mirSend src (.helloAck own 0))

/-- A record of a descriptor: class, die, identity and the record after it. -/
structure CopyDesc where
  cls : Nat
  die : Option Nat
  ident : Nat
  type : Nat
  data : List Byte

/-- Read the descriptor before a record (R175). -/
def readDesc (l : List Byte) : CopyDesc := {
  cls := leAt l 2 1, die := if leAt l 4 4 / 2 ^ 31 = 1 then none else some (leAt l 4 4 % 2 ^ 17)
  ident := leAt l 8 8, type := leAt l 40 1, data := l.drop 40 }

/-- The tray that the image binds a fleet die to: the own one for its dies, else the one whose sixteen dies have its number
(log entry 147). -/
def Agg.trayOfDie (a : Agg) (die : Nat) : Nat :=
  if a.img.dies.any fun d => d.fleetDie = some die then a.id / 2 else die / 16

/-- The tray's two aggregators include a configured source (R222). -/
def Agg.sourceTray (a : Agg) (tray : Nat) : Bool := a.isSource (2 * tray) || a.isSource (2 * tray + 1)

/-- The die UID that the image binds to a fleet die of a source's tray, among the tray's dies and the static entries
(R222). -/
def Agg.uidOfDie (a : Agg) (die : Nat) : Option Nat :=
  if a.sourceTray (a.trayOfDie die) then
    match a.img.dies.find? (fun d => d.fleetDie = some die) with
    | some d => some d.uid
    | none => (a.img.static.find? fun e => e.fleetDie = die).map (·.uid)
  else none

/-- Install the stream-table entry of a copied die and class, or count a hit on it (R222, R179). -/
def Agg.copyEntry (a : Agg) (uid cls die src port : Nat) : Agg :=
  match a.stFind uid cls with
  | some (loc, e) => a.stPut loc (some { e with hit := true, aged := false })
  | none => match a.stFree uid cls with
    | some loc => a.stPut loc (some {
        uid := uid, cls := cls, hit := true, port := 16 + port, fleetDie := die, ring := ringCopy, copySrc := some src })
    | none => a

/-- The key under which a copy is ordered: die or source, class and type (R221). -/
def copyKey (src : Nat) (d : CopyDesc) : Nat × Nat × Nat × Nat :=
  match d.die with
  | some n => (0, n, d.cls, d.type)
  | none => (1, src, d.cls, d.type)

/-- The last held identity of a key. -/
def Agg.copyLastOf (a : Agg) (k : Nat × Nat × Nat × Nat) : Option Nat :=
  (a.shed.copyLast.find? fun e => e.1 = k).map Prod.snd

/-- Hold a copy in the copy log, over the oldest ones where it does not fit (R222); the log is ring 65,535, whose WRITE_SEQ
counts the copies committed (R211, R240). -/
def Agg.copyHold (a : Agg) (src seq : Nat) (d : CopyDesc) (l : List Byte) : Agg :=
  let size := (a.ringPlace ringCopy).2
  let off := a.shed.copyOff
  let c : CopyRec := {
    src := src, die := d.die, cls := d.cls, type := d.type, ident := d.ident, ring := ringCopy, seq := seq, off := off
    len := l.length }
  let left := a.shed.copies.filter fun q => off + l.length ≤ q.off + size
  let cut := left.length != a.shed.copies.length
  let k := copyKey src d
  let a := ((a.ringWrite ringCopy off l).onRing ringCopy fun g => { g with writeSeq := g.writeSeq + 1 }).onShed fun s => { s with
    copies := left ++ [c], copyOff := off + l.length
    copyLast := (k, d.ident) :: s.copyLast.filter fun e => e.1 ≠ k }
  if cut then a.event SHED_MIR_EVENT_COPY_OVERWRITE else a

/-- Commit or drop one completed record of a source that is not a journal record (R221, R222). -/
def Agg.copyCommit (a : Agg) (src seq : Nat) (l : List Byte) : Agg :=
  let d := readDesc l
  let old := match a.copyLastOf (copyKey src d) with
    | some i => decide (d.ident ≤ i)
    | none => false
  match d.die with
  | some n => match a.uidOfDie n with
    | none => a.event SHED_MIR_EVENT_VIOL
    | some uid =>
      let a := a.copyEntry uid d.cls n src (a.shed.src.get src).port
      if old then a.count ING_ERR_COUNT_DUP else a.copyHold src seq d l
  | none => if old then a.count ING_ERR_COUNT_DUP else a.copyHold src seq d l

/-- A journal record read back (R233). -/
def readJrn (l : List Byte) (seq : Nat) : JrnRec := {
  type := leAt l 0 1, kind := leAt l 2 1, replayed := leAt l 3 1 % 2 == 1, origAgg := leAt l 4 2 % 2 ^ 14
  op := leAt l 8 8, origOp := leAt l 16 8, stampNs := leAt l 24 8
  die := if leAt l 32 4 / 2 ^ 31 = 1 then none else some (leAt l 32 4 % 2 ^ 17)
  outcome := leAt l 36 4, arg := leAt l 40 16, seq := seq }

/-- Records that a journal copy holds (R236). -/
def jrnCopyMax : Nat := 4194304

/-- A journal record joins its source's copy, a circular log of 256 MiB in the second half of the region (R209,
R236). -/
def Agg.jrnCopy (a : Agg) (src seq : Nat) (l : List Byte) : Agg :=
  let d := l.drop 40
  let base := match a.region 5 with
    | some (b, s) => b + s / 2 + a.srcIndex src * 256 * 2 ^ 20
    | none => 0
  (a.shedWrite (base + seq % jrnCopyMax * 64) d).onSrc src fun m =>
    let j := m.journal ++ [readJrn d seq]
    { m with journal := j.drop (j.length - jrnCopyMax) }

/-- The bytes of an assembly once its parts cover it from 0. -/
def Assembly.whole (s : Assembly) : Option (List Byte) :=
  let grow (l : List Byte) : List Byte :=
    match s.parts.find? (fun p => decide (p.1 ≤ l.length) && decide (l.length < p.1 + p.2.length)) with
    | some p => l ++ p.2.drop (l.length - p.1)
    | none => l
  let l := (List.range (s.parts.length)).foldl (fun l _ => grow l) []
  if l.length = s.total then some l else none

/-- Add a part to the assemblies. -/
def addPart (l : List Assembly) (m : MirrorPart) : List Assembly :=
  match l.find? (fun s => s.ring = m.ring && s.seq = m.ringSeq) with
  | some _ => l.map fun s =>
      if s.ring = m.ring ∧ s.seq = m.ringSeq then { s with parts := s.parts ++ [(m.offset, m.bytes)] } else s
  | none => l ++ [{ ring := m.ring, seq := m.ringSeq, total := m.total, parts := [(m.offset, m.bytes)] }]

/-- The next RING_SEQ of a source ring. -/
def Agg.srcNext (a : Agg) (src ring : Nat) : Option Nat := (a.shed.src.get src).next.get ring

/-- Commit the completed records of a source ring in RING_SEQ order and answer each with ACK (R221). -/
def Agg.copyDrain (a : Agg) (src ring : Nat) : Nat → Agg
  | 0 => a
  | fuel + 1 =>
    match a.srcNext src ring with
    | none => a
    | some n =>
      match ((a.shed.src.get src).asm.find? fun s => s.ring = ring && s.seq = n).bind Assembly.whole with
      | none => a
      | some l =>
        let a := a.onSrc src fun m => { m with
          asm := m.asm.filter fun s => !(s.ring = ring && s.seq = n)
          next := m.next.set ring (some ((n + 1) % 2 ^ 32)) }
        let a := if ring = ringJournal then a.jrnCopy src n l else a.copyCommit src n l
        (a.mirSend src (.ack ring ((n + 1) % 2 ^ 32))).copyDrain src ring fuel

/-- Completed records held ahead of a missing one. -/
def Agg.heldAhead (a : Agg) (src ring : Nat) : Nat :=
  ((a.shed.src.get src).asm.filter fun s => s.ring = ring && s.whole.isSome).length

/-- A part from an accepted source (R221). A completed record whose trailer fails is dropped, and the ACK that follows names
it as the next one. -/
def Agg.mirrorPart (a : Agg) (m : MirrorPart) : Agg :=
  let nx := (a.srcNext m.src m.ring).getD m.ringSeq
  let ahead := (m.ringSeq + 2 ^ 32 - nx % 2 ^ 32) % 2 ^ 32
  let a := a.onSrc m.src fun s => { s with next := s.next.set m.ring (some nx) }
  if 2 ^ 31 ≤ ahead then a.mirSend m.src (.ack m.ring nx)
  else if ahead ≠ 0 ∧ 64 ≤ a.heldAhead m.src m.ring then a
  else
    let a := a.onSrc m.src fun s => { s with asm := addPart s.asm m }
    let bad (x : Assembly) : Bool := x.ring = m.ring && x.seq = m.ringSeq &&
      (x.whole.elim false fun l => !trailerGood (l.drop 40))
    if (a.shed.src.get m.src).asm.any bad then
      (a.onSrc m.src fun s => { s with asm := s.asm.filter fun x => !bad x }).mirSend m.src (.ack m.ring nx)
    else a.copyDrain m.src m.ring 66

/-- DATA marked FETCHED, the answer to a FETCH (R222): whole records are kept, those whose trailer fails are dropped. -/
def Agg.fetchedPart (a : Agg) (m : MirrorPart) : Agg :=
  let asm := addPart a.shed.fetchAsm m
  let done := asm.filterMap Assembly.whole
  a.onShed fun s => { s with
    fetchAsm := asm.filter fun x => x.whole.isNone
    fetched := s.fetched ++ done.filter fun l => trailerGood (l.drop 40) }

/-- MIRROR_DATA (R221, R237). -/
def execMirrorData (m : MirrorPart) (s : State) : Host.Outcome State Fault Refusal :=
  .next (s.onAgg fun a =>
    if ¬ m.head.taken then a.mirReserved
    else if m.fetched then a.fetchedPart m
    else if (a.shed.src.get m.src).fenced then a.mirSend m.src (.helloAck (a.cfg SHED_MIR_CFG_OWN_TAG) 3)
    else if (a.shed.src.get m.src).accepted then a.mirrorPart m
    else a)

/-- The copies of the stream that a FETCH names: of the die in FLEET_DIE[16:0], or, with NO_DIE, of the asking source (R219, R222,
log entry 142). -/
def Agg.fetchHeld (a : Agg) (f : FetchMsg) : List CopyRec :=
  a.shed.copies.filter fun c => c.cls = f.cls &&
    (if bitAt f.fleetDie 31 then c.die.isNone && c.src == f.src else c.die == some (f.fleetDie % 2 ^ 17))

/-- FETCH (R222): the held copies of a stream in the range, in identity order, then FETCH_END. A copy that the Shed cannot
read is not sent (R205). -/
def execFetch (f : FetchMsg) (s : State) : Host.Outcome State Fault Refusal :=
  .next (s.onAgg fun a =>
    if ¬ f.head.taken then a.mirReserved
    else
      let held := a.fetchHeld f
      let hit := (held.filter fun c => decide (f.firstIdent ≤ c.ident) && decide (c.ident ≤ f.lastIdent) &&
        a.ringRead ringCopy c.off c.len != []).mergeSort fun c d => c.ident ≤ d.ident
      let low := held.foldl (fun m c => min m c.ident) (2 ^ 64 - 1)
      let a := hit.foldl (fun a c =>
        a.mirSendParts f.src
          ((mirParts a.id c.ring c.seq (a.ringRead ringCopy c.off c.len) true).map fun m => (a.diePaddock c.die, m))) a
      a.mirSend f.src (.fetchEnd f.qid hit.length low))

/-! ### Journal queries (R235 to R237) -/

/-- The lowest OP_SEQ whose BEGIN a journal holds, and the highest; 0 with none (R236). -/
def jrnRange (l : List JrnRec) : Nat × Nat :=
  match (l.filter fun j => j.type == 0x10).map (·.op) with
  | [] => (0, 0)
  | o :: t => (t.foldl min o, t.foldl max o)

/-- The code of an operation: 0 NEVER, 1 BEGUN, 2 DONE, 3 ABANDONED (R237). -/
def jrnCode (l : List JrnRec) (op : Nat) : Nat :=
  let has (t : Nat) : Bool := l.any fun j => j.op = op && j.type = t
  if has 0x11 then 2 else if has 0x12 then 3 else if has 0x10 then 1 else 0

/-- The BEGUN operations from an OP_SEQ on, in order. -/
def jrnBegun (l : List JrnRec) (from_ count : Nat) : List Nat :=
  ((((l.filter fun j => j.type == 0x10).map (·.op)).filter fun o => decide (from_ ≤ o) && jrnCode l o = 1).mergeSort
    (· ≤ ·)).take count

/-- The records of the own journal that ring 65,534 still holds, or that wait to join it (R211, R236). -/
def Agg.ownJournal (a : Agg) : List JrnRec :=
  let g := a.ring ringJournal
  a.shed.journal.filter fun j => decide (g.writeSeq ≤ j.seq) || (g.find j.seq).isSome

/-- The journal or copy held of a subject, if any (R237). -/
def Agg.jrnOf (a : Agg) (subject : Nat) : Option (List JrnRec) :=
  if subject = a.id then some a.ownJournal
  else if a.isSource subject then some (a.shed.src.get subject).journal
  else none

/-- The answer to a query (R237). -/
def Agg.jrnAnswer (a : Agg) (qid mode subject first count : Nat) : JAnswerMsg :=
  match a.jrnOf subject with
  | none => { qid := qid, result := 1, heldFrom := 0, coveredTo := 0, codes := [], mode := mode }
  | some l =>
    let (lo, hi) := jrnRange l
    let ans (r : Nat) (c : List Nat) : JAnswerMsg := {
      qid := qid, result := r, heldFrom := lo, coveredTo := hi, codes := c, mode := mode }
    if first < lo then ans 2 []
    else if count = 0 ∨ (if mode = 0 then 1024 else 256) < count then ans 3 []
    else if mode = 0 then ans 0 ((List.range count).map fun i => jrnCode l (first + i))
    else ans 0 (jrnBegun l first count)

/-- Fence a subject (R237): its session closes, and it stays fenced until a HELLO with RESET. -/
def Agg.fence (a : Agg) (subject : Nat) : Agg :=
  if a.isSource subject then
    (a.onSrc subject fun m => { m with accepted := false, fenced := true }).event SHED_MIR_EVENT_FENCE_GIVEN
  else a

/-- JQUERY (R237). -/
def execJquery (q : JQueryMsg) (s : State) : Host.Outcome State Fault Refusal :=
  .next (s.onAgg fun a =>
    if ¬ q.head.taken ∨ 1 < q.mode then a.mirReserved
    else
      let a := if q.fence then a.fence q.subject else a
      a.mirSend q.src (.janswer (a.jrnAnswer q.qid q.mode q.subject q.firstOp q.count)))

/-- Word `k` of an answer's body (R240). -/
def answerWord (mode : Nat) (codes : List Nat) (k : Nat) : Nat :=
  if mode = 0 then (packBits (((codes.drop (32 * k)).take 32).map fun c => (c, 2))).1 else codes.getD k 0

/-- The result registers of a query take an answer (R240). -/
def Agg.jqShow (a : Agg) (mode : Nat) (m : JAnswerMsg) : Agg :=
  let a := ((a.put SHED_JQ_STATUS_DONE 1).put SHED_JQ_STATUS_RESULT m.result).put SHED_JQ_STATUS_N m.codes.length
  let a := (a.put SHED_JQ_COVERED_OP m.coveredTo).put SHED_JQ_HELD_OP m.heldFrom
  (List.range 32).foldl (fun a k => a.put (SHED_JQ_RESULT_DATA k) (answerWord mode m.codes k)) a

/-- The answer that the opening of the journal waited for (R235): NOT_SOURCE counts as COVERED_TO 0; BAD_QUERY carries
COVERED_TO as any other answer does. -/
def Agg.openTake (a : Agg) (m : JAnswerMsg) : Agg :=
  match a.shed.openQuery with
  | some q => if q.qid = m.qid then a.onShed fun s => { s with
      openQuery := none, covered := some (if m.result = 1 then 0 else m.coveredTo) } else a
  | none => a

/-- JQUERY_TIMEOUT (R235): no answer within 1 ms, so the aggregator asks again. -/
def execJqueryTimeout (s : State) : Host.Outcome State Fault Refusal :=
  .next (s.onAgg fun a =>
    let a := match a.shed.openQuery with
      | some q => { a with p := a.p.until (q.sentNs + 1000000) }
      | none => a
    if a.openDue ∧ a.shed.covered = none then a.openAsk else a)

/-- JQ_NO_ANSWER (R240): 1 ms without an answer. -/
def execJqNoAnswer (s : State) : Host.Outcome State Fault Refusal :=
  .next (s.onAgg fun a =>
    match a.shed.query with
    | none => a
    | some q =>
      let a : Agg := { a with p := a.p.until (q.sentNs + 1000000) }
      ((a.put SHED_JQ_STATUS_DONE 1).put SHED_JQ_STATUS_RESULT 4).onShed fun s => { s with query := none })

/-! ### Errors, repair and scrub (R205 to R207) -/

/-- The first error's address is kept (R205, R240). -/
def Agg.eccFirst (a : Agg) (addr : Nat) (unc : Bool) : Agg :=
  if a.bit SHED_ECC_FIRST_VALID then a
  else (((a.put SHED_ECC_FIRST_ADDR addr).put SHED_ECC_FIRST_STACK (a.stackOf addr)).put SHED_ECC_FIRST_UNCORR
    (if unc then 1 else 0)).put SHED_ECC_FIRST_VALID 1

/-- Count an error against its stack in the present fleet-time hour: corrected and uncorrectable so far (R207, R240). -/
def Agg.stackErr (a : Agg) (st : Nat) (unc : Bool) : Agg × Nat × Nat :=
  let hour := a.p.nowSec / 3600
  let e := a.shed.stackErr.get st
  let e := if e.1 = hour then e else (hour, 0, 0)
  let e := if unc then (e.1, e.2.1, e.2.2 + 1) else (e.1, e.2.1 + 1, e.2.2)
  (a.onShed fun s => { s with stackErr := s.stackErr.set st e }, e.2.1, e.2.2)

/-- A stack fails (R207): an uncontained fault; the repair log takes the stack (R433). -/
def Agg.stackFail (a : Agg) (st : Nat) : Agg :=
  let a : Agg := { a with rprQueue := a.rprQueue ++ [{ etype := 1, unit := st }] }
  a.event SHED_EVENT_STACK_FAIL

/-- The records of PRIMARY rings that hold bytes of a granule: two where one ends and the next begins in it (R205, R212). -/
def Agg.recordsAt (a : Agg) (g : Nat) : List (Nat × RingRec) :=
  a.shed.ring.flatMap fun e =>
    let (base, size) := a.ringPlace e.1
    if e.2.mode = 1 ∧ base ≤ g * 64 ∧ g * 64 < base + size then
      let at_ := g * 64 - base
      (e.2.recs.filter fun q => decide ((at_ + size - q.off % size) % size < 40 + q.len) ||
        decide ((q.off % size + size - at_) % size < 64)).map fun q => (e.1, q)
    else []

/-- The copy of a mirrored record is fetched from the partner (R205, R222). -/
def Agg.repairAsk (a : Agg) (r : Nat) (q : RingRec) : Agg :=
  (a.onShed fun s => { s with repair := s.repair ++ [(r, q.seq)] }).fetchAsk (.repair r q.seq) a.partner
    (q.die.getD noDie) q.cls q.ident q.ident

/-- An uncorrectable granule (R205, R207): until they are written again, no read of its bytes gives data. Every mirrored record
of a PRIMARY ring in it is fetched; where the granule holds anything else, it is a contained error too. -/
def Agg.shedUe (a : Agg) (addr : Nat) : Agg :=
  let g := addr / 64
  let a := (a.eccFirst addr true).count SHED_ECC_COUNT_UNCORR
  let a := a.onShed fun s => { s with bad := (g * 64, 64) :: s.bad.flatMap fun e => rangeLess e (g * 64, 64) }
  let st := a.stackOf addr
  let (a, _, n) := a.stackErr st true
  let rs := a.recordsAt g
  let fetch := rs.filter fun e => e.2.mirrored
  let a := if rs = fetch ∧ rs ≠ [] then a.event SHED_EVENT_UE else a.event SHED_EVENT_UE none clsContained
  let a := fetch.foldl (fun a e => a.repairAsk e.1 e.2) a
  if a.cfg SHED_CFG_UE_LIMIT ≤ n then a.stackFail st else a

/-- SHED_UE (R205). -/
def execShedUe (addr : Nat) (s : State) : Host.Outcome State Fault Refusal := .next (s.onAgg fun a => a.shedUe addr)

/-- A fetched copy, descriptor and record, is that of a record of a ring: its class, die, identity, type and length agree and
its trailer CRC-32C is right (R205). -/
def copyOf (q : RingRec) (l : List Byte) : Bool :=
  let d := readDesc l
  d.cls == q.cls && d.die == q.die && d.ident == q.ident && d.type == q.type && l.length == 40 + q.len && trailerGood d.data

/-- The repair of a record ends without a good copy: a contained error (R205). -/
def Agg.repairFail (a : Agg) (r seq : Nat) : Agg :=
  (a.onShed fun s => { s with repair := s.repair.filter (· ≠ (r, seq)) }).event SHED_EVENT_UE none clsContained

/-- The FETCH of a repair has ended (R205): without a good copy the repair fails. -/
def Agg.repairFetched (a : Agg) (r seq : Nat) : Agg :=
  match (a.ring r).find seq with
  | none => a.onShed fun s => { s with repair := s.repair.filter (· ≠ (r, seq)) }
  | some q => if a.shed.fetched.any (copyOf q) then a else a.repairFail r seq

/-- Rewrite a record with its fetched copy, from the descriptor on (R205). -/
def Agg.repairWrite (a : Agg) (r : Nat) (q : RingRec) (l : List Byte) : Agg :=
  let a := (a.ringWrite r q.off l).onShed fun s => { s with
    repair := s.repair.filter (· ≠ (r, q.seq)), fetched := s.fetched.filter (· ≠ l) }
  (a.count SHED_ECC_COUNT_REPAIRED).event SHED_EVENT_REPAIRED

/-- SHED_REPAIRED (R205): the oldest record under repair whose good copy has been fetched is rewritten. -/
def execShedRepaired (s : State) : Host.Outcome State Fault Refusal :=
  .next (s.onAgg fun a =>
    let ready := a.shed.repair.findSome? fun e =>
      ((a.ring e.1).find e.2).bind fun q => (a.shed.fetched.find? (copyOf q)).map fun l => (e.1, q, l)
    match ready with
    | some (r, q, l) => a.repairWrite r q l
    | none => a)

/-- A corrected read, or the report of a correction by a device's own ECC (R200, R204): counted, and logged as a correctable
error of source 0x0400 (log entry 148). -/
def Agg.shedCorrected (a : Agg) (addr : Nat) : Agg :=
  let a := (a.eccFirst addr false).count SHED_ECC_COUNT_CORR
  let (a, n, _) := a.stackErr (a.stackOf addr) false
  if a.cfg SHED_CFG_CE_LIMIT ≤ n then a.event SHED_EVENT_CE_HIGH
  else { a with p := a.p.notify { source := 0x0400, addr := addr } }

/-- A granule is read with that many wrong bytes (R204): up to four are corrected, up to eight are detected, and with more
the outcome is open (log entry 148). -/
def Agg.granuleRead (a : Agg) (addr errors : Nat) : Agg :=
  if a.granuleLost (addr / 64) ∨ (4 < errors ∧ errors ≤ 8) then a.shedUe addr
  else if errors = 0 then a
  else if errors ≤ 4 then a.shedCorrected addr
  else
    let (v, p) := a.p.draw
    let a : Agg := { a with p := p }
    match v % 3 with
    | 0 => a.shedUe addr
    | 1 => a.shedCorrected addr
    | _ => a

/-- SCRUB (R206, R204, R200): the corrections reported since the last one, by the devices or on other reads, are counted, and
the next granule is read; SCRUB_H 0 turns the scrub off. -/
def execScrub (errors : Nat) (reports : List Nat) (s : State) : Host.Outcome State Fault Refusal :=
  .next (s.onAgg fun a =>
    let a := reports.foldl Agg.shedCorrected a
    if a.cfg SHED_CFG_SCRUB_H = 0 then a
    else
      let addr := a.shed.scrubPos
      let next := addr + 64
      let a := a.onShed fun s => { s with scrubPos := if next < a.shedSize then next else 0 }
      let a := if next < a.shedSize then a
        else a.put SHED_STATUS_SCRUB_PASSES ((a.reg SHED_STATUS_SCRUB_PASSES + 1) % 2 ^ 32)
      a.granuleRead addr errors)

/-- HBM_TRAINING_LOSS (R207). -/
def execHbmTrainingLoss (stack : Fin 6) (s : State) : Host.Outcome State Fault Refusal :=
  .next (s.onAgg fun a => a.stackFail stack)

end Sys2Proof.Machine
end

