-- ==== Sys2Proof/Machine/Epoch.lean ====
section
/-! DEFINITION. The trust epoch of the Uligo (03, R130 to R132). -/

namespace Sys2Proof.Machine

/-- The epoch-stamp outputs take the present epoch; `EP_PAR` is the XOR of `EP_EPOCH` (R132). -/
def Ulg.stampOut (u : Ulg) : Ulg :=
  let e := u.epoch
  if e = u.ep.outEpoch then u
  else
    ({ u with ep := { u.ep with outEpoch := e, outValid := e != epochNone, outPar := parityOf 32 e } }).send (.epochStamp e)

/-- The next epoch boundary in ns: the first multiple of the length after the last one acted on, or after now. -/
def Ulg.nextBoundaryNs (u : Ulg) : Nat :=
  let len := u.ep.ms * 1000000
  (match u.ep.lastNs with | some t => t / len + 1 | none => u.p.nowNs / len + 1) * len

/-- EPOCH_BOUNDARY (R130, R132): the next boundary has come; the outputs take the new epoch together. -/
def execEpochBoundary (s : State) : Host.Outcome State Fault Refusal :=
  .next (s.onUlg fun u =>
    if u.p.timed then
      let ns := u.nextBoundaryNs
      ({ u with p := u.p.until ns, ep := { u.ep with lastNs := some ns } }).stampOut
    else u)

/-- EPOCH_ACTIVATION (R131): a waiting change begins to govern once its second has been reached. -/
def execEpochActivation (s : State) : Host.Outcome State Fault Refusal :=
  .next (s.onUlg fun u =>
    match u.ep.wait with
    | some (ms, act) =>
      if act ≤ u.p.nowNs then
        ({ u with ep := { u.ep with ms := ms, wait := none, lastNs := some (max act (u.ep.lastNs.getD act)) } }).stampOut
      else u
    | none => u)

end Sys2Proof.Machine
end

