-- ==== Sys2Proof/Machine/TallyBlock.lean ====
section
/-! DEFINITION. Tally blocks (07, R243 to R249): buckets, merging, the compact count, bytes; and reduction frames as they
stand on the fabric (R254, R261, R262). -/

namespace Sys2Proof

open Machine

/-! ### Blocks (R243 to R249) -/

/-- The boundary table of R244. -/
def bnd : List Nat := [35734, 38968, 42495, 46341, 50536, 55109, 60097]

/-- Where a value counts. -/
inductive BucketPlace where
  | zero | under | over_ | leaf (b : Nat)
  deriving DecidableEq, Repr

/-- The one place in which a value counts (R244). -/
def bucketOf (v oct : Nat) : BucketPlace :=
  if v = 0 then .zero
  else
    let o := Nat.log2 v
    if o < oct then .under
    else if oct + 16 ≤ o then .over_
    else
      let f := if o ≤ 15 then v * 2 ^ (15 - o) else v / 2 ^ (o - 15)
      .leaf (8 * (o - oct) + (bnd.filter (· ≤ f)).length)

/-- The lowest value of a leaf bucket, by the boundaries of R244. -/
def leafLow (b oct : Nat) : Nat :=
  let o := oct + b / 8
  let m := if b % 8 = 0 then 32768 else bnd.getD (b % 8 - 1) 0
  if o ≤ 15 then ceilDiv m (2 ^ (15 - o)) else m * 2 ^ (o - 15)

/-- A leaf count. -/
def Block.leaf (b : Block) (i : Nat) : Nat := b.buckets.getD i 0

/-- The 128 leaf counts after a change; a block without counts lists none. -/
def leafList (f : Nat → Nat) : List Nat :=
  let l := (List.range 128).map f
  if l.all (· == 0) then [] else l

/-- The largest 64-bit value. -/
def max64 : Nat := 2 ^ 64 - 1

/-- Two blocks of one key merged (R249). -/
def Block.merge (x y : Block) : Block :=
  let q := x.sumSq + y.sumSq
  { x with
    exact := x.exact && y.exact, sqSat := x.sqSat || y.sqSat || decide (max64 ≤ q)
    n := x.n + y.n, sum := x.sum + y.sum, sumSq := min q max64
    maxKey := max x.maxKey y.maxKey, minKey := min x.minKey y.minKey
    zeroN := x.zeroN + y.zeroN, underN := x.underN + y.underN, overN := x.overN + y.overN
    buckets := leafList fun i => x.leaf i + y.leaf i }

/-- The block of one observation (R243 to R246). -/
def Block.one (key oct v ident : Nat) : Block :=
  let q := v * v
  let p := bucketOf v oct
  { key := key, oct := oct, n := 1, sum := v, sumSq := min q max64, sqSat := decide (max64 ≤ q)
    maxKey := v * 2 ^ 32 + (2 ^ 32 - 1 - ident), minKey := v * 2 ^ 32 + ident
    zeroN := if p = .zero then 1 else 0, underN := if p = .under then 1 else 0, overN := if p = .over_ then 1 else 0
    buckets := match p with
      | .leaf b => leafList fun i => if i = b then 1 else 0
      | _ => [] }

/-- A block counted again under another OCT, from the values that were posted (R241, R244). -/
def Block.recount (b : Block) (oct : Nat) (values : List Nat) : Block :=
  let c := values.foldl (fun c v => c.merge (Block.one b.key oct v 0)) ({ key := b.key, oct := oct } : Block)
  { b with oct := oct, zeroN := c.zeroN, underN := c.underN, overN := c.overN, buckets := c.buckets }

/-- A count in compact form (R247). -/
def compactEncode (v : Nat) : Nat :=
  if v < 2048 then v
  else
    let e := Nat.log2 v - 10
    let d := 2 ^ (e - 1)
    let q := v / d
    let r := v % d
    let q := if d < 2 * r ∨ (2 * r = d ∧ q % 2 = 1) then q + 1 else q
    if q = 4096 then (e + 1) * 2048 else e * 2048 + (q - 2048)

/-- The value of a compact count (R247). -/
def compactDecode (c : Nat) : Nat :=
  let e := c / 2048
  let m := c % 2048
  if e = 0 then m else (2048 + m) * 2 ^ (e - 1)

/-- A count as a compact frame carries it. -/
def compactRound (v : Nat) : Nat := compactDecode (compactEncode v)

/-- A block as its compact form reads; a changed count clears EXACT (R247, R248). -/
def Block.compacted (b : Block) : Block :=
  let c : Block := { b with
    zeroN := compactRound b.zeroN, underN := compactRound b.underN, overN := compactRound b.overN
    buckets := leafList fun i => compactRound (b.leaf i) }
  { c with exact := b.exact && decide (c.zeroN = b.zeroN ∧ c.underN = b.underN ∧ c.overN = b.overN ∧
    (List.range 128).all (fun i => c.leaf i == b.leaf i)) }

/-- TFLAGS: INCOMPLETE and MISSING are only in a Shed record (R243). -/
def Block.tflags (b : Block) : Nat := flag b.exact 1 + flag b.sqSat 2

/-- The exact form of a block in a Shed record (R243). -/
def Block.bytes (b : Block) : List Byte :=
  leBytes 2 b.key ++ leBytes 2 (b.tflags + flag b.incomplete 4 + flag b.missing 8) ++ leBytes 1 b.oct ++ zeros 3 ++
    leBytes 4 b.n ++ zeros 4 ++ leBytes 8 b.sum ++ leBytes 8 b.sumSq ++ leBytes 8 b.maxKey ++ leBytes 8 b.minKey ++
    leBytes 4 b.zeroN ++ leBytes 4 b.underN ++ leBytes 4 b.overN ++ zeros 4 ++
    ((List.range 128).map fun i => leBytes 4 (b.leaf i)).flatten

/-- A block in a reduction frame, in network order: the exact form, or the compact one with 16-bit counts (R243, R247). -/
def Block.frameBytes (compact : Bool) (b : Block) : List Byte :=
  let count (c : Nat) : List Byte := if compact then beBytes 2 (compactEncode c) else beBytes 4 c
  beBytes 2 b.key ++ beBytes 2 b.tflags ++ beBytes 1 b.oct ++ zeros 3 ++ beBytes 4 b.n ++ zeros 4 ++ beBytes 8 b.sum ++
    beBytes 8 b.sumSq ++ beBytes 8 b.maxKey ++ beBytes 8 b.minKey ++ count b.zeroN ++ count b.underN ++ count b.overN ++
    count 0 ++ ((List.range 128).map fun i => count (b.leaf i)).flatten

/-- The size of a block in a reduction frame (R243). -/
def blockSize (compact : Bool) : Nat := if compact then 312 else 576

/-- A block read from a reduction frame; reserved fields and flags are ignored (R15). -/
def readBlock (compact : Bool) (l : List Byte) : Block :=
  let w := if compact then 2 else 4
  let count (i : Nat) : Nat :=
    let c := beAt l (48 + w * i) w
    if compact then compactDecode c else c
  let fl := beAt l 2 2
  { key := beAt l 0 2, exact := bitAt fl 0, sqSat := bitAt fl 1, oct := beAt l 4 1, n := beAt l 8 4, sum := beAt l 16 8
    sumSq := beAt l 24 8, maxKey := beAt l 32 8, minKey := beAt l 40 8, zeroN := count 0, underN := count 1
    overN := count 2, buckets := leafList fun i => count (4 + i) }

/-- A non-empty block names an identity with bit 31 set (R266). -/
def Block.badIdentity (b : Block) : Bool := b.n != 0 && (!bitAt b.maxKey 31 || bitAt b.minKey 31)

/-! ### Reduction frames (R254) -/

/-- The 56-byte reduction header; the reserved flag [3] stands for any reserved RTYPE, VERSION or flag. -/
def RedFrame.header (rtype : Nat) (f : RedFrame) : List Byte :=
  beBytes 1 rtype ++ beBytes 1 1 ++
    beBytes 2 (flag f.compact 1 + flag f.exactSet 2 + flag f.partialSet 4 + flag f.reserved 8) ++ beBytes 4 f.round ++
    beBytes 1 f.attempt ++ zeros 1 ++ beBytes 2 f.src ++ beBytes 2 f.group ++ beBytes 2 f.nkeys ++ beBytes 4 f.members ++
    beBytes 4 f.dies ++ beBytes 8 f.memberHash ++ beBytes 8 f.closeNs ++ beBytes 8 f.keyset ++ beBytes 4 f.setDigest ++
    beBytes 2 f.actFor ++ zeros 2

/-- A COUNT, COUNT_RESULT, DATA, RESULT or CHUNK frame: header and blocks in key order. -/
def RedFrame.bytes (rtype : Nat) (f : RedFrame) : List Byte :=
  f.header rtype ++ (f.blocks.map (Block.frameBytes f.compact)).flatten

/-- A COVER frame: its body is the cover mask and 6 reserved bytes. -/
def coverBytes (f : RedFrame) (mask : Nat) : List Byte := f.header 0x40 ++ beBytes 2 mask ++ zeros 6

/-- A SKIP frame (R261). -/
def RingNote.skipBytes (n : RingNote) : List Byte := n.head.header 0x46 ++ beBytes 2 n.member ++ zeros 6 ++ beBytes 8 n.sendNs

/-- A JOIN frame (R262). -/
def RingNote.joinBytes (n : RingNote) : List Byte := n.head.header 0x47 ++ beBytes 4 n.fromRound ++ zeros 4

/-- The header of a reduction frame read: RTYPE and the fields. -/
def readHeader (l : List Byte) : Nat × RedFrame :=
  let t := beAt l 0 1
  let fl := beAt l 2 2
  (t, { compact := bitAt fl 0, exactSet := bitAt fl 1, partialSet := bitAt fl 2
        reserved := decide (t < 0x40 ∨ 0x47 < t ∨ beAt l 1 1 ≠ 1 ∨ 8 ≤ fl), round := beAt l 4 4, attempt := beAt l 8 1
        src := beAt l 10 2 % 16384, group := beAt l 12 2, nkeys := beAt l 14 2, members := beAt l 16 4
        dies := beAt l 20 4, memberHash := beAt l 24 8, closeNs := beAt l 32 8, keyset := beAt l 40 8
        setDigest := beAt l 48 4, actFor := beAt l 52 2 })

/-- A reduction frame read as the command that its arrival is (R254, R266): a frame of a reserved RTYPE, or of one that an
aggregator does not receive, breaks R266 as a reserved COUNT_RESULT does. -/
def redCommand (l : List Byte) : Instr :=
  let h := readHeader l
  let f := h.2
  let body := l.drop 56
  let z := blockSize f.compact
  let bs := (List.range (body.length / z)).map fun i => readBlock f.compact ((body.drop (z * i)).take z)
  match h.1 with
  | 0x40 => .cover f (BitVec.ofNat 16 (beAt body 0 2))
  | 0x44 => .result { f with blocks := bs }
  | 0x45 => .chunk { f with blocks := bs }
  | 0x46 => .skip { head := f, member := beAt body 0 2, sendNs := beAt body 8 8 }
  | 0x47 => .join { head := f, fromRound := beAt body 0 4 }
  | 0x42 => .countResult f
  | _ => .countResult { f with reserved := true }

end Sys2Proof
end

