-- ==== Sys2Proof/Machine/Join.lean ====
section
/-! DEFINITION. What the clock and the reduction ring share (07): the round in progress (R24), and JOIN on the fleet notice path
(R262). -/

namespace Sys2Proof.Machine

/-- The aggregator with the tally engine changed. -/
def Agg.onTly (a : Agg) (f : AggTally → AggTally) : Agg := { a with tly := f a.tly }

/-- The round period in ns (R24). -/
def Agg.roundNs (a : Agg) : Nat := a.p.tick.us * a.p.tick.ticks * 1000

/-- The round in progress. -/
def Agg.roundNow (a : Agg) : Nat := roundOf a.p.nowNs a.p.tick.us a.p.tick.ticks

/-- H of an aggregator (R254). -/
def memberH (id : Nat) : Nat := (gen 0x7A1100000000_7A11 0 id).1

/-- Send a reduction frame to every other member of the ring over the fleet notice path (R261, R262, R397). -/
def Agg.ringNotice (a : Agg) (frame : List Byte) : Agg :=
  ((List.range a.tly.set.aggs).filter (· ≠ a.reg CFG_STATUS_AGG_ID)).foldl (fun a m =>
    a.offerPacket { rclass := 3, msgType := 2, dst := m, payload := frame }) a

/-- A JOIN held (R262). -/
def AggTally.withJoin (t : AggTally) (member fromRound : Nat) : AggTally :=
  { t with joined := t.joined.filter (· ≠ (member, fromRound)) ++ [(member, fromRound)] }

/-- A JOIN that is owed is sent once there is a fleet time and no safe state (R262, R401, log entry 174): from the first round
whose close is at least 2 × SKIP_GUARD_US away. -/
def Agg.joinGo (a : Agg) : Agg :=
  if a.tly.joinDue ∧ a.p.timed ∧ ¬ a.safe then
    let id := a.reg CFG_STATUS_AGG_ID
    let t := a.p.nowNs + 2 * a.cfg TALLY_TIMING2_SKIP_GUARD_US * 1000
    let fr := (ceilDiv t (max a.roundNs 1) - 1) % 2 ^ 32
    let head : RedFrame := { round := a.roundNow, src := id, members := 1, memberHash := memberH id }
    (a.ringNotice (RingNote.joinBytes { head := head, fromRound := fr })).onTly fun t =>
      { t.withJoin id fr with joinDue := false }
  else a

/-- A JOIN is owed (R262). -/
def Agg.sendJoin (a : Agg) : Agg := (a.onTly fun t => { t with joinDue := true }).joinGo

end Sys2Proof.Machine
end

