-- ==== Sys2Proof/Machine/Time.lean ====
section
/-! DEFINITION. Fleet time: the servo of both parts (R38 to R42), PTP and SyncE on the fabric ports (R27 to R33),
time words on the die links (R34 to R37), and the tick (R22 to R25, R44, R50). -/

namespace Sys2Proof.Machine

/-! ### The servo -/

/-- What the servo of a part reads from its configuration, and the event bits it sets. Thresholds are in 2^-16 ns. -/
structure ServoEnv where
  lockQ : Nat
  stepQ : Nat
  slewPpb : Nat
  largeQ : Nat
  kp : Nat
  ki : Nat
  drift : Nat
  base : Nat
  lockLost : Field
  holdEnter : Field
  stepSeen : Field
  slewEnter : Field
  largeOffset : Field
  blk : Nat → Option Nat

/-- The aggregator's servo environment (R54). LOCK_NS is in 1/16 ns. -/
def aggServoEnv (p : Part) : ServoEnv where
  lockQ := p.cfg SERVO_CFG_LOCK_NS * 4096
  stepQ := p.cfg SERVO_CFG_STEP_NS * 65536
  slewPpb := p.cfg SERVO_CFG_SLEW_PPB
  largeQ := p.cfg SERVO_CFG_LARGE_US * 1000 * 65536
  kp := p.cfg SERVO_CFG_KP_SHIFT
  ki := p.cfg SERVO_CFG_KI_SHIFT
  drift := driftAgg
  base := 4
  lockLost := TIME_EVENT_LOCK_LOST
  holdEnter := TIME_EVENT_HOLD_ENTER
  stepSeen := TIME_EVENT_STEP_SEEN
  slewEnter := TIME_EVENT_SLEW_ENTER
  largeOffset := TIME_EVENT_LARGE_OFFSET
  blk := evBlockAgg

/-- The Uligo's servo environment (R57). -/
def ulgServoEnv (u : Ulg) : ServoEnv where
  lockQ := u.cfg ULG_TIME_CFG_LOCK_NS * 4096
  stepQ := u.cfg ULG_TIME_CFG_STEP_NS * 65536
  slewPpb := u.cfg ULG_TIME_CFG_SLEW_PPB
  largeQ := u.cfg ULG_TIME_CFG2_LARGE_US * 1000 * 65536
  kp := u.cfg ULG_TIME_CFG_KP_SHIFT
  ki := u.cfg ULG_TIME_CFG_KI_SHIFT
  drift := driftUlg
  base := u.errBase
  lockLost := ULG_TIME_EVENT_LOCK_LOST
  holdEnter := ULG_TIME_EVENT_HOLD_ENTER
  stepSeen := ULG_TIME_EVENT_STEP_SEEN
  slewEnter := ULG_TIME_EVENT_SLEW_ENTER
  largeOffset := ULG_TIME_EVENT_LARGE_OFFSET
  blk := evBlockUlg

/-- The part with its servo changed. -/
def Part.onServo (p : Part) (f : Servo → Servo) : Part := { p with servo := f p.servo }

/-- A rate within the slew limit, units of 2^-40 (R22, R38). -/
def slewClamp (ppb : Nat) (r : Int) : Int :=
  let m : Int := (ppb * 2 ^ 40 / 10 ^ 9 : Nat)
  clampInt (-m) m r

/-- Enter HOLDOVER from LOCKED or SLEW (R39, R40): the rate freezes at the integrator value. -/
def servoHold (k : ServoEnv) (p : Part) : Part :=
  let sv := p.servo
  let e := errNs sv k.base k.drift p.now
  let p1 := p.onServo fun v => { v with
    state := 4, rate := slewClamp k.slewPpb v.integ, inLock := 0, outLock := 0, guard := 0, meas := 0, measSum := 0,
    holdFrom := p.now, holdBase := e }
  let p2 := p1.event k.blk k.holdEnter
  if sv.state = 2 then p2.event k.blk k.lockLost else p2

/-- Enter LOCKED; the first entry starts the ticks (R22, R39), and a large offset is over (R42). -/
def servoLock (p : Part) : Part :=
  { p with
    servo := { p.servo with state := 2, inLock := 0, outLock := 0, large := false }
    tick := { p.tick with started := true } }

/-- Enter SLEW (R39). -/
def servoSlew (k : ServoEnv) (p : Part) : Part :=
  let sv := p.servo
  let p1 := (p.onServo fun v => { v with state := 3, inLock := 0, outLock := 0 }).event k.blk k.slewEnter
  if sv.state = 2 then p1.event k.blk k.lockLost else p1

/-- The reference is lost with no alternative (R39): ACQUIRE returns to UNSET, LOCKED and SLEW enter HOLDOVER, and a
re-measurement starts over. In UNSET time counts from zero at the nominal rate (R38, log entry 15). -/
def servoLost (k : ServoEnv) (p : Part) : Part :=
  let p := p.onServo fun v => { v with refPresent := false }
  match p.servo.state with
  | 1 => { p.onServo (fun v => { v with
      state := 0, rate := 0, integ := 0, last := 0, lastAt := 0, inLock := 0, outLock := 0 }) with now := 0 }
  | 2 => servoHold k p
  | 3 => servoHold k p
  | 4 => p.onServo fun v => { v with guard := 0, meas := 0, measSum := 0 }
  | _ => p

/-- The offset that the servo expects: the last one moved by its own rate since (R39, log entry 12). -/
def servoPredicted (p : Part) : Int :=
  p.servo.last + p.servo.rate * ((p.nowQ : Int) - p.servo.lastAt) / 2 ^ 40

/-- The servo takes an offset into its loop (R54). -/
def servoLoop (k : ServoEnv) (p : Part) (off : Int) : Part :=
  p.onServo fun v => { v with
    last := off, lastAt := p.nowQ
    rate := slewClamp k.slewPpb (Config.servoRate k.kp k.ki v.integ off)
    integ := slewClamp k.slewPpb (Config.servoInteg k.ki v.integ off) }

/-- The end of a re-measurement, with its mean offset (R41, R42). -/
def servoMeasured (k : ServoEnv) (p : Part) (off : Int) : Part :=
  let p := p.onServo fun v => { v with last := off, lastAt := p.nowQ, guard := 0, meas := 0, measSum := 0 }
  if off.natAbs ≤ k.lockQ then servoLock p
  else
    let p1 := servoSlew k p
    if k.largeQ < off.natAbs then
      (p1.onServo fun v => { v with large := true }).event k.blk k.largeOffset
    else p1

/-- One update in ACQUIRE: time is loaded from the reference and may step (R38); 16 updates in a row within LOCK_NS
lock (R39). -/
def servoAcquire (k : ServoEnv) (p : Part) (off : Int) : Part :=
  if off.natAbs ≤ k.lockQ then
    let p := servoLoop k p off
    if p.servo.inLock + 1 ≥ 16 then servoLock p
    else p.onServo fun v => { v with inLock := v.inLock + 1 }
  else
    { p with
      now := ((p.now : Int) - off * 2 ^ 40).toNat
      servo := { p.servo with inLock := 0, last := 0, lastAt := p.nowQ } }

/-- One update in LOCKED or SLEW (R39). The flag tells whether a step was seen. -/
def servoTrack (k : ServoEnv) (p : Part) (off : Int) : Part × Bool :=
  if k.stepQ < (off - servoPredicted p).natAbs then
    (servoHold k ((p.onServo fun v => { v with last := off, lastAt := p.nowQ }).event k.blk k.stepSeen), true)
  else
    let inside := off.natAbs ≤ k.lockQ
    let p := servoLoop k p off
    let p := p.onServo fun v => { v with
      inLock := if inside then v.inLock + 1 else 0
      outLock := if inside then 0 else v.outLock + 1 }
    if p.servo.state = 2 ∧ p.servo.outLock ≥ 16 then (servoSlew k p, false)
    else if p.servo.state = 3 ∧ p.servo.inLock ≥ 16 then (servoLock p, false)
    else (p, false)

/-- The source of the reference changed to one with a measured offset (R37, R39): no step. LOCKED stays within LOCK_NS and
becomes SLEW outside it; a Uligo in SLEW enters LOCKED within LOCK_NS (R37, `lock`), while SLEW of the aggregator ends only
by its updates (R39). -/
def servoSource (k : ServoEnv) (lock : Bool) (p : Part) (off : Int) : Part :=
  match p.servo.state with
  | 1 => p.onServo fun v => { v with inLock := 0, last := off, lastAt := p.nowQ }
  | 2 =>
    let p := p.onServo fun v => { v with last := off, lastAt := p.nowQ }
    if off.natAbs ≤ k.lockQ then p else servoSlew k p
  | 3 =>
    let p := p.onServo fun v => { v with last := off, lastAt := p.nowQ }
    if lock && off.natAbs ≤ k.lockQ then servoLock p else p
  | _ => p

/-! ### PTP (R27 to R31) -/

/-- A field of ps as 2^-16 ns. -/
def psToQ (ps : Int) : Int := ps * 65536 / 1000

/-- The ingress stamp of port `p`, corrected by RX_PS (R29). -/
def ptpIngress (a : Agg) (p : Nat) : Int := (a.p.nowQ : Int) - psToQ (a.reg (FAB_LAT_RX_PS p))

/-- PTP runs on the port (R30). -/
def ptpEnabled (a : Agg) (p : Nat) : Bool := bitAt (a.cfg PTP_CFG_PORT_EN) p

/-- The message is for the configured domain and sdoId (R31). -/
def ptpOurs (a : Agg) (m : PtpMsg) : Bool := m.domain == a.cfg PTP_CFG_DOMAIN && m.sdoId == a.cfg PTP_CFG_SDO_ID

/-- The port that the servo follows, if any (R30). -/
def slavePort (a : Agg) : Option Nat :=
  let p := a.reg SERVO_STATUS_SRC_PORT
  if p = 15 then none else some p

/-- A PTP port changed. -/
def Agg.onPtp (a : Agg) (p : Nat) (f : PtpPort → PtpPort) : Agg :=
  { a with time := { a.time with ptp := a.time.ptp.upd p f } }

/-- One update of the SLAVE port in HOLDOVER: the master-to-slave time `ms` = t2 − t1 of a Sync (R41). Four updates are
discarded; over the 16 that follow, the mean path delay is half the sum of the mean t2 − t1 and the mean t4 − t3 of the
delay exchanges since the guard interval, and the offset is what the mean t2 − t1 has above it (log entry 120). -/
def aggRemeasure (a : Agg) (p : Nat) (ms : Int) : Agg :=
  if a.p.servo.guard < 4 then
    ({ a with p := a.p.onServo fun v => { v with guard := v.guard + 1 } } : Agg).onPtp p fun q => { q with upSum := 0, upN := 0 }
  else if a.p.servo.meas + 1 < 16 then
    { a with p := a.p.onServo fun v => { v with meas := v.meas + 1, measSum := v.measSum + ms } }
  else
    let q := a.time.ptp.get p
    let down := (a.p.servo.measSum + ms) / 16
    let delay := if q.upN = 0 then q.delay else (down + q.upSum / q.upN) / 2
    let a := a.onPtp p fun q => { q with delay := delay, upSum := 0, upN := 0 }
    ({ a with p := servoMeasured (aggServoEnv a.p) a.p (down - delay) }).putInt SERVO_OFFSET_OFFSET (down - delay)

/-- The aggregator's servo takes an update from the SLAVE port `p`: t2 − t1 of a Sync and the offset that it gives with the
port's mean path delay (R39, R41). A JOIN that waits for a fleet time goes once there is one (R262). -/
def aggUpdate (a : Agg) (p : Nat) (ms off : Int) : Agg :=
  let a := a.putInt SERVO_OFFSET_OFFSET off
  let k := aggServoEnv a.p
  match a.p.servo.state with
  | 1 => ({ a with p := servoAcquire k a.p off } : Agg).joinGo
  | 4 => aggRemeasure a p ms
  | 0 => a
  | _ =>
    let r := servoTrack k a.p off
    let a := { a with p := r.1 }
    if r.2 then a.count TIME_ERR_COUNT_STEPS else a

/-- Data-set comparison: `x`, received on a port other than `y`'s, is better than `y` (R27; the steps are those of IEEE
1588-2019, log entry 121). Of two grandmasters the better one wins; behind one grandmaster fewer steps win, then the
lower sourcePortIdentity; equal data sets leave the choice to the ports. -/
def betterMaster (x y : AnnounceData) : Bool :=
  if x.grandmaster = y.grandmaster then decide ([x.stepsRemoved, x.sender, x.senderPort] < [y.stepsRemoved, y.sender, y.senderPort])
  else decide ([x.priority1, x.clockClass, x.accuracy, x.variance, x.priority2, x.grandmaster] <
    [y.priority1, y.clockClass, y.accuracy, y.variance, y.priority2, y.grandmaster])

/-- A fabric port that went down and has not come up again is FAULTY (R54, log entry 122). -/
def ptpFaulty (a : Agg) (p : Nat) : Bool := a.reg (PTP_PORT_STATE_ST p) == 5

/-- The port with the best master; a tie goes to the lower port (R27). -/
def bestPort (a : Agg) : Option (Nat × AnnounceData) :=
  (List.range 12).foldl (fun best p =>
    if ptpEnabled a p && !ptpFaulty a p then
      match (a.time.ptp.get p).master, best with
      | some m, none => some (p, m)
      | some m, some (q, n) => if betterMaster m n then some (p, m) else some (q, n)
      | none, b => b
    else best) none

/-- A port has measured its offset, with a mean path delay (R30). The selected port is UNCALIBRATED until then, and SLAVE
from then on (R54, log entry 122). -/
def PtpPort.calibrated (q : PtpPort) : Bool := q.measured && q.offset.isSome

/-- The port states after a selection (R30, R54): of the best port SLAVE or UNCALIBRATED, STANDBY behind the same
grandmaster, else LISTENING; FAULTY while the port is down, DISABLED where PTP is off. -/
def ptpStates (a : Agg) (best : Option (Nat × AnnounceData)) : Agg :=
  (List.range 12).foldl (fun a p =>
    let st :=
      if !ptpEnabled a p then 0
      else if ptpFaulty a p then 5
      else match (a.time.ptp.get p).master, best with
        | some m, some (q, n) =>
          if p = q then (if (a.time.ptp.get p).calibrated then 3 else 2) else if m.grandmaster = n.grandmaster then 4 else 1
        | _, _ => 1
    a.put (PTP_PORT_STATE_ST p) st) a

/-- A port has become SLAVE in place of `old` (R30, R37, R39): UNSET becomes ACQUIRE, a known offset is taken without a step,
and a re-measurement starts over on the new port. -/
def ptpSlave (a : Agg) (old : Option Nat) (p : Nat) : Agg :=
  let a := a.put SERVO_STATUS_SRC_PORT p
  let a : Agg := { a with p := a.p.onServo fun v => { v with refPresent := true } }
  if a.p.servo.state = 0 then
    { a with p := a.p.onServo fun v => { v with state := 1, inLock := 0, outLock := 0 } }
  else if old = some p then a
  else if a.p.servo.state = 4 then
    { a with p := a.p.onServo fun v => { v with guard := 0, meas := 0, measSum := 0 } }
  else { a with p := servoSource (aggServoEnv a.p) false a.p ((a.time.ptp.get p).offset.getD 0) }

/-- Best master selection and what it does to the servo (R30, R39). While the port selected is UNCALIBRATED no port is SLAVE
and the servo stays as it is, without updates (log entry 122). -/
def ptpSelect (a : Agg) : Agg :=
  let old := slavePort a
  let best := bestPort a
  let a := ptpStates a best
  match best with
  | none =>
    let a := a.put SERVO_STATUS_SRC_PORT 15
    if old.isSome ∨ a.p.servo.refPresent then { a with p := servoLost (aggServoEnv a.p) a.p } else a
  | some (p, _) =>
    if (a.time.ptp.get p).calibrated then ptpSlave a old p else a.put SERVO_STATUS_SRC_PORT 15

/-- A complete Sync exchange on a port: its times and the new offset estimate, which the SLAVE port feeds to the
servo (R30). It may complete the calibration of the port selected. -/
def ptpSyncDone (a : Agg) (p : Nat) (t1 t2 : Int) : Agg :=
  let off := t2 - t1 - (a.time.ptp.get p).delay
  let a := a.onPtp p fun q => { q with sync := some (t1, t2), offset := some off, twoStep := none }
  if slavePort a = some p then aggUpdate a p (t2 - t1) off
  else if (bestPort a).any (fun b => b.1 = p) then ptpSelect a
  else a

/-- The accepted Sync intervals: −7 to −3 (R27). -/
def syncIntervalOk (m : PtpMsg) : Bool := decide (-7 ≤ m.logInterval) && decide (m.logInterval ≤ -3)

/-- PTP_SYNC (R27, R31): stamped at ingress; a two-step Sync waits for its Follow_Up. One of an interval outside the profile
is ignored (log entry 123). -/
def execPtpSync (port : Fin 12) (m : PtpMsg) (s : State) : Host.Outcome State Fault Refusal :=
  .next (s.onAgg fun a => a.metered port 0 m.rx fun a =>
    if ptpEnabled a port ∧ ptpOurs a m ∧ syncIntervalOk m ∧ (a.time.ptp.get port).master.isSome then
      let t2 := ptpIngress a port - m.correction
      if m.twoStep then
        { a with time := { a.time with ptp := a.time.ptp.upd port fun q =>
            { q with twoStep := some (m.seqId, t2, 0) } } }
      else ptpSyncDone a port m.stamp t2
    else a)

/-- FOLLOW_UP (R31): completes the two-step Sync of its sequenceId. -/
def execFollowUp (port : Fin 12) (m : PtpMsg) (s : State) : Host.Outcome State Fault Refusal :=
  .next (s.onAgg fun a => a.metered port 0 m.rx fun a =>
    if ptpEnabled a port ∧ ptpOurs a m then
      match (a.time.ptp.get port).twoStep with
      | some (seq, t2, _) => if seq = m.seqId then ptpSyncDone a port m.stamp (t2 - m.correction) else a
      | none => a
    else a)

/-- DELAY_RESP (R27, R31): completes the delay exchange it answers and gives the interval of the next ones, or is dropped and
counted. -/
def execDelayResp (port : Fin 12) (m : PtpMsg) (s : State) : Host.Outcome State Fault Refusal :=
  .next (s.onAgg fun a => a.metered port 0 m.rx fun a =>
    if ptpEnabled a port ∧ ptpOurs a m then
      let q := a.time.ptp.get port
      match q.req, m.mine with
      | some (seq, t3), true =>
        if seq = m.seqId then
          let up := m.stamp - m.correction - t3
          let again := a.p.servo.state = 4 ∧ 4 ≤ a.p.servo.guard
          a.onPtp port fun q => { q with
            req := none, reqLog := m.logInterval, measured := q.measured || q.sync.isSome
            delay := (match q.sync with | some (t1, t2) => ((t2 - t1) + up) / 2 | none => q.delay)
            upSum := if again then q.upSum + up else q.upSum
            upN := if again then q.upN + 1 else q.upN }
        else a.count TIME_ERR_COUNT_DROP
      | _, _ => a.count TIME_ERR_COUNT_DROP
    else a)

/-- ANNOUNCE (R30): feeds best master selection. -/
def execAnnounce (port : Fin 12) (m : PtpMsg) (d : AnnounceData) (s : State) : Host.Outcome State Fault Refusal :=
  .next (s.onAgg fun a => a.metered port 0 m.rx fun a =>
    if ptpEnabled a port ∧ ptpOurs a m then
      ptpSelect (a.onPtp port fun q => { q with master := some d, annAt := some a.p.now, annLog := m.logInterval })
    else a)

/-- Intervals of 2^e seconds, in 2^-56 ns (R27). -/
def logSeconds (n : Nat) (e : Int) : Nat := n * 10 ^ 9 * 2 ^ (56 + e).toNat

/-- The port's master is lost, and with it all that was measured against it. -/
def PtpPort.lost (q : PtpPort) : PtpPort :=
  { q with master := none, offset := none, sync := none, twoStep := none, req := none, measured := false, annAt := none }

/-- ANNOUNCE_RECEIPT_TIMEOUT (R27): ANN_TIMEOUT announce intervals have passed since the port's last Announce, and its master is
lost. -/
def execAnnounceReceiptTimeout (port : Fin 12) (s : State) : Host.Outcome State Fault Refusal :=
  .next (s.onAgg fun a =>
    let q := a.time.ptp.get port
    let at_ := q.annAt.elim 0 fun t => t + logSeconds (a.cfg PTP_CFG_ANN_TIMEOUT) q.annLog
    ptpSelect (({ a with p := { a.p with now := max a.p.now at_ } } : Agg).onPtp port PtpPort.lost))

/-- DELAY_REQ (R28): the port's next Delay_Req is offered to queue TIME; what it carries is written as it leaves. None is sent in
safe state (R401). -/
def execDelayReq (port : Fin 12) (s : State) : Host.Outcome State Fault Refusal :=
  .next (s.onAgg fun a =>
    if ptpEnabled a port ∧ ¬ a.safe then
      let seq := (a.time.ptp.get port).nextReq
      (a.onPtp port fun q => { q with nextReq := (seq + 1) % 65536 }).offer (.delayReq port seq)
    else a)

/-- A Delay_Req leaves its port (R27 to R29): one-step, with originTimestamp corrected by TX_PS and the trailer that keeps the
UDP checksum correct. -/
def Agg.delayReqOut (a : Agg) (port seq : Nat) : Agg :=
  let t3 : Int := a.p.nowQ + psToQ (a.reg (FAB_LAT_TX_PS port))
  (a.onPtp port fun q => { q with req := some (seq, t3) }).send
    (.delayReq port seq (a.cfg PTP_CFG_DOMAIN) (a.cfg PTP_CFG_SDO_ID) t3)

/-- PTP_MESSAGE_DROPPED (R31): dropped and counted; a malformed one sets PTP_BAD. -/
def execPtpMessageDropped (port : Fin 12) (why : PtpDrop) (rx : RxInfo) (s : State) : Host.Outcome State Fault Refusal :=
  .next (s.onAgg fun a => a.metered port 0 rx fun a =>
    let a := a.count TIME_ERR_COUNT_DROP
    match why with
    | .malformed => a.event TIME_EVENT_PTP_BAD
    | _ => a)

/-! ### SyncE (R32, R33) -/

/-- QL-DNU, do not use: its enhanced SSM code in ITU-T G.8264 (R32, log entry 14). -/
def qlDnu : Nat := 0xFF

/-- The port with the highest QL that is not QL-DNU; a tie goes to the lower port (R32). A port that has received no ESMC since
it came up is none. -/
def esmcBest (a : Agg) : Option Nat :=
  (List.range 12).foldl (fun best p =>
    let r := Config.qlRank (a.time.ql.get p)
    if a.time.ql.get p = 0 ∨ a.time.ql.get p = qlDnu then best
    else match best with
      | none => some p
      | some b => if Config.qlRank (a.time.ql.get b) < r then some p else some b) none

/-- Select the frequency source; without one an eEEC that was locked holds over (R32, R54). -/
def esmcSelect (a : Agg) : Agg :=
  match esmcBest a with
  | some p => (a.put SYNCE_STATUS_SRC_PORT p).put SYNCE_STATUS_QL (a.time.ql.get p)
  | none =>
    let a := (a.put SYNCE_STATUS_SRC_PORT 15).put SYNCE_STATUS_QL 0
    if a.reg SYNCE_STATUS_STATE = 1 then a.put SYNCE_STATUS_STATE 2 else a

/-- ESMC (R32). -/
def execEsmc (port : Fin 12) (ql : Nat) (rx : RxInfo) (s : State) : Host.Outcome State Fault Refusal :=
  .next (s.onAgg fun a => a.metered port 0 rx fun a => esmcSelect { a with time := { a.time with ql := a.time.ql.set port ql } })

/-- ESMC_TRANSMIT (R32): QL-DNU on every fabric port, through queue TIME; none leaves in safe state (R401). -/
def execEsmcTransmit (s : State) : Host.Outcome State Fault Refusal :=
  .next (s.onAgg fun a => (List.range 12).foldl (fun a p => a.offer (.esmc p)) a)

/-- EEEC_LOCKED (R33): the eEEC locks to its selected input; SYNCE_OK reads this state. -/
def execEeecLocked (s : State) : Host.Outcome State Fault Refusal :=
  .next (s.onAgg fun a => if a.reg SYNCE_STATUS_SRC_PORT = 15 then a else a.put SYNCE_STATUS_STATE 1)

/-! ### HOLDOVER limit (R42) -/

/-- HOLD_LIMIT of the aggregator: time has reached HOLD_LIMIT_S seconds of HOLDOVER. -/
def holdLimitAgg (a : Agg) : Agg :=
  if a.p.servo.state = 4 then
    let t := a.p.servo.holdFrom + a.cfg SERVO_CFG_HOLD_LIMIT_S * 10 ^ 9 * 2 ^ 56
    ({ a with p := { a.p with now := max a.p.now t } }).event TIME_EVENT_HOLD_LIMIT
  else a

/-- HOLD_LIMIT of the Uligo. -/
def holdLimitUlg (u : Ulg) : Ulg :=
  if u.p.servo.state = 4 then
    let t := u.p.servo.holdFrom + u.cfg ULG_TIME_CFG2_HOLD_LIMIT_S * 10 ^ 9 * 2 ^ 56
    ({ u with p := { u.p with now := max u.p.now t } }).event ULG_TIME_EVENT_HOLD_LIMIT
  else u

/-- HOLD_LIMIT (R42). -/
def execHoldLimit (part : PartSel) (s : State) : Host.Outcome State Fault Refusal :=
  .next (s.onPart part holdLimitAgg holdLimitUlg)

/-! ### Time words (R34 to R37) -/

/-- Ones of the low 48 bits of a time in 2^-16 ns, with FRAC (R34). -/
def departOf (q : Nat) : Nat := q % 2 ^ 64

/-- The instant of a port's next time word: TW_INTERVAL after the last (R35, R54). -/
def Agg.twDue (a : Agg) (p : Nat) : Agg :=
  match (a.time.tw.get p).lastNs with
  | some ns => if ns ≤ a.p.nowNs then { a with p := a.p.until (ns + 1000 * 2 ^ a.cfg PTP_CFG_TW_INTERVAL) } else a
  | none => a

/-- TW_SYNC_SEND (R35, R145): one word each TW_INTERVAL on a die port in UP or RETRY, while the own servo has time; every 1,024th is a
TW_FULL. -/
def execTwSyncSend (p : Fin 16) (s : State) : Host.Outcome State Fault Refusal :=
  .next (s.onAgg fun a =>
    if a.p.servo.state ≥ 2 ∧ (a.reg (DP_STATUS_STATE p) = 3 ∨ a.reg (DP_STATUS_STATE p) = 4) then
      let a := a.twDue p
      let t := a.time.tw.get p
      let full : Bool := (t.count + 1) % 1024 == 0
      let w : TimeWord := {
        seq := t.seq
        echoValid := t.dUp.isSome && !full
        dUpSat := match t.dUp with | some (_, _, x) => x && !full | none => false
        srcDegraded := a.p.servo.state != 2
        srcErrNs := a.errNs
        echoSeq := match t.dUp with | some (e, _, _) => if full then 0 else e | none => 0
        depart := if full then a.p.nowQ else departOf a.p.nowQ
        dUp := match t.dUp with | some (_, d, _) => if full then 0 else d | none => 0 }
      let t' := { t with
        seq := (t.seq + 1) % 256, count := (t.count + 1) % 1024, dUp := if full then t.dUp else none
        lastNs := some a.p.nowNs }
      let a : Agg := { a with time := { a.time with tw := a.time.tw.set p t' } }
      (a.slotOut p (if full then .timeFull w else .timeSync w)).send (.timeWord p full w)
    else a)

/-- TW_ECHO (R35): t4 is the arrival, t3 the echo's DEPART extended by the nearest value; D_UP goes into the next
TW_SYNC, saturated outside ±32,768 ns. -/
def execTwEcho (p : Fin 16) (w : TimeWord) (s : State) : Host.Outcome State Fault Refusal :=
  .next (s.onAgg fun a =>
    let t4 := a.p.nowQ
    let t3 := extendNear 64 (w.depart % 2 ^ 64) t4
    let d : Int := (t4 : Int) - t3
    let c := clampInt (-(2 ^ 31)) (2 ^ 31 - 1) d
    { a with time := { a.time with tw := a.time.tw.upd p fun t => { t with dUp := some (w.seq, c, d ≠ c) } } })

/-- The port's configured asymmetry in 2^-16 ns (R35, R57). -/
def ulgAsym (u : Ulg) (x : Nat) : Int :=
  psToQ (u.p.live.getInt (if x = 0 then ULG_PORT_ASYM_ASYM_A else ULG_PORT_ASYM_ASYM_B))

/-- The Uligo's sources of time changed. -/
def Ulg.onSrcTime (u : Ulg) (f : UlgTime → UlgTime) : Ulg := { u with time := f u.time }
/-- A port of the Uligo changed. -/
def Ulg.onTimePort (u : Ulg) (x : Nat) (f : UlgTimePort → UlgTimePort) : Ulg :=
  { u with time := { u.time with port := u.time.port.upd x f } }

/-- Less than COAST_US have passed since the instant. -/
def Ulg.within (u : Ulg) (at_ : Option Nat) : Bool :=
  at_.any fun t => u.p.now - t ≤ u.cfg ULG_TIME_CFG_COAST_US * 1000 * 2 ^ 56

/-- A valid offset was delivered within the last COAST_US (R37). -/
def portFresh (u : Ulg) (x : Nat) : Bool := u.within (u.time.port.get x).offAt

/-- The echo of a time word, with the same SEQ (R35). -/
def ulgEcho (u : Ulg) (x : Nat) (w : TimeWord) : Ulg :=
  let e : TimeWord := { seq := w.seq, depart := departOf u.p.nowQ }
  (u.slotOut x (.timeEcho e)).send (.twEcho x e)

/-- The two port offsets compared: 16 updates in a row above DISAGREE_NS set DISAGREE and are reported (R36). -/
def ulgCompare (u : Ulg) : Ulg × Bool :=
  if portFresh u 0 ∧ portFresh u 1 then
    let d := ((u.time.port.get 0).offset - (u.time.port.get 1).offset).natAbs
    if u.cfg ULG_TIME_CFG_DISAGREE_NS * 65536 < d then
      let n := u.time.disagree + 1
      if n ≥ 16 then
        ((({ u with time := { u.time with disagree := 0 } }).event ULG_TIME_EVENT_DISAGREE).send (.disagree 0)
          |>.send (.disagree 1), true)
      else ({ u with time := { u.time with disagree := n } }, false)
    else ({ u with time := { u.time with disagree := 0 } }, false)
  else (u, false)

/-- The counts of a port's re-measurement at their start (R41). -/
def UlgTimePort.restart (q : UlgTimePort) : UlgTimePort := { q with guard := 0, meas := 0, measSum := 0 }

/-- A port's time in UNSET, where time counts from zero: what it knew of instants is gone (R38). -/
def UlgTimePort.unset (q : UlgTimePort) : UlgTimePort := { q.restart with lastAt := none, offAt := none, words := [] }

/-- The Uligo's servo enters HOLDOVER or UNSET without a source (R37, R39). -/
def ulgLost (u : Ulg) : Ulg :=
  let k := ulgServoEnv u
  let held := u.time.src
  let u := { u with p := servoLost k u.p }
  let g := if u.p.servo.state = 0 then UlgTimePort.unset else UlgTimePort.restart
  { u with time := { u.time with
      src := none
      heldSrc := if held.isSome then held else u.time.heldSrc
      port := (u.time.port.upd 0 g).upd 1 g } }

/-- Take back an event that did not take place: its bit and the notification of its source, where the collector has not taken
it yet (R37, log entry 124). -/
def Ulg.unevent (u : Ulg) (f : Field) : Ulg :=
  let u := u.put f 0
  { u with p := { u.p with col := { u.p.col with
      notified := u.p.col.notified.eraseP fun o => some o.source == evSource evBlockUlg f } } }

/-- A re-measurement is complete on port `x`, which becomes the source (R37, R41). The other port's counts stay for this
update, and what the choice changed is kept for it. -/
def ulgChosen (u : Ulg) (x : Nat) (m : Int) : Ulg :=
  let v := (u.onTimePort x UlgTimePort.restart).onSrcTime fun t => { t with src := some x }
  let v := { v with p := servoMeasured (ulgServoEnv v) v.p m }
  let v := if u.time.heldSrc = some x then v else v.event ULG_TIME_EVENT_SRC_SWITCH
  let new := [ULG_TIME_EVENT_SRC_SWITCH, ULG_TIME_EVENT_SLEW_ENTER, ULG_TIME_EVENT_LARGE_OFFSET].filter fun f =>
    v.bit f && !u.bit f
  v.onSrcTime fun t => { t with chosen := some { at_ := u.p.now, servo := u.p.servo, set := new } }

/-- Port `x`, which SRC_PREF names, completes its re-measurement on the update on which the other port has been chosen: it is
the source, and the other choice has not taken place (R37, log entry 124). -/
def ulgPreferred (u : Ulg) (c : SrcChoice) (x : Nat) (m : Int) : Ulg :=
  let u := c.set.foldl Ulg.unevent u
  ulgChosen { u with p := { u.p with servo := c.servo } } x m

/-- Port `x` completes its re-measurement with this update. -/
def UlgTimePort.completes (q : UlgTimePort) : Bool := q.guard == 4 && q.meas == 15

/-- The part with its time stepped in ACQUIRE: what the ports know of instants moves with it. -/
def Ulg.stepped (u : Ulg) (p : Part) : Ulg :=
  let move (t : Nat) : Nat := t + p.now - u.p.now
  let g (q : UlgTimePort) : UlgTimePort := { q with lastAt := q.lastAt.map move, offAt := q.offAt.map move }
  { u with p := p, time := { u.time with port := (u.time.port.upd 0 g).upd 1 g } }

/-- The servo takes an offset measured on port `x` (R36, R37, R39, R41). -/
def ulgServo (u : Ulg) (x : Nat) (off : Int) : Ulg :=
  match u.p.servo.state with
  | 0 => u
  | 4 =>
    let q := u.time.port.get x
    if q.guard < 4 then u.onTimePort x fun q => { q with guard := q.guard + 1 }
    else if q.meas + 1 < 16 then u.onTimePort x fun q => { q with meas := q.meas + 1, measSum := q.measSum + off }
    else ulgChosen u x ((q.measSum + off) / 16)
  | 1 => if u.time.src = some x then u.stepped (servoAcquire (ulgServoEnv u) u.p off) else u
  | _ =>
    if u.time.src = some x then
      let r := servoTrack (ulgServoEnv u) u.p off
      if r.2 then
        ((({ u with p := r.1, time := { u.time with src := none, heldSrc := some x } } : Ulg).onTimePort 0
          UlgTimePort.restart).onTimePort 1 UlgTimePort.restart)
      else { u with p := r.1 }
    else
      let q := u.time.port.get x
      match u.time.chosen with
      | some c =>
        if c.at_ = u.p.now ∧ q.completes ∧ x = u.cfg ULG_TIME_CFG_SRC_PREF then ulgPreferred u c x ((q.measSum + off) / 16)
        else u
      | none => u

/-- A valid word has come on port `x`: its instant and stamps by SEQ, and the source's error, which it advertises (R35, R38). In
HOLDOVER a word after a gap of COAST_US starts the port's re-measurement anew (R41, log entry 164). -/
def Ulg.takeTimeWord (u : Ulg) (x : Nat) (w : TimeWord) (t1 t2 : Int) : Ulg :=
  let again := u.p.servo.state = 4 ∧ ¬ u.within (u.time.port.get x).lastAt
  u.onTimePort x fun q =>
    { (if again then q.restart else q) with
      lastAt := some u.p.now, srcErr := w.srcErrNs, degraded := w.srcDegraded
      words := (w.seq, t1, t2) :: (q.words.filter fun e => e.1 ≠ w.seq) }

/-- An exchange is complete: the offset of port `x`, in its register (saturating) and in the servo (R35, R36). -/
def ulgOffset (u : Ulg) (x : Nat) (w : TimeWord) (t1 t2 : Int) : Ulg :=
  let off := ((t2 - t1) - w.dUp - ulgAsym u x) / 2
  let u := u.onTimePort x fun q => { q with offset := off, offAt := some u.p.now }
  let u := u.putInt (if x = 0 then ULG_PORT_OFFSET_OFF_A else ULG_PORT_OFFSET_OFF_B)
    (clampInt (-(2 ^ 31)) (2 ^ 31 - 1) off)
  ulgServo u x off

/-- TW_SYNC (R35, R36): echoed; outside UNSET its times are kept by SEQ, and its D_UP completes the exchange of
ECHO_SEQ unless saturated. The epoch-stamp outputs follow the first entry to LOCKED (R132). A word of reserved TYPE is refused (R15, R57). -/
def execTwSync (x : Fin 2) (w : TimeWord) (s : State) : Host.Outcome State Fault Refusal :=
  if w.reservedSet then .next (s.onUlg fun u => u.event ULG_TIME_EVENT_TW_BAD)
  else
    let t2 := s.ulg.p.nowQ
    let u := ulgEcho s.ulg x w
    if u.p.servo.state = 0 then .next { s with ulg := u }
    else
      let t1 := extendNear 64 (w.depart % 2 ^ 64) t2
      let u := u.takeTimeWord x w t1 t2
      match (u.time.port.get x).words.find? (fun e => e.1 = w.echoSeq) with
      | some (_, e1, e2) =>
        if w.echoValid ∧ ¬ w.dUpSat then
          let r := ulgCompare (ulgOffset u x w e1 e2)
          let s := { s with ulg := if r.1.ep.outValid then r.1 else r.1.stampOut }
          .next (if r.2 then s.onAgg fun a => a.event TIME_EVENT_DIE_DISAGREE else s)
        else .next { s with ulg := u }
      | none => .next { s with ulg := u }

/-- TW_FULL (R35, R39): echoed; in UNSET it loads time and the servo enters ACQUIRE on the preferred port (R36). -/
def execTwFull (x : Fin 2) (w : TimeWord) (s : State) : Host.Outcome State Fault Refusal :=
  .next (s.onUlg fun u =>
    if w.reservedSet then u.event ULG_TIME_EVENT_TW_BAD
    else
      let u := ulgEcho u x w
      let t2 := u.p.nowQ
      let u :=
        if u.p.servo.state = 0 then
          { u with
            p := { u.p with now := w.depart * 2 ^ 40, servo := { u.p.servo with state := 1, inLock := 0, refPresent := true } }
            time := { u.time with src := some (u.cfg ULG_TIME_CFG_SRC_PREF) } }
        else u
      let t2' := if u.p.nowQ = t2 then t2 else u.p.nowQ
      u.takeTimeWord x w w.depart t2')

/-- COAST_EXPIRY (R37): COAST_US have passed without a valid word on the source port; the Uligo switches to a port
with a fresh offset or loses its reference. -/
def execCoastExpiry (s : State) : Host.Outcome State Fault Refusal :=
  .next (s.onUlg fun u =>
    match u.time.src with
    | none => u
    | some x =>
      let coast := u.cfg ULG_TIME_CFG_COAST_US * 1000 * 2 ^ 56
      let u := match (u.time.port.get x).lastAt with
        | some t => { u with p := { u.p with now := max u.p.now (t + coast) } }
        | none => u
      let y := 1 - x
      if portFresh u y then
        let u := { u with time := { u.time with src := some y } }
        let off := (u.time.port.get y).offset
        let u := { u with p := servoSource (ulgServoEnv u) true u.p off }
        u.event ULG_TIME_EVENT_SRC_SWITCH
      else ulgLost u)

/-! ### Reading time (R55) -/

/-- TIME_SEC_READ (R55): one capture of the whole time; the sub-second part goes to TIME_SUBSEC. -/
def execTimeSecRead (s : State) : Host.Outcome State Fault Refusal :=
  .next (s.onAgg fun a =>
    let a := a.put TIME_SUBSEC_NS (a.p.nowNs % 1000000000)
    let a := a.put TIME_SUBSEC_FRAC (a.p.nowQ % 65536)
    { a with rdata := a.p.nowSec % 2 ^ 48 })

/-- ULG_TIME_SEC_READ (R55). -/
def execUlgTimeSecRead (s : State) : Host.Outcome State Fault Refusal :=
  .next (s.onUlg fun u =>
    let u := u.put ULG_TIME_SUBSEC_NS (u.p.nowNs % 1000000000)
    let u := u.put ULG_TIME_SUBSEC_FRAC (u.p.nowQ % 65536)
    u.answer (u.p.nowSec % 2 ^ 48))

/-! ### Ticks (R22 to R25, R44, R50) -/

/-- The next tick instant of a part in ns: the first multiple of the period after the last latch, or after now before
the first (R22, R23). -/
def Part.nextTickNs (p : Part) : Nat :=
  let per := p.tick.us * 1000
  (match p.tick.lastNs with | some t => t / per + 1 | none => p.nowNs / per + 1) * per

/-- The latch at the next tick instant (R44): time has reached it, and the interval it ends is governed by the set in
force. -/
def Part.latchTick (p : Part) : Part :=
  let ns := p.nextTickNs
  { p.until ns with tick := { p.tick with lastNs := some ns, lastUs := p.tick.us, lastTicks := p.tick.ticks, missing := [] } }

/-- Tick number of the last latch (R23). -/
def Part.lastTick (p : Part) : Nat :=
  match p.tick.lastNs with
  | some ns => tickOf ns p.tick.lastUs
  | none => 0

/-- Round index of the last latch's instant (R24). -/
def Part.lastRoundIndex (p : Part) : Nat :=
  match p.tick.lastNs with
  | some ns => roundIndex ns p.tick.lastUs p.tick.lastTicks
  | none => 0

/-- Round that the last latch's interval belongs to (R25). -/
def Part.lastIntervalRound (p : Part) : Nat :=
  match p.tick.lastNs with
  | some ns => intervalRound ns p.tick.lastUs p.tick.lastTicks
  | none => 0

/-- ISLAND_MISSING (R46): recorded in the tick's sample, with a contained fault. -/
def execIslandMissing (island : Nat) (s : State) : Host.Outcome State Fault Refusal :=
  .next (s.onUlg fun u =>
    ({ u with p := { u.p with tick := { u.p.tick with missing := u.p.tick.missing ++ [island] } } }).event
      ULG_TIME_EVENT_ISLAND_MISSING)

/-- A committed tick change begins to govern once its activation instant has been reached and, where ticks are taken, the
latch at that instant has ended the last interval of the old period (R50). -/
def Part.activateTick (p : Part) : Part :=
  match p.tick.wait with
  | some (us, ticks, act) =>
    if act ≤ p.nowNs ∧ p.tick.lastNs.all (act ≤ ·) then { p with tick := { p.tick with us := us, ticks := ticks, wait := none } }
    else p
  | none => p

/-- TICK_ACTIVATION (R50). -/
def execTickActivation (part : PartSel) (s : State) : Host.Outcome State Fault Refusal :=
  .next (s.onPart part (fun a => { a with p := a.p.activateTick }) (fun u => { u with p := u.p.activateTick }))

end Sys2Proof.Machine
end

