-- ==== Sys2Proof/Machine/Counting.lean ====
section
/-! DEFINITION. Counting on the Uligo (02): the event, uncore, queue-probe and command-tag inputs, overflow sampling,
event rings, and the sample record. -/

namespace Sys2Proof.Machine

/-! ### Small operations -/

/-- The Uligo with its counting state changed. -/
def Ulg.onCnt (u : Ulg) (f : UlgCount → UlgCount) : Ulg := { u with cnt := f u.cnt }

/-- The Uligo with the interval under way changed. -/
def Ulg.onInterval (u : Ulg) (f : Interval → Interval) : Ulg := u.onCnt fun c => { c with cur := f c.cur }

/-- Set a bit of a section's flags (R84): 2 TD_BEAT, 3 TD_SHADOW, 4 PARITY, 5 EV_OVF. Sections are numbered clusters 0
to 127, uncore buses 128 to 143, queues 144, tags 145. -/
def Ulg.flagSection (u : Ulg) (sec bit : Nat) : Ulg :=
  u.onInterval fun v => { v with sflags := v.sflags.upd sec (fun n => withBit n bit true) }

/-- Mark a core in its cluster's core mask (R85). -/
def Ulg.markCore (u : Ulg) (k : Nat) : Ulg :=
  u.onInterval fun v => { v with mask := v.mask.upd (k / 64) (fun n => withBit n (k % 64) true) }

/-- A ring with one more entry: the newest 64 are kept, and a frozen ring takes none (R80, R81). -/
def EvRing.add (r : EvRing) (stamp code arg : Nat) : EvRing :=
  if r.frozen then r else { r with entries := ((stamp, code, arg % 2 ^ 24) :: r.entries).take 64 }

/-- An entry of the Uligo's own in a core's ring (R80). -/
def Ulg.ringEntry (u : Ulg) (k code arg : Nat) : Ulg :=
  u.onCnt fun c => { c with rings := c.rings.upd k (fun r => r.add u.p.stamp32 code arg) }

/-- A counter belongs to a cluster or uncore bus within `ULG_CNT_CFG` (R71). -/
def counterPresent (clusters buses i : Nat) : Bool :=
  if i < 65536 then decide (i / 512 < clusters) else decide ((i - 65536) / 256 < buses)

/-- Counters of clusters and uncore buses beyond `ULG_CNT_CFG` hold 0 (R71); the shadows keep the last latch, which the
record of the interval before still needs. -/
def UlgCount.trim (c : UlgCount) (clusters buses : Nat) : UlgCount :=
  { c with counters := c.counters.filter fun e => counterPresent clusters buses e.1 }

/-- Add to a counter, mod 2^48 (R71). -/
def Ulg.addCounter (u : Ulg) (i n : Nat) : Ulg :=
  u.onCnt fun c => { c with counters := c.counters.upd i (fun v => (v + n) % 2 ^ 48) }

/-- A beat meets a domain that is not ON: dropped and counted (R444). -/
def Ulg.pdBeat (u : Ulg) (d : Nat) : Ulg :=
  ({ u with pwr := { u.pwr with dropped := u.pwr.dropped.upd d (· + 1) } } : Ulg).event ULG_PD_EVENT_PD_BEAT

/-- A beat meets a full input FIFO (R61): dropped, counted, its section flagged. -/
def Ulg.beatOverflow (u : Ulg) (sec : Nat) : Ulg :=
  ((u.event ULG_CNT_EVENT_EV_OVF).count ULG_CNT_ERR_COUNT_OVF).flagSection sec 5

/-- Byte `e` of a beat. -/
def beatByte (d : BitVec 64) (e : Nat) : Nat := d.toNat / 2 ^ (8 * e) % 256

/-- A parity bit of a 64-bit beat is wrong (R62). -/
def beatParityBad (d : BitVec 64) (par : BitVec 8) : Bool :=
  (List.range 8).any fun b => parityOf 8 (beatByte d b) != bitAt par.toNat b

/-- The tick whose interval is under way (R25): the next one to latch. -/
def Ulg.tickUnderWay (u : Ulg) : Nat := tickOf u.p.nextTickNs u.p.tick.us

/-- A top-down violation of a core (R64, R73): KIND 1 a beat, 2 a shadow. The first since both events were clear is
recorded (R98). -/
def Ulg.tdFail (u : Ulg) (k kind tick : Nat) : Ulg :=
  let u := if u.bit ULG_TD_FIRST_VALID then u
    else (((u.put ULG_TD_FIRST_CORE k).put ULG_TD_FIRST_KIND kind).put ULG_TD_FIRST_VALID 1).put ULG_TD_FIRST_TICK tick
  (u.count ULG_CNT_ERR_COUNT_TD).event (if kind = 1 then ULG_CNT_EVENT_TD_BEAT else ULG_CNT_EVENT_TD_SHADOW)

/-- A beat meets no counter of its own: its cluster's group is not ON, it meets a full FIFO, its cluster is not
present, or its parity is bad (R444, R61, R71, R65). The Uligo after that, `none` for a beat that is taken. A beat for a
cluster beyond ULG_CNT_CFG is ignored whole (log entry 165). -/
def Ulg.dropEvBeat (u : Ulg) (b : EvBeat) (kind : Nat) : Option Ulg :=
  let c : Nat := b.cluster
  let k := 64 * c + b.core
  if !u.domainOn (c / 8) then some (u.pdBeat (c / 8))
  else if u.cfg ULG_CNT_CFG_CLUSTERS ≤ c then some u
  else if b.full then some ((u.beatOverflow c).markCore k)
  else if beatParityBad b.data b.par then
    some (((((u.event ULG_CNT_EVENT_EV_PARITY).count ULG_CNT_ERR_COUNT_PARITY).flagSection c 4).markCore k).ringEntry
      k 0x82 kind)
  else none

/-- A beat that breaks the event-bus protocol (R66, R15). -/
def Ulg.busViolation (u : Ulg) : Ulg := u.event ULG_CNT_EVENT_BUS_VIOL

/-! ### Overflow sampling (R75 to R79) -/

/-- The period of a slot: below 256 it acts as 256 (R75). -/
def Ulg.ovsPeriod (u : Ulg) (s : Nat) : Nat := max (u.reg (ULG_OVS_SLOT_PERIOD s)) 256

/-- A sample is lost (R76, R78). -/
def Ulg.ovsLost (u : Ulg) : Ulg :=
  ((u.event ULG_CNT_EVENT_OVS_LOST).count ULG_CNT_ERR_COUNT_LOST).onInterval fun v => { v with ovsLost := true }

/-- Request a sample of a core for a slot (R75, R76). -/
def Ulg.ovsRequest (u : Ulg) (s k : Nat) : Ulg :=
  if (u.cnt.request.get k).isSome then u.ovsLost
  else
    let u := u.ringEntry k 0x80 s
    (u.onCnt fun c => { c with request := c.request.set k (some (s, u.p.stamp32)) }).send (.smpReq k)

/-- One slot sees a COUNT beat of core `k` (R75). -/
def Ulg.ovsSlot (b : EvBeat) (k : Nat) (u : Ulg) (s : Nat) : Ulg :=
  let ctr := u.reg (ULG_OVS_SLOT_COUNTER s)
  if u.bit (ULG_OVS_SLOT_EN s) ∧ ctr / 8 = k then
    let r := u.cnt.remainder.get s + beatByte b.data (ctr % 8)
    let per := u.ovsPeriod s
    if per ≤ r then (u.onCnt fun c => { c with remainder := c.remainder.set s (r - per) }).ovsRequest s k
    else u.onCnt fun c => { c with remainder := c.remainder.set s r }
  else u

/-- OVS_SLOT_WRITE (R75): the slot takes its fields at the write, with a remainder of 0. -/
def execOvsSlotWrite (slot : Fin 64) (value : Word) (s : State) : Host.Outcome State Fault Refusal :=
  .next (s.onUlg fun u =>
    let v := value.toNat
    let i : Nat := slot
    let u := (((u.put (ULG_OVS_SLOT_COUNTER i) v).put (ULG_OVS_SLOT_EN i) (v / 2 ^ 16)).put
      (ULG_OVS_SLOT_CTRL_CORE i) (v / 2 ^ 17)).put (ULG_OVS_SLOT_PERIOD i) (v / 2 ^ 23)
    u.onCnt fun c => { c with remainder := c.remainder.set i 0 })

/-- OVS_REQUEST_TIMEOUT (R76): 256 EV_CLK cycles without an answer. -/
def execOvsRequestTimeout (core : Fin 8192) (s : State) : Host.Outcome State Fault Refusal :=
  .next (s.onUlg fun u =>
    if (u.cnt.request.get core).isSome then
      (u.onCnt fun c => { c with request := c.request.set core none }).ovsLost
    else u)

/-- An entry of a sample FIFO as `ULG_OVS_POP` shows it (R98). -/
def ovsPopWord (e : OvsEntry) : Nat := 1 + e.slot * 2 + e.core * 2 ^ 7 + e.stamp * 2 ^ 20

/-- OVS_POP (R78): pops the FIFO of the reading control core. -/
def execOvsPop (mid : Fin 64) (s : State) : Host.Outcome State Fault Refusal :=
  .next (s.onUlg fun u =>
    match u.cnt.fifo.get mid with
    | [] => u.answer 0
    | e :: rest =>
      (u.onCnt fun c => { c with fifo := c.fifo.set mid rest, popped := c.popped.set mid e.data }).answer (ovsPopWord e))

/-! ### The event bus (R62 to R66) -/

/-- A COUNT beat that is taken (R63, R64, R75). Of two slots of one core that complete on the same beat the lowest makes the
request, and the others find it outstanding and count in `OVS_LOST` (R76, log entry 128). -/
def Ulg.countData (u : Ulg) (b : EvBeat) : Ulg :=
  let k := 64 * (b.cluster : Nat) + b.core
  let u := (List.range 8).foldl (fun u e => u.addCounter (8 * k + e) (beatByte b.data e)) u
  let sum := beatByte b.data 2 + beatByte b.data 3 + beatByte b.data 4 + beatByte b.data 5
  let u := if beatByte b.data 1 = sum then u
    else (((u.tdFail k 1 u.tickUnderWay).flagSection b.cluster 2).markCore k).ringEntry k 0x81 0
  (List.range 64).foldl (Ulg.ovsSlot b k) u

/-- COUNT_BEAT (R64). -/
def execCountBeat (b : EvBeat) (s : State) : Host.Outcome State Fault Refusal :=
  .next (s.onUlg fun u => (u.dropEvBeat b 0).getD (u.countData b))

/-- A sample for a control core (R76, R78): a full FIFO drops it. -/
def Ulg.ovsPush (u : Ulg) (e : OvsEntry) : Ulg :=
  let q := u.cnt.fifo.get e.ctrl
  if q.length < 16 then
    (u.onCnt fun c => { c with fifo := c.fifo.set e.ctrl (q ++ [e]) }).onInterval fun v =>
      { v with ovs := v.ovs ++ [e] }
  else u.ovsLost

/-- SAMPLE_BEAT (R66, R76): the answer to the core's outstanding request. -/
def execSampleBeat (b : EvBeat) (s : State) : Host.Outcome State Fault Refusal :=
  .next (s.onUlg fun u =>
    let k := 64 * (b.cluster : Nat) + b.core
    (u.dropEvBeat b 1).getD (
      match u.cnt.request.get k with
      | none => u.busViolation
      | some (slot, stamp) =>
        (u.onCnt fun c => { c with request := c.request.set k none }).ovsPush
          { slot := slot, ctrl := u.reg (ULG_OVS_SLOT_CTRL_CORE slot), core := k, stamp := stamp, data := b.data.toNat }))

/-- RING_BEAT (R66, R80, R81). -/
def execRingBeat (b : EvBeat) (s : State) : Host.Outcome State Fault Refusal :=
  .next (s.onUlg fun u =>
    let k := 64 * (b.cluster : Nat) + b.core
    let code := beatByte b.data 0
    (u.dropEvBeat b 2).getD (
      if code = 0 ∨ 0x80 ≤ code then u.busViolation
      else if (u.cnt.rings.get k).frozen then
        u.onCnt fun c => { c with rings := c.rings.upd k (fun r => { r with refused := min (r.refused + 1) (2 ^ 24 - 1) }) }
      else u.ringEntry k code (b.data.toNat / 2 ^ 8)))

/-- RESERVED_KIND_BEAT (R66). -/
def execReservedKindBeat (b : EvBeat) (s : State) : Host.Outcome State Fault Refusal :=
  .next (s.onUlg fun u => (u.dropEvBeat b 3).getD u.busViolation)

/-! ### Uncore, queue-probe and command-tag inputs (R67 to R70) -/

/-- The domain of the uncore and queue-probe islands (R444). -/
def domUncore : Nat := 0x10

/-- UNCORE_BEAT (R67). -/
def execUncoreBeat (b : UevBeat) (s : State) : Host.Outcome State Fault Refusal :=
  .next (s.onUlg fun u =>
    let bus : Nat := b.bus
    if !u.domainOn domUncore then u.pdBeat domUncore
    else if u.cfg ULG_CNT_CFG_UNCORE_BUSES ≤ bus then u
    else if b.full then u.beatOverflow (128 + bus)
    else if beatParityBad b.data b.par then
      ((u.event ULG_CNT_EVENT_EV_PARITY).count ULG_CNT_ERR_COUNT_PARITY).flagSection (128 + bus) 4
    else
      (List.range 8).foldl
        (fun u e => u.addCounter (65536 + 256 * bus + 8 * (b.grp : Nat) + e) (beatByte b.data e)) u)

/-- Queue statistics with the depth held up to probe edge `e` (R69). -/
def QueueStat.hold (q : QueueStat) (depth e : Nat) : QueueStat :=
  if q.lastEdge < e then
    { q with
      depthSum := q.depthSum + depth * (e - q.lastEdge), lastEdge := e, depthMax := max q.depthMax depth
      depthSat := q.depthSat || decide (65535 ≤ depth) }
  else q

/-- The parity bit of a queue-probe beat: the XOR of all its other data signals (R68). -/
def qpParity (b : QpBeat) : Bool :=
  parityOf 42 ((b.id : Nat) + (if b.push then 16 else 0) + (if b.pop then 32 else 0) + b.depth.toNat * 2 ^ 6 +
    b.age.toNat * 2 ^ 22)

/-- A queue-probe beat that is taken (R69). -/
def Ulg.queueData (u : Ulg) (b : QpBeat) (e : Nat) : Ulg :=
  let q := 16 * (b.bus : Nat) + b.id
  let old := u.cnt.depth.get q
  let st := (u.cnt.cur.queues.get q).hold old (e - 1)
  let err := b.depth.toNat + (if b.pop then 1 else 0) ≠ old + (if b.push then 1 else 0)
  let st := st.hold b.depth.toNat e
  let st := if b.push then { st with pushes := st.pushes + 1 } else st
  let st :=
    if b.pop then
      { st with
        pops := st.pops + 1, delayMax := max st.delayMax b.age.toNat, delaySum := st.delaySum + b.age.toNat
        ageSat := st.ageSat || decide (2 ^ 20 - 1 ≤ b.age.toNat) }
    else st
  let st := if err then { st with probeErr := true } else st
  let u := u.onCnt fun c =>
    { c with depth := c.depth.set q b.depth.toNat, cur := { c.cur with queues := c.cur.queues.set q st } }
  if err then u.event ULG_CNT_EVENT_PROBE_ERR else u

/-- QUEUE_PROBE_BEAT (R68, R69). A parity drop is counted; it sets no event of its own. -/
def execQueueProbeBeat (b : QpBeat) (s : State) : Host.Outcome State Fault Refusal :=
  .next (s.onUlg fun u =>
    let bus : Nat := b.bus
    let q := 16 * bus + b.id
    if !u.domainOn domUncore then u.pdBeat domUncore
    else
      let e := u.cnt.cur.edges.get bus + max b.edges 1
      let u := u.onInterval fun v => { v with edges := v.edges.set bus e }
      if b.full then u.beatOverflow 144
      else if u.cfg ULG_CNT_CFG_QUEUES ≤ q then u
      else if b.par != qpParity b then
        (u.count ULG_CNT_ERR_COUNT_PARITY).onInterval fun v =>
          { v with queues := v.queues.upd q (fun t => { t with parity := true }) }
      else u.queueData b e)

/-- The parity bit of a command-tag beat: R70 names `CT_PAR` without defining it; it is taken as the XOR of `CT_CLUSTER`,
`CT_ALL`, `CT_LAYER` and `CT_OP` (log entry 128). -/
def ctParity (b : CtBeat) : Bool :=
  parityOf 40 ((b.cluster : Nat) + (if b.all then 2 ^ 7 else 0) + b.layer.toNat * 2 ^ 8 + b.op.toNat * 2 ^ 24)

/-- A tag with one more beat; CHANGES saturates at 65,535, and 65,536 stands for saturated (R89). -/
def TagStat.beat (t : TagStat) (layer op : Nat) : TagStat :=
  { t with layer := layer, op := op, changes := min (t.changes + 1) 65536 }

/-- COMMAND_TAG_BEAT (R70). -/
def execCommandTagBeat (b : CtBeat) (s : State) : Host.Outcome State Fault Refusal :=
  .next (s.onUlg fun u =>
    let n := u.cfg ULG_CNT_CFG_CLUSTERS
    if b.full then u.beatOverflow 145
    else if b.par != ctParity b then
      let u := u.count ULG_CNT_ERR_COUNT_PARITY
      if (b.cluster : Nat) < n then
        u.onInterval fun v => { v with tags := v.tags.upd b.cluster (fun t => { t with parity := true }) }
      else u
    else
      let cs := if b.all then List.range n else if (b.cluster : Nat) < n then [(b.cluster : Nat)] else []
      u.onInterval fun v =>
        { v with tags := cs.foldl (fun t c => t.upd c (fun g => g.beat b.layer.toNat b.op.toNat)) v.tags })

/-! ### Event rings and hangs (R80 to R82) -/

/-- HANG (R81): the ring freezes at the first island edge after the evaluation that found the hang, and the fault names the
core. A core that still meets the condition after its ring is unfrozen is detected again only once a tick has broken the
condition (flag `hung`, log entry 128). -/
def execHang (core : Fin 8192) (s : State) : Host.Outcome State Fault Refusal :=
  .next (s.onUlg fun u =>
    let r := u.cnt.rings.get core
    let n := u.cfg ULG_CNT_CFG_HANG_TICKS
    if 0 < n ∧ n ≤ r.hangTicks ∧ ¬ r.hung then
      let dump := u.cfgOn ULG_PACK_CFG_RING_DUMP_EN && !r.frozen
      let r := { r with frozen := true, hung := true, dump := r.dump || dump }
      (u.onCnt fun c => { c with rings := c.rings.set core r }).event ULG_CNT_EVENT_HANG (cores := [(core : Nat)])
    else u)

/-- A ring unfrozen, with its 0x83 entry (R80, R82). A pending dump stays queued, and the dump shows the ring as it stands at
packing (log entry 128). -/
def EvRing.thaw (r : EvRing) (stamp : Nat) : EvRing :=
  if r.frozen then ({ r with frozen := false, refused := 0 } : EvRing).add stamp 0x83 r.refused else r

/-- RING_UNFREEZE (R82). -/
def execRingUnfreeze (core : Fin 8192) (all : Bool) (s : State) : Host.Outcome State Fault Refusal :=
  .next (s.onUlg fun u =>
    u.onCnt fun c =>
      if all then { c with rings := c.rings.map (fun e => (e.1, e.2.thaw u.p.stamp32)) }
      else if (c.rings.get core).frozen then { c with rings := c.rings.upd core (fun r => r.thaw u.p.stamp32) }
      else c)

/-- FULL_NEXT (R87): the next record is all full. -/
def execFullNext (s : State) : Host.Outcome State Fault Refusal :=
  .next (s.onUlg fun u => u.put ULG_PACK_CTRL_FULL_NEXT 1)

/-! ### Sections of the sample record (R84 to R90) -/

/-- A section's bytes: its header, with LEN, and its body padded to 8 bytes (R84). -/
def Section.bytes (x : Section) : List Byte :=
  let body := padTo 8 x.body
  leBytes 1 x.type ++ leBytes 1 x.sflags ++ leBytes 2 x.index ++ leBytes 4 (8 + body.length) ++ body

/-- The smallest width code whose width holds a value (R85). -/
def widthCode (n : Nat) : Nat := ceilDiv (bitLen n) 4

/-- The delta of a counter (R72). -/
def UlgCount.delta (c : UlgCount) (i : Nat) : Nat := (c.shadow.get i + 2 ^ 48 - c.prev.get i) % 2 ^ 48

/-- The width codes of `m` columns of a block of `n` × `m` deltas from counter `base` on (R85, R86). -/
def UlgCount.codes (c : UlgCount) (base n m : Nat) : List Nat :=
  (List.range m).map fun e =>
    widthCode ((List.range n).foldl (fun acc k => max acc (c.delta (base + m * k + e))) 0)

/-- Codes as nibbles of a word. -/
def nibbles (l : List Nat) : Nat := (packBits (l.map fun c => (c, 4))).1

/-- A cluster's section body (R85): the core mask when any core is marked, then full or delta values. -/
def UlgCount.clusterBody (c : UlgCount) (cl mask : Nat) (full : Bool) : List Byte :=
  let base := 512 * cl
  let codes := if full then [] else c.codes base 64 8
  let m := if mask = 0 then [] else leBytes 8 mask
  let vals := (List.range 512).map fun (i : Nat) =>
    if full then (c.shadow.get (base + i), 48) else (c.delta (base + i), 4 * codes.getD (i % 8) 0)
  leBytes 4 (nibbles codes) ++ zeros 4 ++ m ++ packBytes vals

/-- An uncore bus's section body (R86). -/
def UlgCount.uncoreBody (c : UlgCount) (bus : Nat) (full : Bool) : List Byte :=
  let base := 65536 + 256 * bus
  let codes := (List.range 32).map fun g =>
    if full then 0
    else widthCode ((List.range 8).foldl (fun acc e => max acc (c.delta (base + 8 * g + e))) 0)
  let vals := (List.range 256).map fun i =>
    if full then (c.shadow.get (base + i), 48) else (c.delta (base + i), 4 * codes.getD (i / 8) 0)
  leBytes 16 (nibbles codes) ++ packBytes vals

/-- A queue's entry (R88). DEPTH_MEAN is 0 where the bus had no edge in the interval (log entry 128). -/
def QueueStat.bytes (q : QueueStat) (edges : Nat) : List Byte :=
  let fl := [q.pops == 0, q.depthSat, q.ageSat, q.probeErr, q.parity]
  let flags := (packBits (fl.map fun b => (if b then 1 else 0, 1))).1
  leBytes 2 q.depthMax ++ leBytes 2 flags ++ leBytes 4 (if edges = 0 then 0 else 256 * q.depthSum / edges) ++
    leBytes 4 q.delayMax ++ leBytes 4 (if q.pops = 0 then 0 else 16 * q.delaySum / q.pops) ++ leBytes 4 q.pops ++
    leBytes 4 q.pushes

/-- The QUEUE section's body (R88). -/
def queueBody (l : Latched) : List Byte :=
  ((List.range 16).map fun b => leBytes 4 (l.iv.edges.get b)).flatten ++
    ((List.range l.queues).map fun q => (l.iv.queues.get q).bytes (l.iv.edges.get (q / 16))).flatten

/-- A cluster's tag entry (R89). -/
def TagStat.bytes (t : TagStat) : List Byte :=
  leBytes 2 t.layer0 ++ leBytes 2 t.op0 ++ leBytes 2 t.layer ++ leBytes 2 t.op ++ leBytes 2 (min t.changes 65535) ++
    leBytes 2 ((if 65535 < t.changes then 1 else 0) + (if t.parity then 2 else 0))

/-- The TAG section's body (R89). -/
def tagBody (l : Latched) : List Byte := ((List.range l.clusters).map fun c => (l.iv.tags.get c).bytes).flatten

/-- A ring entry in 8 bytes (R80). -/
def ringEntryWord (e : Nat × Nat × Nat) : Nat := e.1 % 2 ^ 32 + e.2.1 % 2 ^ 8 * 2 ^ 32 + e.2.2 % 2 ^ 24 * 2 ^ 40

/-- The 64 entries of a ring, oldest first, unused ones zero (R90). -/
def EvRing.words (r : EvRing) : List Nat :=
  (r.entries.reverse.map ringEntryWord) ++ List.replicate (64 - r.entries.length) 0

/-- A sample entry of an OVS section (R90). -/
def OvsEntry.bytes (e : OvsEntry) : List Byte :=
  leBytes 1 e.slot ++ leBytes 1 e.ctrl ++ leBytes 2 e.core ++ leBytes 4 e.stamp ++ leBytes 8 e.data

/-- A counter section (R84, R85, R86): MISSING has no body; an absent one (`none`) has no delta and no flag. `n` is
the section number. -/
def UlgCount.counterSection (c : UlgCount) (l : Latched) (missing : List Nat) (full : Bool) (n : Nat) :
    Option Section :=
  let cl := decide (n < 128)
  let idx := if cl then n else n - 128
  let type := (if cl then 1 else 3) + (if full then 1 else 0)
  let fl := l.iv.sflags.get n
  let mask := if cl then l.iv.mask.get n else 0
  if missing.contains n then some { type := type, sflags := withBit fl 0 true, index := idx, body := [] }
  else
    let any := if cl then (List.range 512).any (fun i => c.delta (512 * n + i) ≠ 0)
      else (List.range 256).any (fun i => c.delta (65536 + 256 * idx + i) ≠ 0)
    if full || any || fl ≠ 0 || mask ≠ 0 then
      some {
        type := type, sflags := withBit fl 1 (mask ≠ 0), index := idx
        body := if cl then c.clusterBody n mask full else c.uncoreBody idx full }
    else none

/-- The power domain of a counter section (R444). -/
def sectionDomain (n : Nat) : Nat := if n < 128 then n / 8 else domUncore

/-- Whether a section is due full by cadence (R87). -/
def keyDue (keyTicks n tick : Nat) : Bool :=
  0 < keyTicks && (n + keyTicks - tick % keyTicks) % keyTicks == 0

/-- A parity error found while a counter is read (R74). -/
def Ulg.counterParity (u : Ulg) (_i : Nat) : Ulg := (u.event ULG_CNT_EVENT_CNT_PARITY).count ULG_CNT_ERR_COUNT_PARITY

/-- The section of a counter. -/
def counterSectionOf (i : Nat) : Nat := if i < 65536 then i / 512 else 128 + (i - 65536) / 256

/-- An interval with the marks of a counter's parity error (R74): the section's PARITY, the core, and that the section is
due full in the next record (R87). -/
def Interval.markParity (v : Interval) (i : Nat) : Interval :=
  let v := { v with
    cntPar := counterSectionOf i :: v.cntPar
    sflags := v.sflags.upd (counterSectionOf i) (fun f => withBit f 4 true) }
  if i < 65536 then { v with mask := v.mask.upd (i / 512) (fun m => withBit m (i / 8 % 64) true) } else v

/-- A counter is read outside the packing (R74): whether its parity is found wrong is a free value (log entry 126). The
counter goes on from its stored value; the interval under way carries the marks. -/
def Ulg.liveParity (u : Ulg) (i : Nat) : Ulg :=
  let d := u.p.draw
  let u := { u with p := d.2 }
  if i < 69632 ∧ d.1 % 2 = 1 then (u.counterParity i).onInterval fun v => v.markParity i else u

/-- The cores of a cluster whose shadow deltas break the top-down sum (R73). -/
def UlgCount.tdBad (c : UlgCount) (cl : Nat) : List Nat :=
  (List.range 64).filter fun j =>
    let b := 512 * cl + 8 * j
    c.delta (b + 1) ≠ (c.delta (b + 2) + c.delta (b + 3) + c.delta (b + 4) + c.delta (b + 5)) % 2 ^ 48

/-- The latched interval with a core marked under R73. -/
def Interval.markShadow (v : Interval) (cl j : Nat) : Interval :=
  { v with
    sflags := v.sflags.upd cl (fun f => withBit f 3 true), mask := v.mask.upd cl (fun m => withBit m j true) }

/-- The counter sections in ascending TYPE and INDEX. -/
def sectionsSorted (l : List Section) : List Section :=
  [1, 2, 3, 4].flatMap fun t => l.filter fun x => x.type = t

/-- The sections that follow the counter sections: QUEUE, TAG, RING_DUMP and OVS (R84). An OVS section shows entries and takes
none out of its FIFO (log entry 165). -/
def Ulg.tailSections (u : Ulg) (l : Latched) (missing dumps : List Nat) : List Section :=
  let fl (n : Nat) := withBit (l.iv.sflags.get n) 0 (missing.contains n)
  let ovs := l.iv.ovs.take 64
  (if 0 < l.queues then [{ type := 5, sflags := fl 144, body := queueBody l }] else []) ++
    [{ type := 6, sflags := fl 145, body := tagBody l }] ++
    dumps.map (fun k => { type := 7, index := k, body := ((u.cnt.rings.get k).words.map (leBytes 8)).flatten }) ++
    (if u.cfgOn ULG_PACK_CFG_OVS_TO_REC ∧ ovs ≠ [] then
      [{ type := 8, body := (ovs.map OvsEntry.bytes).flatten }] else [])

/-- The record buffer that packing takes (R92): the lower one when both are free (log entry 128). -/
def Ulg.freeBuffer (u : Ulg) : Option Nat :=
  let b := u.reg ULG_CNT_STATUS_BUF_BUSY
  if !bitAt b 0 then some 0 else if !bitAt b 1 then some 1 else none

/-- The counter domains whose part of a latch is lost: OFF in its interval, or since (R444). -/
def Ulg.darkFor (u : Ulg) (l : Latched) : List Nat :=
  l.dark ++ u.pwr.dark ++ (List.range (domUncore + 1)).filter fun d => u.reg (ULG_PD_STATUS_ST d) = 2

/-- The sections that are MISSING from a latch's record (R46, R444): counter sections, and QUEUE (144). -/
def Ulg.missingFor (u : Ulg) (l : Latched) : List Nat :=
  let secs := List.range l.clusters ++ (List.range l.buses).map (128 + ·) ++ [144]
  u.p.tick.missing ++ secs.filter fun n => (u.darkFor l).contains (sectionDomain n)

/-- The packing of a latch into a buffer (R73, R74, R84 to R90). `parity` names the counters on whose read a parity
error is found. -/
def Ulg.pack (u : Ulg) (l : Latched) (buf : Nat) (parity : List Nat) : Ulg :=
  let secs := List.range l.clusters ++ (List.range l.buses).map (128 + ·)
  let missing := u.missingFor l
  let parity := parity.filter fun i => secs.contains (counterSectionOf i) && !missing.contains (counterSectionOf i)
  let u := parity.foldl Ulg.counterParity u
  let iv := parity.foldl Interval.markParity l.iv
  let bad := ((List.range l.clusters).filter fun c => !missing.contains c).flatMap fun c =>
    (u.cnt.tdBad c).map fun j => (c, j)
  let u := bad.foldl (fun u e => u.tdFail (64 * e.1 + e.2) 2 l.tick) u
  let iv := bad.foldl (fun v e => v.markShadow e.1 e.2) iv
  let l := { l with iv := iv }
  let fullNext := u.bit ULG_PACK_CTRL_FULL_NEXT
  let full := !u.cnt.firstDone || fullNext || l.full
  let key := u.cfg ULG_PACK_CFG_KEY_TICKS
  let cs := secs.filterMap fun n =>
    u.cnt.counterSection l missing (full || keyDue key n l.tick || u.cnt.owed.contains n) n
  let dumps := ((u.cnt.rings.filter fun e => e.2.dump).map (·.1)).take 8
  let job : PackJob := {
    l := l, buf := buf, full := full, first := !u.cnt.firstDone
    missing := missing, fullNext := fullNext, sections := sectionsSorted cs ++ u.tailSections l missing dumps }
  let owed := secs.filter fun n => missing.contains n || iv.cntPar.contains n
  let u := u.onCnt fun c =>
    { c with
      due := none, pack := some job, owed := owed, firstDone := true
      rings := dumps.foldl (fun t k => t.upd k (fun r => { r with dump := false })) c.rings }
  u.put ULG_CNT_STATUS_PACKING 1

/-- PACK_START (R92): the latch due is packed once a buffer is free and no record is being packed. -/
def execPackStart (parity : List Nat) (s : State) : Host.Outcome State Fault Refusal :=
  .next (s.onUlg fun u =>
    match u.cnt.due, u.cnt.pack, u.freeBuffer with
    | some l, none, some buf => u.pack l buf parity
    | _, _, _ => u)

/-! ### Records handed to the ports (R158, R159) -/

/-- A port of the Uligo changed. -/
def Ulg.onPort (u : Ulg) (x : Nat) (f : UlgPort → UlgPort) : Ulg :=
  { u with link := { u.link with port := u.link.port.upd x f } }

/-- The ports that are UP or in RETRY. -/
def Ulg.livePorts (u : Ulg) : List Nat :=
  [0, 1].filter fun x => u.reg (ULG_LINK_STATUS_STATE x) = 3 ∨ u.reg (ULG_LINK_STATUS_STATE x) = 4

/-- Free a record buffer. -/
def Ulg.freeRecordBuffer (u : Ulg) (b : Nat) : Ulg :=
  u.put ULG_CNT_STATUS_BUF_BUSY (withBit (u.reg ULG_CNT_STATUS_BUF_BUSY) b false)

/-- Hand a record to the ports (R158, R159): sample and field-test records wait for every port that is UP or in RETRY,
and hold no buffer when none is; tile records and trace blocks wait for the port marked primary. -/
def Ulg.hand (u : Ulg) (stream : Nat) (bytes : List Byte) (buf tile : Option Nat) : Ulg :=
  let r : HeldRec := { id := u.link.nextId, stream := stream, bytes := bytes, buf := buf, tile := tile }
  if stream = 1 ∨ stream = 2 then
    let ps := u.livePorts
    if ps = [] then
      match buf with
      | some b => u.freeRecordBuffer b
      | none => u
    else
      let u := { u with link := { u.link with recs := u.link.recs ++ [{ r with ports := ps }], nextId := r.id + 1 } }
      ps.foldl (fun u x => u.onPort x fun q => { q with queue := q.queue ++ [r.id] }) u
  else { u with link := { u.link with recs := u.link.recs ++ [r], nextId := r.id + 1 } }

/-! ### Closing the record (R83, R91, R92) -/

/-- PARITY in an entry of a QUEUE section (QFLAGS[4], R88) or of a TAG section (TFLAGS[1], R89). -/
def Latched.entryParity (l : Latched) (type : Nat) : Bool :=
  if type = 5 then (List.range l.queues).any fun q => (l.iv.queues.get q).parity
  else if type = 6 then (List.range l.clusters).any fun c => (l.iv.tags.get c).parity
  else false

/-- Flags of the record header (R83). -/
def PackJob.flags (j : PackJob) (part : Bool) (secs : List Section) : Nat :=
  let any (b : Nat) := secs.any fun x => bitAt x.sflags b
  let par := any 4 || secs.any fun x => j.l.entryParity x.type
  let l := [part, any 0, j.full, any 2 || any 3, par, secs.any (fun x => x.type = 7), j.l.iv.ovsLost, j.first,
    j.l.skipped]
  (packBits (l.map fun b => (if b then 1 else 0, 1))).1

/-- A whole sample record (R83, R84, R91). -/
def Ulg.sampleRecord (u : Ulg) (j : PackJob) (part : Bool) (secs : List Section) : List Byte :=
  let body := (secs.map Section.bytes).flatten
  let l := j.l
  withTrailer (leBytes 1 1 ++ leBytes 1 1 ++ leBytes 2 (j.flags part secs) ++ leBytes 1 l.tq ++ zeros 1 ++
    leBytes 2 secs.length ++ leBytes 4 (64 + body.length + 8) ++ leBytes 4 u.fleetDie ++ leBytes 8 u.uid ++
    leBytes 8 l.tick ++ leBytes 4 l.us ++ leBytes 4 l.round ++ leBytes 4 l.epoch ++ leBytes 4 u.p.stamp32 ++
    leBytes 1 l.clusters ++ leBytes 1 l.buses ++ leBytes 2 l.queues ++ leBytes 4 l.ticks ++ zeros 8 ++ body)

/-- Close the record being packed with the sections given, and hand it to the ports. -/
def Ulg.closeRecord (u : Ulg) (j : PackJob) (part : Bool) (secs : List Section) : Ulg :=
  let bytes := u.sampleRecord j part secs
  let u := u.onCnt fun c => { c with pack := none }
  let u := if j.fullNext then u.put ULG_PACK_CTRL_FULL_NEXT 0 else u
  let u := ((u.put ULG_CNT_STATUS_LAST_LEN bytes.length).put ULG_CNT_STATUS_LAST_SECTIONS secs.length).put
    ULG_CNT_STATUS_PACKING 0
  let u := u.put ULG_CNT_STATUS_BUF_BUSY (withBit (u.reg ULG_CNT_STATUS_BUF_BUSY) j.buf true)
  u.hand 1 bytes (some j.buf) none

/-- An entry of a field-test record (R122). -/
def FtOut.bytes (o : FtOut) : List Byte :=
  leBytes 8 o.seq ++ leBytes 1 o.kernel ++ leBytes 1 o.outcome ++ leBytes 2 o.flags ++ leBytes 4 o.stamp ++
    leBytes 2 o.coreA ++ leBytes 2 o.coreB ++ leBytes 2 o.coreC ++ zeros 2 ++ leBytes 4 o.epoch ++ zeros 4 ++
    leBytes 16 o.sigA ++ leBytes 16 o.sigB

/-- The field-test record that follows a tick's sample record, when an outcome waits (R122). -/
def Ulg.ftRecord (u : Ulg) (tick : Nat) : Ulg :=
  let out := u.ft.waiting.take 64
  if out = [] then u
  else
    let body := (out.map FtOut.bytes).flatten
    let bytes := withTrailer (leBytes 1 3 ++ leBytes 1 1 ++ leBytes 2 out.length ++ leBytes 4 (32 + body.length + 8) ++
      leBytes 4 u.fleetDie ++ zeros 4 ++ leBytes 8 u.uid ++ leBytes 8 tick ++ body)
    { u with ft := { u.ft with waiting := u.ft.waiting.drop 64 } }.hand 2 bytes none none

/-- RECORD_CLOSE (R92, R122). -/
def execRecordClose (s : State) : Host.Outcome State Fault Refusal :=
  .next (s.onUlg fun u =>
    match u.cnt.pack with
    | some j => (u.closeRecord j false j.sections).ftRecord j.l.tick
    | none => u)

/-! ### The latch (R44, R47, R69, R72, R81, R93) -/

/-- A record unfinished at the next latch closes as PARTIAL with the sections packed so far, a free number of them
(R47, R92); the counter sections left out are due full (R87), and the dumps left out are pending again (R82). -/
def Ulg.closePartial (u : Ulg) : Ulg :=
  match u.cnt.pack with
  | none => u
  | some j =>
    let d := u.p.draw
    let k := d.1 % (j.sections.length + 1)
    let left := (j.sections.drop k).filterMap fun x =>
      if x.type = 1 ∨ x.type = 2 then some x.index else if x.type = 3 ∨ x.type = 4 then some (128 + x.index) else none
    let u := { u with p := d.2 }
    let u := (u.closeRecord j true (j.sections.take k)).ftRecord j.l.tick
    let dumps := (j.sections.drop k).filterMap fun x => if x.type = 7 then some x.index else none
    (u.onCnt fun c =>
      { c with
        owed := c.owed ++ left
        rings := dumps.foldl (fun t n => t.upd n (fun r => { r with dump := true })) c.rings }).event
      ULG_TIME_EVENT_PARTIAL

/-- A tick whose packing never began has no record (R93). -/
def Ulg.skipTick (u : Ulg) : Ulg :=
  if u.cnt.due.isSome then (u.count ULG_CNT_STATUS_SKIPPED).event ULG_CNT_EVENT_REC_SKIP else u

/-- The queue statistics with the depths held up to the latch (R69). -/
def UlgCount.settleQueues (c : UlgCount) (edges : Tab Nat) (n : Nat) : Tab QueueStat :=
  (List.range n).foldl (fun t q => t.upd q (fun st => st.hold (c.depth.get q) (edges.get (q / 16)))) c.cur.queues

/-- The cores whose counters moved or whose ring counts hang ticks. -/
def UlgCount.hangCores (c : UlgCount) : List Nat :=
  ((c.shadow.map Prod.fst ++ c.prev.map Prod.fst).map (· / 8) ++ c.rings.map Prod.fst).eraseDups

/-- The hang evaluation of a latch (R81). -/
def Ulg.hangEval (u : Ulg) : Ulg :=
  let n := 64 * u.cfg ULG_CNT_CFG_CLUSTERS
  let min := u.cfg ULG_CNT_CFG_HANG_MIN_CYC
  let cores := if min = 0 then List.range n else u.cnt.hangCores.filter (· < n)
  u.onCnt fun c =>
    { c with rings := cores.foldl (fun t k =>
        let h := decide (min ≤ c.delta (8 * k)) && c.delta (8 * k + 2) == 0 && u.domainOn (k / 512)
        t.upd k fun r => { r with hangTicks := if h then r.hangTicks + 1 else 0, hung := r.hung && h }) c.rings }

/-- The interval that begins at a latch: the tags stay (R70, R89). -/
def Interval.begin (v : Interval) : Interval :=
  { tags := (v.tags.map fun e =>
      (e.1, ({ layer0 := e.2.layer, op0 := e.2.op, layer := e.2.layer, op := e.2.op } : TagStat))).filter fun e =>
        decide (e.2 ≠ {}) }

/-- The Uligo's counting at a latch that has been taken by `Part.latchTick`. -/
def Ulg.latchCounting (u : Ulg) (qpEdges : List Nat) : Ulg :=
  let u := u.closePartial
  let skipped := u.cnt.due.isSome
  let wasSkipped := match u.cnt.due with | some l => l.full | none => false
  let u := u.skipTick
  let c := u.cnt
  let edges := (List.range 16).foldl (fun t b => t.upd b (fun e => e + qpEdges.getD b 0)) c.cur.edges
  let nq := u.cfg ULG_CNT_CFG_QUEUES
  let iv := { c.cur with edges := edges, queues := c.settleQueues edges nq }
  let l : Latched := {
    tick := u.p.lastTick, us := u.p.tick.lastUs, ticks := u.p.tick.lastTicks, round := u.p.lastIntervalRound
    tq := u.tq, epoch := u.epoch, clusters := u.cfg ULG_CNT_CFG_CLUSTERS, buses := u.cfg ULG_CNT_CFG_UNCORE_BUSES
    queues := nq, full := c.fullAll || skipped || wasSkipped, skipped := skipped, iv := iv
    dark := u.pwr.dark ++ (List.range (domUncore + 1)).filter fun d => u.reg (ULG_PD_STATUS_ST d) = 2 }
  let u : Ulg := { u with pwr := { u.pwr with dark := [] } }
  let u := u.onCnt fun c =>
    { c with prev := c.shadow, shadow := c.counters, cur := c.cur.begin, due := some l, fullAll := false }
  ((u.put ULG_SHADOW_TICK_TICK u.p.lastTick).put ULG_TICK_NOW_TICK u.p.lastTick).hangEval

end Sys2Proof.Machine
end

