-- ==== Sys2Proof/Machine/FieldTest.lean ====
section
/-! DEFINITION. The field-test sequencer of the Uligo (03, R112 to R122) and its tile replay (11, R362, R363). -/

namespace Sys2Proof.Machine

/-- The Uligo with its field-test state changed. -/
def Ulg.onFt (u : Ulg) (f : UlgFt → UlgFt) : Ulg := { u with ft := f u.ft }

/-- The Uligo with a core's field-test state changed. -/
def Ulg.onFtCore (u : Ulg) (k : Nat) (f : FtCore → FtCore) : Ulg := u.onFt fun t => { t with core := t.core.upd k f }

/-- The Uligo with its replay changed. -/
def Ulg.onRpl (u : Ulg) (f : UlgReplay → UlgReplay) : Ulg := { u with rpl := f u.rpl }

/-- The power domain of the field-test sequencer (R444). -/
def domFieldTest : Nat := 0x12

/-- The parity bit of a field-test beat: the XOR of its other inputs (R112). -/
def ftParity (op : Nat) (b : FtBeat) : Bool := parityOf 72 (op + (b.core : Nat) * 4 + b.data.toNat * 2 ^ 8)

/-- The argument of a field-test ring code (R121). -/
def ftRingArg (kernel seq : Nat) : Nat := kernel % 256 + seq % 65536 * 256

/-! ### Outcomes (R118, R122) -/

/-- An entry for the field-test record from an instance. Outcome codes: 1 PASS, 2 FAIL_A, 3 FAIL_B, 4 NO_MAJORITY,
5 TIMEOUT, 6 DEFERRED, 7 STARVED, 8 ABORTED, 9 UNPAIRED. -/
def Ulg.ftEntry (u : Ulg) (i : FtInst) (outcome flags : Nat) : FtOut where
  seq := i.seq
  kernel := i.kernel
  outcome := outcome
  flags := flags + (if i.forced then 8 else 0) + (if i.aWasDeferred then 16 else 0)
  stamp := u.p.stamp32
  coreA := i.coreA
  coreB := i.coreB.getD 0xFFFF
  coreC := i.coreC.getD 0xFFFF
  epoch := u.epoch
  sigA := i.sigA.getD 0
  sigB := i.sigB.getD 0

/-- An outcome waits for the next field-test record (R122), and is counted (R134). -/
def Ulg.ftReport (u : Ulg) (o : FtOut) : Ulg :=
  let u := u.onFt fun t => { t with waiting := t.waiting ++ [o] }
  match o.outcome with
  | 1 => u.count ULG_FT_COUNT_PASS
  | 2 => u.count ULG_FT_COUNT_FAIL
  | 3 => u.count ULG_FT_COUNT_FAIL
  | 4 => u.count ULG_FT_COUNT_FAIL
  | 5 => u.count ULG_FT_COUNT_TIMEOUT
  | 6 => u.count ULG_FT_COUNT_DEFER
  | _ => u

/-- An instance with its state changed. -/
def Ulg.onInst (u : Ulg) (id : Nat) (f : FtInst → FtInst) : Ulg :=
  u.onFt fun t => { t with inst := t.inst.map fun i => if i.id = id then f i else i }

/-- The core has been tested in its cycle, so its run of deferred cycles ends. -/
def FtCore.tested (c : FtCore) : FtCore := { c with defers := 0, deferred := false }

/-- Close an instance with an outcome. All but TIMEOUT and ABORTED count as tests of its cores (R117, R118). -/
def Ulg.ftClose (u : Ulg) (i : FtInst) (outcome flags : Nat) : Ulg :=
  let u := if outcome = 5 ∨ outcome = 8 then u
    else (i.coreA :: i.coreB.toList).foldl (fun u k => u.onFtCore k FtCore.tested) u
  (u.onFt fun t => { t with inst := t.inst.filter fun j => j.id ≠ i.id }).ftReport (u.ftEntry i outcome flags)

/-- Ring code for a core from an instance. -/
def Ulg.ftRing (u : Ulg) (k code : Nat) (i : FtInst) : Ulg := u.ringEntry k code (ftRingArg i.kernel i.seq)

/-- The core that an instance's running kernel is on, if any. -/
def FtInst.running (i : FtInst) : Option Nat :=
  if i.sigA.isNone then some i.coreA
  else match i.coreB with
    | some b => if i.sigB.isNone then some b else if i.arb then i.coreC else none
    | none => none

/-- The instance holds one result and waits for a partner. -/
def FtInst.oneResult (i : FtInst) : Bool := i.sigA.isSome && i.coreB.isNone

/-- The instance awaits an arbiter. -/
def FtInst.awaitsArbiter (i : FtInst) : Bool := i.arb && i.coreC.isNone

/-- A core's run ends: no kernel runs on it. -/
def FtCore.idle (c : FtCore) : FtCore := { c with run := none, sigLo := none }

/-- An instance closes ABORTED; the signature of its running kernel is discarded when it arrives (R119). -/
def Ulg.ftAbort (u : Ulg) (i : FtInst) : Ulg :=
  let u := match i.running with
    | some k => (u.onFtCore k fun c => { c with run := none, sigLo := none, discard := true }).ftRing k 0x97 i
    | none => u
  u.ftClose i 8 0

/-- Entry into safe state (R119, R363): running kernels are ABORTED, and a replay run in progress is not counted. -/
def Ulg.ftEnterSafe (u : Ulg) : Ulg :=
  let u := (u.ft.inst.filter fun i => i.running.isSome).foldl Ulg.ftAbort u
  if u.reg ULG_RPL_STATUS_STATE = 3 then
    (u.put ULG_RPL_STATUS_STATE 2).onRpl fun r => { r with sigLo := none, late := r.late ++ [u.reg ULG_RPL_STATUS_CORE] }
  else u

/-- The sequencer's domain leaves ON: open instances close ABORTED (R444). -/
def Ulg.ftPowerDown (u : Ulg) : Ulg := u.ft.inst.foldl Ulg.ftAbort u

/-! ### Schedule (R115, R117) -/

/-- The instant at which core `k` falls due in the cycle that begins at second `c` (R115). -/
def ftDueNs (k period c : Nat) : Nat := c * 10 ^ 9 + (128 * (k % 64) + k / 64) * (period * 10 ^ 9) / 8192

/-- A core of a present cluster. -/
def Ulg.corePresent (u : Ulg) (k : Nat) : Bool := decide (k < 64 * u.cfg ULG_CNT_CFG_CLUSTERS)

/-- FT_CORE_DUE (R115, R116): the core's next due instant has come. -/
def execFtCoreDue (core : Fin 8192) (s : State) : Host.Outcome State Fault Refusal :=
  .next (s.onUlg fun u =>
    let k : Nat := core
    let per := u.cfg ULG_FT_CFG_PERIOD_S
    let cyc := u.p.nowSec / per * per
    let d0 := ftDueNs k per cyc
    let due := if (u.ft.core.get k).dueAt < d0 then d0 else ftDueNs k per (cyc + per)
    let u := { u with p := u.p.until due }
    if u.cfgOn ULG_FT_CFG_EN ∧ u.corePresent k ∧ u.epoch ≠ epochNone ∧ u.domainOn domFieldTest then
      u.onFtCore k fun c =>
        { c with state := 1, dueAt := due, done := false, defers := if c.deferred then c.defers else 0, deferred := false }
    else u)

/-- An entry that concerns one core only (R117). -/
def Ulg.ftCoreEntry (u : Ulg) (k outcome : Nat) : FtOut := u.ftEntry { coreA := k } outcome 0

/-- FT_DEFERRED (R117): still due DEADLINE_S after falling due. -/
def execFtDeferred (core : Fin 8192) (s : State) : Host.Outcome State Fault Refusal :=
  .next (s.onUlg fun u =>
    let k : Nat := core
    let c := u.ft.core.get k
    if c.state = 1 then
      let u := { u with p := u.p.until (c.dueAt + u.cfg ULG_FT_CFG_DEADLINE_S * 10 ^ 9) }
      let n := min (c.defers + 1) 255
      let u := u.onFtCore k fun c => { c with state := 2, deferred := true, defers := n }
      let u := (u.ringEntry k 0x95 0).ftReport (u.ftCoreEntry k 6)
      if u.cfg ULG_FT_CFG_DEFER_LIMIT ≤ n then
        ((u.ringEntry k 0x96 0).ftReport (u.ftCoreEntry k 7)).event ULG_FT_EVENT_STARVED
      else u
    else u)

/-! ### Grants (R112, R116, R120, R363) -/

/-- The grant of "no test". -/
def Ulg.noTest (u : Ulg) (k : Nat) : Ulg := u.send (.ftGrant k 0 0 0)

/-- Grant a kernel of an instance to a core: 0x90, or 0x98 for a forced test (R121). -/
def Ulg.ftGrant (u : Ulg) (k : Nat) (i : FtInst) (code : Nat) : Ulg :=
  let key := u.cfg ULG_FT_SEED_SEED ^^^ u.uid
  let now := u.p.nowNs
  let u := u.onFtCore k fun c =>
    { c with run := some i.id, grantAt := now, maxUs := i.maxUs, sigLo := none, discard := false }
  (u.ftRing k code i).send (.ftGrant k i.kernel key i.seq)

/-- The core has used its place in the cycle (R116). -/
def FtCore.granted (c : FtCore) : FtCore := { c with state := 0, done := true }

/-- The enabled entries of the kernel table, in order: ID and MAX_US. -/
def Ulg.kernels (u : Ulg) : List (Nat × Nat) :=
  ((List.range 16).filter fun i => u.cfgOn (ULG_FT_KTAB_EN i)).map fun i =>
    (u.cfg (ULG_FT_KTAB_ID i), u.cfg (ULG_FT_KTAB_MAX_US i))

/-- Open an instance on a core and grant it (R116 rule 3). -/
def Ulg.ftOpen (u : Ulg) (k seq kernel maxUs : Nat) (forced : Bool) : Ulg :=
  let i : FtInst := {
    id := u.ft.nextInst, seq := seq, kernel := kernel, maxUs := maxUs, coreA := k, forced := forced
    aWasDeferred := (u.ft.core.get k).state == 2 }
  let u := u.onFt fun t => { t with inst := t.inst ++ [i], nextInst := t.nextInst + 1 }
  u.ftGrant k i (if forced then 0x98 else 0x90)

/-- The second core joins an instance (R116 rule 2). -/
def Ulg.ftJoin (u : Ulg) (k : Nat) (i : FtInst) (code : Nat) : Ulg :=
  (u.onInst i.id fun j => { j with coreB := some k }).ftGrant k i code

/-- The forced test of a core at its yield (R120): an instance of the same kernel and sequence that holds one result
from another cluster is joined, else a new one is opened. -/
def Ulg.ftForced (u : Ulg) (k kernel seq budget : Nat) : Ulg :=
  match u.kernels.find? (fun e => e.1 = kernel) with
  | none => u.noTest k
  | some (_, maxUs) =>
    if budget < maxUs then u.noTest k
    else
      let done (u : Ulg) : Ulg := u.onFt fun t => { t with force := none }
      match u.ft.inst.find? (fun i => i.oneResult && i.kernel == kernel && i.seq == seq && i.coreA / 64 != k / 64) with
      | some i => done ((u.onInst i.id fun j => { j with forced := true }).ftJoin k i 0x98)
      | none =>
        if 64 ≤ u.ft.inst.length then (u.event ULG_FT_EVENT_TABLE_FULL).noTest k
        else done (u.ftOpen k seq kernel maxUs true)

/-- Rules 2 to 4 of R116 for a core that is due or deferred. -/
def Ulg.ftScheduled (u : Ulg) (k budget : Nat) : Ulg :=
  let c := u.ft.core.get k
  if (c.state = 1 ∨ c.state = 2) ∧ ¬ c.done then
    let open3 : Ulg :=
      match u.kernels with
      | [] => u.noTest k
      | ks =>
        let seq := u.reg ULG_FT_SEQ_SEQ
        let e := ks.getD (seq % ks.length) (0, 0)
        if budget < e.2 then u.noTest k
        else if 64 ≤ u.ft.inst.length then (u.event ULG_FT_EVENT_TABLE_FULL).noTest k
        else ((u.ftOpen k seq e.1 e.2 false).put ULG_FT_SEQ_SEQ (seq + 1)).onFtCore k FtCore.granted
    match u.ft.inst.find? (fun i => i.oneResult && i.coreA / 64 != k / 64) with
    | some i => if i.maxUs ≤ budget then (u.ftJoin k i 0x90).onFtCore k FtCore.granted else open3
    | none => open3
  else u.noTest k

/-- A replay run is granted (R363). The core has yielded, so an older run's signature is no more to come from it. -/
def Ulg.rplGrant (u : Ulg) (k : Nat) : Ulg :=
  let n := u.reg ULG_RPL_STATUS_RUNS_DONE + 1
  let now := u.p.nowNs
  let u := (u.put ULG_RPL_STATUS_STATE 3).onRpl fun r => { r with grantAt := now, sigLo := none, late := r.late.filter (· ≠ k) }
  (u.ringEntry k 0x9A (ftRingArg 0xFF n)).send (.ftGrant k 0xFF u.rpl.seq n)

/-- The grant for a YIELD of core `k` (R116, R119, R363). A core that still has a running grant receives kernel 0x00 (log
entry 129). -/
def Ulg.ftYield (u : Ulg) (k budget : Nat) : Ulg :=
  let c := u.ft.core.get k
  if u.epoch = epochNone ∨ u.safe ∨ ¬ u.corePresent k then u.noTest k
  else if u.reg ULG_RPL_STATUS_STATE = 2 ∧ u.reg ULG_RPL_STATUS_CORE = k ∧ u.rpl.runUs ≤ budget then u.rplGrant k
  else if ¬ u.cfgOn ULG_FT_CFG_EN ∨ c.run.isSome then u.noTest k
  else
    match u.ft.inst.find? (fun i => i.awaitsArbiter && i.coreA / 64 != k / 64 && (i.coreB.getD i.coreA) / 64 != k / 64) with
    | some i => (u.onInst i.id fun j => { j with coreC := some k }).ftGrant k i 0x90
    | none =>
      match u.ft.force with
      | some (fk, kernel, seq) => if fk = k then u.ftForced k kernel seq budget else u.ftScheduled k budget
      | none => u.ftScheduled k budget

/-- YIELD (R112, R113, R116): one grant, but none where `FT_OP` does not read YIELD; a beat with bad parity and one for a domain that is not ON receive kernel 0. -/
def execYieldBeat (b : FtBeat) (s : State) : Host.Outcome State Fault Refusal :=
  .next (s.onUlg fun u =>
    let k := 64 * (b.cluster : Nat) + b.core
    if b.opReserved then u.event ULG_FT_EVENT_FT_VIOL
    else if b.par != ftParity 0 b then (u.event ULG_FT_EVENT_FT_VIOL).noTest k
    else if !u.domainOn domFieldTest then (u.pdBeat domFieldTest).noTest k
    else u.ftYield k (b.data.toNat % 65536))

/-- FT_FORCE (R120). The sequence is the latest not above the next one with the given low half (log entry 18); where there is
none, SEQ_LO itself (log entry 166). -/
def execFtForce (core : Fin 8192) (kernel seqLo : Nat) (s : State) : Host.Outcome State Fault Refusal :=
  .next (s.onUlg fun u =>
    if u.corePresent core ∧ u.kernels.any (fun e => e.1 = kernel) then
      let cur := u.reg ULG_FT_SEQ_SEQ
      let lo := seqLo % 2 ^ 32
      let hi := cur / 2 ^ 32
      let seq := if lo ≤ cur % 2 ^ 32 then hi * 2 ^ 32 + lo else (hi - 1) * 2 ^ 32 + lo
      u.onFt fun t => { t with force := some ((core : Nat), kernel, seq) }
    else u.event ULG_FT_EVENT_FORCE_REFUSED)

/-! ### Signatures (R113, R118) -/

/-- The arbiter's result decides (R118); the fault names the failing core, or both (log entry 127). Flags: 1 C_MATCHED_A, 2 C_MATCHED_B. -/
def Ulg.ftArbitrate (u : Ulg) (i : FtInst) (sig : Nat) : Ulg :=
  let b := i.coreB.getD 0
  let fail (u : Ulg) (k outcome flags : Nat) : Ulg :=
    (((u.onFtCore k fun c => { c with failed := true }).ftRing k 0x93 i).ftClose i outcome flags).event ULG_FT_EVENT_FAIL
      (cores := [k])
  if some sig = i.sigA then fail u b 3 1
  else if some sig = i.sigB then fail u i.coreA 2 2
  else (((u.ftRing i.coreA 0x99 i).ftRing b 0x99 i).ftClose i 4 0).event ULG_FT_EVENT_NO_MAJORITY (cores := [i.coreA, b])

/-- Both signatures of an instance are held (R118). -/
def Ulg.ftCompare (u : Ulg) (i : FtInst) : Ulg :=
  let b := i.coreB.getD 0
  if i.sigA = i.sigB then
    let sec := u.p.nowSec % 2 ^ 32
    let u := (u.onFtCore i.coreA fun c => { c with lastPass := sec }).onFtCore b fun c => { c with lastPass := sec }
    ((u.ftRing i.coreA 0x91 i).ftRing b 0x91 i).ftClose i 1 0
  else
    let now := u.p.nowNs
    ((u.onInst i.id fun j => { j with arb := true, waitFrom := now }).ftRing i.coreA 0x92 i).ftRing b 0x92 i

/-- A core's signature is complete (R113, R118). -/
def Ulg.ftSignature (u : Ulg) (k sig : Nat) : Ulg :=
  match (u.ft.core.get k).run with
  | none => u
  | some id =>
    let u := u.onFtCore k FtCore.idle
    match u.ft.inst.find? (fun i => i.id = id) with
    | none => u
    | some i =>
      if i.sigA.isNone then
        let now := u.p.nowNs
        u.onInst id fun j => { j with sigA := some sig, waitFrom := now }
      else if i.sigB.isNone then
        let i' := { i with sigB := some sig }
        (u.onInst id fun _ => i').ftCompare i'
      else u.ftArbitrate i sig

/-- The elements of a row of `n` elements of `b` bits in bytes: whole beats of 32 bytes (R126). -/
def rowBytes (n b : Nat) : Nat := ceilDiv (n * b) 256 * 32

/-- A replay run ends (R362, R363). -/
def Ulg.rplRunEnd (u : Ulg) (lo hi : Nat) (valid : Bool) : Ulg :=
  let n := u.reg ULG_RPL_STATUS_RUNS_DONE + 1
  let u := u.onRpl fun r => { r with sigs := r.sigs ++ [(lo, hi, valid)], sigLo := none }
  (u.put ULG_RPL_STATUS_RUNS_DONE n).put ULG_RPL_STATUS_STATE (if u.rpl.runs ≤ n then 4 else 2)

/-- The replay's signature is complete: its length and key fields must be right (R363). -/
def Ulg.rplSignature (u : Ulg) (lo hi : Nat) : Ulg :=
  let ok := lo / 2 ^ 32 == u.rpl.outLen && hi == u.rpl.seq
  let u := if ok then u else u.event ULG_RPL_EVENT_BAD_SIG
  u.rplRunEnd lo hi ok

/-- The replay's kernel runs on this core. -/
def Ulg.rplRuns (u : Ulg) (k : Nat) : Bool := u.reg ULG_RPL_STATUS_STATE == 3 && u.reg ULG_RPL_STATUS_CORE == k

/-- SIG_LO (R113). -/
def execSigLo (b : FtBeat) (s : State) : Host.Outcome State Fault Refusal :=
  .next (s.onUlg fun u =>
    let k := 64 * (b.cluster : Nat) + b.core
    let c := u.ft.core.get k
    if !u.domainOn domFieldTest then u.pdBeat domFieldTest
    else if b.opReserved || b.par != ftParity 1 b then u.event ULG_FT_EVENT_FT_VIOL
    else if u.rplRuns k then u.onRpl fun r => { r with sigLo := some b.data.toNat }
    else if c.run.isSome then u.onFtCore k fun c => { c with sigLo := some b.data.toNat }
    else if c.discard || u.rpl.late.contains k then u
    else u.event ULG_FT_EVENT_FT_VIOL)

/-- SIG_HI (R113, R118, R363). -/
def execSigHi (b : FtBeat) (s : State) : Host.Outcome State Fault Refusal :=
  .next (s.onUlg fun u =>
    let k := 64 * (b.cluster : Nat) + b.core
    let c := u.ft.core.get k
    let hi := b.data.toNat
    if !u.domainOn domFieldTest then u.pdBeat domFieldTest
    else if b.opReserved || b.par != ftParity 2 b then u.event ULG_FT_EVENT_FT_VIOL
    else if u.rplRuns k then
      match u.rpl.sigLo with
      | some lo => u.rplSignature lo hi
      | none => u.event ULG_FT_EVENT_FT_VIOL
    else if c.run.isSome then
      match c.sigLo with
      | some lo => u.ftSignature k (hi * 2 ^ 64 + lo)
      | none => u.event ULG_FT_EVENT_FT_VIOL
    else if c.discard then u.onFtCore k fun c => { c with discard := false }
    else if u.rpl.late.contains k then u.onRpl fun r => { r with late := r.late.erase k }
    else u.event ULG_FT_EVENT_FT_VIOL)

/-- A core's part of an instance times out (R113): the first core's closes the instance, the second's and the
arbiter's leave it to another core (log entry 18). -/
def Ulg.ftTimeout (u : Ulg) (k : Nat) (i : FtInst) : Ulg :=
  let u := ((u.onFtCore k FtCore.idle).ftRing k 0x94 i).event ULG_FT_EVENT_TIMEOUT
  if i.sigA.isNone then u.ftClose i 5 0
  else
    let u := u.ftReport (u.ftEntry i 5 0)
    if i.sigB.isNone then u.onInst i.id fun j => { j with coreB := none }
    else u.onInst i.id fun j => { j with coreC := none }

/-- FT_SIG_TIMEOUT (R113): MAX_US have passed since the grant. -/
def execFtSigTimeout (core : Fin 8192) (s : State) : Host.Outcome State Fault Refusal :=
  .next (s.onUlg fun u =>
    let k : Nat := core
    let c := u.ft.core.get k
    match c.run with
    | some id =>
      let u := { u with p := u.p.until (c.grantAt + c.maxUs * 1000) }
      match u.ft.inst.find? (fun i => i.id = id) with
      | some i => u.ftTimeout k i
      | none => u.onFtCore k FtCore.idle
    | none => u.onFtCore k fun c => { c with discard := false })

/-- PAIR_WAIT_EXPIRY (R118): an instance that waits for a partner closes UNPAIRED, one that waits for an arbiter
NO_MAJORITY with C_ABSENT. -/
def execPairWaitExpiry (seq : Nat) (s : State) : Host.Outcome State Fault Refusal :=
  .next (s.onUlg fun u =>
    match u.ft.inst.find? (fun i => i.seq = seq ∧ (i.oneResult ∨ i.awaitsArbiter)) with
    | none => u
    | some i =>
      let u := { u with p := u.p.until (i.waitFrom + u.cfg ULG_FT_CFG_PAIR_WAIT_S * 10 ^ 9) }
      if i.oneResult then u.ftClose i 9 0
      else
        let b := i.coreB.getD 0
        (((u.ftRing i.coreA 0x99 i).ftRing b 0x99 i).ftClose i 4 4).event ULG_FT_EVENT_NO_MAJORITY (cores := [i.coreA, b]))

/-- REPLAY_RUN_TIMEOUT (R363): RUN_US have passed since the grant. -/
def execReplayRunTimeout (s : State) : Host.Outcome State Fault Refusal :=
  .next (s.onUlg fun u =>
    if u.reg ULG_RPL_STATUS_STATE = 3 then
      let u := { u with p := u.p.until (u.rpl.grantAt + u.rpl.runUs * 1000) }
      (u.event ULG_RPL_EVENT_RUN_TIMEOUT).rplRunEnd 0 0 false
    else u)

end Sys2Proof.Machine
end

