-- ==== Sys2Proof/Machine/Tile.lean ====
section
/-! DEFINITION. Tile descriptors and formats (03, R124 to R126), tile capture on the Uligo (R123 to R129, R516). -/

namespace Sys2Proof.Machine

/-! ### Descriptors and formats (R124 to R126) -/

/-- Bits [lo + w − 1 : lo] of a number. -/
def bitsOf (n lo w : Nat) : Nat := n / 2 ^ lo % 2 ^ w

/-- Rows of A and of OUT. -/
def descM (d : Nat) : Nat := bitsOf d 0 9 + 1
/-- Columns of B and of OUT. -/
def descN (d : Nat) : Nat := bitsOf d 9 9 + 1
/-- Elements of a row of A. -/
def descK (d : Nat) : Nat := bitsOf d 18 9 + 1
/-- C_IN is present. -/
def descAcc (d : Nat) : Bool := bitAt d 27
/-- Format of A. -/
def descA (d : Nat) : Nat := bitsOf d 28 4
/-- Format of B. -/
def descB (d : Nat) : Nat := bitsOf d 32 4
/-- Format of C_IN. -/
def descC (d : Nat) : Nat := bitsOf d 36 4
/-- Format of the result. -/
def descOut (d : Nat) : Nat := bitsOf d 40 4
/-- Accumulation profile ID. -/
def descProfile (d : Nat) : Nat := bitsOf d 44 8
/-- Issuing host core. -/
def descCore (d : Nat) : Nat := bitsOf d 64 13

/-- Element bits of a format code; `none` for a reserved code (R125). -/
def fmtBits (f : Nat) : Option Nat :=
  match f with
  | 0x1 => some 4
  | 0x2 => some 6
  | 0x3 => some 6
  | 0x4 => some 8
  | 0x5 => some 8
  | 0x6 => some 8
  | 0x7 => some 8
  | 0x8 => some 4
  | 0x9 => some 16
  | 0xA => some 16
  | 0xB => some 32
  | 0xC => some 32
  | _ => none

/-- An MX format: one 8-bit scale per 32 elements along K (R125). -/
def fmtMx (f : Nat) : Bool := decide (1 ≤ f ∧ f ≤ 6)

/-- The descriptor is valid (R127). -/
def descValid (d : Nat) : Bool :=
  (fmtBits (descA d)).isSome && (fmtBits (descB d)).isSome && (fmtBits (descOut d)).isSome &&
    (!descAcc d || (fmtBits (descC d)).isSome) &&
    (!(fmtMx (descA d) || fmtMx (descB d)) || descK d % 32 == 0)

/-- Beats of `rows` rows of `n` elements of `b` bits: each row starts on a beat boundary (R126). -/
def sectionBeats (rows n b : Nat) : Nat := rows * ceilDiv (n * b) 256

/-- Beats of each kind of a tile, in the order sent: 1 A, 2 SA, 3 B, 4 SB, 5 C_IN, 6 OUT (R123, R126). Kinds absent
from the tile have none. -/
def tilePlan (d : Nat) : List (Nat × Nat) :=
  let bits (f : Nat) := (fmtBits f).getD 0
  [(1, sectionBeats (descM d) (descK d) (bits (descA d))),
   (2, if fmtMx (descA d) then sectionBeats (descM d) (descK d / 32) 8 else 0),
   (3, sectionBeats (descN d) (descK d) (bits (descB d))),
   (4, if fmtMx (descB d) then sectionBeats (descN d) (descK d / 32) 8 else 0),
   (5, if descAcc d then sectionBeats (descM d) (descN d) (bits (descC d)) else 0),
   (6, sectionBeats (descM d) (descN d) (bits (descOut d)))]

/-- Bytes of a section of a tile. -/
def tileSectionLen (d kind : Nat) : Nat := 32 * ((tilePlan d).map fun e => if e.1 = kind then e.2 else 0).sum

/-- Data beats of a tile. -/
def tileBeats (d : Nat) : Nat := ((tilePlan d).map Prod.snd).sum

/-- Length of a tile record (R129). -/
def tileRecordLen (d : Nat) : Nat := 128 + 32 * tileBeats d + 8

/-- Bytes of the image of a replay: every section but OUT (R362). -/
def tileImageLen (d : Nat) : Nat := 32 * tileBeats d - tileSectionLen d 6

/-- The kind of the `i`-th data beat of a tile, 0 beyond the last. -/
def tileKindAt : List (Nat × Nat) → Nat → Nat
  | [], _ => 0
  | e :: t, i => if i < e.2 then e.1 else tileKindAt t (i - e.2)

/-! ### Capture -/

/-- The capture buffer's size (R127). -/
def captureBytes : Nat := 6 * 1024 * 1024

/-- The power domain of tile capture (R444). -/
def domTile : Nat := 0x13

/-- The Uligo with its capture state changed. -/
def Ulg.onTile (u : Ulg) (f : UlgTile → UlgTile) : Ulg := { u with tile := f u.tile }

/-- A parity bit of a tap beat is wrong (R123). -/
def tapParityBad (b : TapBeat) : Bool :=
  (List.range 32).any fun k => parityOf 8 (b.data.toNat / 2 ^ (8 * k) % 256) != bitAt b.par.toNat k

/-- Mark a tap's tile as open or not in the status register. -/
def Ulg.markOpen (u : Ulg) (tap : Nat) (on : Bool) : Ulg :=
  u.put ULG_TILE_STATUS_OPEN (withBit (u.reg ULG_TILE_STATUS_OPEN) tap on)

/-- The seed selects the tap's CMD beat number `n` (R127). -/
def Ulg.seedSelects (u : Ulg) (tap n : Nat) : Bool :=
  (gen (u.cfg ULG_TILE_SEED_SEED ^^^ u.uid) tap n).1 % 2 ^ u.cfg ULG_TILE_CFG_LOG2N == 0

/-- Open a captured tile on a tap (R127, R129). -/
def Ulg.tileSelect (u : Ulg) (tap n d : Nat) (forced : Bool) : Ulg :=
  let tag := u.cnt.cur.tags.get (descCore d / 64)
  let len := tileRecordLen d
  let t : OpenTile := {
    desc := d, cmdIndex := n, cmdNs := u.p.nowNs, reserved := len, forced := forced, layer := tag.layer, op := tag.op }
  let u := u.onTile fun c => { c with tile := c.tile.set tap (some t), reserved := c.reserved + len }
  let u := if forced then u.put ULG_TILE_FORCE_TAP (withBit (u.reg ULG_TILE_FORCE_TAP) tap false) else u
  (u.markOpen tap true).send (.ttCapture tap)

/-- A CMD beat with good parity and a valid descriptor (R127). -/
def Ulg.tileCommand (u : Ulg) (tap n d : Nat) : Ulg :=
  let forced := bitAt (u.reg ULG_TILE_FORCE_TAP) tap
  if u.cfgOn ULG_TILE_CFG_EN ∧ tap < u.cfg ULG_TILE_CFG_TAPS ∧ ¬ u.safe ∧ u.epoch ≠ epochNone ∧
      (forced ∨ u.seedSelects tap n) then
    if (u.tile.tile.get tap).isNone ∧ u.tile.reserved + tileRecordLen d ≤ captureBytes then
      u.tileSelect tap n d forced
    else (u.count ULG_TILE_COUNT_SKIPPED).event ULG_TILE_EVENT_SKIPPED
  else u

/-- CMD_BEAT (R123, R127, R128): every CMD beat counts; only a valid one is selected. -/
def execCmdBeat (b : TapBeat) (s : State) : Host.Outcome State Fault Refusal :=
  .next (s.onUlg fun u =>
    let tap : Nat := b.tap
    let d := b.data.toNat
    if !u.domainOn domTile then u.pdBeat domTile
    else
      let n := u.tile.count.get tap
      let u := u.onTile fun c => { c with count := c.count.set tap (n + 1) }
      if tapParityBad b then u.event ULG_TILE_EVENT_PARITY
      else if !descValid d then u.event ULG_TILE_EVENT_VIOL
      else u.tileCommand tap n d)

/-- Discard the open tile of a tap and free its reservation (R128). -/
def Ulg.tileDiscard (u : Ulg) (tap : Nat) : Ulg :=
  match u.tile.tile.get tap with
  | none => u
  | some t =>
    let u := u.onTile fun c => { c with tile := c.tile.set tap none, reserved := c.reserved - t.reserved }
    (u.markOpen tap false).count ULG_TILE_DISCARD_DISCARDED

/-- TILE_DATA_BEAT (R126, R128). -/
def execTileDataBeat (kind : Fin 8) (b : TapBeat) (s : State) : Host.Outcome State Fault Refusal :=
  .next (s.onUlg fun u =>
    let tap : Nat := b.tap
    if !u.domainOn domTile then u.pdBeat domTile
    else match u.tile.tile.get tap with
      | none => u.event ULG_TILE_EVENT_VIOL
      | some t =>
        if tapParityBad b then (u.tileDiscard tap).event ULG_TILE_EVENT_PARITY
        else if (kind : Nat) = tileKindAt (tilePlan t.desc) t.beats.length ∧ t.beats.length < tileBeats t.desc then
          let t' := { t with beats := ((kind : Nat), b.data.toNat) :: t.beats }
          u.onTile fun c => { c with tile := c.tile.set tap (some t') }
        else (u.tileDiscard tap).event ULG_TILE_EVENT_VIOL)

/-- A tile record (R129). -/
def Ulg.tileRecord (u : Ulg) (tap : Nat) (t : OpenTile) : List Byte :=
  let d := t.desc
  let flags := (if descAcc d then 1 else 0) + (if t.forced then 2 else 0)
  let lens := ((tilePlan d).map fun e => leBytes 4 (32 * e.2)).flatten
  withTrailer (leBytes 1 4 ++ leBytes 1 1 ++ leBytes 2 flags ++ leBytes 4 (tileRecordLen d) ++ leBytes 4 u.fleetDie ++
    leBytes 1 tap ++ zeros 1 ++ leBytes 2 (descCore d) ++ leBytes 8 u.uid ++ leBytes 8 (u.reg ULG_TILE_SEQ_SEQ) ++
    leBytes 8 t.cmdIndex ++ leBytes 4 u.epoch ++ leBytes 4 (t.cmdNs % 2 ^ 32) ++ leBytes 4 u.p.stamp32 ++
    leBytes 2 t.layer ++ leBytes 2 t.op ++ leBytes 32 d ++ lens ++ zeros 16 ++
    (t.beats.reverse.map fun e => leBytes 32 e.2).flatten)

/-- END_BEAT (R128, R129): a complete tile becomes a tile record for the primary aggregator; its reservation stays
until the last flit is acknowledged (R159). The parity of an END beat, which carries nothing, is not checked (log entry
166). -/
def execEndBeat (b : TapBeat) (s : State) : Host.Outcome State Fault Refusal :=
  .next (s.onUlg fun u =>
    let tap : Nat := b.tap
    if !u.domainOn domTile then u.pdBeat domTile
    else match u.tile.tile.get tap with
      | none => u.event ULG_TILE_EVENT_VIOL
      | some t =>
        if t.beats.length = tileBeats t.desc then
          let bytes := u.tileRecord tap t
          let seq := u.reg ULG_TILE_SEQ_SEQ
          let u := u.onTile fun c => { c with tile := c.tile.set tap none }
          let u := (u.markOpen tap false).put ULG_TILE_SEQ_SEQ (seq + 1)
          u.hand 3 bytes none (some seq)
        else (u.tileDiscard tap).event ULG_TILE_EVENT_VIOL)

/-- TILE_TIMEOUT (R128): no END within TIMEOUT_US of the CMD beat. -/
def execTileTimeout (tap : Fin 32) (s : State) : Host.Outcome State Fault Refusal :=
  .next (s.onUlg fun u =>
    match u.tile.tile.get tap with
    | none => u
    | some t =>
      let u := { u with p := u.p.until (t.cmdNs + u.cfg ULG_TILE_CFG_TIMEOUT_US * 1000) }
      (u.tileDiscard tap).event ULG_TILE_EVENT_TIMEOUT)

/-- TILE_FORCE (R127): set force bits. -/
def execTileForce (mask : BitVec 32) (s : State) : Host.Outcome State Fault Refusal :=
  .next (s.onUlg fun u => u.put ULG_TILE_FORCE_TAP (u.reg ULG_TILE_FORCE_TAP ||| mask.toNat))

/-- Bytes of a held record already sent on any port. -/
def Ulg.sentBytes (u : Ulg) (id : Nat) : Nat :=
  [0, 1].foldl (fun n x =>
    (u.link.port.get x).prog.foldl (fun n e =>
      match e.2 with
      | some (i, k) => if i = id then max n k else n
      | none => n) n) 0

/-- A record whose next unsent word was read wrong (R516): the word takes a free value that differs. -/
def spoilBytes (bytes : List Byte) (off free : Nat) : List Byte :=
  let x := if free % 2 ^ 64 = 0 then 1 else free % 2 ^ 64
  bytes.take off ++ leBytes (min 8 (bytes.length - off)) (leAt bytes off 8 ^^^ x) ++ bytes.drop (off + 8)

/-- A record is being sent to its end on a port: bytes of it are still to be sent there, or its last flit to be acknowledged. -/
def Ulg.underWay (u : Ulg) (id : Nat) : Bool :=
  [0, 1].any fun x =>
    (u.link.port.get x).prog.any (fun e => e.2.any fun i => i.1 == id) ||
      (u.link.port.get x).l.unacked.any fun f => f.recId == id && f.last

/-- CAPTURE_BUFFER_UE (R516): an open tile is discarded, a closed record that is not being sent is discarded, and one that
is goes on spoilt, counted once. -/
def execCaptureBufferUe (t : CaptureTarget) (s : State) : Host.Outcome State Fault Refusal :=
  .next (s.onUlg fun u =>
    let u := u.event ULG_TILE_EVENT_PARITY
    match t with
    | .openTile tap => u.tileDiscard tap
    | .record seq =>
      match u.link.recs.find? (fun r => r.tile = some seq) with
      | none => u
      | some r =>
        let u := if r.spoiled then u else u.count ULG_TILE_DISCARD_DISCARDED
        if r.begun && u.underWay r.id then
          let d := u.p.draw
          let off := u.sentBytes r.id
          let r' := { r with bytes := spoilBytes r.bytes off d.1, spoiled := true }
          { u with
            p := d.2
            link := { u.link with recs := u.link.recs.map fun q => if q.id = r.id then r' else q } }
        else
          { u.onTile (fun c => { c with reserved := c.reserved - r.bytes.length }) with
            link := { u.link with recs := u.link.recs.filter fun q => q.id ≠ r.id } })

end Sys2Proof.Machine
end

