-- ==== Sys2Proof/Machine/Trace.lean ====
section
/-! DEFINITION. Control-core trace on the Uligo (03, R101 to R111): filtering, comparators, trace words, the ring and
the trace blocks. -/

namespace Sys2Proof.Machine

/-- The Uligo with its trace state changed. -/
def Ulg.onTrc (u : Ulg) (f : UlgTrace → UlgTrace) : Ulg := { u with trc := f u.trc }

/-- The Uligo with a core's encoder changed. -/
def Ulg.onTrcCore (u : Ulg) (m : Nat) (f : TraceCore → TraceCore) : Ulg :=
  u.onTrc fun t => { t with core := t.core.upd m f }

/-- The power domain of the trace islands (R444). -/
def domTrace : Nat := 0x11

/-! ### Where words go (R110, R111) -/

/-- Words of the 1 MiB ring. -/
def traceRingWords : Nat := 131072

/-- A full ring with STOP_ON_FULL stops the writing and sets RING_FULL, once (R110). -/
def Ulg.ringStop (u : Ulg) : Ulg :=
  if u.trc.ringStopped then u
  else (u.onTrc fun t => { t with ringStopped := true }).event ULG_TRC_EVENT_RING_FULL

/-- A word written to the ring (R110): at the next offset, over the oldest word of a full ring unless STOP_ON_FULL is set;
then the full ring stops the writing and further words are lost. -/
def Ulg.ringWord (u : Ulg) (w : Nat) : Ulg :=
  let stop := u.bit ULG_TRC_CFG_STOP_ON_FULL
  if stop ∧ u.trc.ringCount = traceRingWords then u.ringStop.count ULG_TRC_LOST_WORDS
  else
    let o := u.reg ULG_TRC_RING_PTR_OFFSET
    let n := (o + 1) % traceRingWords
    let c := min (u.trc.ringCount + 1) traceRingWords
    let u := u.onTrc fun t => { t with ring := t.ring.set o w, ringCount := c, ringStopped := false }
    let u := u.put ULG_TRC_RING_PTR_OFFSET n
    let u := if n = 0 then u.put ULG_TRC_RING_PTR_WRAPPED 1 else u
    if stop ∧ c = traceRingWords then u.ringStop else u

/-- A trace block's bytes (R111). -/
def Ulg.traceBlock (u : Ulg) (words : List Nat) (stamp : Nat) : List Byte :=
  withTrailer (leBytes 1 2 ++ leBytes 1 1 ++ leBytes 2 (if u.trc.lost then 1 else 0) ++
    leBytes 4 (32 + 8 * words.length + 8) ++ leBytes 4 u.trc.nextBlock ++ leBytes 4 u.fleetDie ++ leBytes 8 u.uid ++
    leBytes 4 stamp ++ zeros 4 ++ (words.map (leBytes 8)).flatten)

/-- Close the block under construction, if it holds words (R111): it is queued, or dropped when the 64 KiB stream
buffer has no room. -/
def Ulg.closeTraceBlock (u : Ulg) : Ulg :=
  let words := u.trc.openWords.reverse
  if words = [] then u
  else
    let bytes := u.traceBlock words u.trc.openStamp
    let u := u.onTrc fun t => { t with openWords := [], nextBlock := (t.nextBlock + 1) % 2 ^ 32 }
    if u.trc.buffered + bytes.length ≤ 65536 then
      (u.onTrc fun t => { t with lost := false, buffered := t.buffered + bytes.length }).hand 4 bytes none none
    else
      ((u.onTrc fun t => { t with lost := true }).count ULG_TRC_LOST_WORDS words.length).event
        ULG_TRC_EVENT_STREAM_LOST

/-- One trace word of core `m` (R107, R110, R111), with the stamp of its beat. -/
def Ulg.traceWord (u : Ulg) (m w stamp : Nat) : Ulg :=
  let u := u.onTrcCore m fun c => { c with words := c.words + 1 }
  if u.bit ULG_TRC_CFG_MODE then
    let u := u.onTrc fun t =>
      { t with
        openStamp := if t.openWords = [] then stamp else t.openStamp, openWords := w :: t.openWords }
    if u.trc.openWords.length = 512 then u.closeTraceBlock else u
  else u.ringWord w

/-! ### Words of a core (R107, R108) -/

/-- A trace word from its type, core, bits [15:10] and bits [63:16]. -/
def traceWordOf (type m a b : Nat) : Nat := type + m * 2 ^ 4 + a * 2 ^ 10 + b * 2 ^ 16

/-- Write the core's pending COND word, if it holds outcomes; its beat is that of its first outcome (log entry 34). -/
def Ulg.flushCond (u : Ulg) (m : Nat) : Ulg :=
  let c := u.trc.core.get m
  if c.nbits = 0 then u
  else (u.onTrcCore m fun c => { c with nbits := 0, bits := 0 }).traceWord m (traceWordOf 1 m c.nbits c.bits) c.condStamp

/-- Write a GAP; a SYNC is owed before the core's next traced beat (R106, R108). Reasons: 1 PRIV, 2 FILTER,
3 OVERFLOW, 4 PARITY, 5 STOPPED. No beat has been traced since it, so a refusal that follows it writes no GAP of its own and
sets no PRIV_GAP (log entry 129). -/
def Ulg.gap (u : Ulg) (m reason : Nat) : Ulg :=
  let u := (u.flushCond m).traceWord m (traceWordOf 4 m reason u.p.stamp32) u.p.stamp32
  u.onTrcCore m fun c => { c with syncDue := 2, traced := false }

/-- Write a SYNC before a beat (R107, R108). The words to the next periodic SYNC are counted from here, whatever the reason, and
without the SYNC's own two (log entry 166). -/
def Ulg.syncWords (u : Ulg) (b : TraceBeat) (reason : Nat) : Ulg :=
  let m : Nat := b.core
  let u := (u.flushCond m).traceWord m (traceWordOf 3 m ((b.priv : Nat) + reason * 4) u.p.stamp32) u.p.stamp32
  let u := u.traceWord m (traceWordOf 3 m 0 b.pc.toNat) u.p.stamp32
  u.onTrcCore m fun c => { c with syncDue := 0, words := 0 }

/-- Add an outcome to the pending COND word; it is written at 48 (R108). -/
def Ulg.addOutcome (u : Ulg) (m : Nat) (t : Bool) : Ulg :=
  let u := u.onTrcCore m fun c =>
    { c with
      nbits := c.nbits + 1, bits := c.bits + if t then 2 ^ c.nbits else 0
      condStamp := if c.nbits = 0 then u.p.stamp32 else c.condStamp }
  if 48 ≤ (u.trc.core.get m).nbits then u.flushCond m else u

/-! ### Filtering (R103 to R106) -/

/-- A comparator of the beat's core with this ACTION matches (R104). -/
def Ulg.cmpMatch (u : Ulg) (b : TraceBeat) (action : Nat) : Bool :=
  let m : Nat := b.core
  (List.range 8).any fun k =>
    u.bit (ULG_TRC_CMP_EN m k) && u.reg (ULG_TRC_CMP_ACTION m k) == action &&
      (if u.bit (ULG_TRC_CMP_ON m k) then (b.kind : Nat) == 1 && b.target.toNat == u.reg (ULG_TRC_CMP_ADDR m k)
       else b.pc.toNat == u.reg (ULG_TRC_CMP_ADDR m k))

/-- The core has an enabled START comparator (R104). -/
def Ulg.hasStart (u : Ulg) (m : Nat) : Bool :=
  (List.range 8).any fun k => u.bit (ULG_TRC_CMP_EN m k) && u.reg (ULG_TRC_CMP_ACTION m k) == 1

/-- The core's trace is enabled (R103). -/
def Ulg.trcEnabled (u : Ulg) (m : Nat) : Bool := u.bit ULG_TRC_CFG_EN && bitAt (u.reg ULG_TRC_CORE_EN_EN) m

/-- The core's trace state is ACTIVE (R104). -/
def Ulg.trcActive (u : Ulg) (m : Nat) : Bool :=
  u.trcEnabled m && (!u.hasStart m || (u.trc.core.get m).started)

/-- A range of the core with this MODE covers an address (R104). -/
def Ulg.inRange (u : Ulg) (m mode pc : Nat) : Bool :=
  (List.range 4).any fun j =>
    u.reg (ULG_TRC_RANGE_LO_MODE m j) == mode && decide (u.reg (ULG_TRC_RANGE_LO_ADDR m j) ≤ pc) &&
      decide (pc ≤ u.reg (ULG_TRC_RANGE_HI_ADDR m j))

/-- The address passes the include and exclude ranges (R103). -/
def Ulg.addressPasses (u : Ulg) (m pc : Nat) : Bool :=
  let anyInclude := (List.range 4).any fun j => u.reg (ULG_TRC_RANGE_LO_MODE m j) == 1
  (!anyInclude || u.inRange m 1 pc) && !u.inRange m 2 pc

/-- The authorisation has run out (R105). -/
def Ulg.authOver (u : Ulg) : Bool := decide (u.cfg ULG_TRC_AUTH_EXPIRY < u.reg ULG_TICK_NOW_TICK % 2 ^ 48)

/-- The privilege is permitted (R105). -/
def Ulg.privPasses (u : Ulg) (priv : Nat) : Bool :=
  match priv with
  | 0 => true
  | 1 => u.cfgOn ULG_TRC_AUTH_PRIV_OK && !u.authOver
  | 2 => u.cfgOn ULG_TRC_AUTH_SECURE_OK && !u.authOver
  | _ => false

/-- The beat's parity bit: the XOR of every other input (R101). -/
def traceParity (b : TraceBeat) : Bool :=
  parityOf 107 ((b.kind : Nat) + (b.ncond : Nat) * 2 ^ 2 + b.taken.toNat * 2 ^ 5 + b.pc.toNat * 2 ^ 9 +
    b.target.toNat * 2 ^ 57 + (b.priv : Nat) * 2 ^ 105)

/-- The beat breaks the port's protocol (R102). -/
def traceViolation (b : TraceBeat) : Bool :=
  decide (2 ≤ (b.kind : Nat)) || ((b.kind : Nat) == 0 && (b.ncond == 0 || decide (4 < (b.ncond : Nat)))) ||
    (b.priv : Nat) == 3

/-- A beat is refused by privilege, address or a cleared enable (R106): the first after a traced one leaves a GAP. -/
def Ulg.traceRefused (u : Ulg) (b : TraceBeat) (byPriv : Bool) : Ulg :=
  let m : Nat := b.core
  if (u.trc.core.get m).traced then
    let u := u.gap m (if byPriv then 1 else 2)
    if byPriv then u.event ULG_TRC_EVENT_PRIV_GAP else u
  else u

/-- The SYNC that a beat needs before it, if any (R104, R108): START, then what is owed, COMPARATOR, PERIODIC. -/
def Ulg.syncReason (u : Ulg) (b : TraceBeat) (starts : Bool) : Nat :=
  let c := u.trc.core.get b.core
  let per := u.reg ULG_TRC_CFG_SYNC_INTERVAL * 256
  if starts then 1
  else if c.syncDue ≠ 0 then c.syncDue
  else if u.cmpMatch b 3 then 4
  else if 0 < per ∧ per ≤ c.words then 3
  else 0

/-- A beat that passes is encoded (R104, R107, R108). -/
def Ulg.encode (u : Ulg) (b : TraceBeat) (starts : Bool) : Ulg :=
  let m : Nat := b.core
  let r := u.syncReason b starts
  let u := if r = 0 then u else u.syncWords b r
  let u :=
    if (b.kind : Nat) = 0 then
      (List.range b.ncond).foldl (fun u i => u.addOutcome m (b.taken.getLsbD i)) u
    else (u.flushCond m).traceWord m (traceWordOf 2 m 0 b.target.toNat) u.p.stamp32
  let u := u.onTrcCore m fun c => { c with traced := true }
  if u.cmpMatch b 2 then (u.gap m 5).onTrcCore m fun c => { c with started := false } else u

/-- A beat past its parity and protocol checks: comparators, filters, encoder (R103, R104, R106). START and STOP set the
state for a refused beat too. With the enable cleared the refusal is one by FILTER, whatever the privilege (log entry
129). -/
def Ulg.traceFiltered (u : Ulg) (b : TraceBeat) : Ulg :=
  let m : Nat := b.core
  if !u.trcEnabled m then u.traceRefused b false
  else
    let was := u.trcActive m
    let start := u.cmpMatch b 1
    let u := if start then u.onTrcCore m fun c => { c with started := true } else u
    let privOk := u.privPasses b.priv
    let addrOk := u.addressPasses m b.pc.toNat
    if privOk && addrOk then
      if was || start then u.encode b (start && !was) else u
    else
      let u := if start && !was then u.onTrcCore m fun c => { c with syncDue := 1 } else u
      let u := u.traceRefused b (!privOk)
      if u.cmpMatch b 2 then u.onTrcCore m fun c => { c with started := false } else u

/-- The level of the input FIFO when a beat arrives (R109): the encoder has taken all but `left` of the beats in it. -/
def TraceCore.levelAt (c : TraceCore) (b : TraceBeat) : Nat := min c.level b.left

/-- The beat meets a full FIFO, or one that has not drained to half since it was full (R109). -/
def TraceCore.fifoFull (c : TraceCore) (b : TraceBeat) : Bool :=
  (c.overflowing && decide (16 < c.levelAt b)) || decide (32 ≤ c.levelAt b)

/-- An overflow ends with its FIFO at `level`, half empty: a GAP, and what was dropped (R109). The SYNC comes before the next
traced beat. -/
def Ulg.traceRecover (u : Ulg) (m level : Nat) : Ulg :=
  let c := u.trc.core.get m
  if c.overflowing then
    ((u.onTrcCore m fun c => { c with overflowing := false, dropped := 0, level := level }).gap m 3).count
      ULG_TRC_LOST_BEATS c.dropped |>.event ULG_TRC_EVENT_OVERFLOW
  else u

/-- TRACE_BEAT (R101 to R109). Parity is checked before the protocol. The FIFO keeps its level; a beat it takes is encoded at
once, and the first one that finds it half empty ends an overflow (log entry 130). -/
def execTraceBeat (b : TraceBeat) (s : State) : Host.Outcome State Fault Refusal :=
  .next (s.onUlg fun u =>
    let m : Nat := b.core
    let n := (u.trc.core.get m).levelAt b
    if !u.domainOn domTrace then (u.pdBeat domTrace).count ULG_TRC_LOST_BEATS
    else if (u.trc.core.get m).fifoFull b then
      u.onTrcCore m fun c => { c with overflowing := true, dropped := c.dropped + 1, level := n }
    else
      let u := (u.traceRecover m n).onTrcCore m fun c => { c with level := n + 1 }
      if b.par != traceParity b then (u.event ULG_TRC_EVENT_PARITY).gap m 4
      else if traceViolation b then u.event ULG_TRC_EVENT_VIOL
      else u.traceFiltered b)

/-- TRACE_OVERFLOW_RECOVER (R109): the FIFO has drained to half. -/
def execTraceOverflowRecover (core : Fin 64) (s : State) : Host.Outcome State Fault Refusal :=
  .next (s.onUlg fun u => u.traceRecover core (min (u.trc.core.get core).level 16))

/-- AUTH_EXPIRED (R105): an authorisation has passed its last tick. Where neither PRIV_OK nor SECURE_OK is 1 there is none, and
nothing is set (log entry 166). -/
def execAuthExpired (s : State) : Host.Outcome State Fault Refusal :=
  .next (s.onUlg fun u =>
    if u.authOver ∧ ¬ u.trc.expired ∧ (u.cfgOn ULG_TRC_AUTH_PRIV_OK ∨ u.cfgOn ULG_TRC_AUTH_SECURE_OK) then
      (u.onTrc fun t => { t with expired := true }).event ULG_TRC_EVENT_AUTH_EXPIRED
    else u)

/-- TRC_RING_DATA_READ (R110): the word at the selection, which then advances by 8 modulo 1 MiB. -/
def execTrcRingDataRead (s : State) : Host.Outcome State Fault Refusal :=
  .next (s.onUlg fun u =>
    let o := u.reg ULG_TRC_RING_SEL_OFFSET
    (u.put ULG_TRC_RING_SEL_OFFSET (o + 1)).answer (u.trc.ring.get o))

/-- A change of ULG_TRC_CFG or ULG_TRC_CORE_EN takes effect: every core owes a SYNC with reason CONFIG (R108). -/
def Ulg.traceConfigChanged (u : Ulg) : Ulg :=
  (List.range 64).foldl (fun u m => u.onTrcCore m fun c => if c.syncDue = 0 then { c with syncDue := 5 } else c) u

/-- The tick latch (R108, R111): the encoders have taken what stood in the input FIFOs (log entry 130), pending COND words are
written, and the block closes. -/
def Ulg.latchTrace (u : Ulg) : Ulg :=
  let ms := u.trc.core.map Prod.fst
  (ms.foldl (fun u m => (u.traceRecover m 0).onTrcCore m fun c => { c with level := 0 }) u |> ms.foldl Ulg.flushCond).closeTraceBlock

end Sys2Proof.Machine
end

