-- ==== Sys2Proof/Machine/Link.lean ====
section
/-! DEFINITION. The Rycon-D die link (04): the link state machine of either end (R142 to R147, R167), the Uligo's end,
its sessions (R149, R150), and the command layer (R152 to R156) with TILE_REPLAY (R362). -/

namespace Sys2Proof.Machine

/-! ### A link end -/

/-- The register fields of a link end, and the block of its events. -/
structure LinkRegs where
  state : Field
  lanes : Field
  pair : Field
  session : Field
  nonce : Field
  evRetry : Field
  evDown : Field
  evDegraded : Field
  evViol : Field
  cReplays : Field
  cRetries : Field
  cViol : Field
  cStale : Field
  blk : Nat → Option Nat

/-- The fields of port `x` of the Uligo (R169). -/
def ulgLinkRegs (x : Nat) : LinkRegs where
  state := ULG_LINK_STATUS_STATE x
  lanes := ULG_LINK_STATUS_LANES x
  pair := ULG_LINK_STATUS_PAIR x
  session := ULG_LINK_STATUS_SESSION x
  nonce := ULG_LINK_NONCE_NONCE x
  evRetry := ULG_LINK_EVENT_RETRY x
  evDown := ULG_LINK_EVENT_DOWN x
  evDegraded := ULG_LINK_EVENT_DEGRADED x
  evViol := ULG_LINK_EVENT_VIOL x
  cReplays := ULG_LINK_ERR_COUNT_REPLAYS x
  cRetries := ULG_LINK_ERR_COUNT_RETRIES x
  cViol := ULG_LINK_ERR_COUNT_VIOL x
  cStale := ULG_LINK_ERR_COUNT_STALE x
  blk := evBlockUlg

/-- The fields of die port `p` of the aggregator (R172). -/
def aggLinkRegs (p : Nat) : LinkRegs where
  state := DP_STATUS_STATE p
  lanes := DP_STATUS_LANES p
  pair := DP_STATUS_PAIR p
  session := DP_STATUS_SESSION p
  nonce := DP_NONCE_NONCE p
  evRetry := DP_EVENT_RETRY p
  evDown := DP_EVENT_DOWN p
  evDegraded := DP_EVENT_DEGRADED p
  evViol := DP_EVENT_VIOL p
  cReplays := DP_ERR_COUNT_REPLAYS p
  cRetries := DP_ERR_COUNT_RETRIES p
  cViol := DP_ERR_COUNT_VIOL p
  cStale := DP_ERR_COUNT_STALE p
  blk := evBlockAgg

/-- A part and one of its link ends. -/
structure LinkCtx where
  p : Part
  l : LinkPort

/-- The context with an event set. -/
def LinkCtx.event (k : LinkCtx) (rg : LinkRegs) (f : Field) : LinkCtx := { k with p := k.p.event rg.blk f }

/-- The context with a field written. -/
def LinkCtx.put (k : LinkCtx) (f : Field) (v : Nat) : LinkCtx := { k with p := k.p.put f v }

/-- The link state (R145): 0 OFF, 1 TRAIN, 2 ALIGN, 3 UP, 4 RETRY, 5 DOWN. -/
def LinkCtx.state (k : LinkCtx) (rg : LinkRegs) : Nat := k.p.reg rg.state

/-- The current SESS_TAG: NONCE[15:0], 0 without a session (R138). -/
def LinkCtx.tag (k : LinkCtx) (rg : LinkRegs) : Nat := k.p.reg rg.nonce % 65536

/-- The last flit received breaks R167: it is one more in a row, however many rows of the table it breaks. -/
def LinkPort.broken (l : LinkPort) : LinkPort := { l with violRun := l.violPrev + 1 }

/-- A new flit with a good CRC: it breaks no rule so far. -/
def LinkPort.newFlit (l : LinkPort) : LinkPort := { l with violPrev := l.violRun, violRun := 0 }

/-- The receiver's next flit asks for a replay (R143). -/
def LinkCtx.oweNak (k : LinkCtx) : LinkCtx := { k with l := { k.l with nakOwed := true } }

/-- A violation of R167: counted, and VIOL set. -/
def LinkCtx.violation (k : LinkCtx) (rg : LinkRegs) : LinkCtx :=
  ({ k with p := k.p.count rg.cViol, l := k.l.broken } : LinkCtx).event rg rg.evViol

/-- A flit of another session: counted as STALE only (R143, R167). -/
def LinkCtx.stale (k : LinkCtx) (rg : LinkRegs) : LinkCtx := { k with p := k.p.count rg.cStale, l := k.l.broken }

/-- Enter RETRY from UP (R144). -/
def LinkCtx.retry (k : LinkCtx) (rg : LinkRegs) : LinkCtx :=
  if k.state rg = 3 then
    let l := { k.l with retryAt := k.p.nowNs, retrySet := k.l.unacked.map (·.fseq) }
    (({ k with p := (k.p.put rg.state 4).count rg.cRetries, l := l } : LinkCtx).event rg rg.evRetry)
  else k

/-- Return from RETRY to UP once every flit unacknowledged at entry has been acknowledged and lock is held (R144). -/
def LinkCtx.settle (k : LinkCtx) (rg : LinkRegs) : LinkCtx :=
  if k.state rg = 4 ∧ k.l.retrySet = [] ∧ k.l.lockHeld then k.put rg.state 3 else k

/-- Replay every unacknowledged flit (R143): counted, and the port enters RETRY (R144). -/
def LinkCtx.replay (k : LinkCtx) (rg : LinkRegs) : LinkCtx :=
  ({ k with p := k.p.count rg.cReplays } : LinkCtx).retry rg

/-- Enter UP from ALIGN: the session is ACTIVE and FSEQ restarts at 0 in both directions (R146, R149). -/
def LinkCtx.up (k : LinkCtx) (rg : LinkRegs) : LinkCtx :=
  let l := { k.l with
    txSeq := 0, unacked := [], rxNext := 0, nakOwed := false, retrySet := [], violRun := 0, violPrev := 0, rx := [] }
  { k with p := (k.p.put rg.state 3).put rg.session 2, l := l }

/-- The session of a port whose link leaves ALIGN, UP or RETRY (R150). At the aggregator an OPENING under a new nonce
is discarded; at the Uligo an answered one is kept. -/
def LinkCtx.suspend (k : LinkCtx) (rg : LinkRegs) (isAgg : Bool) : LinkCtx :=
  match k.p.reg rg.session with
  | 2 => k.put rg.session 3
  | 1 => if isAgg && !k.l.resuming then (k.put rg.session 0).put rg.nonce 0 else k.put rg.session 3
  | _ => k

/-- The link stops: flits in flight and records in progress are gone, and the session is suspended. -/
def LinkCtx.stop (k : LinkCtx) (rg : LinkRegs) (isAgg : Bool) (code : Nat) : LinkCtx :=
  let l := { k.l with
    unacked := [], nakOwed := false, retrySet := [], lockHeld := false, violRun := 0, violPrev := 0, rx := []
    slots := [], downAt := k.p.nowNs }
  let k : LinkCtx := { k with p := ((k.p.put rg.state code).put rg.lanes 0).put rg.pair 0, l := l }
  k.suspend rg isAgg

/-- Enter DOWN (R146). -/
def LinkCtx.down (k : LinkCtx) (rg : LinkRegs) (isAgg : Bool) : LinkCtx := (k.stop rg isAgg 5).event rg rg.evDown

/-- Training is done on these lanes (R146, R147): four lanes, or with `degradeOk` lanes 0–1, else lanes 2–3. -/
def LinkCtx.trained (k : LinkCtx) (rg : LinkRegs) (lanes : Nat) (degradeOk : Bool) : LinkCtx :=
  let go (k : LinkCtx) (four pair : Nat) : LinkCtx :=
    { k with
      p := ((k.p.put rg.state 2).put rg.lanes four).put rg.pair pair
      l := { k.l with started := true, lockHeld := true, alignAt := k.p.nowNs } }
  if lanes = 15 then go k 1 0
  else if degradeOk ∧ lanes % 4 = 3 then (go k 0 0).event rg rg.evDegraded
  else if degradeOk ∧ lanes / 4 = 3 then (go k 0 1).event rg rg.evDegraded
  else k

/-- The flits up to the one that ACKSEQ names, and those left; `none` where it names a flit not sent (R142, R167). -/
def ackSplit (unacked : List TxFlit) (txSeq ack : Nat) : Option (List TxFlit × List TxFlit) :=
  let first := match unacked with | f :: _ => f.fseq | [] => txSeq
  if (ack + 1) % 256 = first % 256 then some ([], unacked)
  else match unacked.findIdx? (fun f => f.fseq = ack % 256) with
    | some i => some (unacked.take (i + 1), unacked.drop (i + 1))
    | none => none

/-- Act on ACKSEQ; the flits acknowledged are returned (R142). -/
def LinkCtx.acknowledge (k : LinkCtx) (rg : LinkRegs) (ack : Nat) : LinkCtx × List TxFlit :=
  match ackSplit k.l.unacked k.l.txSeq ack with
  | none => (k.violation rg, [])
  | some (done, left) =>
    let rs := k.l.retrySet.filter fun s => left.any fun f => f.fseq = s
    ({ k with l := { k.l with unacked := left, retrySet := rs } }, done)

/-- What a received flit brings: the context, the flits it acknowledges, whether its DATA is accepted in order,
whether it is of the current session and whether it asks for a replay. -/
structure LinkRx where
  k : LinkCtx
  acked : List TxFlit := []
  accept : Bool := false
  current : Bool := false
  replay : Bool := false

/-- What every received flit does first: corrected symbol errors are counted (R136), a bad CRC owes a NAK (R143), and a
reserved FTYPE is a violation that owes one (R167); `none` for a flit that is taken further. -/
def LinkCtx.flitChecks (k : LinkCtx) (rg : LinkRegs) (f : Flit) : LinkCtx × Bool :=
  let k : LinkCtx := { k with l := { k.l with fecCorrected := k.l.fecCorrected + f.fecCorrected } }
  if !f.crcGood then (k.oweNak, false)
  else
    let k : LinkCtx := { k with l := { k.l.newFlit with lockHeld := true } }
    if f.ftypeOther.isSome then ((k.violation rg).oweNak, false) else (k, true)

/-- Receive a flit in UP or RETRY (R142 to R144, R167). -/
def LinkCtx.receive (k : LinkCtx) (rg : LinkRegs) (isAgg : Bool) (f : Flit) (data : Bool) : LinkRx :=
  let (k, good) := k.flitChecks rg f
  if !good then { k := k }
  else if f.sessTag % 65536 ≠ k.tag rg then { k := k.stale rg }
  else
    let r := k.acknowledge rg f.ackSeq
    let k := if f.ctrl.breaks isAgg then r.1.violation rg else r.1
    let k := if f.nak then k.replay rg else k
    let k := k.settle rg
    let ahead := (f.fseq + 256 - k.l.rxNext % 256) % 256
    if !data then { k := k, acked := r.2, current := true, replay := f.nak }
    else if ahead = 0 then
      { k := { k with l := { k.l with rxNext := (k.l.rxNext + 1) % 256 } }
        acked := r.2, accept := true, current := true, replay := f.nak }
    else { k := if ahead < 128 then k.oweNak else k, acked := r.2, current := true, replay := f.nak }

/-- Receive a flit in ALIGN (R145): there flits carry SESS_TAG 0, or the tag of the session that is OPENING; its slot is a
command of its own. -/
def LinkCtx.receiveAlign (k : LinkCtx) (rg : LinkRegs) (isAgg : Bool) (f : Flit) : LinkCtx :=
  let (k, good) := k.flitChecks rg f
  let t := f.sessTag % 65536
  if !good then k
  else if t ≠ 0 ∧ ¬ (k.p.reg rg.session = 1 ∧ t = k.tag rg) then k.stale rg
  else if f.ctrl.breaks isAgg then k.violation rg
  else k

/-- The slot of the flit that leaves now: the message that has waited longest, stamped as it leaves (R35, R141). -/
def LinkCtx.slot (k : LinkCtx) (i : Nat) : CtrlSlot := (k.l.slots.getD i .empty).stamped k.p.nowQ

/-- A flit to send: its acknowledgement, NAK, tag and control slot come from the port. In ALIGN the tag is 0, but for a
HELLO_ACK's (R138, R149). -/
def LinkCtx.fill (k : LinkCtx) (rg : LinkRegs) (f : Flit) : Flit :=
  let c := k.slot 0
  { f with
    fseq := k.l.txSeq, ackSeq := (k.l.rxNext + 255) % 256, nak := k.l.nakOwed, ctrl := c
    sessTag := if k.state rg = 2 then (match c with | .helloAck a => a.sessTag | _ => 0) else k.tag rg }

/-- What every flit that leaves takes with it: the NAK and a control-slot message. -/
def LinkPort.flitLeft (l : LinkPort) : LinkPort := { l with nakOwed := false, slots := l.slots.tail }

/-- A DATA flit leaves (R142). -/
def LinkCtx.sendData (k : LinkCtx) (f : Flit) (recId : Nat) : LinkCtx :=
  let t : TxFlit := {
    fseq := k.l.txSeq, stream := f.stream, first := f.first, last := f.last, payload := f.payload, recId := recId }
  { k with l := { k.l.flitLeft with unacked := k.l.unacked ++ [t], txSeq := (k.l.txSeq + 1) % 256 } }

/-- An IDLE flit leaves. -/
def LinkCtx.sendIdle (k : LinkCtx) : LinkCtx := { k with l := k.l.flitLeft }

/-- The flits of a replay, oldest first (R143): each is the one sent before, with the header fields of the port as it is
now and a control slot filled anew (R141). -/
def LinkCtx.resent (k : LinkCtx) (rg : LinkRegs) (base : Flit) : List Flit :=
  k.l.unacked.zipIdx.map fun e =>
    { k.fill rg base with
      fseq := e.1.fseq, stream := Fin.ofNat 16 e.1.stream, first := e.1.first, last := e.1.last
      plen := e.1.payload.length, payload := e.1.payload, nak := k.l.nakOwed && e.2 == 0, ctrl := k.slot e.2 }

/-- Every unacknowledged flit leaves again. -/
def LinkCtx.sendAgain (k : LinkCtx) : LinkCtx :=
  { k with l := { k.l with nakOwed := false, slots := k.l.slots.drop k.l.unacked.length } }

/-! ### The Uligo's end -/

/-- A port of the Uligo is UP or in RETRY. -/
def Ulg.anyUp (u : Ulg) : Bool :=
  [0, 1].any fun x => u.reg (ULG_LINK_STATUS_STATE x) == 3 || u.reg (ULG_LINK_STATUS_STATE x) == 4

/-- The time for which a port has been UP or in RETRY, ns: it is the time that the sheepdog timer counts (R421). -/
def Ulg.upTime (u : Ulg) : Nat := u.p.col.upNs + u.p.col.upFrom.elim 0 (u.p.nowNs - ·)

/-- Keep that time: it runs on from the first port that comes UP and stops with the last (R421). -/
def Ulg.upTrack (u : Ulg) : Ulg :=
  if u.anyUp = u.p.col.upFrom.isSome then u
  else { u with p := { u.p with col := { u.p.col with
    upNs := u.upTime, upFrom := if u.anyUp then some u.p.nowNs else none } } }

/-- The Uligo with the link machine run on port `x`. -/
def Ulg.onLink (u : Ulg) (x : Nat) (f : LinkCtx → LinkCtx) : Ulg :=
  let r := f { p := u.p, l := (u.link.port.get x).l }
  (({ u with p := r.p }).onPort x fun q => { q with l := r.l }).upTrack

/-- The link state of a port of the Uligo. -/
def Ulg.linkState (u : Ulg) (x : Nat) : Nat := u.reg (ULG_LINK_STATUS_STATE x)

/-- The port is enabled and its PHY domain is ON (R146, R444). -/
def Ulg.portEnabled (u : Ulg) (x : Nat) : Bool :=
  u.cfgOn (if x = 0 then ULG_LINK_CFG_EN_A else ULG_LINK_CFG_EN_B) && u.domainOn (0x14 + x)

/-- A record is spoilt: a read of its words failed after its transmission had begun (R516). -/
def Ulg.spoiltRec (u : Ulg) (id : Nat) : Bool := u.link.recs.any fun r => r.id == id && r.spoiled

/-- The tile record and the trace block in progress on a port are given up there: the new primary sends them whole
(R159). A spoilt record is never sent again, so it goes on to its end (R516). -/
def Ulg.progressLost (u : Ulg) (x : Nat) : Ulg :=
  let go (u : Ulg) (st : Nat) : Ulg :=
    u.onPort x fun q => { q with prog := q.prog.set st ((q.prog.get st).filter fun e => u.spoiltRec e.1) }
  go (go u 3) 4

/-- Put the marks of R160 on the ports: a port that advertises PRIMARY is marked unless the other one, advertising it
too, holds the mark. -/
def Ulg.mark (u : Ulg) : Ulg :=
  let a := u.reg (ULG_LINK_STATUS_ROLE 0) == 1
  let b := u.reg (ULG_LINK_STATUS_ROLE 1) == 1
  let b' := b && (!a || u.bit (ULG_LINK_STATUS_PRIMARY 1))
  let a' := a && !b'
  let u := if a' then u.progressLost 1 else if b' then u.progressLost 0 else u
  (u.put (ULG_LINK_STATUS_PRIMARY 0) (if a' then 1 else 0)).put (ULG_LINK_STATUS_PRIMARY 1) (if b' then 1 else 0)

/-- A port in OFF that is enabled and has its domain ON begins to train (R145, R146). -/
def Ulg.portStart (u : Ulg) (x : Nat) : Ulg :=
  if u.linkState x = 0 ∧ u.portEnabled x then
    (u.put (ULG_LINK_STATUS_STATE x) 1).onPort x fun q => { q with l := { q.l with trainAt := u.p.nowNs } }
  else u

/-- The relayed state of the other port (R140): link state in bits [1:0], and in bits [3:2] the role that its aggregator
last advertised. A port that has yet to leave OFF for TRAIN counts as in it. -/
def Ulg.relayNibble (u : Ulg) (x : Nat) : Nat :=
  let y := 1 - x
  let st := match u.linkState y with
    | 0 => if u.portEnabled y then 1 else 0
    | 1 => 1
    | 2 => 1
    | 4 => 2
    | 3 => 3
    | _ => 0
  st + 4 * ((u.link.port.get y).lastRole % 4)

/-- A record leaves the waiting list, and what it holds is freed: record buffer, capture reservation or stream-buffer
space (R159). -/
def Ulg.dropRecord (u : Ulg) (r : HeldRec) : Ulg :=
  let u := { u with link := { u.link with recs := u.link.recs.filter fun q => q.id ≠ r.id } }
  let u := match r.buf with
    | some b => u.freeRecordBuffer b
    | none => u
  if r.stream = 3 then u.onTile fun c => { c with reserved := c.reserved - r.bytes.length }
  else if r.stream = 4 then u.onTrc fun t => { t with buffered := t.buffered - r.bytes.length }
  else u

/-- Port `x` is done with a record: acknowledged there, or abandoned there (R159). -/
def Ulg.portDone (u : Ulg) (x : Nat) (r : HeldRec) : Ulg :=
  let ps := r.ports.filter (· ≠ x)
  if ps = [] then u.dropRecord r
  else { u with link := { u.link with recs := u.link.recs.map fun q => if q.id = r.id then { q with ports := ps } else q } }

/-- An acknowledgement on port `x` ends a tile record or trace block: the port is the primary, or none is, or the record
is spoilt. With the other port marked the record is sent whole there (R159, R516). -/
def Ulg.ackEnds (u : Ulg) (x : Nat) (r : HeldRec) : Bool :=
  u.bit (ULG_LINK_STATUS_PRIMARY x) || !u.bit (ULG_LINK_STATUS_PRIMARY (1 - x)) || r.spoiled

/-- A tile record or trace block has been sent: its last flit is acknowledged (R159). CAPTURED counts a tile record here (R134,
log entry 35). -/
def Ulg.recordSent (u : Ulg) (r : HeldRec) : Ulg :=
  (if r.stream = 3 then u.count ULG_TILE_COUNT_CAPTURED else u).dropRecord r

/-- Flits acknowledged on port `x` (R159): a record whose last flit is acknowledged is done there. -/
def Ulg.flitsAcked (u : Ulg) (x : Nat) (fs : List TxFlit) : Ulg :=
  fs.foldl (fun u f =>
    if f.last then
      match u.link.recs.find? (fun r => r.id = f.recId) with
      | none => u
      | some r => if r.stream ≤ 2 then u.portDone x r else if u.ackEnds x r then u.recordSent r else u
    else u) u

/-- What the end of a port's link does to the records and roles (R159, R160, R516): sample and field-test records are
abandoned there, a tile record or trace block starts again on the next primary, and a spoilt one is gone. -/
def Ulg.linkLost (u : Ulg) (x : Nat) : Ulg :=
  let begun := (u.link.port.get x).prog.filterMap fun e => e.2.map Prod.fst
  let sent := (u.link.port.get x).l.unacked.map (·.recId)
  let u := u.link.recs.foldl (fun u r =>
    if r.stream ≤ 2 ∧ r.ports.contains x then u.portDone x r
    else if r.spoiled && (begun.contains r.id || sent.contains r.id) then u.dropRecord r
    else u) u
  let u := u.onPort x fun q => { q with queue := [], prog := [], respQ := [] }
  (u.put (ULG_LINK_STATUS_ROLE x) 0).mark

/-- The link of port `x` ends in DOWN, or in OFF where the port is disabled (R146); in the middle of a power transition FULL_REQ is set (R166). -/
def Ulg.linkEnd (u : Ulg) (x : Nat) (off : Bool) : Ulg :=
  let rg := ulgLinkRegs x
  let off := off || (u.link.port.get x).closing
  let u := (u.linkLost x).onPort x fun q => { q with closing := false }
  let u := u.onLink x fun k => if off then k.stop rg false 0 else k.down rg false
  if u.bit ULG_PD_STATUS_BUSY then (u.put (ULG_LINK_STATUS_FULL_REQ x) 1).event (ULG_LINK_EVENT_FULL_REQ x) else u

/-- The port goes UP (R146). -/
def Ulg.linkUp (u : Ulg) (x : Nat) : Ulg := u.onLink x fun k => k.up (ulgLinkRegs x)

/-- The role that a STATE nibble advertises to the Uligo: a reserved value counts as NONE and is a violation, and so is a
claim of PRIMARY while the other port holds the mark (R140, R160, R167). -/
def Ulg.takeRole (u : Ulg) (x : Nat) (nib : Nat) : Ulg :=
  let claims : Bool := nib == 1 && u.reg (ULG_LINK_STATUS_ROLE x) != 1 && u.bit (ULG_LINK_STATUS_PRIMARY (1 - x))
  let u := if 4 ≤ nib ∨ claims then u.onLink x fun k => k.violation (ulgLinkRegs x) else u
  let u := if claims then u.event (ULG_LINK_EVENT_ROLE_CONFLICT x) else u
  let role := if nib < 4 then nib else 0
  ((u.put (ULG_LINK_STATUS_ROLE x) role).onPort x fun q => { q with lastRole := role }).mark

/-- The payload of an accepted DATA flit breaks R167 at the Uligo: only commands travel this way, each in one flit. -/
def ulgPayloadBad (f : Flit) : Bool :=
  decide (228 < f.plen) || !((f.stream : Nat) == 0 || ((f.stream : Nat) == 5 && f.first))

/-- The next payload of a port in UP (R158): stream, bytes of the record, bytes sent before, and record id; responses
have no id. A tile record or trace block goes only on the marked port, and a spoilt one that has begun goes on to its end
where it began (R516). -/
def Ulg.nextPayload (u : Ulg) (x : Nat) : Option (Nat × List Byte × Nat × Nat) :=
  let q := u.link.port.get x
  let recOf (id : Nat) : Option HeldRec := u.link.recs.find? fun r => r.id = id
  let inProg (st : Nat) : Option (Nat × List Byte × Nat × Nat) :=
    match q.prog.get st with
    | some (id, k) =>
      match recOf id with
      | some r => if st ≤ 2 ∨ u.bit (ULG_LINK_STATUS_PRIMARY x) ∨ r.spoiled then some (st, r.bytes, k, id) else none
      | none => none
    | none => none
  let fresh (st : Nat) : Option (Nat × List Byte × Nat × Nat) :=
    if st ≤ 2 then
      match q.queue.filterMap recOf |>.find? (fun r => r.stream = st) with
      | some r => some (st, r.bytes, 0, r.id)
      | none => none
    else if u.bit (ULG_LINK_STATUS_PRIMARY x) then
      let inFlight := q.l.unacked.map (·.recId)
      match u.link.recs.find? (fun r => r.stream = st && !inFlight.contains r.id && !r.spoiled) with
      | some r => some (st, r.bytes, 0, r.id)
      | none => none
    else none
  match q.respQ with
  | r :: _ => some (6, r.bytes, 0, 0)
  | [] => [1, 2, 3, 4].foldl (fun acc st => acc.orElse fun _ => (inProg st).orElse fun _ => fresh st) none

/-- Note that bytes of a record were sent on port `x`, up to `k`, the last of them with `last`. -/
def Ulg.progress (u : Ulg) (x st id k : Nat) (last : Bool) : Ulg :=
  if st = 6 then u.onPort x fun q => { q with respQ := q.respQ.tail }
  else
    let u := u.onPort x fun q =>
      { q with
        prog := q.prog.set st (if last then none else some (id, k)), queue := q.queue.filter (· ≠ id) }
    { u with link := { u.link with recs := u.link.recs.map fun r => if r.id = id then { r with begun := true } else r } }

/-- What every flit of port `x` says besides its link fields: the relayed nibble and MARK (R138, R140, R160). -/
def Ulg.flitBase (u : Ulg) (x : Nat) : Flit :=
  { stateNibble := Fin.ofNat 16 (u.relayNibble x), mark := u.bit (ULG_LINK_STATUS_PRIMARY x) }

/-- Every unacknowledged flit of port `x` leaves again (R143). -/
def Ulg.flitsAgain (u : Ulg) (x : Fin 2) : Ulg :=
  let k : LinkCtx := { p := u.p, l := (u.link.port.get x).l }
  (k.resent (ulgLinkRegs x) (u.flitBase x)).foldl (fun u f => u.send (.flit (.ulg x) true f)) (u.onLink x LinkCtx.sendAgain)

/-- Responses wait on a port that can still send them. -/
def Ulg.respWaits (u : Ulg) (x : Nat) : Bool :=
  (u.linkState x == 3 || u.linkState x == 4) && !(u.link.port.get x).respQ.isEmpty

/-- A power-domain command that takes a port out of ON is under way: a port in UP or RETRY goes DOWN (R146), once the
responses that it holds have left (R449). It goes OFF as the domain leaves ON. -/
def Ulg.powerDown (u : Ulg) (x : Nat) : Ulg :=
  let leaves := (u.pwr.dom.get (0x14 + x)).running.any fun r => r.tgt ≠ 0
  if leaves ∧ (u.linkState x = 3 ∨ u.linkState x = 4) ∧ ¬ u.respWaits x then u.linkEnd x false else u

/-- What waited for a port's responses to leave: a port that a COMMIT has disabled goes OFF (R170), and one whose domain
leaves ON goes DOWN (R146). -/
def Ulg.closePort (u : Ulg) (x : Nat) : Ulg :=
  let q := u.link.port.get x
  if q.closing ∧ q.respQ = [] then u.linkEnd x true else u.powerDown x

/-- The Uligo sends its next flit on port `x` (R138, R142, R158). -/
def Ulg.sendFlit (u : Ulg) (x : Fin 2) : Ulg :=
  let rg := ulgLinkRegs x
  let st := u.linkState x
  let base := u.flitBase x
  let k : LinkCtx := { p := u.p, l := (u.link.port.get x).l }
  let idle : Ulg := (u.onLink x LinkCtx.sendIdle).send (.flit (.ulg x) false (k.fill rg base))
  if st = 3 then
    if 64 ≤ k.l.unacked.length then idle
    else match u.nextPayload x with
      | none => idle
      | some (s, bytes, off, id) =>
        let pay := (bytes.drop off).take 228
        let last := decide (bytes.length ≤ off + pay.length)
        let f : Flit := { base with
          stream := Fin.ofNat 16 s, first := decide (off = 0), last := last, plen := pay.length, payload := pay }
        let u1 := (u.onLink x fun k => k.sendData f id).send (.flit (.ulg x) true (k.fill rg f))
        (u1.progress x s id (off + pay.length) last).closePort x
  else if st = 2 ∨ st = 4 then idle
  else u

/-! ### Sessions at the Uligo (R149, R150) -/

/-- The Uligo answers a HELLO. -/
def Ulg.ackHello (u : Ulg) (x : Nat) (nonce : Nat) (a : HelloAck) : Ulg :=
  let k : HelloAck := { a with dieUid := u.uid, sessTag := nonce % 65536 }
  (u.slotOut x (.helloAck k)).send (.helloAck x k)

/-- HELLO (R149): resumes, refuses or opens. A HELLO repeated while its session is OPENING gets the same answer. A RESUME
that names no session held is answered FULL_REQ while the port has it set, else UNKNOWN (log entry 167). -/
def execHello (x : Fin 2) (resume reservedSet : Bool) (nonce : Nat) (s : State) : Host.Outcome State Fault Refusal :=
  .next (s.onUlg fun u =>
    let i : Nat := x
    let held := u.reg (ULG_LINK_NONCE_NONCE i)
    let sess := u.reg (ULG_LINK_STATUS_SESSION i)
    let q := u.link.port.get i
    if reservedSet then u.onLink i fun k => k.violation (ulgLinkRegs i)
    else if u.linkState i ≠ 2 then u
    else if sess = 1 ∧ held = nonce ∧ q.l.resuming = resume then
      u.ackHello i nonce { resumed := resume, prevNext := q.l.prevNext }
    else if resume then
      if sess = 3 ∧ held = nonce ∧ ¬ u.bit (ULG_LINK_STATUS_FULL_REQ i) then
        let u := (u.put (ULG_LINK_STATUS_SESSION i) 1).put (ULG_LINK_STATUS_SESS_TAG i) (nonce % 65536)
        let u := u.onPort i fun q => { q with l := { q.l with resuming := true, prevNext := q.next } }
        (u.event (ULG_LINK_EVENT_RESUMED i)).ackHello i nonce { resumed := true, prevNext := q.next }
      else
        let full := u.bit (ULG_LINK_STATUS_FULL_REQ i)
        u.ackHello i nonce { unknown := !full, fullReq := full }
    else
      let prev := if sess = 0 then 0 else q.next
      let u := ((u.put (ULG_LINK_NONCE_NONCE i) nonce).put (ULG_LINK_STATUS_SESSION i) 1).put
        (ULG_LINK_STATUS_SESS_TAG i) (nonce % 65536)
      let u := ((u.put (ULG_LINK_STATUS_FULL_REQ i) 0).put (ULG_LINK_CMD_NEXT i) 0).put (ULG_LINK_CMD_CACHED i) 0
      let u := u.onPort i fun q =>
        { q with
          next := 0, cache := [], running := [], respQ := []
          l := { q.l with resuming := false, prevNext := prev, nonce := nonce } }
      (u.event (ULG_LINK_EVENT_NEW_SESSION i)).ackHello i nonce { prevNext := prev })

/-! ### The command layer (R152 to R156) -/

/-- A sequence lies in the window NEXT − 64 to NEXT − 1 (R155). -/
def seqInWindow (next seq : Nat) : Bool := decide ((next + 2 ^ 32 - (seq + 1) % 2 ^ 32) % 2 ^ 32 < 64)

/-- The cache holds the responses of the window and no other (R155); CACHED counts them. -/
def Ulg.cacheKeep (u : Ulg) (x : Nat) : Ulg :=
  let u := u.onPort x fun q => { q with cache := q.cache.filter fun r => seqInWindow q.next r.seq }
  u.put (ULG_LINK_CMD_CACHED x) (u.link.port.get x).cache.length

/-- A response goes to the port, and is cached when the command ran (R155). One that completes while the link is down waits
and leaves after the resume (log entry 167). -/
def Ulg.respond (u : Ulg) (x : Nat) (r : Resp) (cache : Bool) : Ulg :=
  if cache then
    (u.onPort x fun q => { q with
      respQ := q.respQ ++ [r], cache := r :: q.cache, running := q.running.filter (fun c => c.1 ≠ r.seq) }).cacheKeep x
  else u.onPort x fun q => { q with respQ := q.respQ ++ [r] }

/-- What running a command gives: the Uligo after it, and its STATUS, ARG and data; `none` for a command whose response
comes later. -/
abbrev CmdResult := Ulg × Option (Nat × Nat × List Nat)

/-- Handle a command by its sequence (R155): the next one runs, a cached one is answered with DUP, one below the window
or without a cached response is STALE, and one ahead is a violation answered SEQ_GAP. COUNT is looked at before the opcode: a
reserved opcode with COUNT above 16 is answered BAD_LEN (log entry 167). -/
def Ulg.command (u : Ulg) (x opcode : Nat) (c : Cmd) (run : Ulg → CmdResult) : Ulg :=
  let q := u.link.port.get x
  let d := (c.seq + 2 ^ 32 - q.next % 2 ^ 32) % 2 ^ 32
  if u.reg (ULG_LINK_STATUS_SESSION x) ≠ 2 then u
  else if d = 0 then
    let nx := (q.next + 1) % 2 ^ 32
    let u := ((u.onPort x fun q => { q with next := nx }).put (ULG_LINK_CMD_NEXT x) nx).cacheKeep x
    if 16 < c.count then
      (u.onLink x fun k => k.violation (ulgLinkRegs x)).respond x { opcode := opcode, status := 4, seq := c.seq } true
    else
      match run (u.onPort x fun q => { q with running := q.running ++ [(c.seq, opcode)] }) with
      | (u, some (st, arg, data)) =>
        u.respond x { opcode := opcode, status := st, seq := c.seq, arg := arg, data := data } true
      | (u, none) => u
  else if d < 2 ^ 31 then
    (u.onLink x fun k => k.violation (ulgLinkRegs x)).respond x { opcode := opcode, status := 5, seq := c.seq } false
  else
    match q.cache.find? (fun r => r.seq = c.seq) with
    | some r => if 2 ^ 32 - 64 ≤ d then u.respond x { r with dup := true } false
      else u.respond x { opcode := opcode, status := 6, seq := c.seq } false
    | none =>
      if q.running.any (fun r => r.1 = c.seq) then u
      else u.respond x { opcode := opcode, status := 6, seq := c.seq } false

/-- NOP (R153). -/
def execNop (x : Fin 2) (c : Cmd) (s : State) : Host.Outcome State Fault Refusal :=
  .next (s.onUlg fun u => u.command x 0x06 c fun u => (u, some (0, 0, [])))

/-- SESSION_STATUS (R153): the nonce, NEXT and session state of the named port; NEXT of the session that carries the
command is its value before the command. -/
def execSessionStatus (x : Fin 2) (c : Cmd) (s : State) : Host.Outcome State Fault Refusal :=
  .next (s.onUlg fun u => u.command x 0x05 c fun u =>
    let y := c.arg % 2
    let nx := if y = (x : Nat) then c.seq else (u.link.port.get y).next
    (u, some (0, 0, [u.reg (ULG_LINK_NONCE_NONCE y), nx % 2 ^ 32 + u.reg (ULG_LINK_STATUS_SESSION y) * 2 ^ 32])))

/-! ### Tile replay commands (R362) -/

/-- The words of STATUS (R362). -/
def Ulg.rplStatus (u : Ulg) : List Nat :=
  let bad := (u.rpl.sigs.zipIdx.map fun e => if e.1.2.2 then 0 else 2 ^ (56 + e.2)).sum
  (u.reg ULG_RPL_STATUS_STATE + u.reg ULG_RPL_STATUS_RUNS_DONE * 8 + u.rpl.words.length * 2 ^ 16 + bad) ::
    (u.rpl.sigs.map fun e => [e.1, e.2.1]).flatten

/-- A refused sub-operation. -/
def Ulg.rplRefuse (u : Ulg) : CmdResult := (u.event ULG_RPL_EVENT_REFUSED, some (2, 0, []))

/-- A TILE_REPLAY command whose ADDR is not 0 is answered BAD_ADDR (R362). -/
def rplAddr (c : Cmd) (f : Ulg → CmdResult) (u : Ulg) : CmdResult := if c.addr ≠ 0 then (u, some (1, 0, [])) else f u

/-- The conditions under which an OPEN in NONE is accepted (R362). -/
def Ulg.rplOpenOk (u : Ulg) (c : Cmd) (core runs runUs imgLen desc : Nat) : Bool :=
  decide (c.count = 7) && u.corePresent core && decide (1 ≤ runs) && decide (runs ≤ 4) && decide (0 < runUs) &&
    descValid desc && decide (imgLen = tileImageLen desc) && decide (u.tile.reserved + imgLen ≤ captureBytes)

/-- OPEN (R362). -/
def Ulg.rplOpen (c : Cmd) (u : Ulg) : CmdResult :=
  let w (i : Nat) := c.data.getD i 0
  let seq := w 0
  let core := bitsOf (w 1) 0 13
  let runs := bitsOf (w 1) 16 3
  let runUs := bitsOf (w 1) 32 16
  let imgLen := w 2 % 2 ^ 32
  let desc := w 3 + w 4 * 2 ^ 64 + w 5 * 2 ^ 128 + w 6 * 2 ^ 192
  if u.reg ULG_RPL_STATUS_STATE ≠ 0 then
    if u.rpl.seq = seq then (u, some (0, 0, u.rplStatus)) else u.rplRefuse
  else if u.rplOpenOk c core runs runUs imgLen desc then
    let u := u.onRpl fun r => { r with
      seq := seq, runs := runs, runUs := runUs, imgLen := imgLen, outLen := tileSectionLen desc 6, desc := desc
      words := [], sigs := [], sigLo := none }
    let u := ((u.put ULG_RPL_STATUS_STATE 1).put ULG_RPL_STATUS_RUNS_DONE 0).put ULG_RPL_STATUS_SEQ_LO seq
    let u := (u.put ULG_RPL_STATUS_CORE core).onTile fun t => { t with reserved := t.reserved + imgLen }
    (u, some (0, 0, u.rplStatus))
  else u.rplRefuse

/-- REPLAY_OPEN (R362). -/
def execReplayOpen (x : Fin 2) (c : Cmd) (s : State) : Host.Outcome State Fault Refusal :=
  .next (s.onUlg fun u => u.command x 0x10 c (rplAddr c (Ulg.rplOpen c)))

/-- LOAD (R362). -/
def Ulg.rplLoad (c : Cmd) (u : Ulg) : CmdResult :=
  let ws := c.data.take c.count
  if u.reg ULG_RPL_STATUS_STATE = 1 ∧ c.arg / 2 ^ 8 = u.rpl.words.length ∧
      8 * (u.rpl.words.length + ws.length) ≤ u.rpl.imgLen then
    (u.onRpl fun r => { r with words := r.words ++ ws.map (· % 2 ^ 64) }, some (0, 0, []))
  else u.rplRefuse

/-- REPLAY_LOAD (R362). -/
def execReplayLoad (x : Fin 2) (c : Cmd) (s : State) : Host.Outcome State Fault Refusal :=
  .next (s.onUlg fun u => u.command x 0x10 c (rplAddr c (Ulg.rplLoad c)))

/-- START (R362). -/
def Ulg.rplStart (u : Ulg) : CmdResult :=
  if u.reg ULG_RPL_STATUS_STATE = 1 ∧ 8 * u.rpl.words.length = u.rpl.imgLen then
    (u.put ULG_RPL_STATUS_STATE 2, some (0, 0, []))
  else u.rplRefuse

/-- REPLAY_START (R362). -/
def execReplayStart (x : Fin 2) (c : Cmd) (s : State) : Host.Outcome State Fault Refusal :=
  .next (s.onUlg fun u => u.command x 0x10 c (rplAddr c Ulg.rplStart))

/-- REPLAY_STATUS (R362). -/
def execReplayStatus (x : Fin 2) (c : Cmd) (s : State) : Host.Outcome State Fault Refusal :=
  .next (s.onUlg fun u => u.command x 0x10 c (rplAddr c fun u => (u, some (0, 0, u.rplStatus))))

/-- CLOSE (R362): frees the reservation; a run in progress will have its signature discarded. -/
def Ulg.rplClose (u : Ulg) : CmdResult :=
  if u.reg ULG_RPL_STATUS_STATE = 0 then (u, some (0, 0, []))
  else
    let running := u.reg ULG_RPL_STATUS_STATE == 3
    let core := u.reg ULG_RPL_STATUS_CORE
    let u := u.onTile fun t => { t with reserved := t.reserved - u.rpl.imgLen }
    let u := { u with rpl := { late := if running then u.rpl.late ++ [core] else u.rpl.late } }
    let u := ((u.put ULG_RPL_STATUS_STATE 0).put ULG_RPL_STATUS_RUNS_DONE 0).put ULG_RPL_STATUS_SEQ_LO 0
    ((u.put ULG_RPL_STATUS_CORE 0).event ULG_RPL_EVENT_CLOSED, some (0, 0, []))

/-- REPLAY_CLOSE (R362). -/
def execReplayClose (x : Fin 2) (c : Cmd) (s : State) : Host.Outcome State Fault Refusal :=
  .next (s.onUlg fun u => u.command x 0x10 c (rplAddr c Ulg.rplClose))

/-! ### Flits at the Uligo (R143, R167) -/

/-- A command of a reserved opcode is not run and answered BAD_OPCODE, and a reserved sub-operation of TILE_REPLAY is
refused; the other payloads of stream 5 are the rows of their commands (R153, R154, R167, R362). -/
def Ulg.reservedCommand (u : Ulg) (x : Fin 2) (l : List Byte) : Ulg :=
  let c := readCmd l
  let opcode := beAt l 0 1
  match commandOf x opcode c with
  | some _ => u
  | none =>
    if opcode = 0x10 then u.command x opcode c (rplAddr c Ulg.rplRefuse)
    else u.command x opcode c fun u => (u.onLink x fun k => k.violation (ulgLinkRegs x), some (3, 0, []))

/-- The payload of an accepted DATA flit (R139, R167). -/
def Ulg.takePayload (u : Ulg) (x : Fin 2) (f : Flit) : Ulg :=
  if ulgPayloadBad f then u.onLink x fun k => k.violation (ulgLinkRegs x)
  else if (f.stream : Nat) = 5 then u.reservedCommand x f.payload
  else u

/-- The Uligo receives a flit (R143): the first one of the session that it has answered brings the port UP (R146). The
command that a DATA flit of stream 5 carries is a command of its own. -/
def Ulg.receiveFlit (u : Ulg) (x : Fin 2) (f : Flit) (data : Bool) : Ulg :=
  let rg := ulgLinkRegs x
  let u :=
    if u.linkState x = 2 ∧ f.crcGood ∧ f.ftypeOther.isNone ∧ u.reg (ULG_LINK_STATUS_SESSION x) = 1 ∧
        f.sessTag % 65536 ≠ 0 ∧ f.sessTag % 65536 = u.reg (ULG_LINK_STATUS_SESS_TAG x) then u.linkUp x
    else u
  if u.linkState x = 2 then u.onLink x fun k => k.receiveAlign rg false f
  else if u.linkState x = 3 ∨ u.linkState x = 4 then
    let r := ({ p := u.p, l := (u.link.port.get x).l } : LinkCtx).receive rg false f data
    let u := ({ u with p := r.k.p }).onPort x fun q => { q with l := r.k.l }
    let u := u.flitsAcked x r.acked
    let u := if r.current then u.takeRole x f.stateNibble else u
    let u := if r.replay then u.flitsAgain x else u
    if r.accept then u.takePayload x f else u
  else u

/-- RPL_DATA_READ (R387): the image word at OFFSET, 0 beyond the loaded words; OFFSET advances by 8. -/
def execRplDataRead (s : State) : Host.Outcome State Fault Refusal :=
  .next (s.onUlg fun u =>
    let i := u.reg ULG_RPL_SEL_OFFSET
    (u.put ULG_RPL_SEL_OFFSET (i + 1)).answer (u.rpl.words.getD i 0))

end Sys2Proof.Machine
end

