-- ==== Sys2Proof/Machine/AggLink.lean ====
section
/-! DEFINITION. The aggregator's end of the die link (04): sessions (R148 to R151), commands and responses (R157), roles
and takeover (R160 to R162), the stream timeout (R164), and the commands of the table that either end takes. -/

namespace Sys2Proof.Machine

/-! ### The aggregator's end -/

/-- The link state of a die port. -/
def Agg.linkState (a : Agg) (p : Nat) : Nat := a.reg (DP_STATUS_STATE p)

/-- The aggregator with a die port's data changed. -/
def Agg.onDie (a : Agg) (p : Nat) (f : DiePort → DiePort) : Agg := { a with die := a.die.upd p f }

/-- Keep the stream timeout's time: it runs in UP only, restarts at UP from ALIGN and pauses in every other state
(R164). -/
def Agg.silentTrack (a : Agg) (p before : Nat) : Agg :=
  let now := a.p.nowNs
  let after := a.linkState p
  if before = 3 ∧ after ≠ 3 then
    a.onDie p fun d => { d with silentNs := d.silentNs + (now - d.upSince.getD now), upSince := none }
  else if before ≠ 3 ∧ after = 3 then
    a.onDie p fun d => { d with silentNs := if before = 4 then d.silentNs else 0, upSince := some now }
  else a

/-- A port that has entered RETRY is remembered for feature 47 of its die (R275). -/
def Agg.retryTrack (a : Agg) (p before : Nat) : Agg :=
  match a.slotOfPort p with
  | some s =>
    if before ≠ 4 ∧ a.linkState p = 4 then
      { a with det := { a.det with die := a.det.die.upd s fun d => { d with retrySeen := true } } }
    else a
  | none => a

/-- The aggregator with the link machine run on a die port. -/
def Agg.onLink (a : Agg) (p : Nat) (f : LinkCtx → LinkCtx) : Agg :=
  let before := a.linkState p
  let r := f { p := a.p, l := (a.die.get p).l }
  ((({ a with p := r.p }).onDie p fun d => { d with l := r.l }).silentTrack p before).retryTrack p before

/-- The port is enabled, its domain is ON and the image is live (R146, R443, R481). -/
def Agg.portEnabled (a : Agg) (p : Nat) : Bool :=
  a.cfgOn (DP_CFG_EN p) && a.domOn (0x20 + p) && a.reg CFG_STATUS_STATE == 4

/-- The role advertised follows the role held; in safe state it is SAFE (R160). -/
def Agg.advertise (a : Agg) (p : Nat) : Agg :=
  a.put (DP_STATUS_ROLE p) (if a.safe then 3 else a.heldAt p)

/-- A slot's push changed. -/
def Agg.onPush (a : Agg) (s : Nat) (f : Push → Push) : Agg := { a with conf := { a.conf with push := a.conf.push.upd s f } }

/-- The command belongs to a push (R486) or to the reading of settings that every new session begins with (R367). -/
def CmdUse.ofPush (u : CmdUse) : Bool :=
  match u with
  | .push _ _ => true
  | .pushSel => true
  | .pushId _ => true
  | .epoch _ _ => true
  | _ => false

/-- The session of a port has been closed: a running push of its die ends SESSION_LOST, a held cause falls to the push of
the next session, and the commands of the push are not issued again (R486, R487). -/
def Agg.pushLost (a : Agg) (p : Nat) : Agg :=
  let a := (List.range 16).foldl (fun a s =>
    if (a.conf.push.get s).running ∧ a.slotServed p = some s then
      let a := (a.conf.push.get s).op.elim a fun op => a.jrnEnd op 0x11 2
      (a.onPush s fun _ => {}).put CFG_UCFG_STATUS_BUSY (withBit (a.reg CFG_UCFG_STATUS_BUSY) s false)
    else a) a
  a.onDie p fun d => { d with
    cmds := d.cmds.filter (fun c => !c.use.ofPush), heldCmds := d.heldCmds.filter (fun c => !c.use.ofPush) }

/-- A port in OFF that is enabled, with its domain ON and the image live, begins to train (R145, R146). -/
def Agg.portStart (a : Agg) (p : Nat) : Agg :=
  if a.linkState p = 0 ∧ a.portEnabled p then
    (a.put (DP_STATUS_STATE p) 1).onDie p fun d => { d with l := { d.l with trainAt := a.p.nowNs } }
  else a

/-- The link of a die port ends in DOWN or OFF (R146); its session is suspended, and what waits in it stays (R150). -/
def Agg.linkEnd (a : Agg) (p : Nat) (off : Bool) : Agg :=
  let rg := aggLinkRegs p
  let a := a.ingestLinkLost p
  let a := a.onLink p fun k => if off then k.stop rg true 0 else k.down rg true
  a.put (DP_STATUS_MARKED p) 0

/-! ### Slot ownership (R458) -/

/-- The slot's owner: PRIMARY for its die, with no ROLE_CONFLICT on its port and an image live (R458). -/
def Agg.slotOwner (a : Agg) (s : Nat) : Bool :=
  let p := a.portOfSlot s
  (a.dieOfSlot s).isSome && a.reg CFG_STATUS_STATE == 4 && a.role.get s == 1 &&
    !a.bit (DP_EVENT_ROLE_CONFLICT p)

/-- A channel that a new owner takes up: no sample of an earlier state counts in it. -/
def SlotCh.taken (c : SlotCh) (ns : Nat) : SlotCh := { c with over_ := 0, ok := 0, atNs := ns }

/-- OWNER follows; a new owner first drives the level that it senses, then takes ON or OFF (R458). -/
def Agg.ownRefresh (a : Agg) (s : Nat) : Agg :=
  if a.slotOwner s then
    if a.bit (SLOT_STATUS_OWNER s) then a
    else
      let on := a.bit (SLOT_STATUS_EN_SENSE s)
      let a : Agg := { a with pwr := { a.pwr with slot := a.pwr.slot.upd s (·.taken a.p.nowNs) } }
      (((a.send (.slotEn s on)).put (SLOT_STATUS_OWNER s) 1).put (SLOT_STATUS_STATE s) (if on then 2 else 0)).put
        (SLOT_STATUS_REF_NOW s) (if on then a.cfg (SLOT_ENV1_REF_TGT s) else 0)
  else a.put (SLOT_STATUS_OWNER s) 0

/-- Ownership of the slot whose die a port serves. -/
def Agg.ownPort (a : Agg) (p : Nat) : Agg :=
  (a.slotServed p).elim a a.ownRefresh

/-! ### Commands to a die (R157) -/

/-- The command registers of a port follow its queue (R172). -/
def Agg.cmdShow (a : Agg) (p : Nat) : Agg :=
  let d := a.die.get p
  (a.put (DP_CMD_STATUS_OUTSTANDING p) d.cmds.length).put (DP_CMD_STATUS_HELD p) d.heldCmds.length

/-- Commands that a new session after FULL_REQ takes before any other: the states of the domains and the push (R166). -/
def CmdUse.beforePush (u : CmdUse) : Bool :=
  match u with
  | .push _ _ => true
  | .pushSel => true
  | .pushId _ => true
  | .domain _ => true
  | _ => false

/-- A command joins the port's queue: with the session's next sequence while fewer than 64 lack a response, else it is
held (R157). While the die waits for the push that FULL_REQ calls for, it waits too (R166). -/
def Agg.cmdIssue (a : Agg) (p : Nat) (c : OutCmd) : Agg :=
  let d := a.die.get p
  if d.mustPush && !c.use.beforePush then a.onDie p fun d => { d with again := d.again ++ [c] }
  else if d.cmds.length < 64 then
    let n := a.reg (DP_CMD_STATUS_NEXT_SEQ p)
    let a := a.onDie p fun d => { d with cmds := d.cmds ++ [{ c with seq := n, sent := false }] }
    (a.put (DP_CMD_STATUS_NEXT_SEQ p) ((n + 1) % 2 ^ 32)).cmdShow p
  else (a.onDie p fun d => { d with heldCmds := d.heldCmds ++ [c] }).cmdShow p

/-- What re-reads what a command concerned, after its session was closed (R157): a READ of the registers, QUERY of the
domain, STATUS (code 4, R362) of the replay. -/
def rereadOf (c : OutCmd) : OutCmd :=
  match c.opcode with
  | 0x10 => { c with count := 0, data := [], arg := 4 }
  | 0x20 => { c with arg := c.arg % 256 + 768 }
  | 0x04 => { c with opcode := 0x01, addr := ULG_CFG_ID_UCFG_ID.off, arg := 0, count := 1, data := [] }
  | 0x02 => { c with opcode := 0x01, data := [] }
  | _ => c

/-- The commands that waited for the push of a new session are issued (R157, R166). -/
def Agg.againIssue (a : Agg) (p : Nat) : Agg :=
  let l := (a.die.get p).again
  (l.foldl (fun a c => a.cmdIssue p c) (a.onDie p fun d => { d with again := [], mustPush := false })).cmdShow p

/-- A new session is followed by a push, whose commands go first (R157, R486): the aggregator advertises PRIMARY. A push that
waits for the journal (R217, R235) is waited for too. -/
def Agg.pushDue (a : Agg) (p : Nat) : Bool :=
  a.heldAt p == 1 && !a.safe && (a.slotOfPort p).isSome

/-- What a session that was closed left, `d` being the port then and PREV_NEXT the boundary (R157): what ran without a
response is read again, what never began is issued again, in order, after the push that the new session requires. -/
def Agg.reissue (a : Agg) (p : Nat) (d : DiePort) (prevNext : Nat) : Agg :=
  let ran (c : OutCmd) : Bool := decide ((prevNext + 2 ^ 32 - (c.seq + 1) % 2 ^ 32) % 2 ^ 32 < 2 ^ 31)
  let again := d.again ++ (d.cmds.map fun c => if ran c then rereadOf c else c) ++ d.heldCmds
  let a := a.onDie p fun d => { d with again := again }
  if a.pushDue p ∨ (a.die.get p).mustPush then a else a.againIssue p

/-- Power domains of a Uligo (R444). -/
def ulgDomains : Nat := 0x16

/-- The commands of a new session (R157, R166): after FULL_REQ the state of every domain is read first, and at a primary
every other command waits for the push. -/
def Agg.sessionCmds (a : Agg) (p prevNext : Nat) : Agg :=
  let d := a.die.get p
  if d.fullReq then
    let ask (k : Nat) : OutCmd := { opcode := 0x20, arg := 3 * 256 + k, use := .domain ((a.slotOfPort p).getD 0) }
    let must := a.heldAt p == 1 && (a.slotOfPort p).isSome
    let old := a.onDie p fun d => { d with fullReq := false, mustPush := must, cmds := [], heldCmds := [] }
    let a := (List.range ulgDomains).foldl (fun a k => a.cmdIssue p (ask k)) (old.put (DP_CMD_STATUS_NEXT_SEQ p) 0)
    a.reissue p d prevNext
  else
    let a := a.onDie p fun d => { d with mustPush := false, cmds := [], heldCmds := [] }
    ((a.put (DP_CMD_STATUS_NEXT_SEQ p) 0).cmdShow p).reissue p d prevNext

/-- Take a response: its command leaves the queue and a held one takes its place; a response without a command is a
violation and is dropped (R157, R167), and so is one whose STATUS is a reserved code (R15, R154). -/
def Agg.takeResponse (a : Agg) (p : Nat) (r : Resp) : Agg × Option OutCmd :=
  match (a.die.get p).cmds.find? (fun c => r.status ≤ 6 ∧ c.seq = r.seq) with
  | none => (a.onLink p fun k => k.violation (aggLinkRegs p), none)
  | some c =>
    let a := a.onDie p fun d => { d with cmds := d.cmds.filter fun q => q.seq ≠ r.seq }
    let a := match (a.die.get p).heldCmds with
      | [] => a.cmdShow p
      | h :: t => (a.onDie p fun d => { d with heldCmds := t }).cmdIssue p h
    (a, some c)

/-! ### Roles (R160 to R162) -/

/-- Hold a role for the die of a slot and advertise it on a port. What waited for a push of the former primary waits no
more (R486). -/
def Agg.holdDie (a : Agg) (s p role : Nat) : Agg :=
  let a := (({ a with role := a.role.set s role } : Agg).advertise p).ownRefresh s
  if role ≠ 1 ∧ (a.die.get p).again ≠ [] then a.againIssue p else a

/-- Claim the die that a port serves (R161, R162, R194); a port that serves none has no die to claim. -/
def Agg.claimDie (a : Agg) (p : Nat) : Agg :=
  match a.slotServed p with
  | some s => ((a.holdDie s p 1).event (DP_EVENT_TAKEOVER p)).promote s
  | none => a

/-- Hand the die of a port on: the role becomes STANDBY, and the rings of the die enter RELEASING (R160, R162, R195). -/
def Agg.stepBack (a : Agg) (p : Nat) : Agg :=
  match a.slotServed p with
  | some s => (a.holdDie s p 2).releaseRings s
  | none => a

/-- Act on the relayed nibble and MARK of a current flit: step back (R160) or claim (R161). The twin is shown PRIMARY while
the die's other port is shown in RETRY or UP: what it last advertised before its link ended claims nothing (log entry
39). -/
def Agg.takeRelay (a : Agg) (p : Nat) (f : Flit) : Agg :=
  let link := (f.stateNibble : Nat) % 4
  let role := (f.stateNibble : Nat) / 4
  let a := ((a.put (DP_STATUS_PEER_LINK p) link).put (DP_STATUS_PEER_ROLE p) role).put (DP_STATUS_MARKED p)
    (if f.mark then 1 else 0)
  if a.reg (DP_STATUS_ROLE p) = 1 ∧ ¬ f.mark ∧ role = 1 ∧ 2 ≤ link then
    (a.event (DP_EVENT_ROLE_CONFLICT p)).stepBack p
  else if a.heldAt p = 2 ∧ a.cfgOn (DP_CFG_AUTO_TKO p) ∧ ¬ a.safe ∧ (link = 0 ∨ role = 3) then a.claimDie p
  else a

/-- RELEASE (R162, R195). -/
def Agg.releasePort (a : Agg) (p : Nat) : Agg :=
  if a.heldAt p = 1 then a.stepBack p else a

/-- CLAIM (R162, R194). -/
def Agg.claimPort (a : Agg) (p : Nat) : Agg := if a.heldAt p = 1 then a else a.claimDie p

/-- RELEASE (R162). -/
def execRelease (p : Fin 16) (s : State) : Host.Outcome State Fault Refusal := .next (s.onWrite fun a => a.releasePort p)

/-- CLAIM (R162). -/
def execClaim (p : Fin 16) (s : State) : Host.Outcome State Fault Refusal := .next (s.onWrite fun a => a.claimPort p)

/-! ### Sessions (R148 to R151) -/

/-- The nonce that the random source's draws end with (R148): its low 16 bits are neither 0 nor the port's previous
SESS_TAG. The draws that are thrown away are not modelled one by one: the free value is laid onto the nonces that R148
admits, so that it reaches every one of them and no other (log entry 7). -/
def freshNonce (prev n : Nat) : Nat :=
  let bars : Bool := decide (0 < prev ∧ prev < 65536)
  let k := n % (if bars then 65534 else 65535) + 1
  n / 65536 % 2 ^ 48 * 65536 + (if bars && decide (prev ≤ k) then k + 1 else k)

/-- HELLO_SEND (R149): in ALIGN; a suspended session is resumed, else a new nonce is drawn; while OPENING the HELLO is
repeated. -/
def execHelloSend (p : Fin 16) (s : State) : Host.Outcome State Fault Refusal :=
  .next (s.onAgg fun a =>
    let i : Nat := p
    if a.linkState i ≠ 2 then a
    else
      let sess := a.reg (DP_STATUS_SESSION i)
      let l := (a.die.get i).l
      let a :=
        if sess = 3 then
          (a.put (DP_STATUS_SESSION i) 1).onDie i fun d => { d with l := { d.l with resuming := true } }
        else if sess = 1 then a
        else
          let (n, q) := a.p.draw
          let n := freshNonce l.prevTag n
          ((({ a with p := q }).put (DP_NONCE_NONCE i) n).put (DP_STATUS_SESSION i) 1).onDie i fun d =>
            { d with l := { d.l with resuming := false } }
      let r := (a.die.get i).l.resuming
      let n := a.reg (DP_NONCE_NONCE i)
      (a.slotOut i (.hello r false n)).send (.hello i r n))

/-- The session becomes ACTIVE and the port UP (R146, R149). -/
def Agg.sessionUp (a : Agg) (p uid : Nat) : Agg :=
  let tag := a.reg (DP_NONCE_NONCE p) % 65536
  let a := a.onLink p fun k => k.up (aggLinkRegs p)
  (a.onDie p fun d => { d with uid := some uid, l := { d.l with prevTag := tag } }).advertise p

/-- A resume that fails leaves no session, so that the next HELLO is fresh (R149, R151). -/
def Agg.resumeFailed (a : Agg) (p : Nat) : Agg :=
  ((a.put (DP_STATUS_SESSION p) 0).put (DP_NONCE_NONCE p) 0).onDie p fun d =>
    { d with l := { d.l with resuming := false } }

/-- The aggregator takes the DIE_UID of a HELLO_ACK (R151, R171): one other than the previous session's is noted. -/
def Agg.takeUid (a : Agg) (p uid : Nat) : Agg :=
  let a := a.put (DP_DIE_UID_UID p) uid
  if (a.die.get p).uid.any (· != uid) then a.event (DP_EVENT_UID_CHANGED p) else a

/-- A HELLO_ACK in ALIGN (R149, R151, R157). -/
def Agg.takeHelloAck (a : Agg) (p : Nat) (k : HelloAck) : Agg :=
  let rg := aggLinkRegs p
  let same := (a.die.get p).uid.all (· == k.dieUid)
  if k.reservedSet then a.onLink p fun c => c.violation rg
  else if a.linkState p ≠ 2 ∨ a.reg (DP_STATUS_SESSION p) ≠ 1 ∨ k.sessTag ≠ a.reg (DP_NONCE_NONCE p) % 65536 then a
  else
    if (a.die.get p).l.resuming then
      if k.unknown ∨ k.fullReq ∨ ¬ k.resumed then
        let a := (((a.pushLost p).takeUid p k.dieUid).event (DP_EVENT_RESUME_FAIL p)).resumeFailed p
        if k.fullReq then (a.event (DP_EVENT_FULL_REQ p)).onDie p fun d => { d with fullReq := true } else a
      else if !same then ((a.pushLost p).takeUid p k.dieUid).resumeFailed p
      else ((a.takeUid p k.dieUid).sessionUp p k.dieUid).onDie p fun d =>
        { d with cmds := d.cmds.map fun c => { c with sent := false } }
    else if k.unknown ∨ k.fullReq ∨ k.resumed then a.takeUid p k.dieUid
    else (((a.pushLost p).takeUid p k.dieUid).sessionUp p k.dieUid).sessionCmds p k.prevNext

/-! ### Flits at the aggregator (R143, R167, R173) -/

/-- The payload of an accepted DATA flit (R139, R167): streams 1 to 4 go to ingest; what a response carries is a
command of its own. -/
def Agg.takePayload (a : Agg) (p : Nat) (f : Flit) : Agg :=
  let st : Nat := f.stream
  let viol (a : Agg) : Agg := a.onLink p fun k => k.violation (aggLinkRegs p)
  let a := if st = 1 ∧ f.first then
      (a.put (DP_STATUS_SILENT p) 0).onDie p fun d => { d with silentNs := 0, upSince := some a.p.nowNs }
    else a
  if 228 < f.plen ∨ 7 ≤ st then (viol a).rxDrop p st f.last
  else if st = 5 then viol a
  else if st = 0 ∨ st = 6 then a
  else
    let open_ := (a.rxRec p st).isSome
    if f.first ∧ open_ then (viol a).rxDrop p st true
    else if ¬ f.first ∧ ¬ open_ then viol a
    else a.ingestFlit p st f

/-- What every flit of a die port says besides its link fields: the role advertised (R138, R140). -/
def Agg.flitBase (a : Agg) (p : Nat) : Flit := { stateNibble := Fin.ofNat 16 (a.reg (DP_STATUS_ROLE p)) }

/-- Every unacknowledged flit of a die port leaves again (R143). -/
def Agg.flitsAgain (a : Agg) (p : Fin 16) : Agg :=
  let k : LinkCtx := { p := a.p, l := (a.die.get p).l }
  (k.resent (aggLinkRegs p) (a.flitBase p)).foldl (fun a f => a.send (.flit (.agg p) true f)) (a.onLink p LinkCtx.sendAgain)

/-- The aggregator receives a flit (R143). -/
def Agg.receiveFlit (a : Agg) (p : Fin 16) (f : Flit) (data : Bool) : Agg :=
  let rg := aggLinkRegs p
  let before := a.linkState p
  if before = 2 then a.onLink p fun k => k.receiveAlign rg true f
  else if before = 3 ∨ before = 4 then
    let r := ({ p := a.p, l := (a.die.get p).l } : LinkCtx).receive rg true f data
    let a := (({ a with p := r.k.p }).onDie p fun d => { d with l := r.k.l }).silentTrack p before |>.retryTrack p before
    let a := if r.replay then a.flitsAgain p else a
    let a := if r.current then a.takeRelay p f else a
    if r.accept then a.takePayload p f else a
  else a

/-- The payload of the flit that carries a command (R152). -/
def cmdBytes (c : OutCmd) : List Byte :=
  Cmd.bytes c.opcode { seq := c.seq, count := c.count, addr := c.addr, arg := c.arg, data := c.data }

/-- The aggregator sends its next flit on a die port: the next command not yet sent, or IDLE (R138, R142, R157). -/
def Agg.sendFlit (a : Agg) (p : Fin 16) : Agg :=
  let i : Nat := p
  let rg := aggLinkRegs i
  let st := a.linkState i
  let base := a.flitBase i
  let k : LinkCtx := { p := a.p, l := (a.die.get i).l }
  let idle : Agg := (a.onLink i LinkCtx.sendIdle).send (.flit (.agg p) false (k.fill rg base))
  if st = 3 then
    match (a.die.get i).cmds.find? (fun c => !c.sent) with
    | some c =>
      if 64 ≤ k.l.unacked.length then idle
      else
        let pay := cmdBytes c
        let f : Flit := { base with stream := 5, first := true, last := true, plen := pay.length, payload := pay }
        let a := (a.onLink i fun k => k.sendData f 0).send (.flit (.agg p) true (k.fill rg f))
        a.onDie i fun d => { d with cmds := d.cmds.map fun q => if q.seq = c.seq then { q with sent := true } else q }
    | none => idle
  else if st = 2 ∨ st = 4 then idle
  else a

/-! ### The commands that either end takes -/

/-- A change at the named end of a link. -/
def State.onEnd (s : State) (e : LinkEnd) (f : Nat → Agg → Agg) (g : Nat → Ulg → Ulg) : State :=
  match e with
  | .agg p => s.onAgg (f p)
  | .ulg x => s.onUlg (g x)

/-- The port trains (R146). -/
def trainable (st : Nat) (enabled : Bool) : Bool := enabled && st == 1

/-- TRAINING_DONE (R146, R147): on four lanes, or on a pair with DEGRADE_OK. -/
def execTrainingDone (e : LinkEnd) (lanes : BitVec 4) (s : State) : Host.Outcome State Fault Refusal :=
  .next (s.onEnd e
    (fun p a =>
      let a := a.portStart p
      if trainable (a.linkState p) (a.portEnabled p) then
        a.onLink p fun k => k.trained (aggLinkRegs p) lanes.toNat (a.cfgOn (DP_CFG_DEGRADE_OK p)) else a)
    (fun x u =>
      let u := u.portStart x
      if trainable (u.linkState x) (u.portEnabled x) then
        u.onLink x fun k => k.trained (ulgLinkRegs x) lanes.toNat (u.cfgOn ULG_LINK_CFG_DEGRADE_OK) else u))

/-- Training limit of a Uligo port, ms, and its DOWN hold-off, µs (R146). -/
def ulgTrainMs : Nat := 200
/-- The hold-off. -/
def ulgHoldUs : Nat := 10

/-- TRAIN_LIMIT (R146). -/
def execTrainLimit (e : LinkEnd) (s : State) : Host.Outcome State Fault Refusal :=
  .next (s.onEnd e
    (fun p a =>
      let a := a.portStart p
      if trainable (a.linkState p) (a.portEnabled p) then
        let a : Agg := { a with p := a.p.until ((a.die.get p).l.trainAt + a.cfg (DP_CFG_TRAIN_LIMIT_MS p) * 1000000) }
        a.linkEnd p false else a)
    (fun x u =>
      let u := u.portStart x
      if trainable (u.linkState x) (u.portEnabled x) then
        let u : Ulg := { u with p := u.p.until ((u.link.port.get x).l.trainAt + ulgTrainMs * 1000000) }
        u.linkEnd x false else u))

/-- ALIGN_TIMEOUT (R146): 1 ms in ALIGN without a session. -/
def execAlignTimeout (e : LinkEnd) (s : State) : Host.Outcome State Fault Refusal :=
  .next (s.onEnd e
    (fun p a => if a.linkState p = 2 then
      ({ a with p := a.p.until ((a.die.get p).l.alignAt + 1000000) } : Agg).linkEnd p false else a)
    (fun x u => if u.linkState x = 2 then
      ({ u with p := u.p.until ((u.link.port.get x).l.alignAt + 1000000) } : Ulg).linkEnd x false else u))

/-- The lock is gone (R144). -/
def LinkCtx.lockLost (k : LinkCtx) (rg : LinkRegs) : LinkCtx :=
  let k : LinkCtx := { k with l := { k.l with lockHeld := false } }
  k.retry rg

/-- ALIGNMENT_LOCK_LOST (R144): loss of FEC or alignment lock in UP enters RETRY; within RETRY the window does not
restart. -/
def execAlignmentLockLost (e : LinkEnd) (s : State) : Host.Outcome State Fault Refusal :=
  .next (s.onEnd e
    (fun p a => if a.linkState p = 3 ∨ a.linkState p = 4 then a.onLink p fun k => k.lockLost (aggLinkRegs p) else a)
    (fun x u => if u.linkState x = 3 ∨ u.linkState x = 4 then u.onLink x fun k => k.lockLost (ulgLinkRegs x) else u))

/-- RETRY_TIMEOUT (R144): 8 µs in RETRY. -/
def execRetryTimeout (e : LinkEnd) (s : State) : Host.Outcome State Fault Refusal :=
  .next (s.onEnd e
    (fun p a => if a.linkState p = 4 then
      ({ a with p := a.p.until ((a.die.get p).l.retryAt + 8000) } : Agg).linkEnd p false else a)
    (fun x u => if u.linkState x = 4 then
      ({ u with p := u.p.until ((u.link.port.get x).l.retryAt + 8000) } : Ulg).linkEnd x false else u))

/-- REUP_HOLD (R146): the hold-off has passed and the port is enabled. -/
def execReupHold (e : LinkEnd) (s : State) : Host.Outcome State Fault Refusal :=
  .next (s.onEnd e
    (fun p a => if a.linkState p = 5 ∧ a.portEnabled p then
      let a : Agg := { a with p := a.p.until ((a.die.get p).l.downAt + a.cfg (DP_CFG_REUP_HOLD_US p) * 1000) }
      (a.put (DP_STATUS_STATE p) 1).onDie p fun d => { d with l := { d.l with trainAt := a.p.nowNs } } else a)
    (fun x u => if u.linkState x = 5 ∧ u.portEnabled x then
      let u : Ulg := { u with p := u.p.until ((u.link.port.get x).l.downAt + ulgHoldUs * 1000) }
      (u.put (ULG_LINK_STATUS_STATE x) 1).onPort x fun q => { q with l := { q.l with trainAt := u.p.nowNs } } else u))

/-- DATA_FLIT (R143). -/
def execDataFlit (e : LinkEnd) (f : Flit) (s : State) : Host.Outcome State Fault Refusal :=
  .next (match e with
    | .agg p => s.onAgg fun a => a.receiveFlit p f true
    | .ulg x => s.onUlg fun u => u.receiveFlit x f true)

/-- IDLE_FLIT (R142, R143). -/
def execIdleFlit (e : LinkEnd) (f : Flit) (s : State) : Host.Outcome State Fault Refusal :=
  .next (match e with
    | .agg p => s.onAgg fun a => a.receiveFlit p f false
    | .ulg x => s.onUlg fun u => u.receiveFlit x f false)

/-- VIOL_DOWN (R146, R167): 16 consecutive flits that break the rules. -/
def execViolDown (e : LinkEnd) (s : State) : Host.Outcome State Fault Refusal :=
  .next (s.onEnd e
    (fun p a => if (a.linkState p = 3 ∨ a.linkState p = 4) ∧ 16 ≤ (a.die.get p).l.violRun then a.linkEnd p false else a)
    (fun x u => if (u.linkState x = 3 ∨ u.linkState x = 4) ∧ 16 ≤ (u.link.port.get x).l.violRun then
      u.linkEnd x false else u))

/-- REPLAY_TIMEOUT (R143): no ACKSEQ progress for 1 µs while flits are unacknowledged. -/
def execReplayTimeout (e : LinkEnd) (s : State) : Host.Outcome State Fault Refusal :=
  .next (match e with
    | .agg p => s.onAgg fun a =>
      if (a.linkState p = 3 ∨ a.linkState p = 4) ∧ (a.die.get p).l.unacked ≠ [] then
        (a.onLink p fun k => k.replay (aggLinkRegs p)).flitsAgain p
      else a
    | .ulg x => s.onUlg fun u =>
      if (u.linkState x = 3 ∨ u.linkState x = 4) ∧ (u.link.port.get x).l.unacked ≠ [] then
        (u.onLink x fun k => k.replay (ulgLinkRegs x)).flitsAgain x
      else u)

/-- FLIT_SEND (R138, R142, R158). -/
def execFlitSend (e : LinkEnd) (s : State) : Host.Outcome State Fault Refusal :=
  .next (match e with
    | .agg p => s.onAgg fun a => a.sendFlit p
    | .ulg x => s.onUlg fun u => u.sendFlit x)

/-- The stream timeout of a port in ns (R164): 0 means three live tick periods. -/
def Agg.streamTmo (a : Agg) (p : Nat) : Nat :=
  let t := a.cfg (DP_CFG_STREAM_TMO_US p)
  1000 * (if t = 0 then 3 * a.p.tick.us else t)

/-- STREAM_TIMEOUT (R164): SILENT, a contained fault naming the die; the port stays UP and the role is kept. -/
def execStreamTimeout (p : Fin 16) (s : State) : Host.Outcome State Fault Refusal :=
  .next (s.onAgg fun a =>
    let i : Nat := p
    let d := a.die.get i
    match d.upSince with
    | none => a
    | some t =>
      if a.linkState i = 3 then
        let a : Agg := { a with p := a.p.until (t + a.streamTmo i - d.silentNs) }
        (a.put (DP_STATUS_SILENT i) 1).event (DP_EVENT_SILENT i) ((a.slotOfPort i).bind a.dieOfSlot)
      else a)

end Sys2Proof.Machine
end

