-- ==== Sys2Proof/Machine/Fabric.lean ====
section
/-! DEFINITION. Fabric ports (12): link state (R388), egress queues, calendars and shapers (R399 to R406), transactions
and receive windows (R393 to R395), meters (R407), queue statistics (R408), and faulty arrivals (R409). -/

namespace Sys2Proof.Machine

/-! ### Shapers (R405, R406) -/

/-- Rate, burst and length overhead of a paddock's shaper in force (R405, R406). -/
def Agg.shaper (a : Agg) (d : Nat) : Nat × Nat × Nat :=
  (a.fab.shpOld.get d).getD (a.cfg (FAB_SHP_RATE_MBPS d), a.cfg (FAB_SHP_BURST_KIB d), a.cfg (FAB_SHP_LEN_OVH d))

/-- The credit of a paddock's shaper. -/
def Agg.shpCredit (a : Agg) (d : Nat) : Int := (a.fab.credit.get d).getD ((a.shaper d).2.1 * 1024 : Nat)

/-- The shaper of a frame's paddock lets it be selected (R405); the last gasp goes past the shapers (R454). -/
def Agg.shapedOk (a : Agg) (o : OutPacket) : Bool :=
  !o.shaped || a.gasp || !a.cfgOn FAB_SHP_CFG_EN || (a.shaper o.paddock).1 == 0 ||
    decide (0 < a.shpCredit o.paddock)

/-- Charge a selected frame of `n` bytes (R405). -/
def Agg.shpCharge (a : Agg) (o : OutPacket) (n : Nat) : Agg :=
  if o.shaped ∧ ¬ a.gasp ∧ a.cfgOn FAB_SHP_CFG_EN ∧ (a.shaper o.paddock).1 ≠ 0 then
    let c := a.shpCredit o.paddock - (n + (a.shaper o.paddock).2.2 : Nat)
    a.onFab fun f => { f with credit := f.credit.set o.paddock (some c) }
  else a

/-- A committed change of a shaper takes effect at a refill instant, its credit capped at the new burst (R406). -/
def Agg.shpChange (a : Agg) (d : Nat) : Agg :=
  match a.fab.shpOld.get d with
  | none => a
  | some _ =>
    let c := min (a.shpCredit d) (a.cfg (FAB_SHP_BURST_KIB d) * 1024 : Nat)
    a.onFab fun f => { f with credit := f.credit.set d (some c), shpOld := f.shpOld.set d none }

/-- SHAPER_REFILL (R405, R406): at the next refill instant changes act first, the refill second. -/
def execShaperRefill (s : State) : Host.Outcome State Fault Refusal :=
  .next (s.onAgg fun a =>
    let n := a.cfg FAB_SHP_CFG_REFILL_NS
    let a : Agg := { a with p := a.p.until ((a.fab.refillNs / n + 1) * n) }
    let a := a.onFab fun f => { f with refillNs := a.p.nowNs }
    (List.range 64).foldl (fun a d =>
      let a := a.shpChange d
      let rate := a.cfg (FAB_SHP_RATE_MBPS d)
      if rate = 0 then a
      else
        let total := rate * n + a.fab.refillRem.get d
        let c := min (a.shpCredit d + (total / 1000 : Nat)) (a.cfg (FAB_SHP_BURST_KIB d) * 1024 : Nat)
        a.onFab fun f => { f with credit := f.credit.set d (some c), refillRem := f.refillRem.set d (total % 1000) }) a)

/-! ### Transactions (R395) -/

/-- Transaction entries held on a port. -/
def Agg.txnOn (a : Agg) (p : Nat) : Nat := (a.fab.txn.filter fun t => t.port = p).length

/-- TXN of the port status follows. -/
def Agg.txnShow (a : Agg) : Agg := (List.range 12).foldl (fun a p => a.put (FAB_PORT_STATUS_TXN p) (a.txnOn p)) a

/-- Entries of a port at most (R395). -/
def txnMax : Nat := 65536

/-- The frame is the packet of a PSN to a receiver in a class. -/
def FabPkt.named (k : FabPkt) (dst cls psn : Nat) : Bool := k.o.rclass == cls && k.o.dst == dst && k.psn == psn

/-- Release the entries that an ACK names, which are returned, with their retransmissions that still wait in a queue; a PSN
without an entry is counted (R394, R395, R409). -/
def Agg.txnAck (a : Agg) (src cls incarn : Nat) (psns : List Nat) : Agg × List FabPkt :=
  let mine (k : FabPkt) : Bool := incarn = a.reg FAB_STATUS_INCARN && psns.any (k.named src cls)
  let done := a.fab.txn.filter fun t => mine t.pkt
  let unknown := psns.length - done.length
  let a := a.onFab fun f => { f with
    txn := f.txn.filter fun t => !mine t.pkt, otherDrops := f.otherDrops + unknown }
  let a := (done.filter (·.queued)).foldl (fun a t => (List.range 12).foldl (fun a p =>
    let q := t.pkt.o.queue
    let l := a.fab.queue.get (fabKey p q)
    if l.any mine then a.qPut p q (l.filter fun k => !mine k) else a) a) a
  (a.txnShow, done.map (·.pkt))

/-- RETRANSMIT (R395): RTO_US after its latest transmission a packet enters a queue again, on another port of its set that has a
free entry, else on the same one; after RETRIES the entry is given up. A full queue refuses it as it refuses any packet. -/
def execRetransmit (port : Fin 12) (psn cls dst : Nat) (s : State) : Host.Outcome State Fault Refusal :=
  .next (s.onAgg fun a =>
    let mine (t : Txn) : Bool := t.port = port && !t.queued && t.pkt.named dst cls psn
    match a.fab.txn.find? mine with
    | none => a
    | some t =>
      let a : Agg := { a with p := a.p.until (t.sentNs + a.cfg FAB_TXN_CFG_RTO_US * 1000) }
      if a.cfg FAB_TXN_CFG_RETRIES ≤ t.retx then
        ((a.onFab fun f => { f with txn := f.txn.filter fun x => !mine x }).count FAB_ERR_COUNT_GIVE_UP).txnShow.event
          FAB_EVENT_GIVE_UP
      else
        let q := t.pkt.o.queue
        let other := (a.placeable t.pkt.f).find? fun p => p ≠ port.val && decide (a.txnOn p < txnMax)
        let p := other.getD port.val
        if a.roomAt p q t.pkt.bytes then
          let k : FabPkt := { t.pkt with tx := t.retx + 1, enqNs := a.p.nowNs, waited := false }
          (a.onFab fun f => { f with txn := f.txn.map fun x => if mine x then { x with queued := true } else x }).qPut p q
            (a.fab.queue.get (fabKey p q) ++ [k])
        else (a.refused p q).event FAB_EVENT_QUEUE_FULL)

/-! ### Starting frames (R400, R402, R404) -/

/-- A frame that starts now would end after a pending launch of its port (R404). -/
def Agg.guarded (a : Agg) (p bytes : Nat) : Bool :=
  a.fab.launches.any fun l => l.port = p && decide (l.ns * a.fabRate p < a.p.nowNs * a.fabRate p + bytes + 20)

/-- Why a queue's head does not start. -/
inductive HeadBlock where
  | go | empty | safe | gate | guard | txn | shaped
  deriving DecidableEq, Repr

/-- A retransmission's entry is on the port already. -/
def Agg.holdsEntry (a : Agg) (p : Nat) (k : FabPkt) : Bool :=
  a.fab.txn.any fun t => t.port == p && t.pkt.named k.o.dst k.o.rclass k.psn

/-- What holds the head of a queue (R400 to R405). -/
def Agg.headBlock (a : Agg) (p q : Nat) : HeadBlock :=
  match a.fab.queue.get (fabKey p q) with
  | [] => .empty
  | k :: _ =>
    if a.safe ∧ q ≠ 0 then .safe
    else if !a.wireFits p k.bytes (a.openLeft p q a.p.nowNs) then .gate
    else if a.guarded p k.bytes then .guard
    else if k.o.ackReq ∧ ¬ a.holdsEntry p k ∧ txnMax ≤ a.txnOn p then .txn
    else if !a.shapedOk k.o then .shaped
    else .go

/-- Show why heads wait, and count a frame that waits for its window once (R402). -/
def Agg.headShow (a : Agg) (p q : Nat) : Agg :=
  let b := a.headBlock p q
  let a := (a.put (FAB_Q_STATUS_HEAD_WAIT p q) (if b = .gate ∨ b = .guard then 1 else 0)).put
    (FAB_Q_STATUS_SHAPED_WAIT p q) (if b = .shaped then 1 else 0)
  match b, a.fab.queue.get (fabKey p q) with
  | .gate, k :: t =>
    if k.waited then a
    else
      let a := a.onFab fun f => { f with queue := f.queue.set (fabKey p q) ({ k with waited := true } :: t) }
      a.qStat p q fun s => { s with winWaits := s.winWaits + 1 }
  | _, _ => a

/-- A head that needs a transaction entry its port does not have goes to another port of its set, or waits with TXN_FULL
(R395). -/
def Agg.txnMove (a : Agg) (p q : Nat) : Agg :=
  match a.headBlock p q, a.fab.queue.get (fabKey p q) with
  | .txn, k :: t =>
    match (a.placeable k.f).find? (fun x => x ≠ p && decide (a.txnOn x < txnMax) && a.roomAt x q k.bytes) with
    | some x => (a.qPut p q t).qPut x q (a.fab.queue.get (fabKey x q) ++ [k])
    | none => a.event FAB_EVENT_TXN_FULL
  | _, _ => a

/-- The transaction entry of a packet that starts on a port (R395): a new one, or that of the packet's first transmission,
which comes to the port. -/
def Agg.txnStart (a : Agg) (p : Nat) (k : FabPkt) : Agg :=
  let again (t : Txn) : Txn :=
    if t.pkt.named k.o.dst k.o.rclass k.psn then { t with port := p, sentNs := a.p.nowNs, retx := k.tx, queued := false } else t
  if ¬ k.o.ackReq then a
  else if k.tx = 0 then
    (a.onFab fun f => { f with txn := f.txn ++ [{ port := p, pkt := k, sentNs := a.p.nowNs }] }).txnShow
  else (a.onFab fun f => { f with txn := f.txn.map again }).txnShow

/-- A frame starts on a port: it is charged, counted (R408) and sent. -/
def Agg.startFrame (a : Agg) (p : Nat) (k : FabPkt) : Agg :=
  let q := k.f.queue
  let delay := a.p.nowNs - k.enqNs
  let a := (a.shpCharge k.o k.bytes).qStat p q fun s => { s with
    sent := s.sent + 1, sentBytes := s.sentBytes + k.bytes, delayMax := max s.delayMax delay, delaySum := s.delaySum + delay }
  match k.f with
  | .rycon o => (a.txnStart p k).send (.frame p k (a.ryconWire p q o k.psn k.enqNs k.tx))
  | .delayReq port seq => a.delayReqOut port seq
  | .esmc port => a.send (.esmcDnu port)
  | .neighborAdv _ dst => a.send (.frame p k (a.advertWire p dst))
  | .echoReply _ dst ident seq data => a.send (.frame p k (a.echoWire p dst ident seq data))

/-- Start the head of a queue; frames that were refused may find space now (R400). -/
def Agg.startHead (a : Agg) (p q : Nat) : Agg :=
  match a.fab.queue.get (fabKey p q) with
  | [] => a
  | k :: t => ((a.qPut p q t).startFrame p k).reoffer

/-- FRAME_START (R400, R402): the head frame of the lowest-numbered queue that may be served starts. -/
def execFrameStart (port : Fin 12) (s : State) : Host.Outcome State Fault Refusal :=
  .next (s.onAgg fun a =>
    let p : Nat := port
    if a.fabUp p then
      let a := (List.range 8).foldl (fun a q => (a.txnMove p q).headShow p q) a
      match (List.range 8).find? (fun q => a.headBlock p q = .go) with
      | some q => a.startHead p q
      | none => a
    else a)

/-! ### Timed launches (R51, R404) -/

/-- Request a timed launch; the event names a refusal (R404). -/
def Agg.launchAsk (a : Agg) (l : Launch) : Agg × Bool :=
  if 4 ≤ (a.fab.launches.filter fun x => x.port = l.port).length then (a.event FAB_EVENT_LAUNCH_BUSY, false)
  else if l.ns < a.p.nowNs + 100 then (a.event FAB_EVENT_LAUNCH_LATE, false)
  else (a.onFab fun f => { f with launches := f.launches ++ [l] }, true)

/-- LAUNCH_REQUEST (R404). -/
def execLaunchRequest (port : Fin 12) (launchNs : Nat) (frames : List OutPacket) (s : State) :
    Host.Outcome State Fault Refusal :=
  .next (s.onAgg fun a => (a.launchAsk { port := port, ns := launchNs, kind := .frames frames }).1)

/-- A packet of a launched burst starts on its port, ahead of every queue and regardless of gates (R404). -/
def Agg.launchOut (a : Agg) (p : Nat) (o : OutPacket) : Agg :=
  let r := a.drawPsn (.rycon o)
  r.2.startFrame p { f := .rycon o, psn := r.1, enqNs := a.p.nowNs, bytes := a.lengthOf (.rycon o) }

/-- The earliest pending launch of a port. -/
def Agg.nextLaunch (a : Agg) (p : Nat) : Option Launch :=
  (a.fab.launches.filter fun l => l.port = p).foldl (fun best l => match best with
    | none => some l
    | some b => if l.ns < b.ns then some l else some b) none

/-! ### Receiving (R393, R394, R407, R409) -/

/-- The aggregator is in the fleet list or the endpoint table (R375, R409). -/
def Agg.knownPeer (a : Agg) (src : Nat) : Bool :=
  a.img.members.contains src ||
    (List.range 64).any fun i => a.cfgOn (FAB_EP_ID_EN i) && a.cfg (FAB_EP_ID_ID i) == src

/-- A PSN in the receive window of a sender and class (R393). -/
inductive PsnVerdict where
  | accept (w : RxWin) | dup | stale
  deriving DecidableEq, Repr

/-- Judge a PSN by the first row of R393 that applies. -/
def judgePsn (w : Option RxWin) (incarn psn : Nat) : PsnVerdict :=
  let keep (h : Nat) (l : List Nat) : List Nat := l.filter fun n => (h + 2 ^ 32 - n) % 2 ^ 32 < 4096
  match w with
  | none => .accept { incarn := incarn, high := psn, seen := [psn] }
  | some w =>
    if w.incarn ≠ incarn then .accept { incarn := incarn, high := psn, seen := [psn] }
    else if laterRound psn w.high then .accept { w with high := psn, seen := psn :: keep psn w.seen }
    else if (w.high + 2 ^ 32 - psn % 2 ^ 32) % 2 ^ 32 < 4096 then
      if w.seen.contains psn then .dup else .accept { w with seen := psn :: w.seen }
    else .stale

/-- A PSN waits for its acknowledgement (R394): with others of the sender, the class and the INCARN, on the port of the latest
arrival (R396, log entry 172). -/
def Agg.ackPend (a : Agg) (src cls incarn port psn : Nat) : Agg :=
  let same (k : AckPend) : Bool := k.src = src && k.cls = cls && k.incarn = incarn
  a.onFab fun f =>
    if f.acks.any same then
      { f with acks := f.acks.map fun k => if same k then { k with psns := k.psns ++ [psn], port := port } else k }
    else { f with acks := f.acks ++ [{
      src := src, cls := cls, incarn := incarn, port := port, psns := [psn], oldestNs := a.p.nowNs }] }

/-- The solicited-node group of the own address (RFC 4291). -/
def Agg.solicitedNode (a : Agg) : Nat := 0xFF02 * 2 ^ 112 + 0x1FF * 2 ^ 24 + a.ownAddress % 2 ^ 24

/-- A destination address of the aggregator (R409). -/
def Agg.reaches (a : Agg) (dst : Nat) : Bool := dst == a.ownAddress || dst == ptpGroup || dst == a.solicitedNode

/-- The rows of R409 from the header on, past the UDP port: which a packet meets of its fields or of what only the wire can
show. -/
def Agg.packetDefect (a : Agg) (k : Packet) (d : WireDefect) : Bool :=
  (k.rclass = 0 || 5 < k.rclass || (k.rclass == 3 && (k.msgType = 0 || 4 < k.msgType)) ||
    (k.rclass != 3 && k.msgType != 0)) || d = .reserved ||
  (k.plen < 8 || 8192 < k.plen || k.plen % 8 ≠ 0) || d = .plen || d = .fcrc ||
  k.srcAddr ≠ (if k.spineSrc then a.spineAddress else a.addressOf k.src) ||
  (!k.spineSrc && !a.knownPeer k.src) || k.dst ≠ a.id || (k.rclass == 4 && !k.spineSrc)

/-- Accept a packet of a windowed class (R393, R394). A MIRROR packet is taken at once, and so is a NOTICE packet that carries a
reduction frame or a refusal; one with a notice entry or a Fleece record waits for its consumer. -/
def Agg.acceptPacket (a : Agg) (k : Packet) : Agg :=
  if k.rclass = 1 ∨ k.rclass = 3 then
    let key := 8 * k.src + k.rclass
    let h : HeldNotice := { src := k.src, psn := k.psn, incarn := k.incarn, port := k.port }
    match judgePsn (a.fab.win.get key) k.incarn k.psn with
    | .accept w =>
      let a := a.onFab fun f => { f with win := f.win.set key (some w) }
      if !k.ackReq then a
      else if k.rclass = 1 ∨ k.msgType = 2 ∨ k.msgType = 4 then a.ackPend k.src k.rclass k.incarn k.port k.psn
      else a.onFab fun f => { f with held := f.held ++ [h] }
    | .dup =>
      let a := a.fabDrop
      let waits := a.fab.held.any fun h => h.src = k.src && h.psn = k.psn && h.incarn = k.incarn
      if k.ackReq ∧ k.rclass = 3 ∧ waits then a
      else if k.ackReq then a.ackPend k.src k.rclass k.incarn k.port k.psn else a
    | .stale => a.count FAB_ERR_COUNT_STALE
  else a

/-- RYCON_F_PACKET (R393, R407, R409): what its payload does is its own layer's command. A message to UDP port 319 or 320 is no
Rycon-F packet. -/
def execRyconFPacket (d : WireDefect) (k : Packet) (s : State) : Host.Outcome State Fault Refusal :=
  .next (s.onAgg fun a =>
    match d with
    | .fcs => a.count (FAB_PORT_ERR_FCS k.port)
    | .pause | .etherType => a.fabDrop
    | _ =>
      if ¬ a.reaches k.dstAddr then a.fabDrop
      else if d = .ipForm then a.fabViol
      else if d = .icmp then a.fabDrop
      else if k.udpPort ≠ a.cfg FAB_CFG_UDP_PORT then (if k.udpPort = 319 ∨ k.udpPort = 320 then a else a.fabDrop)
      else if d = .udpChecksum ∨ a.packetDefect k d then a.fabViol
      else a.metered k.port (meterGroup k.rclass k.ackClass) k.rx fun a => a.acceptPacket k)

/-- The NOTICE packet of a sender's PSN has been taken by its consumer, and will be acknowledged (R394). -/
def Agg.noticeTaken (a : Agg) (src psn : Nat) : Agg :=
  match a.fab.held.find? (fun h => h.src = src && h.psn = psn) with
  | none => a
  | some h => (a.onFab fun f => { f with held := f.held.erase h }).ackPend src 3 h.incarn h.port psn

/-- The payload of an ACK, in network order: ACK_CLASS, N, INCARN and the PSNs, zero-padded to 8 bytes (R394). -/
def ackBytes (cls incarn : Nat) (psns : List Nat) : List Byte :=
  padTo 8 (beBytes 1 cls ++ beBytes 1 psns.length ++ zeros 2 ++ beBytes 4 incarn ++ (psns.map (beBytes 4)).flatten)

/-- ACK_SEND (R394): at ACK_EVERY pending PSNs, or ACK_COAL_NS after the oldest. ACKs of NOTICE packets are of queue FAULT, and
those of MIRROR packets wait for the end of safe state (R399, R401). -/
def execAckSend (src cls : Nat) (s : State) : Host.Outcome State Fault Refusal :=
  .next (s.onAgg fun a =>
    match a.fab.acks.find? (fun k => k.src = src && k.cls = cls) with
    | none => a
    | some k => if a.safe ∧ cls ≠ 3 then a else
      let n := a.cfg FAB_TXN_CFG_ACK_EVERY
      let a : Agg := if n ≤ k.psns.length then a
        else { a with p := a.p.until (k.oldestNs + a.cfg FAB_TXN_CFG_ACK_COAL_NS) }
      let now := k.psns.take 16
      let rest := k.psns.drop 16
      let a := a.onFab fun f =>
        { f with acks := f.acks.erase k ++ (if rest = [] then [] else [{ k with psns := rest, oldestNs := a.p.nowNs }]) }
      a.offerPacket { rclass := 5, dst := src, port := k.port, payload := ackBytes cls k.incarn now })

/-- NEIGHBOR_SOLICITATION (R389): answered for the own address, within the MGMT meter, to its source, or to all nodes where it
has none (RFC 4861). One for another address is dropped and counted (R409). -/
def execNeighborSolicitation (port : Fin 12) (target source : Nat) (rx : RxInfo) (s : State) :
    Host.Outcome State Fault Refusal :=
  .next (s.onAgg fun a =>
    if target = a.ownAddress then
      a.metered port 4 rx fun a => a.offer (.neighborAdv port (if source = 0 then 0xFF02 * 2 ^ 112 + 1 else source))
    else a.fabDrop)

/-- ECHO_REQUEST (R389): answered within the MGMT meter; no answer in safe state (R401). -/
def execEchoRequest (port : Fin 12) (source ident seq : Nat) (data : List Byte) (rx : RxInfo) (s : State) :
    Host.Outcome State Fault Refusal :=
  .next (s.onAgg fun a => a.metered port 4 rx fun a => a.offer (.echoReply port source ident seq data))

/-! ### Path changes (R43, R398) -/

/-- PATH_CHANGE (R43, R398): on the SLAVE port the servo enters HOLDOVER; on a STANDBY port the estimate is discarded; on any
other port it is counted. SPINE_PORT is opaque, and no rule uses CHANGE_NS. A reserved PTYPE is refused (R15). -/
def execPathChange (port : Fin 12) (ptype _spinePort _changeNs : Nat) (s : State) : Host.Outcome State Fault Refusal :=
  .next (s.onAgg fun a =>
    if ptype ≠ 1 then a.fabViol
    else
      let a := a.event FAB_EVENT_PATH_NOTICE
      match a.reg (PTP_PORT_STATE_ST port) with
      | 3 => { a with p := servoLost (aggServoEnv a.p) a.p }
      | 4 => a.onPtp port fun q => { q with offset := none, sync := none }
      | _ => a.onFab fun f => { f with pathOther := f.pathOther + 1 })

/-! ### Ports going down and up (R388, R446) -/

/-- A port is up on the lanes of a mask, or down on none: held, and shown. -/
def Agg.fabLink (a : Agg) (p lanes : Nat) : Agg :=
  let n := popCount 8 lanes
  let a := a.onFab fun f => { f with lanes := f.lanes.set p lanes }
  ((a.put (FAB_PORT_STATUS_UP p) (if n = 0 then 0 else 1)).put (FAB_PORT_STATUS_LANES p) n).put FAB_STATUS_PORTS_UP
    (withBit (a.reg FAB_STATUS_PORTS_UP) p (n != 0))

/-- A fabric port goes down: its PTP instance is FAULTY and has no master until the port is up and one announces itself again,
and the frequency it carried is no source (R32, log entry 122); the last port of the MIRROR class
loses the mirror session (R217). -/
def Agg.fabPortDown (a : Agg) (p : Nat) : Agg :=
  if a.fabUp p then
    let a := a.fabLink p 0
    let a := if ptpEnabled a p then a.put (PTP_PORT_STATE_ST p) 5 else a
    (esmcSelect (ptpSelect { a with
      time := { a.time with ptp := a.time.ptp.upd p PtpPort.lost, ql := a.time.ql.set p 0 } })).mirLost
  else a

/-- The lanes on which a port trains, of those that are whole, as a mask (R388): eight in mode 0, or, with DEGRADE_OK, a whole
group of four, lanes 0 to 3 first; four in modes 1 and 2. None is 0. -/
def Agg.fabTrains (a : Agg) (p : Nat) (whole : BitVec 8) : Nat :=
  let takes (m : Nat) : Bool := whole.toNat &&& m == m
  let groups := match a.cfg (FAB_PORT_CFG_MODE p) with
    | 1 => [0x0F]
    | 2 => [0xF0]
    | _ => if a.cfgOn (FAB_PORT_CFG_DEGRADE_OK p) then [0xFF, 0x0F, 0xF0] else [0xFF]
  (groups.find? takes).getD 0

/-- FABRIC_PORT_DOWN (R388): a lane in use is lost; `lanes` are those still whole. With DEGRADE_OK a 1.6 Tb/s port with a whole
group of four trains again, and comes up by a later FABRIC_PORT_UP. -/
def execFabricPortDown (port : Fin 12) (lanes : BitVec 8) (s : State) : Host.Outcome State Fault Refusal :=
  .next (s.onAgg fun a =>
    let used := a.fab.lanes.get port
    if lanes.toNat &&& used = used then a else a.fabPortDown port)

/-- FABRIC_PORT_UP (R388): training has completed; `lanes` are those that are whole. Its PTP instance listens (R54), and packets
that waited for a port are offered again. -/
def execFabricPortUp (port : Fin 12) (lanes : BitVec 8) (s : State) : Host.Outcome State Fault Refusal :=
  .next (s.onAgg fun a =>
    let p : Nat := port
    let m := a.fabTrains p lanes
    if m ≠ 0 ∧ a.cfgOn (FAB_PORT_CFG_EN p) ∧ a.domOn (0x10 + p) ∧
        a.reg CFG_STATUS_STATE ≠ 5 then
      let a := a.fabLink p m
      let a := if ptpFaulty a p ∨ (ptpEnabled a p ∧ a.reg (PTP_PORT_STATE_ST p) = 0) then a.put (PTP_PORT_STATE_ST p) 1 else a
      a.reoffer
    else a)

/-! ### Safe state and the fabric record (R401, R408) -/

/-- Entry to safe state flushes every queue but FAULT and cancels pending launches (R401). -/
def Agg.safeFlush (a : Agg) : Agg :=
  let a := (List.range 12).foldl (fun a p => (List.range 7).foldl (fun a q => a.qPut p (q + 1) []) a) a
  let a := a.onFab fun f => { f with
    launches := [], txn := f.txn.filter fun t => t.pkt.f.queue = 0, wait := f.wait.filter fun x => x.queue = 0
    safeSeen := true }
  (a.txnShow.put FAB_STATUS_SAFE 1).event FAB_EVENT_SAFE_FLUSH

/-- A queue's gate stays closed over an interval (R408, NEVER_OPEN). -/
def Agg.neverOpen (a : Agg) (p q from_ len : Nat) : Bool :=
  let c := a.calCycle p
  if c = 0 then !a.gateAt p q (2 ^ 20)
  else
    let off := from_ % c
    !((a.calSegs p q).any fun s => s.2.2 &&
      (decide (s.1 < off + len) && decide (off < s.1 + s.2.1) || decide (s.1 + c < off + len)))

/-- An entry of the fabric record (R408). -/
def Agg.fabEntry (a : Agg) (p q from_ len : Nat) : List Byte :=
  let samples := a.p.nowNs / 64 - a.fab.latchNs.getD from_ / 64
  let s := a.fab.stat.get (fabKey p q)
  let sat (w v : Nat) : Nat := min v (2 ^ w - 1)
  let over_ : Bool := decide (2 ^ 32 ≤ s.depthMax) || decide (2 ^ 32 ≤ s.delayMax) || decide (2 ^ 16 ≤ s.winWaits) ||
    decide (2 ^ 16 ≤ s.refused) || decide (2 ^ 32 ≤ s.sent)
  let fl := (if s.sent = 0 then 1 else 0) + (if over_ then 2 else 0) + (if a.neverOpen p q from_ len then 4 else 0)
  leBytes 4 (sat 32 s.depthMax) ++ leBytes 4 (sat 32 (s.depthSum / max samples 1)) ++ leBytes 4 (sat 32 s.delayMax) ++
    leBytes 4 (if s.sent = 0 then 0 else sat 32 (s.delaySum / s.sent)) ++ leBytes 4 (sat 32 s.sent) ++
    leBytes 4 (sat 32 (s.sentBytes / 1024)) ++ leBytes 2 (sat 16 s.winWaits) ++ leBytes 2 (sat 16 s.refused) ++
    leBytes 2 fl ++ zeros 2

/-- At a tick the statistics of every port and queue are latched, and committed as a fabric record while enabled
(R408). -/
def Agg.fabLatch (a : Agg) (tick us : Nat) : Agg :=
  let ks := ((List.range 12).map fun p => (List.range 8).map fun q => (p, q)).flatten
  let a := ks.foldl (fun a k => a.qSample k.1 k.2) a
  let len := us * 1000
  let from_ := a.p.nowNs - len
  let body := (ks.map fun k => a.fabEntry k.1 k.2 from_ len).flatten
  let bytes := withTrailer (leBytes 1 0x0B ++ leBytes 1 1 ++ leBytes 2 (if a.fab.safeSeen then 1 else 0) ++
    leBytes 4 3112 ++ leBytes 8 tick ++ leBytes 4 us ++ leBytes 2 a.id ++ leBytes 2 (a.reg FAB_STATUS_PORTS_UP) ++
    zeros 8 ++ body)
  let a := if a.cfgOn FAB_STAT_CFG_EN then
      (a.produce { ring := a.cfg FAB_STAT_CFG_RING, type := 0x0B, cls := 0, ident := tick, never := true, bytes := bytes }).1
    else a
  a.onFab fun f => { f with
    safeSeen := a.safe, latchNs := some a.p.nowNs, stat := f.stat.map fun e => (e.1, { lastNs := e.2.lastNs }) }

end Sys2Proof.Machine
end

