-- ==== Sys2Proof/Machine/Tally.lean ====
section
/-! DEFINITION. Tallies (07): posts (R242), the contribution (R250 to R252), the launches, frames and result record of a
spine round (R253 to R258, R266). -/

namespace Sys2Proof.Machine

/-! ### The engine -/

/-- The close of a round, ns: of the round nearest to now with that number. -/
def Agg.roundClose (a : Agg) (k : Nat) : Nat :=
  (extendNear 32 k (roundIndex a.p.nowNs a.p.tick.us a.p.tick.ticks) + 1) * a.roundNs

/-- OCT of a key. -/
def TlySet.oct (t : TlySet) (key : Nat) : Nat := (t.keyTab.get key).1
/-- Scope of a key: 1 CORE. -/
def TlySet.scope (t : TlySet) (key : Nat) : Nat := (t.keyTab.get key).2

/-- KEYSET (R254). -/
def TlySet.keysetOf (t : TlySet) : Nat :=
  crc32c (leBytes 4 t.keys ++ (List.range t.keys).map fun k => BitVec.ofNat 8 (t.oct k % 32 + 32 * (t.scope k % 2)))

/-- The settings of a round (R241, R259): those in force, or what an activation that names a later round replaced. -/
def AggTally.setOf (t : AggTally) (round : Nat) : TlySet :=
  t.prev.foldl (fun c e => if laterRound e.1 round then e.2 else c) t.set

/-- The key of a local tally. -/
def localKey (round key slot : Nat) : Nat := (round * 65536 + key) * 16 + slot

/-! ### Posts (R242) -/

/-- Why a post is refused. -/
inductive PostRefusal where
  | viol | late
  deriving DecidableEq, Repr

/-- The refusal that a post meets, if any (R242). -/
def Agg.postRefusal (a : Agg) (round key ident : Nat) : Option PostRefusal :=
  let slot := a.slotOfDie (ident / 8192 % 2 ^ 17)
  let y := a.tly.setOf round
  if y.keys ≤ key ∨ (if bitAt ident 30 then 1 else 0) ≠ y.scope key ∨ slot = none then some .viol
  else if y.scope key = 0 ∧ (a.tly.local_.get (localKey round key (slot.getD 0))).isSome then some .viol
  else if a.roundClose round + a.cfg TALLY_TIMING_OBS_US * 1000 ≤ a.p.nowNs then some .late
  else none

/-- Post an observation (R242). -/
def Agg.post (a : Agg) (round key ident value : Nat) : Agg :=
  if a.cfgOn TALLY_CFG_EN then
    match a.postRefusal round key ident with
    | some .viol => (a.count TALLY_POST_COUNT_REFUSED).event TALLY_EVENT_POST_VIOL
    | some .late => ((a.count TALLY_POST_COUNT_REFUSED).count TALLY_ERR_COUNT_LATE_POST).event TALLY_EVENT_LATE_POST
    | none =>
      let k := localKey round key ((a.slotOfDie (ident / 8192 % 2 ^ 17)).getD 0)
      let one := Block.one key ((a.tly.setOf round).oct key) (value % 2 ^ 32) ident
      let slot := (a.slotOfDie (ident / 8192 % 2 ^ 17)).getD 0
      (a.onTly fun t => { t with
        local_ := t.local_.upd k fun b => some (b.elim one (·.merge one))
        posts := t.posts ++ [(round, key, slot, value % 2 ^ 32)] }).count TALLY_POST_COUNT_POSTS
  else a

/-! ### The contribution (R250 to R252) -/

/-- The dies for which the aggregator is PRIMARY with the port UP or in RETRY, as a mask of slots (R251). -/
def Agg.coverDies (a : Agg) (twinUp : Bool) : Nat :=
  ((List.range 16).filter fun s =>
    let p := a.portOfSlot s
    let st := a.reg (DP_STATUS_STATE p)
    decide (p < 16) && a.role.get s == 1 && (st == 3 || st == 4) &&
      !(twinUp && decide (2 ≤ a.reg (DP_STATUS_PEER_LINK p)))).map (2 ^ ·) |>.sum

/-- The twin's ID (R4). -/
def Agg.twinId (a : Agg) : Nat := if a.id % 2 = 0 then a.id + 1 else a.id - 1

/-- A round in flight. -/
def Agg.tround (a : Agg) (k : Nat) : Option TRound := a.tly.rounds.find? fun r => r.round = k

/-- A round in flight changed, and INFLIGHT shown. -/
def Agg.onRound (a : Agg) (k : Nat) (f : TRound → TRound) : Agg :=
  let a := a.onTly fun t => { t with rounds := t.rounds.map fun r => if r.round = k then f r else r }
  a.put TALLY_STATUS_INFLIGHT (min 4 (a.tly.rounds.filter (·.started)).length)

/-- ARG of a contribution's BEGIN (R252). -/
def contribArg (r : TRound) (mask : Nat) : Nat :=
  r.round % 2 ^ 32 + r.attempt % 256 * 2 ^ 32 + (if r.ring then 1 else 0) * 2 ^ 40 + mask % 2 ^ 16 * 2 ^ 48

/-- Fix the cover of a round and write the contribution's BEGIN (R251, R252). -/
def Agg.fixCover (a : Agg) (k mask : Nat) : Agg :=
  match a.tround k with
  | none => a
  | some r =>
    if r.cover.isSome then a
    else
      let a := a.onRound k fun r => { r with cover := some mask }
      if a.jrnReady then
        let b := a.jrnBegin 5 none (contribArg r mask)
        b.1.onRound k fun r => { r with op := some b.2 }
      else a

/-- The contribution is refused as NOT_MIRRORED, with ABANDON (R252). -/
def Agg.notMirrored (a : Agg) (k : Nat) : Agg :=
  match a.tround k with
  | none => a
  | some r =>
    let a := a.event TALLY_EVENT_NOT_MIRRORED
    let a := match r.op with
      | some op => a.jrnEnd op 0x12 1
      | none => a
    a.onRound k fun r => { r with out := true, op := none }

/-- The BEGIN of a round's contribution is mirrored. -/
def Agg.contribMirrored (a : Agg) (r : TRound) : Bool := match r.op with
  | some op => a.beginMirrored op
  | none => false

/-- The block of a key that the round contributes: the merge over the cover (R250). -/
def Agg.contribBlock (a : Agg) (r : TRound) (key : Nat) : Block :=
  let empty : Block := { key := key, oct := r.set.oct key }
  (List.range 16).foldl (fun b s =>
    if bitAt (r.cover.getD 0) s then
      match a.tly.local_.get (localKey r.round key s) with
      | some x => b.merge x
      | none => b
    else b) empty

/-- Dies in the cover. -/
def TRound.dies (r : TRound) : Nat := popCount 16 (r.cover.getD 0)

/-- A frame of a round's launch leaves a port (R253, R254, R404): to the spine's reduction service. -/
def Agg.launchFrame (a : Agg) (p rtype : Nat) (f : RedFrame) : Agg :=
  a.launchOut p { rclass := 2, spine := true, payload := f.bytes rtype }

/-- Ports that carry reduction frames. -/
def Agg.redPorts (a : Agg) : List Nat := (List.range 12).filter fun p => bitAt (a.cfg TALLY_CFG_PORTS) p && a.fabUp p

/-- The frame that a round's COUNT and DATA begin from (R254). -/
def Agg.redFrame (a : Agg) (r : TRound) : RedFrame := {
  round := r.round, attempt := r.attempt, src := a.id, members := 1, dies := r.dies, memberHash := memberH a.id
  keyset := r.keyset, closeNs := r.spineNs, compact := r.compact }

/-- The header of a COVER or SKIP: no blocks, no KEYSET (R254). -/
def Agg.noteFrame (a : Agg) (r : TRound) : RedFrame := { a.redFrame r with keyset := 0, compact := false }

/-- Skips that a JOIN has lifted for every round still open, and JOINs with nothing left to lift, are forgotten. -/
def AggTally.pruned (t : AggTally) (k : Nat) : AggTally :=
  let old (f : Nat) : Bool := !laterRound (f + 5) k
  let ex := t.excluded.filter fun e => !(t.joined.any fun j => j.1 = e.1 && old j.2 && laterRound j.2 e.2.2)
  { t with excluded := ex, joined := t.joined.filter fun j => !old j.2 || ex.any fun e => e.1 = j.1 }

/-- OBS_CLOSE (R251): posting of a round closes, the even twin fixes its cover and, once BEGIN is written (R252), sends
it, and the launches of the round are requested (R253). -/
def Agg.obsClose (a : Agg) (k : Nat) : Agg :=
  let close := a.roundClose k
  let y := a.tly.setOf k
  let ring := y.mode == 1
  let r : TRound := {
    round := k, closeNs := close, set := y, ring := ring, compact := !ring && a.cfgOn TALLY_CFG_COMPACT_UP
    keyset := y.keysetOf, spineNs := close + a.cfg TALLY_TIMING_CLOSE_US * 1000, ports := a.redPorts
    dataNs := close + a.cfg TALLY_TIMING_DATA_US * 1000 }
  let a : Agg := { a with p := a.p.until (close + a.cfg TALLY_TIMING_OBS_US * 1000) }
  let held := a.tly.covers.find? fun c => c.1 = k
  let a := a.onTly fun t => { t.pruned k with
    rounds := t.rounds ++ [r], closed := some k, covers := t.covers.filter fun c => c.1 ≠ k
    prev := t.prev.filter fun e => laterRound e.1 (k + 1) }
  let a := if a.id % 2 = 0 then
      let m := a.coverDies false
      let a := a.fixCover k m
      match a.tround k with
      | some q => if q.op.isSome then
          a.offerPacket { rclass := 2, dst := a.twinId, payload := coverBytes (a.noteFrame q) m } else a
      | none => a
    else match held with
      | some c => a.fixCover k (a.coverDies false &&& (0xFFFF ^^^ c.2))
      | none => a
  if ring || a.safe then a
  else
    let ask (a : Agg) (p us : Nat) (kind : LaunchKind) : Agg :=
      let b := a.launchAsk { port := p, ns := close + us * 1000, kind := kind }
      if b.2 then b.1 else b.1.onRound k fun r => { r with out := true }
    let a := match r.ports with
      | p :: _ => ask a p (a.cfg TALLY_TIMING_COUNT_US) (.count k)
      | [] => a.onRound k fun r => { r with out := true }
    r.ports.foldl (fun a p => ask a p (a.cfg TALLY_TIMING_DATA_US) (.data k)) a

/-- A violation of R266. -/
def Agg.tlyViol (a : Agg) : Agg := (a.count TALLY_ERR_COUNT_VIOL).event TALLY_EVENT_VIOL
/-- A stale frame. -/
def Agg.tlyStale (a : Agg) : Agg := (a.count TALLY_ERR_COUNT_STALE).event TALLY_EVENT_STALE

/-- COVER (R251, R266). -/
def execCover (f : RedFrame) (mask : BitVec 16) (s : State) : Host.Outcome State Fault Refusal :=
  .next (s.onAgg fun a =>
    if f.reserved ∨ a.id % 2 = 0 ∨ f.src ≠ a.twinId then a.tlyViol
    else match a.tround f.round with
      | some _ => a.fixCover f.round (a.coverDies false &&& (0xFFFF ^^^ mask.toNat))
      | none => a.onTly fun t => { t with covers := t.covers ++ [(f.round, mask.toNat)] })

/-- COVER_LATE (R251): the odd twin fixes its cover without a COVER frame. -/
def execCoverLate (round : Nat) (s : State) : Host.Outcome State Fault Refusal :=
  .next (s.onAgg fun a =>
    match a.tround round with
    | some r =>
      if a.id % 2 = 1 ∧ r.cover = none then
        let wait := (a.cfg TALLY_TIMING_OBS_US + a.cfg TALLY_TIMING_COVER_WAIT_US) * 1000
        let a : Agg := { a with p := a.p.until (r.closeNs + wait) }
        (a.fixCover round (a.coverDies true)).event TALLY_EVENT_COVER_LATE
      else a
    | none => a)

/-! ### Launches (R253, R256, R258) -/

/-- Blocks in a group (R254). -/
def groupSize (compact : Bool) : Nat := if compact then 26 else 14

/-- The keys of a group. -/
def groupKeys (compact : Bool) (keys g : Nat) : List Nat :=
  let b := groupSize compact
  (List.range (min b (keys - g * b))).map (g * b + ·)

/-- The number of groups of a round. -/
def groupCount (compact : Bool) (keys : Nat) : Nat := ceilDiv keys (groupSize compact)

/-- A DATA frame (R250, R253, R254). -/
def Agg.dataFrame (a : Agg) (r : TRound) (g : Nat) : RedFrame :=
  let bs := (groupKeys r.compact r.set.keys g).map fun k =>
    if r.compact then (a.contribBlock r k).compacted else a.contribBlock r k
  { a.redFrame r with group := g, exactSet := bs.all (·.exact), nkeys := bs.length, blocks := bs }

/-- The aggregator contributes nothing more to a round (R252, R258). -/
def Agg.leaveOut (a : Agg) (k : Nat) : Agg := a.onRound k fun r => { r with out := true }

/-- COUNT_LAUNCH on a port (R252, R253, R258, R401): without a mirrored BEGIN, past DATA_US, in safe state or with the port
down, nothing is contributed. -/
def Agg.launchCount (a : Agg) (k p : Nat) : Agg :=
  let a := a.onRound k fun r => { r with started := true }
  match a.tround k with
  | none => a
  | some r =>
    if r.out then a
    else if r.dataNs < a.p.nowNs ∨ a.safe ∨ ¬ a.fabUp p then a.leaveOut k
    else if a.contribMirrored r then a.launchFrame p 0x41 (a.redFrame r)
    else a.notMirrored k

/-- DATA_LAUNCH on a port (R253, R256, R258): the groups are dealt out in turn over the ports asked at OBS_CLOSE. Unless
the first of these launches finds all of them up, DATA_US not past and no safe state, nothing is sent for the round. -/
def Agg.launchData (a : Agg) (k p : Nat) : Agg :=
  match a.tround k with
  | none => a
  | some r =>
    if r.out ∨ r.mismatch ∨ ¬ r.started then a
    else if ¬ r.dataSent ∧ (r.dataNs < a.p.nowNs ∨ a.safe ∨ ¬ r.ports.all (a.fabUp ·)) then a.leaveOut k
    else
      let a := a.onRound k fun r => { r with dataSent := true }
      if a.fabUp p then
        let i := (r.ports.findIdx? (· == p)).getD 0
        let gs := (List.range (groupCount r.compact r.set.keys)).filter fun g => g % max r.ports.length 1 = i
        gs.foldl (fun a g => a.launchFrame p 0x43 (a.dataFrame r g)) a
      else a

/-! ### Results (R256, R257, R266) -/

/-- COUNT_RESULT (R256, R266): the first one of a round is kept; one that comes after DATA_US gives no EXPECTED. -/
def execCountResult (f : RedFrame) (s : State) : Host.Outcome State Fault Refusal :=
  .next (s.onAgg fun a =>
    if f.reserved then a.tlyViol
    else match a.tround f.round with
      | none => a.tlyStale
      | some r =>
        if r.ring then a.tlyStale
        else if r.count.isSome then a
        else
          let bad := f.keyset % 2 ^ 64 ≠ f.members * r.keyset % 2 ^ 64
          let timely := decide (a.p.nowNs ≤ r.dataNs)
          let a := a.onRound f.round fun r => { r with
            count := if timely then some (f.members, f.dies, f.memberHash) else none, mismatch := decide bad }
          if bad then a.event TALLY_EVENT_KEYSET_MISMATCH else a)

/-- A frame's blocks are those of its group under the key table (R266). -/
def TRound.groupGood (r : TRound) (f : RedFrame) : Bool :=
  let ks := groupKeys r.compact r.set.keys f.group
  !ks.isEmpty && f.nkeys == ks.length && f.compact == r.compact && f.blocks.map (·.key) == ks &&
    f.blocks.all fun b => b.oct == r.set.oct b.key

/-- RESULT (R256, R266). -/
def execResult (f : RedFrame) (s : State) : Host.Outcome State Fault Refusal :=
  .next (s.onAgg fun a =>
    if f.reserved then a.tlyViol
    else match a.tround f.round with
      | none => a.tlyStale
      | some r =>
        if r.ring then a.tlyStale
        else if !r.groupGood f ∨ f.blocks.any (·.badIdentity) then a.tlyViol
        else match r.results.find? (fun e => e.1 = f.group) with
          | none => a.onRound f.round fun r => { r with results := r.results ++ [(f.group, f)] }
          | some e => if e.2 = f then a.count TALLY_ERR_COUNT_VIOL else a.tlyViol)

/-- What a result record is made of. -/
structure TResult where
  /-- MEMBERS, DIES, MEMBER_HASH per group -/
  groups : List (Nat × Nat × Nat)
  /-- those of the RESULTs that arrived, by group -/
  arrived : List (Nat × Nat × Nat) := []
  bad : Nat
  blocks : List Block
  expected : Nat := 0
  expHash : Nat := 0
  complete : Bool := false
  failed : Bool := false

/-- The group with the fewest members. -/
def TResult.least (t : TResult) : Nat × Nat × Nat :=
  match t.groups with
  | [] => (0, 0, 0)
  | g :: l => l.foldl (fun m x => if x.1 < m.1 then x else m) g

/-- MISSING_AGG (R256): every RESULT that arrived is checked; of one that is short by exactly one member it is the aggregator
whose H is the shortfall. Where the groups name several, it is the one of the lowest group (log entry 169). -/
def TResult.missing (t : TResult) : Option Nat :=
  t.arrived.findSome? fun g =>
    if g.1 + 1 = t.expected then
      let d := (t.expHash + 2 ^ 64 - g.2.2 % 2 ^ 64) % 2 ^ 64
      (List.range 16384).find? fun i => memberH i = d
    else none

/-- The result record (R257). -/
def resultBytes (r : TRound) (t : TResult) (nowNs : Nat) : List Byte :=
  let m := t.least
  let dies := (t.groups.map (·.2.1)).foldl min m.2.1
  let fl := (if t.complete then 1 else 0) + (if r.compact then 2 else 0) + (if r.ring then 4 else 0) +
    (if t.failed then 8 else 0) + (if t.blocks.all (·.exact) then 16 else 0)
  let miss := t.missing.elim 0 (· + 32768)
  withTrailer (leBytes 1 5 ++ leBytes 1 1 ++ leBytes 2 fl ++ leBytes 4 (64 + 576 * t.blocks.length + 8) ++
    leBytes 4 r.round ++ leBytes 1 r.attempt ++ zeros 3 ++ leBytes 4 r.set.keys ++ leBytes 4 m.1 ++ leBytes 4 t.expected ++
    leBytes 4 dies ++ leBytes 8 m.2.2 ++ leBytes 8 t.expHash ++ leBytes 2 miss ++ zeros 2 ++ leBytes 4 t.bad ++
    leBytes 8 nowNs ++ (t.blocks.map Block.bytes).flatten)

/-- What one group shows of an aggregator's data (R252, R256): 0 included, 1 not included, 2 not known. With one member
missing, the shortfall of MEMBER_HASH names it. -/
def groupShows (expected expHash agg : Nat) (g : Nat × Nat × Nat) : Nat :=
  let d := (expHash + 2 ^ 64 - g.2.2 % 2 ^ 64) % 2 ^ 64
  if g.1 = 0 then 1
  else if g.1 = expected ∧ d = 0 then 0
  else if g.1 + 1 = expected then
    if memberH agg = d then 1 else if (List.range 16384).any fun i => memberH i == d then 0 else 2
  else 2

/-- The OUTCOME that a result shows for an aggregator (R252). -/
def BellRec.outcome (b : BellRec) (agg : Nat) : Nat :=
  let gs := b.groups.map (groupShows b.expected b.expHash agg)
  if b.failed ∨ b.groups.all (fun g => g.1 == 0) then 3
  else if gs.contains 1 then 1
  else if gs.all (· == 0) then 0
  else 2

/-- A committed result as the aggregator keeps it. -/
def TResult.kept (t : TResult) (round ring seq : Nat) : BellRec :=
  { round := round, ring := ring, seq := seq, failed := t.failed, blocks := t.blocks, groups := t.groups
    expected := t.expected, expHash := t.expHash }

/-- The OUTCOME of the own contribution (R252): an aggregator that sent nothing is not included. -/
def Agg.contribOutcome (a : Agg) (r : TRound) (t : TResult) : Nat :=
  if r.out ∨ (¬ r.ring ∧ ¬ r.dataSent) then 1 else (t.kept r.round 0 0).outcome a.id

/-- Commit the result record of a round (R257), with DONE of the contribution (R252). -/
def Agg.commitResult (a : Agg) (r : TRound) (t : TResult) : Agg :=
  let b := a.produce {
    ring := a.cfg TALLY_CFG_RESULT_RING, type := 5, cls := a.cfg TALLY_CFG_RESULT_CLASS, ident := r.round
    bytes := resultBytes r t a.p.nowNs }
  let a := b.1
  let a := match r.op with
    | some op => a.jrnEnd op 0x11 (a.contribOutcome r t)
    | none => a
  let a := a.onTly fun y => { y with
    rounds := y.rounds.filter fun x => x.round ≠ r.round
    local_ := y.local_.filter fun e => e.1 / 16 / 65536 ≠ r.round
    posts := y.posts.filter fun e => e.1 ≠ r.round
    results := t.kept r.round (a.cfg TALLY_CFG_RESULT_RING) b.2 :: y.results }
  let a := (a.put TALLY_STATUS_ROUND r.round).put TALLY_STATUS_INFLIGHT
    (min 4 (a.tly.rounds.filter (·.started)).length)
  let a := ((a.put TALLY_LAST_MEMBERS t.least.1).put TALLY_LAST_EXPECTED t.expected).put TALLY_LAST_MISSING
    (t.missing.getD 0)
  let bit (b : Bool) : Nat := if b then 1 else 0
  let a := ((a.put TALLY_LAST_MISSING_VALID (bit t.missing.isSome)).put TALLY_LAST_COMPLETE (bit t.complete)).put
    TALLY_LAST_EXACT (bit (t.blocks.all (·.exact)))
  (a.put TALLY_LAST_ATTEMPT r.attempt).put TALLY_LAST_FAILED (bit t.failed)

/-- A spine round's result from the frames received (R256). -/
def TRound.spineResult (r : TRound) : TResult :=
  let gs := (List.range (groupCount r.compact r.set.keys)).map fun g => (g, (r.results.find? fun e => e.1 = g).map (·.2))
  let whole (f : RedFrame) : Bool := match r.count with
    | some c => f.members == c.1 && f.memberHash == c.2.2
    | none => false
  let bad := (gs.filter fun e => !e.2.elim false whole).length
  let blocks := (gs.map fun e => match e.2 with
    | some f => f.blocks.map fun b => { b with incomplete := !whole f, missing := false }
    | none => (groupKeys r.compact r.set.keys e.1).map fun k =>
        ({ key := k, oct := r.set.oct k, missing := true, exact := false } : Block)).flatten
  { groups := gs.map fun e => e.2.elim (0, 0, 0) fun f => (f.members, f.dies, f.memberHash)
    arrived := gs.filterMap fun e => e.2.map fun f => (f.members, f.dies, f.memberHash)
    bad := bad, blocks := blocks, expected := r.count.elim 0 (·.1), expHash := r.count.elim 0 (·.2.2)
    complete := r.count.isSome && bad == 0 }

/-- RESULT_DEADLINE (R253, R256, R257): at C + RESULT_US the result record of a spine round is committed. -/
def execResultDeadline (round : Nat) (s : State) : Host.Outcome State Fault Refusal :=
  .next (s.onAgg fun a =>
    match a.tround round with
    | none => a
    | some r =>
      if r.ring then a
      else
        let a : Agg := { a with p := a.p.until (r.closeNs + a.cfg TALLY_TIMING2_RESULT_US * 1000) }
        let t := r.spineResult
        let a := a.commitResult r t
        let a := if r.results.length < groupCount r.compact r.set.keys then a.event TALLY_EVENT_NO_RESULT else a
        if r.results.any (fun e => e.2.partialSet) then a.event TALLY_EVENT_PARTIAL else a)

end Sys2Proof.Machine
end

