-- ==== Sys2Proof/Machine/Feature.lean ====
section
/-! DEFINITION. The feature unit (08, R274, R275): what it keeps of every committed sample record (R83 to R91), and the
features that a run sees. -/

namespace Sys2Proof.Machine

/-! ### Sections of a sample record (R84 to R91) -/

/-- The sections that follow a header, at most `n`. -/
def parseSections : Nat → List Byte → List Section
  | 0, _ => []
  | n + 1, l =>
    let len := leAt l 4 4
    if l.length < 8 ∨ len < 8 then []
    else
      { type := leAt l 0 1, sflags := leAt l 1 1, index := leAt l 2 2, body := (l.drop 8).take (len - 8) } ::
        parseSections n (l.drop len)

/-- The sections of a sample record. -/
def recordSections (l : List Byte) : List Section := parseSections (leAt l 6 2) (l.drop 64)

/-- Values packed from bit 0 upward with the widths given in turn (R85, R86). -/
def unpackFrom (n : Nat) : List Nat → List Nat
  | [] => []
  | w :: t => n % 2 ^ w :: unpackFrom (n / 2 ^ w) t

/-- The core mask of a cluster section, and where its values begin (R85). -/
def Section.maskBytes (c : Section) : Nat × Nat := if bitAt c.sflags 1 then (leAt c.body 8 8, 16) else (0, 8)

/-- The 512 values of a cluster section (R85). -/
def Section.cluster (c : Section) : List Nat :=
  let w := leAt c.body 0 4
  let row := (List.range 8).map fun e => if c.type = 2 then 48 else 4 * (w / 16 ^ e % 16)
  unpackFrom (leNat (c.body.drop c.maskBytes.2)) ((List.replicate 64 row).flatten)

/-- The 256 values of an uncore section (R86). -/
def Section.uncore (c : Section) : List Nat :=
  let w := leAt c.body 0 16
  unpackFrom (leNat (c.body.drop 16))
    (((List.range 32).map fun g => List.replicate 8 (if c.type = 4 then 48 else 4 * (w / 16 ^ g % 16))).flatten)

/-- A table with the entries from `lo` on, as many as the values, replaced by them. -/
def putRun (t : Tab Nat) (lo : Nat) (vals : List Nat) : Tab Nat :=
  t.filter (fun e => e.1 < lo) ++ (vals.zipIdx.filterMap fun v => if v.1 = 0 then none else some (lo + v.2, v.1)) ++
    t.filter fun e => lo + vals.length ≤ e.1

/-- The first counter of a section by its number: cluster, or 128 + uncore bus (R87). -/
def sectionBase (n : Nat) : Nat := if n < 128 then 512 * n else 65536 + 256 * (n - 128)

/-- Values of a section's counters. -/
def sectionSize (n : Nat) : Nat := if n < 128 then 512 else 256

/-- What the feature unit has gathered of one record so far: the features, the absolute counters, the sections known. -/
structure FeatWork where
  f : TickFeat
  abs : Tab Nat
  known : List Nat

/-- The counters of section `n`, given the section of the record, if it is there, and whether sections past the last one
packed are left out (R84, R87, R92, R274). -/
def FeatWork.counters (w : FeatWork) (n : Nat) (sec : Option Section) (leftOut : Bool) : FeatWork :=
  let was := w.known.contains n
  let base := sectionBase n
  let miss (w : FeatWork) : FeatWork :=
    { w with f := if n < 128 then { w.f with missing := w.f.missing ++ [n] } else w.f }
  let lost (w : FeatWork) : FeatWork := miss { w with known := w.known.filter (· ≠ n) }
  let add (w : FeatWork) (d : List Nat) : FeatWork :=
    { w with f := if n < 128 then { w.f with ev := putRun w.f.ev base d } else { w.f with unc := putRun w.f.unc (base - 65536) d } }
  match sec with
  | none => if leftOut then lost w else w
  | some c =>
    if bitAt c.sflags 0 then
      let w := lost w
      { w with f := if n < 128 then { w.f with gone := w.f.gone ++ [n] } else w.f }
    else
      let w : FeatWork := { w with
        f := if n < 128 ∧ c.maskBytes.1 ≠ 0 then { w.f with mask := w.f.mask.set n c.maskBytes.1 } else w.f }
      let vals := if n < 128 then c.cluster else c.uncore
      let old := (List.range (sectionSize n)).map fun i => w.abs.get (base + i)
      if c.type % 2 = 1 then
        let new := (vals.zip old).map fun p => (p.1 + p.2) % 2 ^ 48
        add (if was then { w with abs := putRun w.abs base new } else w) vals
      else
        let w' : FeatWork := { w with abs := putRun w.abs base vals, known := n :: w.known.filter (· ≠ n) }
        if was then add w' ((vals.zip old).map fun p => (p.1 + 2 ^ 48 - p.2) % 2 ^ 48) else miss w'

/-- Queue statistics of a QUEUE section (R88, R275). -/
def queueFeatures (body : List Byte) (queues : Nat) : Tab Nat :=
  let q := (List.range queues).map fun i =>
    let e := (body.drop (64 + 24 * i)).take 24
    [leAt e 0 2, leAt e 4 4, leAt e 8 4, leAt e 12 4, leAt e 16 4, leAt e 20 4, leAt e 2 2, leAt body (4 * (i / 16)) 4]
  putRun [] 0 q.flatten

/-- Tags of a TAG section (R89, R275). -/
def tagFeatures (body : List Byte) (clusters : Nat) : Tab Nat :=
  putRun [] 0 ((List.range clusters).map fun c => leAt body (12 * c + 4) 2 * 65536 + leAt body (12 * c + 6) 2)

/-- What the feature unit takes from a committed sample (R274). In a PARTIAL record the counter sections past the last
section packed are left out; elsewhere an absent section is all zero (R84, R92). -/
def featuresOf (d : DieDet) (c : Committed) (gap : Bool) (commitNs : Nat) : FeatWork :=
  let l := c.bytes
  let us := leAt l 32 4
  let rt := leAt l 52 4 % 2 ^ 20
  let secs := recordSections l
  let clusters := leAt l 48 1
  let buses := leAt l 49 1
  let flags := leAt l 2 2
  let last := (secs.map (·.type)).foldl max 0
  let cut := bitAt flags 0
  let find (lo idx : Nat) : Option Section :=
    secs.find? fun s => (s.type = lo || s.type = lo + 1) && s.index = idx
  let past (lo idx : Nat) : Bool :=
    cut && last ≤ lo + 1 && !(secs.any fun s => (s.type = lo || s.type = lo + 1) && decide (idx ≤ s.index))
  let f : TickFeat := {
    tick := c.ident, us := us, rticks := rt, round := leAt l 36 4, latchNs := c.ident * us * 1000, commitNs := commitNs
    ring := c.ring, seq := c.seq, flags := flags, err := leAt l 4 1 / 16, epoch := leAt l 40 4, clusters := clusters
    link := d.retrySeen || gap
    dumps := (secs.filter fun s => s.type = 7).map (·.index)
    queue := (secs.find? fun s => s.type = 5).elim [] fun s => queueFeatures s.body (leAt l 50 2)
    tag := (secs.find? fun s => s.type = 6).elim [] fun s => tagFeatures s.body clusters }
  let w : FeatWork := { f := f, abs := d.abs, known := if gap then [] else d.known }
  let w := (List.range clusters).foldl (fun w n => w.counters n (find 1 n) (past 1 n)) w
  (List.range buses).foldl (fun w u => w.counters (128 + u) (find 3 u) (past 3 u)) w

/-- A sample reaches the feature unit; a field-test record leaves its entries for its TICK (R274). -/
def Agg.feed (a : Agg) (c : Committed) (gap : Bool) : Agg :=
  match c.stream with
  | 1 =>
    let w := featuresOf (a.dieDet c.slot) c gap a.p.nowNs
    a.onSlot c.slot fun d => { d with hist := d.hist ++ [w.f], abs := w.abs, known := w.known, retrySeen := false }
  | 2 => a.onSlot c.slot fun d => { d with ftest := d.ftest.upd c.ident (· + leAt c.bytes 2 2) }
  | _ => a

/-! ### Features (R275) -/

/-- The sum of one event over the counted cores of a sample. -/
def TickFeat.sum (t : TickFeat) (e : Nat) : Nat := ((t.ev.filter fun x => x.1 % 8 = e).map (·.2)).sum

/-- Counted cores: those of the present clusters that are not missing. -/
def TickFeat.counted (t : TickFeat) : Nat := 64 * (t.clusters - t.missing.length)

/-- Missing cores. -/
def TickFeat.missed (t : TickFeat) : Nat := 64 * t.missing.length

/-- Floor of a quotient, 0 for a division by zero. -/
def quot (n d : Nat) : Nat := if d = 0 then 0 else n / d

/-- A die feature from 32 to 49 over a list of samples, with the length `us` that replaces `TICK_US` and the field-test
entries (R274, R275). Over a round, sums, counted and missing cores add up, ERR_NS is the largest, FLAGS and feature 47
are those of any tick, and feature 41 divides by the core-microseconds counted. -/
def dieFeature (ts : List TickFeat) (us ftest n : Nat) : Nat :=
  let sum (e : Nat) : Nat := (ts.map fun t => t.sum e).sum
  match n with
  | 40 => min (quot (sum 2) us) (2 ^ 32 - 1)
  | 41 => quot (sum 0) ((ts.map fun t => t.counted * t.us).sum)
  | 42 => quot (65536 * sum 6) (sum 0)
  | 43 => (ts.map (·.counted)).sum
  | 44 => (ts.map (·.err)).foldl max 0
  | 45 => (ts.map (·.flags)).foldl (· ||| ·) 0
  | 46 => ftest
  | 47 => if ts.any (·.link) then 1 else 0
  | 48 => ts.length
  | 49 => (ts.map (·.missed)).sum
  | n => sum (n - 32)

/-- A core feature (R275). -/
def TickFeat.coreFeature (t : TickFeat) (k n : Nat) : Nat :=
  let d (e : Nat) : Nat := t.ev.get (8 * k + e)
  match n with
  | 8 => quot (65536 * d 2) (d 1)
  | 9 => quot (65536 * d 6) (d 0)
  | 10 => quot (d 7) t.us
  | 11 => (if bitAt (t.mask.get (k / 64)) (k % 64) then 1 else 0) + (if t.gone.contains (k / 64) then 2 else 0) +
      (if t.dumps.contains k then 4 else 0)
  | n => d n

/-- The remaining die features, of one sample (R275). -/
def TickFeat.wideFeature (t : TickFeat) (n : Nat) : Nat :=
  if n < 4160 then t.unc.get (n - 64)
  else if n < 6208 then t.queue.get (n - 4160)
  else t.tag.get (n - 6208)

/-- The sample of a tick. -/
def DieDet.at_ (d : DieDet) (tick : Nat) : Option TickFeat := d.hist.find? fun t => t.tick = tick

/-- The samples of a round. -/
def DieDet.ofRound (d : DieDet) (k : Nat) : List TickFeat := d.hist.filter fun t => t.round = k

/-- A feature by its number, of one sample with its field-test entries; `none` for a number that the table of R275 does
not give to a die. -/
def TickFeat.feature (t : TickFeat) (ftest n : Nat) : Option Nat :=
  if 32 ≤ n ∧ n ≤ 49 then some (dieFeature [t] t.us ftest n)
  else if 64 ≤ n ∧ n < 6336 then some (t.wideFeature n)
  else none

/-- The same of a sample of a die slot. -/
def DieDet.dieFeat (d : DieDet) (t : TickFeat) (n : Nat) : Option Nat := t.feature (d.ftest.get t.tick) n

/-- A die feature from 32 to 49 taken over a round (R274). -/
def DieDet.roundFeat (d : DieDet) (k n : Nat) : Nat :=
  let ts := d.ofRound k
  let us := (ts.getLast?).elim 0 fun t => t.us * t.rticks
  dieFeature ts us ((ts.map fun t => d.ftest.get t.tick).sum) n

/-- A value limited to the 64-bit registers: arithmetic saturates at ±(2^63 − 1) (R277). -/
def sat64 (v : Int) : Int := clampInt (-(2 ^ 63 - 1)) (2 ^ 63 - 1) v

end Sys2Proof.Machine
end

