-- ==== Sys2Proof/Machine/Num.lean ====
section
/-! DEFINITION. The exact arithmetic of the Verifier and of the Hedge engine: values, element formats (R125, R326), exact
products and sums with their special values (R327 to R329), and rounding (R331). -/

namespace Sys2Proof.Machine

/-- A value: NaN, an infinity by its sign, −0, or the exact number m × 2^e, whose zero is +0. -/
inductive Val where
  | nan
  | inf (neg : Bool)
  | negZero
  | fin (m : Int) (e : Int)
  deriving DecidableEq, Repr, Inhabited

/-- +0. -/
def Val.zero : Val := .fin 0 0

/-- An integer as a value. -/
def Val.ofInt (n : Int) : Val := .fin n 0

/-- The number with its exponent, for a finite value. -/
def Val.num : Val → Option (Int × Int)
  | .nan | .inf _ => none
  | .negZero => some (0, 0)
  | .fin m e => some (m, e)

/-- The value is a zero of either sign. -/
def Val.isZero (v : Val) : Bool := match v with
  | .negZero => true
  | .fin m _ => m == 0
  | _ => false

/-- The sign of a value. -/
def Val.neg (v : Val) : Bool := match v with
  | .nan => false
  | .inf s => s
  | .negZero => true
  | .fin m _ => decide (m < 0)

/-- A significand moved to a lower exponent. -/
def scaleTo (m e q : Int) : Int := m * 2 ^ (e - q).toNat

/-- The exact sum of two numbers. -/
def numAdd (a b : Int × Int) : Int × Int :=
  let e := min a.2 b.2
  (scaleTo a.1 a.2 e + scaleTo b.1 b.2 e, e)

/-- The negative of a number. -/
def numNeg (a : Int × Int) : Int × Int := (-a.1, a.2)

/-- The magnitude of a number. -/
def numAbs (a : Int × Int) : Int × Int := (a.1.natAbs, a.2)

/-- One number is at most another. -/
def numLe (a b : Int × Int) : Bool :=
  let e := min a.2 b.2
  decide (scaleTo a.1 a.2 e ≤ scaleTo b.1 b.2 e)

/-- floor(log2) of the magnitude of a number that is not 0. -/
def numLog (a : Int × Int) : Int := (Nat.log2 a.1.natAbs : Int) + a.2

/-- A number as an integer multiple of 2^q, floored toward −∞, with whether that is exact. -/
def numFloor (a : Int × Int) (q : Int) : Int × Bool :=
  if q ≤ a.2 then (scaleTo a.1 a.2 q, true)
  else
    let d : Int := 2 ^ (q - a.2).toNat
    (a.1 / d, a.1 % d == 0)

/-- The exact product (R329): infinity × 0 is NaN, and a zero product takes its sign from both. -/
def Val.mul (x y : Val) : Val :=
  let s := x.neg != y.neg
  match x, y with
  | .nan, _ | _, .nan => .nan
  | .inf _, _ => if y.isZero then .nan else .inf s
  | _, .inf _ => if x.isZero then .nan else .inf s
  | _, _ => match x.num, y.num with
    | some a, some b => if a.1 = 0 ∨ b.1 = 0 then (if s then .negZero else .zero) else .fin (a.1 * b.1) (a.2 + b.2)
    | _, _ => .nan

/-- The special value of a list of terms, if the specials decide it (R329). -/
def specialOf (l : List Val) : Option Val :=
  if l.any (· = .nan) then some .nan
  else
    let p := l.any (· = .inf false)
    let n := l.any (· = .inf true)
    if p ∧ n then some .nan
    else if p then some (.inf false)
    else if n then some (.inf true)
    else if l.all Val.isZero then some (if !l.isEmpty && l.all (· = .negZero) then .negZero else .zero)
    else none

/-- The exact sum of terms (R327, R329). -/
def Val.sum (l : List Val) : Val :=
  match specialOf l with
  | some v => v
  | none =>
    let r := (l.filterMap Val.num).foldl numAdd (0, 0)
    .fin r.1 r.2

/-- The group register (R328): the sum of the terms, each truncated toward −∞ at 2^(E − 179) when some term lies below, and
whether the group is SPAN. -/
def groupSum (l : List Val) : Val × Bool :=
  match specialOf l with
  | some v => (v, false)
  | none =>
    let ns := (l.filterMap Val.num).filter fun a => a.1 ≠ 0
    let top := ns.foldl (fun m a => max m (numLog a)) ((ns.map numLog).headD 0)
    let q := top - 179
    let fs := ns.map fun a => numFloor a q
    if fs.all Prod.snd then (Val.sum l, false)
    else (.fin ((fs.map Prod.fst).foldl (· + ·) 0) q, true)

/-! ### Formats (R125, R326) -/

/-- A floating-point format: exponent and fraction bits, bias, and how it spells specials: 0 none, 1 NaN at all ones only,
2 as IEEE 754. -/
structure FloatFmt where
  ebits : Nat
  mbits : Nat
  bias : Nat
  special : Nat

/-- The float formats by code. -/
def floatFmt (code : Nat) : Option FloatFmt :=
  match code with
  | 0x1 => some ⟨2, 1, 1, 0⟩
  | 0x2 => some ⟨3, 2, 3, 0⟩
  | 0x3 => some ⟨2, 3, 1, 0⟩
  | 0x4 => some ⟨4, 3, 7, 1⟩
  | 0x5 => some ⟨5, 2, 15, 2⟩
  | 0x9 => some ⟨5, 10, 15, 2⟩
  | 0xA => some ⟨8, 7, 127, 2⟩
  | 0xB => some ⟨8, 23, 127, 2⟩
  | _ => none

/-- The integer formats by code: width and the exponent of the unit. -/
def intFmt (code : Nat) : Nat × Int :=
  match code with
  | 0x6 => (8, -6)
  | 0x7 => (8, 0)
  | 0x8 => (4, 0)
  | _ => (32, 0)

/-- The value of an element; with `ftz` a subnormal of a FLOAT format is a zero of its sign (R329). -/
def decodeElem (code bits : Nat) (ftz : Bool) : Val :=
  match floatFmt code with
  | none =>
    let f := intFmt code
    .fin (signed f.1 bits) f.2
  | some f =>
    let m := bits % 2 ^ f.mbits
    let e := bits / 2 ^ f.mbits % 2 ^ f.ebits
    let s := bitAt bits (f.mbits + f.ebits)
    let top := 2 ^ f.ebits - 1
    let sg (n : Nat) : Int := if s then -(n : Int) else n
    if f.special = 2 ∧ e = top then (if m = 0 then .inf s else .nan)
    else if f.special = 1 ∧ e = top ∧ m = 2 ^ f.mbits - 1 then .nan
    else if e = 0 then
      if m = 0 ∨ (ftz ∧ 9 ≤ code) then (if s then .negZero else .zero)
      else .fin (sg m) (1 - (f.bias : Int) - f.mbits)
    else .fin (sg (2 ^ f.mbits + m)) ((e : Int) - f.bias - f.mbits)

/-- An E8M0 scale (R326, R329). -/
def decodeScale (b : Nat) : Val := if b % 256 = 255 then .nan else .fin 1 ((b % 256 : Nat) - 127)

/-! ### Rounding (R331) -/

/-- A magnitude with `k` whole units and a remainder `r` of `d`, rounded by a code; `neg` is the sign. -/
def roundUnits (mode : Nat) (neg : Bool) (k r d : Nat) : Nat :=
  if r = 0 then k
  else match mode with
    | 0 => if d < 2 * r ∨ (2 * r = d ∧ k % 2 = 1) then k + 1 else k
    | 1 => k
    | 2 => if neg then k else k + 1
    | 3 => if neg then k + 1 else k
    | 4 => if d ≤ 2 * r then k + 1 else k
    | _ => if k % 2 = 0 then k + 1 else k

/-- A number rounded to a multiple of 2^q, as a count of units of its magnitude. -/
def roundAt (mode : Nat) (a : Int × Int) (q : Int) : Nat :=
  if q ≤ a.2 then (scaleTo a.1 a.2 q).natAbs
  else
    let d := 2 ^ (q - a.2).toNat
    roundUnits mode (a.1 < 0) (a.1.natAbs / d) (a.1.natAbs % d) d

/-- The flags of a profile that rounding reads. -/
structure RndFlags where
  ftzRes : Bool := false
  sat : Bool := false
  intSat : Bool := false

/-- The largest finite magnitude of a format, as significand and exponent. -/
def FloatFmt.maxFin (f : FloatFmt) : Int × Int :=
  (2 ^ (f.mbits + 1) - 1, (2 ^ f.ebits - 2 : Nat) - (f.bias : Int) - f.mbits)

/-- rnd(x, F, m) of R331, with whether a saturation acted. -/
def rndSeen (fl : RndFlags) (code mode : Nat) (x : Val) : Val × Bool :=
  match x.num with
  | none => (x, false)
  | some a =>
    match floatFmt code with
    | none =>
      let k := roundAt mode a 0
      let n : Int := if a.1 < 0 then -(k : Int) else k
      if fl.intSat then
        let c := clampInt (-(2 ^ 31)) (2 ^ 31 - 1) n
        (.fin c 0, c != n)
      else (.fin (signed 32 (twos 32 n)) 0, false)
    | some f =>
      let emin : Int := 1 - (f.bias : Int)
      let neg := decide (a.1 < 0)
      let zero (s : Bool) : Val := if s then .negZero else .zero
      if a.1 = 0 then (zero (x = .negZero || mode == 3), false)
      else
        let q := max (numLog a) emin - f.mbits
        let k := roundAt mode a q
        let r : Int × Int := (k, q)
        let big := f.maxFin
        let signedBig : Val := .fin (if neg then -big.1 else big.1) big.2
        if !numLe r big then
          if fl.sat then (signedBig, true)
          else if mode = 1 ∨ mode = 5 ∨ (mode = 2 ∧ neg) ∨ (mode = 3 ∧ ¬ neg) then (signedBig, false)
          else (.inf neg, false)
        else if k = 0 ∨ (fl.ftzRes ∧ numLog r < emin) then (zero neg, false)
        else (.fin (if neg then -(k : Int) else k) q, false)

/-- rnd(x, F, m) of R331. -/
def rnd (fl : RndFlags) (code mode : Nat) (x : Val) : Val := (rndSeen fl code mode x).1

/-- The bits of a value that the format holds; NaN as the quiet NaN of the format. -/
def encodeVal (code : Nat) (v : Val) : Nat :=
  match floatFmt code with
  | none => match v.num with
    | some a => twos (intFmt code).1 (numFloor a (intFmt code).2).1
    | none => 0
  | some f =>
    let sign (s : Bool) : Nat := if s then 2 ^ (f.mbits + f.ebits) else 0
    let top := (2 ^ f.ebits - 1) * 2 ^ f.mbits
    match v with
    | .nan => top + 2 ^ (f.mbits - 1)
    | .inf s => sign s + top
    | .negZero => sign true
    | .fin m e =>
      if m = 0 then 0
      else
        let emin : Int := 1 - (f.bias : Int)
        let l := numLog (m, e)
        let q := max l emin - f.mbits
        let k := (numFloor (m.natAbs, e) q).1.toNat
        if l < emin then sign (m < 0) + k
        else sign (m < 0) + (l + f.bias).toNat * 2 ^ f.mbits + (k - 2 ^ f.mbits)

/-- One unit in the last place of a format at a number; 1 for INT32 (R337). -/
def ulpAt (code : Nat) (a : Int × Int) : Int × Int :=
  match floatFmt code with
  | none => (1, 0)
  | some f =>
    let emin : Int := 1 - (f.bias : Int)
    (1, (if a.1 = 0 then emin else max (numLog a) emin) - f.mbits)

/-! ### Integers -/

/-- The largest and smallest signed 64-bit values. -/
def max63 : Int := 2 ^ 63 - 1

/-- The value × 2^sh rounded to nearest, ties to even, saturating at `low` and 2^63 − 1, the infinities at the limits; none
for NaN. `low` is −(2^63 − 1) for a Hedge score (R311) and −2^63 for a predictor output (R342). -/
def toInt64 (low : Int) (v : Val) (sh : Int) : Option Int :=
  match v with
  | .nan => none
  | .inf s => some (if s then low else max63)
  | _ => match v.num with
    | none => none
    | some a =>
      let k := roundAt 0 (a.1, a.2 + sh) 0
      some (clampInt low max63 (if a.1 < 0 then -(k : Int) else k))

/-- binary32 addition, to nearest, ties to even (R311). -/
def addB32 (x y : Val) : Val := rnd {} 0xB 0 (Val.sum [x, y])

end Sys2Proof.Machine
end

