-- ==== Sys2Proof/Machine/TileMath.lean ====
section
/-! DEFINITION. Tile checks (10): accumulation profiles (R330 to R335), the reference element (R332), and the comparison
with the host and its summary (R337, R338). -/

namespace Sys2Proof.Machine

/-! ### Profiles (R330) -/

/-- An accumulation profile. -/
structure Profile where
  valid : Bool := false
  ftzIn : Bool := false
  fl : RndFlags := {}
  nanCanon : Bool := false
  ekLog2 : Nat := 0
  order : Nat := 0
  lanesLog2 : Nat := 0
  cinMode : Nat := 0
  partFmt : Nat := 0
  partRnd : Nat := 0
  accFmt : Nat := 0
  accRnd : Nat := 0
  outRnd : Nat := 0
  bound : Bool := false
  tolUlp : Nat := 0
  relSh : Nat := 0
  canonNan : Nat := 0
  crc : Nat := 0

/-- Byte `k` of a profile record held as a number. -/
def profByte (n k : Nat) : Nat := n / 256 ^ k % 256

/-- A profile record. -/
def parseProfile (n : Nat) : Profile :=
  let f := n / 256 ^ 2 % 65536
  { valid := bitAt f 0, ftzIn := bitAt f 1, fl := { ftzRes := bitAt f 2, sat := bitAt f 3, intSat := bitAt f 4 }
    nanCanon := bitAt f 5, ekLog2 := profByte n 4, order := profByte n 5, lanesLog2 := profByte n 6
    cinMode := profByte n 7, partFmt := profByte n 8, partRnd := profByte n 9, accFmt := profByte n 10
    accRnd := profByte n 11, outRnd := profByte n 12, bound := profByte n 13 = 1, tolUlp := n / 256 ^ 14 % 65536
    relSh := profByte n 16, canonNan := n / 256 ^ 20 % 2 ^ 32, crc := n / 256 ^ 28 % 2 ^ 32 }

/-- A record with VALID set breaks no rule at its place in the table; one with VALID clear is never checked (R334). -/
def profileGood (place n : Nat) : Bool :=
  let p := parseProfile n
  !p.valid || (
    profByte n 1 == 1 && p.crc == crc32c (leBytes 28 n) && profByte n 0 == place &&
    n / 256 ^ 2 % 65536 < 64 && p.order ≤ 3 && p.cinMode ≤ 2 && (p.partFmt == 0 || (9 ≤ p.partFmt && p.partFmt ≤ 12)) &&
    9 ≤ p.accFmt && p.accFmt ≤ 12 && p.partRnd ≤ 5 && p.accRnd ≤ 5 && p.outRnd ≤ 5 && profByte n 13 ≤ 1 &&
    p.relSh ≤ 63 && n / 256 ^ 17 % 256 ^ 3 == 0 && n / 256 ^ 24 % 256 ^ 4 == 0 && p.ekLog2 ≤ 9 &&
    (if p.order = 2 then 1 ≤ p.lanesLog2 && p.lanesLog2 ≤ 3 else p.lanesLog2 == 0) &&
    (p.partFmt == 0 || (p.partFmt == 12) == (p.accFmt == 12)))

/-! ### What can be computed (R324, R325, R335) -/

/-- The class of an operand format: 0 MX, 1 INT, 2 FLOAT; none for INT32. -/
def fmtClass (f : Nat) : Option Nat :=
  if 1 ≤ f ∧ f ≤ 6 then some 0 else if f = 7 ∨ f = 8 then some 1 else if 9 ≤ f ∧ f ≤ 11 then some 2 else none

/-- A format that is no integer format. -/
def fmtFloat (f : Nat) : Bool := (1 ≤ f ∧ f ≤ 6) ∨ (9 ≤ f ∧ f ≤ 11)

/-- The tile is UNSUPPORTED under a profile (R335). -/
def tileUnsupported (p : Profile) (d : Nat) : Bool :=
  let a := descA d
  let b := descB d
  let acc32 : Bool := p.accFmt == 12
  fmtClass a != fmtClass b || (fmtClass a).isNone || ((fmtMx a || fmtMx b) && p.ekLog2 < 5) ||
    (acc32 && fmtClass a != some 1) ||
    (descAcc d && ((descC d == 12 && !acc32) || (fmtFloat (descC d) && acc32))) ||
    (descOut d == 12 && !acc32) || (1 ≤ descOut d && descOut d ≤ 8)

/-- Array cycles of a pass over K elements: ceil(K / r) + 16 (R324, R325). -/
def passCycles (fa fb k : Nat) : Nat :=
  (if (fa = 1 ∧ fb = 1) ∨ (fa = 8 ∧ fb = 8) then ceilDiv k 2
    else if fa ≤ 8 then k
    else if fa = 11 ∨ fb = 11 then 16 * k
    else 4 * k) + 16

/-- Cycles from the start of a pass to its results: ceil(K / r) + 1,040 (R325). -/
def resultCycles (fa fb k : Nat) : Nat := passCycles fa fb k + 1024

/-! ### Operands (R126) -/

/-- Element `k` of row `i` of a section whose rows hold `n` elements of `b` bits. -/
def elemAt (sec : List Byte) (n b i k : Nat) : Nat :=
  let bit := b * k
  leAt sec (32 * ceilDiv (n * b) 256 * i + bit / 8) 5 / 2 ^ (bit % 8) % 2 ^ b

/-- Values packed as a section, each row filled to a beat (R126). -/
def packRows (b : Nat) (rows : List (List Nat)) : List Byte :=
  (rows.map fun r => padTo 32 (packBytes (r.map fun v => (v, b)))).flatten

/-- The sections of a tile record (R129): A, SA, B, SB, C_IN, OUT. -/
def tileSections (l : List Byte) : List (List Byte) :=
  ((List.range 6).foldl (fun (w : List (List Byte) × List Byte) i =>
    let n := leAt l (88 + 4 * i) 4
    (w.1 ++ [w.2.take n], w.2.drop n)) ([], l.drop 128)).1

/-- A section by its kind, from 1 to 6. -/
def tileSection (l : List Byte) (kind : Nat) : List Byte := ((tileSections l)[kind - 1]?).getD []

/-- The descriptor of a tile record. -/
def tileDesc (l : List Byte) : Nat := leAt l 56 32

/-- An operand element with its scale, exactly (R327). -/
def operandVal (fmt n : Nat) (sec scales : List Byte) (ftz : Bool) (i k : Nat) : Val :=
  let v := decodeElem fmt (elemAt sec n ((fmtBits fmt).getD 0) i k) ftz
  if fmtMx fmt then v.mul (decodeScale (elemAt scales (n / 32) 8 i (k / 32))) else v

/-! ### The reference element (R327, R332) -/

/-- A value on its way, with whether a saturation has acted. -/
abbrev RVal := Val × Bool

/-- Rounding that remembers saturation. -/
def rndAcc (p : Profile) (fmt mode : Nat) (x : RVal) : RVal :=
  let r := rndSeen p.fl fmt mode x.1
  (r.1, x.2 || r.2)

/-- add(x, y) of R332. -/
def addAcc (p : Profile) (x y : RVal) : RVal := rndAcc p p.accFmt p.accRnd (Val.sum [x.1, y.1], x.2 || y.2)

/-- One level of PAIRWISE. -/
def accLevel (p : Profile) : List RVal → List RVal
  | x :: y :: t => addAcc p x y :: accLevel p t
  | l => l

/-- PAIRWISE over leaves; `n` bounds the levels. -/
def pairwise (p : Profile) : Nat → List RVal → RVal
  | _, [] => (.zero, false)
  | _, [x] => rndAcc p p.accFmt p.accRnd x
  | 0, x :: _ => x
  | n + 1, l => match accLevel p l with
    | [x] => x
    | m => pairwise p n m

/-- The groups combined by ORDER (R332). -/
def combine (p : Profile) (start : Option RVal) (gs : List RVal) : RVal :=
  let s0 : RVal := start.getD (.zero, false)
  match p.order with
  | 0 => gs.foldl (addAcc p) s0
  | 1 => pairwise p gs.length (start.toList ++ gs)
  | 2 =>
    let n := 2 ^ p.lanesLog2
    let lane (k : Nat) : RVal :=
      (gs.zipIdx.filter fun g => g.2 % n = k).foldl (fun s g => addAcc p s g.1) (if k = 0 then s0 else (.zero, false))
    pairwise p n ((List.range n).map lane)
  | _ =>
    let all := start.toList ++ gs
    rndAcc p p.accFmt p.accRnd ((groupSum (all.map Prod.fst)).1, all.any Prod.snd)

/-- The inputs of one element: the exact groups with SPAN (R327, R328), and C_IN. -/
structure ElemIn where
  groups : List (Val × Bool)
  cin : Option Val

/-- A list cut into runs of `n`. -/
def chunksOf (n : Nat) : Nat → List Val → List (List Val)
  | 0, _ => []
  | f + 1, l => if l = [] then [] else l.take n :: chunksOf n f (l.drop n)

/-- The exact groups of the products along K; with CIN_MODE EXACT, C_IN is a term of the first (R327, R332). -/
def elemGroups (p : Profile) (products : List Val) (cin : Option Val) : ElemIn :=
  let cs := chunksOf (2 ^ p.ekLog2) products.length products
  let cs := match cin, cs with
    | some c, g :: t => if p.cinMode = 2 then (g ++ [c]) :: t else cs
    | _, _ => cs
  { groups := cs.map groupSum, cin := cin }

/-- The start of R332. -/
def elemStart (p : Profile) (e : ElemIn) : Option RVal :=
  match e.cin with
  | some c => if p.cinMode = 0 then some (rndAcc p p.accFmt p.accRnd (c, false)) else none
  | none => none

/-- The element of R332 in an output format. -/
def element (p : Profile) (out : Nat) (e : ElemIn) : RVal :=
  let gs := e.groups.map fun g => if p.partFmt = 0 then ((g.1, false) : RVal) else rndAcc p p.partFmt p.partRnd (g.1, false)
  let s := combine p (elemStart p e) gs
  let s := match e.cin with
    | some c => if p.cinMode = 1 then addAcc p s (c, false) else s
    | none => s
  if p.accFmt = 12 ∧ out = 12 then s else rndAcc p out p.outRnd s

/-- The exact total of R337, with C_IN once, rounded by OUT_RND. -/
def exactTotal (p : Profile) (out : Nat) (e : ElemIn) : RVal :=
  let last := match e.cin with
    | some c => if p.cinMode = 1 then [c] else []
    | none => []
  let all := (elemStart p e).toList.map Prod.fst ++ e.groups.map Prod.fst ++ last
  rndAcc p out p.outRnd ((groupSum all).1, false)

/-- A number rounded up to binary32, none when that is infinite. -/
def upB32 (a : Int × Int) : Option (Int × Int) := (rnd {} 0xB 2 (.fin a.1 a.2)).num

/-- The magnitude of a value, 0 for one that is not finite. -/
def magOf (v : Val) : Int × Int := numAbs ((v.num).getD (0, 0))

/-- The bound of a BOUND profile at a reference, none when it is infinite (R337). -/
def elemBound (p : Profile) (out : Nat) (e : ElemIn) (ref : Int × Int) : Option (Int × Int) :=
  let terms := (elemStart p e).toList.map Prod.fst ++ e.groups.map Prod.fst ++ e.cin.toList
  let u := ulpAt out ref
  let ulps : Int × Int := (u.1 * p.tolUlp, u.2)
  if p.relSh = 0 then upB32 ulps
  else match upB32 ((terms.map magOf).foldl numAdd (0, 0)) with
    | some abs => upB32 (numAdd ulps (abs.1, abs.2 - p.relSh))
    | none => none

/-! ### Comparing one element (R337) -/

/-- The reference of an element, and how the host compares with it. -/
structure ElemCheck where
  row : Nat := 0
  col : Nat := 0
  host : Nat := 0
  ref : Nat := 0
  pass : Bool := true
  /-- the host bits equal the reference bits, or both are NaN -/
  same : Bool := true
  span : Bool := false
  nan : Bool := false
  sat : Bool := false
  ulps : Nat := 0

/-- The bits of a reference; those of a NaN are CANON_NAN, or bits that the spec does not give (R329). -/
def refBits (p : Profile) (out : Nat) (v : Val) : Nat :=
  if v = .nan then (if p.nanCanon then p.canonNan else Config.nanBits out) else encodeVal out v

/-- |host − ref| in units in the last place of the reference, rounded up and held to 32 bits. -/
def ulpDistance (out : Nat) (h r : Int × Int) : Nat :=
  let d := numAbs (numAdd h (numNeg r))
  let u := (ulpAt out r).2
  let f := numFloor d u
  min (f.1.toNat + (if f.2 then 0 else 1)) 0xFFFF_FFFF

/-- The comparison of the host's bits with a reference of bits `ref` and value `r` (R337). -/
def elemPasses (p : Profile) (out : Nat) (e : ElemIn) (span : Bool) (host ref : Nat) (r : Val) : Bool :=
  let h := decodeElem out host false
  match r with
  | .nan => h == .nan && (!p.nanCanon || host == p.canonNan % 2 ^ (fmtBits out).getD 0)
  | .inf s => h == .inf s
  | r => match h.num, r.num with
    | some hn, some rn =>
      let d := numAbs (numAdd hn (numNeg rn))
      if p.bound then (elemBound p out e rn).all fun b => numLe d b
      else if span then numLe d (ulpAt out rn)
      else host == ref
    | _, _ => false

/-- One element compared: `flip` is what a fault of the array changes in the reference bits (R349 to R351). A reference
without a fault is the value itself, a NaN whatever its bits. -/
def elemCheck (p : Profile) (out : Nat) (e : ElemIn) (host flip row col : Nat) : ElemCheck :=
  let v := if p.bound then exactTotal p out e else element p out e
  let ref := refBits p out v.1 ^^^ flip
  let span := e.groups.any Prod.snd
  let h := decodeElem out host false
  let r := if flip = 0 then v.1 else decodeElem out ref false
  { row := row, col := col, host := host, ref := ref, span := span, nan := r == .nan, sat := v.2
    pass := elemPasses p out e span host ref r, same := host == ref || (h == .nan && r == .nan)
    ulps := match h.num, r.num with
      | some a, some b => ulpDistance out a b
      | _, _ => 0xFFFF_FFFF }

/-! ### A whole tile (R323, R338) -/

/-- The outcome of a pass over a tile: its summary (R338) and the reference OUT in row-major order. -/
structure TileResult where
  outcome : Nat := 0
  summary : List Byte := []
  ref : List Nat := []

/-- The summary's bytes. -/
def summaryBytes (outcome array cflags miss spans row col host ref ulp rows cols crc cycles : Nat) : List Byte :=
  leBytes 1 outcome ++ leBytes 1 (array % 8) ++ leBytes 2 cflags ++ leBytes 4 miss ++ leBytes 4 spans ++ leBytes 2 row ++
    leBytes 2 col ++ leBytes 4 host ++ leBytes 4 ref ++ leBytes 4 ulp ++ leBytes 2 rows ++ leBytes 2 cols ++
    leBytes 4 crc ++ leBytes 4 cycles ++ zeros 8

/-- The summary of a check that was not computed (R335, R347, R348); `prev` when the previous table settled it. -/
def emptySummary (outcome array crc : Nat) (prev : Bool) : List Byte :=
  summaryBytes outcome array (if prev then 8 else 0) 0 0 0xFFFF 0xFFFF 0 0 0 0 0 crc 0

/-- The inputs of element (i, j) of a tile. -/
def tileElem (p : Profile) (l : List Byte) (i j : Nat) : ElemIn :=
  let d := tileDesc l
  let k := descK d
  let products := (List.range k).map fun q =>
    (operandVal (descA d) k (tileSection l 1) (tileSection l 2) p.ftzIn i q).mul
      (operandVal (descB d) k (tileSection l 3) (tileSection l 4) p.ftzIn j q)
  let cin := if descAcc d then
      some (decodeElem (descC d) (elemAt (tileSection l 5) (descN d) ((fmtBits (descC d)).getD 0) i j) p.ftzIn)
    else none
  elemGroups p products cin

/-- A tile computed by an array and compared (R332, R337, R338); `flips` gives per faulty column the bits its outputs
differ in. -/
def tileCompute (p : Profile) (l : List Byte) (array : Nat) (prev : Bool) (flips : List (Nat × Nat)) : TileResult :=
  let d := tileDesc l
  let out := descOut d
  let b := (fmtBits out).getD 0
  let sec := tileSection l 6
  let cells := ((List.range (descM d)).map fun i => (List.range (descN d)).map fun j =>
    elemCheck p out (tileElem p l i j) (elemAt sec (descN d) b i j) ((assocGet flips j).getD 0 % 2 ^ b) i j).flatten
  let bad := cells.filter fun c => !c.pass
  let outcome := if bad ≠ [] then 1 else if p.bound ∨ cells.all (·.same) then 0 else 2
  let first := bad.head?
  let flag (f : ElemCheck → Bool) (v : Nat) : Nat := if cells.any f then v else 0
  let cflags := flag (·.span) 1 + flag (·.nan) 2 + flag (·.sat) 4 + (if prev then 8 else 0)
  { outcome := outcome, ref := cells.map (·.ref)
    summary := summaryBytes outcome array cflags bad.length (cells.filter (·.span)).length (first.elim 0xFFFF (·.row))
      (first.elim 0xFFFF (·.col)) (first.elim 0 (·.host)) (first.elim 0 (·.ref)) ((bad.map (·.ulps)).foldl max 0)
      ((bad.map (·.row)).eraseDups.length) ((bad.map (·.col)).eraseDups.length) p.crc
      (passCycles (descA d) (descB d) (descK d)) }

/-- A list cut into rows of `n`. -/
def rowsOf (n : Nat) : Nat → List Nat → List (List Nat)
  | 0, _ => []
  | f + 1, l => if l = [] then [] else l.take n :: rowsOf n f (l.drop n)

/-- CRC-32C of a reference OUT, packed as R126 packs OUT (R361). -/
def refCrc (d : Nat) (ref : List Nat) : Nat :=
  crc32c (packRows ((fmtBits (descOut d)).getD 0) (rowsOf (descN d) ref.length ref))

/-- CRC-32C of the host's OUT section. -/
def hostCrc (l : List Byte) : Nat := crc32c (tileSection l 6)

end Sys2Proof.Machine
end

