-- ==== Sys2Proof/Machine/Predict.lean ====
section
/-! DEFINITION. The predictor (10): its packages (R339 to R341, R343), its inputs (R340) and its outputs (R342). -/

namespace Sys2Proof.Machine

/-! ### Packages (R339, R341, R343) -/

/-- A layer entry (R341). -/
structure PredLayer where
  inp : Nat
  out : Nat
  wfmt : Nat
  relu : Bool
  woff : Nat
  boff : Nat

/-- The entry of layer `i` as bytes. -/
def layerEntry (l : List Byte) (i : Nat) : List Byte := (l.drop (leAt l 16 4 + 32 * i)).take 32

/-- Layer `i` of a package. -/
def predLayer (l : List Byte) (i : Nat) : PredLayer :=
  let e := layerEntry l i
  { inp := leAt e 0 2, out := leAt e 2 2, wfmt := leAt e 4 1, relu := leAt e 5 1 = 1, woff := leAt e 8 4
    boff := leAt e 16 4 }

/-- Bytes of a weight row, padded to 8 (R341). -/
def weightRow (y : PredLayer) : Nat :=
  8 * ceilDiv (if y.wfmt = 0xA then 2 * y.inp else y.inp / 32 + ceilDiv (y.inp * (fmtBits y.wfmt).getD 0) 8) 8

/-- A number rounded up to a multiple of 32. -/
def up32 (n : Nat) : Nat := 32 * ceilDiv n 32

/-- A binary32 bit pattern is finite. -/
def predFinite (n : Nat) : Bool := (decodeElem 0xB n false).num.isSome

/-- A layer breaks no rule of R341; `prev` is the width that it must take. -/
def layerGood (l : List Byte) (len prev i : Nat) : Bool :=
  let e := layerEntry l i
  let y := predLayer l i
  y.inp == up32 prev && (fmtMx y.wfmt || y.wfmt == 0xA) && leAt e 5 1 ≤ 1 && leAt e 6 2 == 0 &&
    leNat (e.drop 20) == 0 && leAt e 12 4 == y.out * weightRow y && y.woff + leAt e 12 4 ≤ len - 8 &&
    y.boff + 4 * y.out ≤ len - 8 && (List.range y.out).all fun o => predFinite (leAt l (y.boff + 4 * o) 4)

/-- Every layer of a chain is good. -/
def layersGood (l : List Byte) (len : Nat) : Nat → Nat → Nat → Bool
  | 0, prev, _ => prev == leAt l 6 1
  | n + 1, prev, i => layerGood l len prev i && layersGood l len n (predLayer l i).out (i + 1)

/-- An input-map entry breaks no rule (R340). -/
def inputGood (l : List Byte) (i : Nat) : Bool :=
  let e := (l.drop (64 + 8 * i)).take 8
  let f := leAt e 0 2
  ((32 ≤ f && f ≤ 49) || (64 ≤ f && f ≤ 6335)) && 1 ≤ leAt e 2 1 && leAt e 2 1 ≤ leAt l 5 1 && leAt e 3 1 ≤ 1 &&
    predFinite (leAt e 4 4)

/-- A package is accepted under the PKG_CRC that its die slot names (R343). -/
def packageGood (l : List Byte) (crc : Nat) : Bool :=
  let nin := leAt l 8 2
  let len := leAt l 20 4
  let sh := signed 8 (leAt l 7 1)
  leAt l 0 1 == 0x52 && leAt l 1 1 == 1 && 1 ≤ leAt l 4 1 && leAt l 4 1 ≤ 16 && 1 ≤ leAt l 5 1 && leAt l 5 1 ≤ 64 &&
    1 ≤ leAt l 6 1 && leAt l 6 1 ≤ 64 && decide (-32 ≤ sh) && decide (sh ≤ 32) && 1 ≤ nin && nin ≤ 4096 &&
    leAt l 10 2 == 0 && leAt l 12 4 == 64 && leAt l 16 4 == 64 + 8 * nin && leNat ((l.drop 24).take 40) == 0 &&
    len == l.length && 64 + 8 * nin + 32 * leAt l 4 1 + 8 ≤ len && trailerGood l && leAt l (len - 8) 4 == crc &&
    leAt l (len - 4) 4 == 0 && (List.range nin).all (inputGood l) && layersGood l len (leAt l 4 1) nin 0

/-- A tick whose sample a job reads, `lag` before its own. -/
def predLags (l : List Byte) : List Nat := ((List.range (leAt l 8 2)).map fun i => leAt l (64 + 8 * i + 2) 1).eraseDups

/-! ### Inputs and outputs (R340, R342) -/

/-- Input `i` for a tick, `none` when its sample is not in the Shed (R340, R344). -/
def Agg.predInput (a : Agg) (s tick : Nat) (l : List Byte) (i : Nat) : Option Val :=
  let e := (l.drop (64 + 8 * i)).take 8
  let d := a.dieDet s
  match d.at_ (tick - leAt e 2 1) with
  | none => none
  | some t =>
    if leAt e 2 1 ≤ tick ∧ ((a.ring t.ring).find t.seq).isSome then
      (d.dieFeat t (leAt e 0 2)).map fun v =>
        let x := if leAt e 3 1 = 1 then bitLen v else v
        let y := rnd {} 0xB 0 ((rnd {} 0xB 0 (.ofInt x)).mul (decodeElem 0xB (leAt e 4 4) false))
        rnd {} 0xA 0 y
    else none

/-- A weight of output `o`, exactly (R341). -/
def predWeight (l : List Byte) (y : PredLayer) (o i : Nat) : Val :=
  let row := (l.drop (y.woff + o * weightRow y)).take (weightRow y)
  if y.wfmt = 0xA then decodeElem 0xA (leAt row (2 * i) 2) false
  else
    let b := (fmtBits y.wfmt).getD 0
    let sec := row.drop (y.inp / 32)
    (decodeElem y.wfmt (leAt sec (b * i / 8) 5 / 2 ^ (b * i % 8) % 2 ^ b) false).mul (decodeScale (leAt row (i / 32) 1))

/-- The accumulator of output `o` after its activation (R342). -/
def predAcc (l : List Byte) (y : PredLayer) (ins : List Val) (o : Nat) : Val :=
  let x (i : Nat) : Val := (ins[i]?).getD .zero
  let acc := (List.range (y.inp / 32)).foldl (fun acc g =>
    let terms := (List.range 32).map fun k => (predWeight l y o (32 * g + k)).mul (x (32 * g + k))
    rnd {} 0xB 0 (Val.sum [acc, (groupSum terms).1])) (decodeElem 0xB (leAt l (y.boff + 4 * o) 4) false)
  if y.relu ∧ acc.neg then .zero else acc

/-- The accumulators of the last layer, from `n` layers on. -/
def predLayers (l : List Byte) : Nat → Nat → List Val → List Val
  | 0, _, ins => ins
  | n + 1, i, ins =>
    let y := predLayer l i
    let accs := (List.range y.out).map (predAcc l y ins)
    predLayers l n (i + 1) (if n = 0 then accs else accs.map (rnd {} 0xA 0))

/-- The outputs of a job, `none` when an input sample is absent (R342, R344). -/
def Agg.predOutputs (a : Agg) (s tick : Nat) (l : List Byte) : Option (List (Option Int)) :=
  let ins := (List.range (leAt l 8 2)).map (a.predInput s tick l)
  if ins.all (·.isSome) then
    some ((predLayers l (leAt l 4 1) 0 (ins.filterMap fun x => x)).map fun v => toInt64 (-(2 ^ 63)) v (signed 8 (leAt l 7 1)))
  else none

/-- Array cycles of a batch of up to 512 jobs: over its layers, ceil(OUT / 512) × (4 × IN + 16), whatever their number, and
the queue holds 64 (R342, R345). -/
def predCycles (l : List Byte) : Nat :=
  ((List.range (leAt l 4 1)).map fun i =>
    let y := predLayer l i
    ceilDiv y.out 512 * (4 * y.inp + 16)).sum

end Sys2Proof.Machine
end

