-- ==== Sys2Proof/Machine/Arrays.lean ====
section
/-! DEFINITION. Sharing the arrays of the Verifier (10): arrays in service, jobs and their classes (R346, R347), profile
tables (R336), and the start of a self-test (R349). -/

namespace Sys2Proof.Machine

/-- Arrays IN_SERVICE after array `x`, in the order of R349, but for those named. -/
def Agg.nextArrays (a : Agg) (x : Nat) (but : List Nat) : List Nat :=
  ((List.range 8).map fun i => (x + 1 + i) % 8).filter fun y => a.inService y && y != x && !but.contains y

/-- The self-test of a job. -/
def Agg.testOf (a : Agg) (id : Nat) : Option SelfTest := a.vrf.tests.find? fun t => t.id = id

/-- The job is the rerun or the RETEST of an array out of service (R351, R352). -/
def Agg.testFor (a : Agg) (j : VJob) (x : Nat) : Bool :=
  match j.work with
  | .selfTest id => (a.testOf id).any fun t => t.kind != 0 && t.target == x
  | _ => false

/-- The job may run on an array (R347). -/
def Agg.eligible (a : Agg) (j : VJob) (x : Nat) : Bool := !bitAt j.mask x && (a.inService x || a.testFor j x)

/-- No array is left for the job (R347). -/
def Agg.noArrayFor (a : Agg) (j : VJob) : Bool := (List.range 8).all fun x => !a.eligible j x

/-- A new job joins the queue; `rebuild` for a predictor job of a rebuilding run. -/
def Agg.submit (a : Agg) (w : VWork) (cls mask : Nat) (rebuild : Bool := false) : Agg :=
  (a.onVrf fun v => { v with
    nextJob := v.nextJob + 1
    jobs := v.jobs ++ [{
      id := v.nextJob, work := w, cls := cls, mask := mask, sinceNs := a.p.nowNs, rebuild := rebuild }] }).vrfShow

/-- Whether ARR_EN and the array's domain let it serve takes effect at its pass boundary (R354, R443). -/
def Agg.arrPermit (a : Agg) (x : Nat) : Agg :=
  let st := a.reg (VRF_ARR_STATUS_STATE x)
  if (a.vrf.arr.get x).job.isSome then a
  else if st = 0 ∧ ¬ (bitAt (a.cfg VRF_CFG_ARR_EN) x ∧ a.domOn x) then a.put (VRF_ARR_STATUS_STATE x) 3
  else if st = 3 ∧ bitAt (a.cfg VRF_CFG_ARR_EN) x ∧ a.domOn x then a.put (VRF_ARR_STATUS_STATE x) 0
  else a

/-- The clock of an array as a time: ns for cycles, rounded up (R325). -/
def Agg.arrNs (a : Agg) (x cycles : Nat) : Nat := ceilDiv (cycles * 1000) (max 1 (a.reg (VRF_ARR_STATUS_MHZ x)))

/-! ### Profiles in use (R336) -/

/-- The profile record under which a tile that ended at an instant is checked, and whether it is of the previous table. -/
def Agg.profileFor (a : Agg) (id endNs : Nat) : Nat × Bool :=
  match a.vrf.profPrev with
  | some (t, ns) => if endNs < ns then (t.get id, true) else (a.vrf.prof.get id, false)
  | none => (a.vrf.prof.get id, false)

/-! ### Self-tests (R349) -/

/-- The operand format of self-test `j`. -/
def testFmt (j : Nat) : Nat := j % 11 + 1

/-- Byte `n` of self-test `j`'s operand stream: byte n mod 16 of word n / 16 (R114, R349). -/
def testByte (seed j n : Nat) : Nat :=
  let g := gen seed j (n / 16)
  (if n % 16 < 8 then g.1 / 2 ^ (8 * (n % 8)) else g.2 / 2 ^ (8 * (n % 8))) % 256

/-- Bytes of one operand's elements and of its scales in the stream, laid out in rows as R126 lays them out. -/
def testSpan (j : Nat) : Nat × Nat :=
  let b := (fmtBits (testFmt j)).getD 0
  (512 * (512 * b / 8), if fmtMx (testFmt j) then 512 * 32 else 0)

/-- Element `k` of row `i` of self-test `j`'s operand A, or with `second` of column `i` of B, with its scale. The stream is
taken as the sections A, SA, B, SB one after another (log entry 160). -/
def testOperand (seed j : Nat) (second : Bool) (i k : Nat) : Val :=
  let f := testFmt j
  let b := (fmtBits f).getD 0
  let sp := testSpan j
  let base := if second then sp.1 + sp.2 else 0
  let bit := b * (512 * i + k)
  let bits := ((List.range 5).map fun q => testByte seed j (base + bit / 8 + q) * 256 ^ q).sum / 2 ^ (bit % 8) % 2 ^ b
  let v := decodeElem f bits false
  if fmtMx f then v.mul (decodeScale (117 + testByte seed j (base + sp.1 + 32 * i + k / 32) % 21)) else v

/-- How a self-test combines: SEQUENTIAL, EK 32, in binary32 RNE, or INT32 wrap for INT formats (R349). -/
def testProfile (j : Nat) : Profile :=
  { valid := true, ekLog2 := 5, accFmt := if fmtClass (testFmt j) = some 1 then 12 else 0xB }

/-- The exact result bits of element (i, c) of self-test `j`; a NaN is 0x7FC0_0000 (R349). -/
def testRef (seed j i c : Nat) : Nat :=
  let p := testProfile j
  let products := (List.range 512).map fun k => (testOperand seed j false i k).mul (testOperand seed j true c k)
  encodeVal p.accFmt (element p p.accFmt (elemGroups p products none)).1

/-- The result bits of element (i, c) that an array with `flips` in its columns writes. -/
def testOut (seed j : Nat) (flips : List (Nat × Nat)) (i c : Nat) : Nat :=
  testRef seed j i c ^^^ (assocGet flips c).getD 0

/-- Queue a self-test on its arrays. -/
def Agg.testStart (a : Agg) (t : SelfTest) : Agg :=
  let a := a.onVrf fun v => { v with tests := v.tests ++ [{ t with id := v.nextTest }], nextTest := v.nextTest + 1 }
  let id := a.vrf.nextTest - 1
  t.arrays.foldl (fun a x => a.submit (.selfTest id) 0 (255 - 2 ^ x)) a

/-- The number of the next self-test; it is counted. -/
def Agg.testCount (a : Agg) : Agg × Nat :=
  let j := a.reg VRF_STATUS_ST_COUNT
  (a.put VRF_STATUS_ST_COUNT ((j + 1) % 2 ^ 32), j)

/-- The seed of a self-test queued now. -/
def Agg.testSeed (a : Agg) : Nat := a.cfg VRF_ST_SEED_SEED

/-- A self-test of an array is due (R349): it runs on the array and its partner; with one array in service none is compared
(R350). -/
def Agg.testDue (a : Agg) (x : Nat) : Agg :=
  if a.inService x then
    match a.nextArrays x [] with
    | [] => a.event VRF_EVENT_ST_ALONE
    | y :: _ =>
      let c := a.testCount
      c.1.testStart { num := c.2, seed := c.1.testSeed, target := x, arrays := [x, y] }
  else a

/-- RETEST of a RETIRED array, against two arrays in service (R352). -/
def Agg.testRetired (a : Agg) (x : Nat) : Agg :=
  if a.reg (VRF_ARR_STATUS_STATE x) = 2 then
    match a.nextArrays x [] with
    | y :: z :: _ =>
      let c := a.testCount
      c.1.testStart { num := c.2, seed := c.1.testSeed, target := x, arrays := [x, y, z], kind := 2 }
    | _ => a
  else a

end Sys2Proof.Machine
end

