-- ==== Sys2Proof/Machine/Notice.lean ====
section
/-! DEFINITION. Notices (08, R295 to R301): the host notice ring, deliveries to it and to recipients over the fabric,
resends and acknowledgements, Hurdles. Deliveries of 11 use the same engine (R375, R382, R383). -/

namespace Sys2Proof.Machine

/-! ### Entries (R297, R374) -/

/-- Bytes 0 to 23 of an entry, with PHASE 0 (R297). -/
def entryHead (ntype nflags die orig kind sev prime pad rule op : Nat) : List Byte :=
  leBytes 1 ntype ++ leBytes 1 1 ++ leBytes 2 nflags ++ leBytes 4 (die % 2 ^ 17) ++ leBytes 2 (orig % 2 ^ 14) ++
    leBytes 1 kind ++ leBytes 1 sev ++ leBytes 1 prime ++ leBytes 1 pad ++ leBytes 2 rule ++ leBytes 8 op

/-- NFLAGS of an operation's notice: CLEARED and REPLAYED. -/
def nflags (cleared replayed : Bool) : Nat := (if cleared then 1 else 0) + (if replayed then 2 else 0)

/-- The entry of a verdict, Hurdle, case or Fleece record (R297, R374). -/
def verdictEntry (ntype die : Nat) (v : HeldVerdict) (j : JrnRec) : List Byte :=
  entryHead ntype (nflags v.cleared j.replayed) die j.origAgg v.kind v.sev v.prime v.paddock v.rule j.origOp ++
    leBytes 8 v.ident ++ leBytes 2 v.program ++ zeros 2 ++ leBytes 4 v.seq ++ leBytes 8 (twos 64 v.obs) ++
    leBytes 8 (twos 64 v.ref) ++ leBytes 4 v.causes ++ zeros 4

/-- The entry with the PHASE of entry number `i` of a ring of `size` entries (R296). -/
def withPhase (e : List Byte) (i size : Nat) : List Byte :=
  if i / size % 2 = 1 then e.take 3 ++ leBytes 1 (leAt e 3 1 % 128 + 128) ++ e.drop 4 else e

/-! ### The host notice ring (R296) -/

/-- Entries of the ring. -/
def Agg.nqSize (a : Agg) : Nat := 2 ^ a.reg DET_NQ_CFG_SIZE_LOG2

/-- Entries written and not read. -/
def Agg.nqUnread (a : Agg) : Nat := (a.reg DET_NQ_TAIL_INDEX + 2 ^ 32 - a.reg DET_NQ_HEAD_INDEX) % 2 ^ 32

/-- The ring takes an entry now. -/
def Agg.nqRoom (a : Agg) : Bool := a.bit DET_NQ_CFG_EN && decide (a.nqUnread < a.nqSize)

/-- A delivery changed. -/
def Agg.onDeliv (a : Agg) (op : Nat) (f : Delivery → Delivery) : Agg :=
  a.onDet fun d => { d with deliv := d.deliv.map fun x => if x.op = op then f x else x }

/-- A delivery under way. -/
def Agg.deliv (a : Agg) (op : Nat) : Option Delivery := a.det.deliv.find? fun d => d.op = op

/-- Write one entry at the tail, and read it back: the write counts as made (log entry 70). -/
def Agg.nqWrite (a : Agg) (e : List Byte) : Agg :=
  let i := a.reg DET_NQ_TAIL_INDEX
  let n := a.nqSize
  let at_ := a.reg DET_NQ_BASE_ADDR * 4096 + 64 * (i % n)
  ((a.send (.hostNotice at_ (withPhase e i n))).send (.hostFlush at_)).put DET_NQ_TAIL_INDEX ((i + 1) % 2 ^ 32)

/-! ### Hurdles (R299, R300) -/

/-- Hurdle state of a die slot: 0 NONE, 1 REQUESTED, 2 ACCEPTED, 3 DECLINED, 4 UNANSWERED. -/
def Agg.hurdleState (a : Agg) (s : Nat) : Nat := a.reg (DET_DIE_STATUS_HURDLE s)

/-- A Hurdle ends in NONE. -/
def Agg.hurdleNone (a : Agg) (s : Nat) : Agg :=
  (a.onSlot s fun d => { d with hurdle := none }).put (DET_DIE_STATUS_HURDLE s) 0

/-- A Hurdle that has been answered is delivered once every recipient has acknowledged or gone unanswered (R298). -/
def Agg.delivSettled (a : Agg) (op : Nat) : Agg :=
  a.onDet fun d => { d with deliv := d.deliv.filter fun x =>
    !(x.op == op && x.answered && x.toAggs.all fun t => t.acked || t.gaveUp) }

/-- A REQUESTED Hurdle is answered (R300): the state it enters and the OUTCOME of its DONE. -/
def Agg.hurdleAnswer (a : Agg) (s state outcome : Nat) : Agg :=
  match (a.dieDet s).hurdle with
  | some h =>
    if a.hurdleState s = 1 then
      (((a.put (DET_DIE_STATUS_HURDLE s) state).jrnEnd h.op 0x11 outcome).onDeliv h.op fun d =>
        { d with answered := true }).delivSettled h.op
    else a
  | none => a

/-- The window of a paddock in which now lies (R299). -/
def Agg.hurdleWindow (a : Agg) : Nat := a.p.nowSec / max 1 (a.cfg DET_HURDLE_CFG_WIN_S)

/-- Hurdles of a paddock begun in the present window. -/
def Agg.hurdlesBegun (a : Agg) (pad : Nat) : Nat :=
  let w := a.det.window.get pad
  if w.1 = a.hurdleWindow then w.2 else 0

/-- The conditions of R299 but for the window's. -/
def Agg.hurdleWanted (a : Agg) (s : Nat) (v : HeldVerdict) : Bool :=
  bitAt (a.cfg DET_HURDLE_CFG_KINDS) v.kind && decide (v.kind < 16) && decide (a.cfg DET_HURDLE_CFG_SEV ≤ v.sev) &&
    !v.cleared && (v.prime == 0 || !bitAt (a.cfg DET_HURDLE_CFG_EXCL_CAUSE) (v.prime - 1)) &&
    (a.dieDet s).hurdle.isNone && a.hurdleState s == 0

/-- ARG of a Hurdle's BEGIN (R301). -/
def hurdleArg (v : HeldVerdict) : Nat := v.ident % 2 ^ 64 + v.kind % 256 * 2 ^ 64 + v.paddock % 256 * 2 ^ 72

/-- Enabled subscribers whose range holds a paddock; for a Hurdle those with HURDLE set (R298). -/
def Agg.subscribers (a : Agg) (pad : Nat) (hurdle : Bool) : List NoticeTo :=
  (List.range 8).filterMap fun i =>
    if a.cfgOn (DET_SUB_EN i) ∧ a.cfg (DET_SUB_PAD_LO i) ≤ pad ∧ pad ≤ a.cfg (DET_SUB_PAD_HI i) ∧
        (!hurdle || a.cfgOn (DET_SUB_HURDLE i)) then
      some { agg := a.cfg (DET_SUB_AGG i), rtoUs := a.cfg (DET_SUB_NOTICE_RTO_US i) }
    else none

/-- The BEGIN of an operation, or an empty one. -/
def Agg.jrnOfOp (a : Agg) (op : Nat) : JrnRec := (a.jrnFind op).getD {}

/-- A Hurdle whose BEGIN is written counts in its window, and its delivery waits for the BEGIN to be mirrored (R299). -/
def Agg.hurdleOpen (a : Agg) (s die op : Nat) (v : HeldVerdict) : Agg :=
  let n := a.hurdlesBegun v.paddock
  let a := a.onDet fun d => { d with window := d.window.set v.paddock (a.hurdleWindow, n + 1) }
  let a := a.onSlot s fun d => { d with
    hurdle := some { op := op, ident := v.ident, kind := v.kind, paddock := v.paddock } }
  a.onDet fun d => { d with deliv := d.deliv ++ [{
    op := op, kind := 2, slot := s, die := die, entry := verdictEntry 2 die v (a.jrnOfOp op)
    toAggs := a.subscribers v.paddock true, verdict := some v }] }

/-- Request a Hurdle after a delivery DONE where R299 allows it: BEGIN is written, or waits until the journal takes it. -/
def Agg.hurdleRequest (a : Agg) (s die : Nat) (v : HeldVerdict) : Agg :=
  if a.hurdleWanted s v then
    if a.hurdlesBegun v.paddock < a.cfg DET_HURDLE_CFG_MAX then
      if a.jrnReady then
        let b := a.jrnBegin 2 (some die) (hurdleArg v)
        b.1.hurdleOpen s die b.2 v
      else a.onDet fun d => { d with hurdleWait := d.hurdleWait ++ [(s, die, v)] }
    else a.event DET_EVENT_HURDLE_THROTTLED
  else a

/-- The Hurdles of a die slot that waited for the journal are requested again, the window as it is now (R235, R299). -/
def Agg.hurdlesRetry (a : Agg) (s : Nat) : Agg :=
  let mine := a.det.hurdleWait.filter fun e => e.1 = s
  if mine = [] ∨ ¬ a.jrnReady then a
  else
    mine.foldl (fun a e => a.hurdleRequest e.1 e.2.1 e.2.2)
      (a.onDet fun d => { d with hurdleWait := d.hurdleWait.filter fun e => e.1 ≠ s })

/-! ### Deliveries (R295, R298, R375, R383) -/

/-- The tag of a packet that a delivery sends to its recipient number `i`. -/
def delivTag (op i : Nat) : Nat := op * 65536 + i + 1

/-- Send a delivery to one recipient: a new packet (R397). -/
def Agg.sendTo (a : Agg) (op i : Nat) : Agg :=
  match a.deliv op with
  | none => a
  | some d =>
    match d.toAggs[i]? with
    | none => a
    | some t =>
      let a := a.offerPacket {
        rclass := 3, msgType := if t.record then 3 else 1, dst := t.agg, paddock := leAt d.entry 13 1
        payload := if t.record then d.body else d.entry, tag := delivTag op i }
      a.onDeliv op fun d => { d with toAggs := d.toAggs.modify i fun t => { t with sentNs := a.p.nowNs } }

/-- The recipients whose answer a delivery needs: of a Fleece export the one that takes the record (R383). -/
def Delivery.needs (d : Delivery) : List NoticeTo :=
  if d.kind = 6 then d.toAggs.filter (·.record) else d.toAggs

/-- A delivery is complete: the host entry is written (or the ring of a verdict is disabled) and every recipient has
acknowledged or has gone unanswered. -/
def Delivery.complete (d : Delivery) : Bool :=
  (d.host == 2 || d.host == 3) && d.kind != 2 && d.needs.all fun t => t.acked || t.gaveUp

/-- OUTCOME of a complete delivery (R295, R383). -/
def Delivery.outcome (d : Delivery) : Nat :=
  if d.host = 3 then 2 else if d.needs.any (·.gaveUp) then 1 else 0

/-- The places of the verdicts that are not delivered yet (R293). -/
def Agg.verdictsOwed (a : Agg) : List (Nat × Nat) :=
  let held := a.det.die.flatMap fun e => e.2.held
  let out := a.det.deliv.filterMap fun d => if d.kind = 1 then d.verdict else none
  ((held ++ out).filter fun v => v.ntype = 1 && !v.copied).map fun v => (v.ring, v.seq)

/-- DONE of a complete delivery, and what follows: TAINT_PARTIAL, the delivery cursor of the verdict ring, a Hurdle request
(R293, R299, R383). -/
def Agg.delivDone (a : Agg) (op : Nat) : Agg :=
  match a.deliv op with
  | none => a
  | some d =>
    if d.answered then a.delivSettled op
    else if d.complete then
      let a := (a.jrnEnd op 0x11 d.outcome).onDet fun x => { x with deliv := x.deliv.filter fun y => y.op ≠ op }
      let a := if d.kind = 3 ∧ d.outcome = 1 then a.event SE_EVENT_TAINT_PARTIAL (some d.die) else a
      match d.verdict with
      | some v =>
        if d.kind = 1 then
          let a := if v.ntype = 1 ∧ ¬ v.copied then a.ringConsume v.ring 2 a.verdictsOwed else a
          a.hurdleRequest d.slot d.die v
        else a
      | none => a
    else a

/-- One waiting entry is written: a Hurdle becomes REQUESTED at its own (R300), and a received notice is acknowledged
(R375). -/
def Agg.nqTake (a : Agg) : NqItem → Agg
  | .received from_ e => from_.foldl (fun a k => a.noticeTaken k.1 k.2) (a.nqWrite e)
  | .own op =>
    match a.deliv op with
    | none => a
    | some d =>
      let a := (a.nqWrite d.entry).onDeliv op fun d => { d with host := 2 }
      let a := if d.kind = 2 then
          (a.onSlot d.slot fun x => { x with hurdle := x.hurdle.map fun h => { h with askNs := some a.p.nowNs } }).put
            (DET_DIE_STATUS_HURDLE d.slot) 1
        else a
      a.delivDone op

/-- Waiting entries are written while the ring has room (R296); `n` bounds their number. -/
def Agg.nqDrain (a : Agg) : Nat → Agg
  | 0 => a
  | n + 1 =>
    match a.det.wait with
    | [] => a
    | x :: t => if a.nqRoom then ((a.onDet fun d => { d with wait := t }).nqTake x).nqDrain n else a

/-- Offer an entry to the ring; one that finds the ring full waits, and NQ_FULL is set (R296). -/
def Agg.nqOffer (a : Agg) (x : NqItem) : Agg :=
  let full := a.bit DET_NQ_CFG_EN && !a.nqRoom
  let a := a.onDet fun d => { d with wait := d.wait ++ [x] }
  let a := if full then a.event DET_EVENT_NQ_FULL else a
  (a.nqDrain (a.det.wait.length + 1)).detShow

/-- Begin a delivery outside: its entry is offered to the host ring and sent to its recipients. A verdict with the host
ring disabled is not written (R295, OUTCOME 2). -/
def Agg.delivStart (a : Agg) (op : Nat) : Agg :=
  match a.deliv op with
  | none => a
  | some d =>
    let a := (List.range d.toAggs.length).foldl (fun a i => a.sendTo op i) a
    if d.kind = 1 ∧ a.reg DET_NQ_CFG_EN = 0 then
      (a.onDeliv op fun d => { d with host := 3 }).delivDone op
    else (a.onDeliv op fun d => { d with host := 1 }).nqOffer (.own op)

/-- A recipient has acknowledged the packet of a tag (R397). -/
def Agg.delivAck (a : Agg) (tag : Nat) : Agg :=
  if tag = 0 then a
  else
    let op := (tag - 1) / 65536
    let i := (tag - 1) % 65536
    (a.onDeliv op fun d => { d with toAggs := d.toAggs.modify i fun t => { t with acked := true } }).delivDone op

/-! ### Commands -/

/-- NOTICE_INTERRUPT (R296): at most once every COAL_US while entries are unread. -/
def execNoticeInterrupt (s : State) : Host.Outcome State Fault Refusal :=
  .next (s.onAgg fun a =>
    if a.bit DET_NQ_CFG_EN ∧ a.nqUnread ≠ 0 then
      let at_ := a.det.irqNs.elim 0 fun n => n + a.reg DET_NQ_CFG_COAL_US * 1000
      let a : Agg := { a with p := a.p.until at_ }
      (a.onDet fun d => { d with irqNs := some a.p.nowNs }).send (.msix (a.reg DET_NQ_CFG_VECTOR))
    else a)

/-- A value lies beyond TAIL, compared mod 2^32 as R24 compares. -/
def Agg.beyondTail (a : Agg) (v : Nat) : Bool :=
  let d := (v + 2 ^ 32 - a.reg DET_NQ_TAIL_INDEX) % 2 ^ 32
  decide (1 ≤ d) && decide (d < 2 ^ 31)

/-- A write of `DET_NQ_HEAD` (R296, R304). -/
def Agg.nqHead (a : Agg) (v : Nat) : Agg :=
  if a.beyondTail (v % 2 ^ 32) then a
  else
    let a := a.put DET_NQ_HEAD_INDEX (v % 2 ^ 32)
    (a.nqDrain (a.det.wait.length + 1)).detShow

/-- NQ_HEAD_WRITE (R296). -/
def execNqHeadWrite (value : Word) (s : State) : Host.Outcome State Fault Refusal :=
  .next (s.onWrite fun a => a.nqHead value.toNat)

/-- The recipient number `i` of a delivery has not acknowledged within its resend time (R298): resent, up to 8 times;
then it goes unanswered, and `gone` is set. -/
def Agg.resend (a : Agg) (op i : Nat) (gone : Field) : Agg :=
  match a.deliv op with
  | none => a
  | some d =>
    match d.toAggs[i]? with
    | none => a
    | some t =>
      if t.acked ∨ t.gaveUp ∨ d.host = 0 then a
      else
        let a : Agg := { a with p := a.p.until (t.sentNs + t.rtoUs * 1000) }
        if t.resends < 8 then
          (a.onDeliv op fun d => { d with toAggs := d.toAggs.modify i fun t => { t with resends := t.resends + 1 } }).sendTo
            op i
        else
          ((a.onDeliv op fun d => { d with toAggs := d.toAggs.modify i fun t => { t with gaveUp := true } }).event
            gone).delivDone op

/-- NOTICE_RESEND (R298, R375). -/
def execNoticeResend (op : Nat) (sub : Nat) (s : State) : Host.Outcome State Fault Refusal :=
  .next (s.onAgg fun a => a.resend op sub DET_EVENT_SUB_UNACKED)

/-- HURDLE_ACCEPT (R300). -/
def execHurdleAccept (slot : Fin 16) (s : State) : Host.Outcome State Fault Refusal :=
  .next (s.onWrite fun a => a.hurdleAnswer slot 2 0)

/-- HURDLE_DECLINE (R300). -/
def execHurdleDecline (slot : Fin 16) (s : State) : Host.Outcome State Fault Refusal :=
  .next (s.onWrite fun a => a.hurdleAnswer slot 3 1)

/-- LIFT of `DET_HURDLE_CTRL` (R300): an answered Hurdle returns to NONE. -/
def Agg.hurdleLift (a : Agg) (s : Nat) : Agg := if 2 ≤ a.hurdleState s then a.hurdleNone s else a

/-- HURDLE_LIFT (R300). -/
def execHurdleLift (slot : Fin 16) (s : State) : Host.Outcome State Fault Refusal :=
  .next (s.onWrite fun a => a.hurdleLift slot)

/-- HURDLE_UNANSWERED (R300): ANS_MS passes. -/
def execHurdleUnanswered (slot : Fin 16) (s : State) : Host.Outcome State Fault Refusal :=
  .next (s.onAgg fun a =>
    match ((a.dieDet slot).hurdle).bind (·.askNs) with
    | some n =>
      if a.hurdleState slot = 1 then
        let a : Agg := { a with p := a.p.until (n + a.cfg DET_HURDLE_CFG_ANS_MS * 1000000) }
        (a.hurdleAnswer slot 4 2).event DET_EVENT_HURDLE_UNANSWERED (a.dieOfSlot slot)
      else a
    | none => a)

end Sys2Proof.Machine
end

