-- ==== Sys2Proof/Machine/Drover.lean ====
section
/-! DEFINITION. Rule programs (08, R276 to R283): the image, the operations of a run one command each, the Bellwether and
neighbour reads. An operation takes effect only where it is the next one of the run's program. -/

namespace Sys2Proof.Machine

/-! ### The program image (R276) -/

/-- Number of parameters. -/
def progNParam (l : List Byte) : Nat := leAt l 4 2
/-- Number of operations. -/
def progNOps (l : List Byte) : Nat := leAt l 6 2

/-- Parameters, as signed numbers. -/
def progParams (l : List Byte) : List Int := (List.range (progNParam l)).map fun i => signed 64 (leAt l (32 + 8 * i) 8)

/-- Operations, as words. -/
def progOps (l : List Byte) : List Nat :=
  (List.range (progNOps l)).map fun i => leAt l (32 + 8 * progNParam l + 8 * i) 8

/-- An operation as its word (R277). -/
def encodeOp (opc : Nat) (o : Op) : Nat :=
  opc + o.dst.val * 2 ^ 8 + o.src1.val * 2 ^ 13 + o.src2.val * 2 ^ 18 + o.mode.val * 2 ^ 23 + twos 32 o.imm * 2 ^ 32

/-! ### The run -/

/-- A register as the section in progress sees it. -/
def Run.get (r : Run) (i : Nat) : Int := match r.core with
  | none => r.v.get i
  | some k => r.lane.get (32 * (k % 32) + i)

/-- A register written. -/
def Run.set (r : Run) (i : Nat) (x : Int) : Run := match r.core with
  | none => { r with v := r.v.set i x }
  | some k => { r with lane := r.lane.set (32 * (k % 32) + i) x }

/-- A state word: of the die, or in a CORE section of its host core (R277). -/
def Run.word (r : Run) (i : Nat) : Int := match r.core with
  | none => r.words.get i
  | some k => r.cwords.get (4 * k + i)

/-- A state word written. -/
def Run.setWord (r : Run) (i : Nat) (x : Int) : Run := match r.core with
  | none => { r with words := r.words.set i x }
  | some k => { r with cwords := r.cwords.set (4 * k + i) x }

/-- Where the section in progress ends (R276). -/
def Run.bound (r : Run) : Nat :=
  if r.core.isSome then r.roundEntry else if r.round.isSome then r.ops.length else r.coreEntry

/-- The place of the next operation. -/
def Run.place (r : Run) : Nat := if r.core.isSome then r.cpc else r.pc

/-- The operation that the run executes next is this one. -/
def Run.at_ (r : Run) (opc : Nat) (o : Op) : Bool :=
  !r.ended && r.hedge.isNone && decide (r.place < r.bound) && r.ops[r.place]? == some (encodeOp opc o)

/-- Cycles of an operation, on the run or on its lane (R277, R279). -/
def Run.charge (r : Run) (c : Nat) : Run := match r.core with
  | none => { r with cycles := r.cycles + c }
  | some k => { r with laneCyc := r.laneCyc.upd (k % 32) (· + c) }

/-- The lane on which the work of lane `j` is done: the next one in service (R429). -/
def laneFor (missing : List Nat) : Nat → Nat → Nat
  | 0, j => j
  | n + 1, j => if missing.contains j then laneFor missing n ((j + 1) % 32) else j

/-- The cost of the CORE section: that of the longest lane (R279, R429). -/
def Run.longest (r : Run) (missing : List Nat) : Nat :=
  let cost (j : Nat) : Nat := (((List.range 32).filter fun i => laneFor missing 32 i = j).map r.laneCyc.get).sum
  ((List.range 32).map cost).foldl max 0

/-- The end of the CORE section for one host core: the next core, or back to the TICK section after EACHCORE. -/
def Run.nextCore (r : Run) (cores : Nat) (missing : List Nat) : Run :=
  match r.core with
  | none => r
  | some k =>
    if k + 1 < cores then { r with core := some (k + 1), cpc := r.coreEntry }
    else { r with core := none, pc := r.pc + 1, cycles := r.cycles + r.longest missing, laneCyc := [], lane := [] }

/-- A TICK or ROUND section whose last operation has passed ends. -/
def Run.settle (r : Run) : Run := if r.core.isNone ∧ r.bound ≤ r.pc then { r with ended := true } else r

/-- On to the operation `n` further; a section whose last operation has passed ends. -/
def Run.step (r : Run) (n cores : Nat) (missing : List Nat) : Run :=
  match r.core with
  | none => ({ r with pc := r.pc + n } : Run).settle
  | some _ =>
    let r : Run := { r with cpc := r.cpc + n }
    if r.bound ≤ r.cpc then (r.nextCore cores missing).settle else r

/-- The home cluster in use of a die slot (R269, R430). -/
def Agg.homeOf (a : Agg) (s : Nat) : Nat := (a.dieDet s).home.getD (a.cfg (DET_DIE_CFG_HOME s))

/-- Lanes of a cluster without a core: those of the retired cores but for the one that the spare has taken (R429). -/
def Agg.lanesMissing (a : Agg) (c : Nat) : List Nat :=
  (a.det.lost.get c).filter fun k => decide (k < 32) && a.det.spare.get c != some k

/-- Host cores present in the sample of a run's tick. -/
def Agg.runCores (a : Agg) (s : Nat) (r : Run) : Nat := (((a.dieDet s).at_ r.tick).elim 0 (·.clusters)) * 64

/-- The run of a die slot is within its budget (R271). -/
def Agg.inBudget (a : Agg) (s : Nat) (r : Run) : Bool :=
  decide (r.cycles + r.longest r.missing < a.cfg DET_RUN_CFG_RUN_BUDGET_CYC)

/-- The run of a die slot changed. -/
def Agg.onRun (a : Agg) (s : Nat) (f : Run → Run) : Agg := a.onSlot s fun d => { d with run := d.run.map f }

/-- The run in which an operation executes now, if any; none does after GASP (R454). -/
def Agg.opReady (a : Agg) (s opc : Nat) (o : Op) : Option Run :=
  (a.dieDet s).run.filter fun r => r.at_ opc o && a.inBudget s r && !a.gasp

/-- An operation executes: its effect on the run, its cycles, and on to the next one. -/
def Agg.op (a : Agg) (s opc : Nat) (o : Op) (cost : Nat) (f : Run → Run) : Agg :=
  match a.opReady s opc o with
  | none => a
  | some r => a.onRun s fun _ => ((f r).charge cost).step 1 (a.runCores s r) r.missing

/-- An operation that gives DST a value; `none` is a value that the spec does not state, and DST takes a free value. -/
def Agg.opTo (a : Agg) (s opc : Nat) (o : Op) (cost : Nat) (val : Run → Option Int) (flags : Run → Run := fun r => r) : Agg :=
  match a.opReady s opc o with
  | none => a
  | some r =>
    match val r with
    | some x => a.op s opc o cost fun r => (flags r).set o.dst x
    | none =>
      let d := a.p.draw
      ({ a with p := d.2 } : Agg).op s opc o cost fun r => (flags r).set o.dst (signed 64 d.1)

/-- An index that an operation names in IMM. -/
def opIndex (o : Op) : Nat := o.imm.toNat

/-! ### The Bellwether and the neighbours (R281, R282) -/

/-- The result record that a TICK run, or the ROUND run of a round, reads as it starts. -/
def Agg.bellRec (a : Agg) : Option Nat → Option BellRec
  | none => a.tly.results.head?
  | some k => a.tly.results.find? fun b => b.round = k

/-- The block of a key in the record; `none` for one that is MISSING or lies outside the result. -/
def BellRec.block (b : BellRec) (key : Nat) : Option Block := b.blocks.find? fun x => x.key = key && !x.missing

/-- The block that a run reads for a key. -/
def Run.bellBlock (r : Run) (key : Int) : Option Block :=
  if key < 0 then none else r.result.bind fun b => b.block key.toNat

/-- The flags of a Bellwether read, and the round it used (R281, R292). -/
def Run.bellFlags (key : Int) (r : Run) : Run :=
  let fl := match r.bellBlock key with
    | none => 64
    | some b => (if b.exact then 0 else 16) ||| (if b.incomplete then 32 else 0)
  { r with flags := r.flags ||| fl, bell := match r.result with
    | some b => some b.round
    | none => r.bell }

/-- The counts of a block by place: ZERO, UNDER, the leaves, OVER. -/
def blockPlaces (b : Block) : List Nat := b.zeroN :: b.underN :: (List.range 128).map b.leaf ++ [b.overN]

/-- The number of a place. -/
def placeNum : BucketPlace → Nat
  | .zero => 0
  | .under => 1
  | .leaf i => 2 + i
  | .over_ => 130

/-- The rank of a value; not stated for an empty block and for a negative value. -/
def rankOf (v : Int) (b : Block) : Option Int :=
  if b.n = 0 ∨ v < 0 then none
  else
    let c := blockPlaces b
    let p := placeNum (bucketOf v.toNat b.oct)
    some ((65536 * (2 * (c.take p).sum + c.getD p 0) / (2 * b.n) : Nat) : Int)

/-- The first place whose running count reaches a target. -/
def firstPlace (target : Nat) : List Nat → Nat → Nat → Option Nat
  | [], _, _ => none
  | c :: t, sum, i => if target ≤ sum + c then some i else firstPlace target t (sum + c) (i + 1)

/-- The lowest value of a place. -/
def lowestOf (p oct : Nat) : Nat :=
  if p ≤ 1 then 0 else if p = 130 then 2 ^ (oct + 16) else leafLow (p - 2) oct

/-- The value at a quantile; not stated where no place reaches the target. -/
def quantOf (q : Int) (b : Block) : Option Int :=
  let t := max 1 (-((-(q * b.n)) / 65536))
  (firstPlace t.toNat (blockPlaces b) 0 0).map fun p => ((lowestOf p b.oct : Nat) : Int)

/-- The integer square root, bit by bit from bit `k − 1` down. -/
def isqrtBits (n : Nat) : Nat → Nat → Nat
  | 0, x => x
  | k + 1, x => isqrtBits n k (if (x + 2 ^ k) * (x + 2 ^ k) ≤ n then x + 2 ^ k else x)

/-- A moment by MODE; not stated for other modes and for a mean of no observations. -/
def momentOf (mode : Nat) (b : Block) : Option Int :=
  match mode with
  | 0 => if b.n = 0 then none else some ((b.sum / b.n : Nat) : Int)
  | 1 =>
    if b.sqSat then some (-1)
    else if b.n = 0 then none
    else some ((isqrtBits ((b.n * b.sumSq - b.sum * b.sum) / (b.n * b.n)) 64 0 : Nat) : Int)
  | 2 => some ((b.n : Nat) : Int)
  | 3 => some ((b.maxKey / 2 ^ 32 : Nat) : Int)
  | 4 => some ((b.minKey / 2 ^ 32 : Nat) : Int)
  | _ => none

/-- The paddock of a die slot: that of its sample stream entry (R302). -/
def Agg.paddockOf (a : Agg) (s : Nat) : Nat :=
  match a.dieOfSlot s with
  | none => 0
  | some die =>
    let cls := a.cfg ING_CLASS_MAP_SAMPLE
    match a.ing.table.findSome? (fun e => match e.2 with
      | some t => if t.fleetDie = die ∧ t.cls = cls then some t.paddock else none
      | none => none) with
    | some p => p
    | none => (a.stImage die cls).elim 0 (·.paddock)

/-- The round of a tick's sample: the current one of a run (R277, R282). -/
def Agg.tickRound (a : Agg) (s tick : Nat) : Nat := ((a.dieDet s).at_ tick).elim 0 (·.round)

/-- The latest committed sample of each other die of the tray in the same paddock, with its field-test entries (R282,
R302). -/
def Agg.nearOf (a : Agg) (s : Nat) : List (TickFeat × Nat) :=
  (List.range 16).filterMap fun o =>
    if o = s ∨ (a.dieOfSlot o).isNone ∨ a.paddockOf o ≠ a.paddockOf s then none
    else (a.dieDet o).hist.getLast?.map fun t => (t, (a.dieDet o).ftest.get t.tick)

/-- A die feature of the other dies. -/
def Run.nearFeature (r : Run) (n : Nat) : List Nat := r.near.filterMap fun e => e.1.feature e.2 n

/-- The values that NBR takes (R282). -/
def Run.nbrValues (r : Run) (s key : Nat) : List Nat :=
  let posted := r.posted.filter fun e => e.1 = key
  if posted.isEmpty then r.nearFeature key else (posted.filter fun e => e.2.1 ≠ s).map (·.2.2)

/-- The lower median, of a list that is not empty. -/
def lowerMedian (l : List Nat) : Nat := (l.mergeSort (· ≤ ·)).getD ((l.length - 1) / 2) 0

/-- A neighbour statistic by MODE; −1 without a value, not stated for other modes. -/
def nbrStat (mode : Nat) (l : List Nat) : Option Int :=
  if 3 < mode then none
  else if l.isEmpty then some (-1)
  else match mode with
    | 0 => some ((lowerMedian l : Nat) : Int)
    | 1 => some ((l.foldl min (l.headD 0) : Nat) : Int)
    | 2 => some ((l.foldl max 0 : Nat) : Int)
    | _ => some ((l.length : Nat) : Int)

/-- A feature as the section in progress sees it (R275, R277); not stated for a number that the table does not give, and for
a core feature outside the CORE section. -/
def Agg.featureOf (a : Agg) (s : Nat) (r : Run) (n : Int) : Option Int :=
  let d := a.dieDet s
  if n < 0 then none
  else match d.at_ r.tick with
    | none => none
    | some t =>
      let k := n.toNat
      if k < 12 then r.core.map fun c => ((t.coreFeature c k : Nat) : Int)
      else match r.round with
        | some rd =>
          if k = 46 then some ((r.ftest : Nat) : Int)
          else if 32 ≤ k ∧ k ≤ 49 then some ((d.roundFeat rd k : Nat) : Int) else (t.feature 0 k).map Int.ofNat
        | none => (t.feature r.ftest k).map Int.ofNat

/-! ### The operations (R277) -/

/-- OP_END. -/
def execOpEnd (slot : Fin 16) (o : Op) (s : State) : Host.Outcome State Fault Refusal :=
  .next (s.onAgg fun a =>
    match a.opReady slot 0x00 o with
    | none => a
    | some r =>
      let r := r.charge 1
      a.onRun slot fun _ =>
        if r.core.isSome then (r.nextCore (a.runCores slot r) r.missing).settle
        else { r with ended := true })

/-- OP_LDI. -/
def execOpLdi (slot : Fin 16) (o : Op) (s : State) : Host.Outcome State Fault Refusal :=
  .next (s.onAgg fun a => a.opTo slot 0x01 o 1 fun _ => some o.imm)

/-- OP_LDP; a parameter that the program does not have is a value not stated. -/
def execOpLdp (slot : Fin 16) (o : Op) (s : State) : Host.Outcome State Fault Refusal :=
  .next (s.onAgg fun a => a.opTo slot 0x02 o 1 fun r => if o.imm < 0 then none else r.params[(opIndex o)]?)

/-- OP_FEAT. -/
def execOpFeat (slot : Fin 16) (o : Op) (s : State) : Host.Outcome State Fault Refusal :=
  .next (s.onAgg fun a => a.opTo slot 0x03 o 2 fun r => a.featureOf slot r o.imm)

/-- OP_ADD. -/
def execOpAdd (slot : Fin 16) (o : Op) (s : State) : Host.Outcome State Fault Refusal :=
  .next (s.onAgg fun a => a.opTo slot 0x04 o 1 fun r => some (sat64 (r.get o.src1 + r.get o.src2)))

/-- OP_SUB. -/
def execOpSub (slot : Fin 16) (o : Op) (s : State) : Host.Outcome State Fault Refusal :=
  .next (s.onAgg fun a => a.opTo slot 0x05 o 1 fun r => some (sat64 (r.get o.src1 - r.get o.src2)))

/-- OP_MUL. -/
def execOpMul (slot : Fin 16) (o : Op) (s : State) : Host.Outcome State Fault Refusal :=
  .next (s.onAgg fun a => a.opTo slot 0x06 o 2 fun r => some (sat64 (r.get o.src1 * r.get o.src2)))

/-- OP_DIV: the floor of the quotient, 0 for a divisor of 0. -/
def execOpDiv (slot : Fin 16) (o : Op) (s : State) : Host.Outcome State Fault Refusal :=
  .next (s.onAgg fun a => a.opTo slot 0x07 o 8 fun r =>
    some (if r.get o.src2 = 0 then 0 else sat64 (Int.fdiv (r.get o.src1) (r.get o.src2))))

/-- An arithmetic shift right by an amount mod 64. -/
def asr64 (x n : Int) : Int := x / 2 ^ (n % 64).toNat

/-- OP_SHR. -/
def execOpShr (slot : Fin 16) (o : Op) (s : State) : Host.Outcome State Fault Refusal :=
  .next (s.onAgg fun a => a.opTo slot 0x08 o 1 fun r => some (asr64 (r.get o.src1) (r.get o.src2)))

/-- OP_MIN. -/
def execOpMin (slot : Fin 16) (o : Op) (s : State) : Host.Outcome State Fault Refusal :=
  .next (s.onAgg fun a => a.opTo slot 0x09 o 1 fun r => some (min (r.get o.src1) (r.get o.src2)))

/-- OP_MAX. -/
def execOpMax (slot : Fin 16) (o : Op) (s : State) : Host.Outcome State Fault Refusal :=
  .next (s.onAgg fun a => a.opTo slot 0x0A o 1 fun r => some (max (r.get o.src1) (r.get o.src2)))

/-- OP_ABS. -/
def execOpAbs (slot : Fin 16) (o : Op) (s : State) : Host.Outcome State Fault Refusal :=
  .next (s.onAgg fun a => a.opTo slot 0x0B o 1 fun r => some (sat64 (r.get o.src1).natAbs))

/-- OP_CLT. -/
def execOpClt (slot : Fin 16) (o : Op) (s : State) : Host.Outcome State Fault Refusal :=
  .next (s.onAgg fun a => a.opTo slot 0x0C o 1 fun r => some (if r.get o.src1 < r.get o.src2 then 1 else 0))

/-- OP_SEL. -/
def execOpSel (slot : Fin 16) (o : Op) (s : State) : Host.Outcome State Fault Refusal :=
  .next (s.onAgg fun a => a.opTo slot 0x0D o 1 fun r =>
    some (if r.get o.dst ≠ 0 then r.get o.src1 else r.get o.src2))

/-- OP_SKIPZ: when SRC1 = 0 the next IMM operations are skipped. -/
def execOpSkipz (slot : Fin 16) (o : Op) (s : State) : Host.Outcome State Fault Refusal :=
  .next (s.onAgg fun a => a.op slot 0x0E o 1 fun r =>
    if r.get o.src1 = 0 then
      match r.core with
      | none => { r with pc := r.pc + (opIndex o) }
      | some _ => { r with cpc := r.cpc + (opIndex o) }
    else r)

/-- OP_LDS. -/
def execOpLds (slot : Fin 16) (o : Op) (s : State) : Host.Outcome State Fault Refusal :=
  .next (s.onAgg fun a => a.opTo slot 0x10 o 2 fun r => some (r.word (opIndex o)))

/-- OP_STS. -/
def execOpSts (slot : Fin 16) (o : Op) (s : State) : Host.Outcome State Fault Refusal :=
  .next (s.onAgg fun a => a.op slot 0x11 o 2 fun r => r.setWord (opIndex o) (r.get o.src1))

/-- OP_EWMA. -/
def execOpEwma (slot : Fin 16) (o : Op) (s : State) : Host.Outcome State Fault Refusal :=
  .next (s.onAgg fun a => a.op slot 0x12 o 3 fun r =>
    let w := r.word (opIndex o)
    let x := sat64 (w + asr64 (sat64 (r.get o.src1 - w)) (r.get o.src2))
    (r.setWord (opIndex o) x).set o.dst x)

/-- OP_CUSUM. -/
def execOpCusum (slot : Fin 16) (o : Op) (s : State) : Host.Outcome State Fault Refusal :=
  .next (s.onAgg fun a => a.op slot 0x13 o 3 fun r =>
    let x := max 0 (sat64 (r.word (opIndex o) + r.get o.src1 - r.get o.src2))
    (r.setWord (opIndex o) x).set o.dst x)

/-- OP_ACC (R277, R279); another MODE leaves a free value in the accumulator. -/
def execOpAcc (slot : Fin 16) (o : Op) (s : State) : Host.Outcome State Fault Refusal :=
  .next (s.onAgg fun a =>
    match a.opReady slot 0x18 o with
    | none => a
    | some _ =>
      let d := a.p.draw
      let b : Agg := if 2 < o.mode.val then { a with p := d.2 } else a
      b.op slot 0x18 o 1 fun r =>
        let x := r.acc.get (opIndex o)
        let y := r.get o.src1
        let z := match o.mode.val with
          | 0 => signed 64 (twos 64 (x + y))
          | 1 => min x y
          | 2 => max x y
          | _ => signed 64 d.1
        { r with acc := r.acc.set (opIndex o) z })

/-- OP_LDA. -/
def execOpLda (slot : Fin 16) (o : Op) (s : State) : Host.Outcome State Fault Refusal :=
  .next (s.onAgg fun a => a.opTo slot 0x19 o 1 fun r => some (r.acc.get (opIndex o)))

/-- The registers with which every lane starts: those of the TICK section (R279). -/
def laneStart (v : Tab Int) : Tab Int :=
  ((List.range 32).map fun l => v.map fun e => (32 * l + e.1, e.2)).flatten

/-- OP_EACHCORE (R279): the CORE section begins with host core 0. -/
def execOpEachcore (slot : Fin 16) (o : Op) (s : State) : Host.Outcome State Fault Refusal :=
  .next (s.onAgg fun a =>
    match a.opReady slot 0x1A o with
    | none => a
    | some r =>
      a.onRun slot fun _ =>
        if r.coreEntry < r.roundEntry ∧ 0 < a.runCores slot r then
          { r with core := some 0, cpc := r.coreEntry, lane := laneStart r.v, laneCyc := [] }
        else r.step 1 0 [])

/-- OP_BRANK (R281). -/
def execOpBrank (slot : Fin 16) (o : Op) (s : State) : Host.Outcome State Fault Refusal :=
  .next (s.onAgg fun a => a.opTo slot 0x20 o 16 (fun r => match r.bellBlock o.imm with
    | none => some (-1)
    | some b => rankOf (r.get o.src1) b) (Run.bellFlags o.imm))

/-- OP_BQUANT (R281). -/
def execOpBquant (slot : Fin 16) (o : Op) (s : State) : Host.Outcome State Fault Refusal :=
  .next (s.onAgg fun a => a.opTo slot 0x21 o 16 (fun r => match r.bellBlock o.imm with
    | none => some (-1)
    | some b => quantOf (r.get o.src1) b) (Run.bellFlags o.imm))

/-- OP_BMOM (R281). -/
def execOpBmom (slot : Fin 16) (o : Op) (s : State) : Host.Outcome State Fault Refusal :=
  .next (s.onAgg fun a => a.opTo slot 0x22 o 8 (fun r => match r.bellBlock o.imm with
    | none => some (-1)
    | some b => momentOf o.mode b) (Run.bellFlags o.imm))

/-- OP_NBR (R282). -/
def execOpNbr (slot : Fin 16) (o : Op) (s : State) : Host.Outcome State Fault Refusal :=
  .next (s.onAgg fun a => a.opTo slot 0x23 o 8 fun r => nbrStat o.mode (r.nbrValues slot (opIndex o)))

/-- OP_POST: posted when the run ends (R271). -/
def execOpPost (slot : Fin 16) (o : Op) (s : State) : Host.Outcome State Fault Refusal :=
  .next (s.onAgg fun a => a.op slot 0x24 o 2 fun r => { r with posts := r.posts ++ [((opIndex o), r.get o.src1)] })

/-- OP_PRED (R283). -/
def execOpPred (slot : Fin 16) (o : Op) (s : State) : Host.Outcome State Fault Refusal :=
  .next (s.onAgg fun a => a.op slot 0x28 o 4 fun r =>
    let out := if o.imm < 0 then none else (r.pred[(opIndex o)]?).join
    match out with
    | some x => r.set o.dst x
    | none => ({ r with flags := r.flags ||| 8 } : Run).set o.dst 0)

/-- OP_VEC: a slot number outside 0 to 255 names no slot. -/
def execOpVec (slot : Fin 16) (o : Op) (s : State) : Host.Outcome State Fault Refusal :=
  .next (s.onAgg fun a => a.op slot 0x29 o 1 fun r =>
    if 0 ≤ o.imm ∧ o.imm < 256 then { r with vec := r.vec.set (opIndex o) (twos 16 (r.get o.src1)) } else r)

/-- The copy of a model for a tick (R315, R316). -/
def Agg.hdgCopy (a : Agg) (m tick : Nat) : Option HdgCopy :=
  let s := a.hdg.slot.get m
  match a.reg (HDG_SLOT_STATUS_STATE m) with
  | 1 | 3 => s.cur
  | 2 => if s.actTick ≠ 0 ∧ s.actTick ≤ tick then s.next else s.cur
  | 4 => if tick < s.swapTick then s.kept else s.cur
  | _ => none

/-! ### Tree SRAM (R314) -/

/-- Bytes of a bank. -/
def bankBytes : Nat := 768 * 1024

/-- The copies that a slot holds. -/
def HdgSlot.copies (s : HdgSlot) : List HdgCopy := s.cur.toList ++ s.next.toList ++ s.kept.toList

/-- Ranges in use: those of copies, of copies that requests use, and those withheld. -/
def Agg.bankUsed (a : Agg) : List (Nat × Nat) :=
  ((List.range 16).map fun m => (a.hdg.slot.get m).copies.map fun c => (c.off, c.size)).flatten ++
    (a.hdg.queue.map fun q => (q.copy.off, q.copy.size)) ++ a.hdg.withheld

/-- Free bytes from an offset on, up to the next range in use. -/
def Agg.bankGap (a : Agg) (c : Nat) : Nat :=
  let used := a.bankUsed.filter fun u => u.2 ≠ 0
  if used.any fun u => decide (u.1 ≤ c) && decide (c < u.1 + u.2) then 0
  else ((used.filter fun u => decide (c ≤ u.1)).map (·.1)).foldl min bankBytes - c

/-- Offsets at which a free range begins. -/
def Agg.bankStarts (a : Agg) : List Nat := (0 :: a.bankUsed.map fun u => u.1 + u.2).filter fun c => 0 < a.bankGap c

/-- The lowest free range that fits. -/
def Agg.bankPlace (a : Agg) (size : Nat) : Option Nat :=
  (a.bankStarts.filter fun c => decide (size ≤ a.bankGap c)).foldl (fun m c => match m with
    | none => some c
    | some x => some (min x c)) none

/-- The largest free range, in 4 KiB. -/
def Agg.bankLargest (a : Agg) : Nat := (a.bankStarts.map a.bankGap).foldl max 0 / 4096

/-- QUEUE and FREE_4K of `HDG_STATUS` follow the queue, whose requests hold their copies (R314, R322). -/
def Agg.hdgQueue (a : Agg) (q : List HdgReq) : Agg :=
  let a := (({ a with hdg := { a.hdg with queue := q } } : Agg).put HDG_STATUS_QUEUE (min q.length 1056)).put
    HDG_STATUS_BUSY (if q = [] then 0 else 1)
  a.put HDG_STATUS_FREE_4K a.bankLargest

/-- OP_HEDGE (R283, R305, R312, R315): the request is queued with a copy of the slots, or answered 0 at once: without a copy
for its tick with HEDGE_MISSING, and with the engine disabled or its domain off (R322, R443). -/
def execOpHedge (slot : Fin 16) (o : Op) (s : State) : Host.Outcome State Fault Refusal :=
  .next (s.onAgg fun a =>
    match a.opReady slot 0x2A o with
    | none => a
    | some r =>
      match if 0 ≤ o.imm ∧ o.imm < 16 then a.hdgCopy (opIndex o) r.tick else none with
      | none =>
        let a := (a.count HDG_ERR_COUNT_MISSING).event HDG_EVENT_MISSING_REQ
        a.op slot 0x2A o 0 fun r => ({ r with flags := r.flags ||| 128 } : Run).set o.dst 0
      | some c =>
        if a.cfg HDG_CFG_EN = 0 ∨ ¬ a.domOn 0x0C then
          (a.count HDG_ERR_COUNT_MISSING).op slot 0x2A o 0 fun r => r.set o.dst 0
        else
          let a := a.onRun slot fun r => { r with hedge := some o.dst.val }
          a.hdgQueue (a.hdg.queue ++ [{
            die := slot, model := opIndex o, copy := c, vec := r.vec, issued := 6 * a.p.nowNs }]))

/-- OP_CAUSE. -/
def execOpCause (slot : Fin 16) (o : Op) (s : State) : Host.Outcome State Fault Refusal :=
  .next (s.onAgg fun a => a.op slot 0x30 o 1 fun r =>
    { r with cause := r.cause ||| (twos 32 o.imm / 256 * 256) })

/-- An EMIT of a rule is suppressed: within REPEAT_TICKS of the rule's last verdict for the die (R289). -/
def Agg.suppressed (a : Agg) (s : Nat) (r : Run) (rule : Nat) : Bool :=
  let n := a.cfg DET_CFG_REPEAT_TICKS
  (decide (0 < n) && r.emits.any fun e => e.rule == rule) ||
    match (a.dieDet s).rules.get rule with
    | some t => decide (r.tick < t + n)
    | none => false

/-- The verdict that an EMIT makes (R277, R290). -/
def Run.emitOf (r : Run) (o : Op) : Emit := {
  slot := (if r.round.isSome then 16 else 0) + r.emits.length, kind := o.mode
  sev := (clampInt 0 255 (r.get o.src2)).toNat, rule := twos 32 o.imm % 65536, prog := true
  count := (clampInt 1 64 (r.get 27)).toNat, obs := r.get 30, ref := r.get 31, spread := r.get 29
  rank := if r.get 28 < 0 then none else some (twos 32 (r.get 28)) }

/-- OP_EMIT (R277, R289, R293). -/
def execOpEmit (slot : Fin 16) (o : Op) (s : State) : Host.Outcome State Fault Refusal :=
  .next (s.onAgg fun a => a.op slot 0x31 o 4 fun r =>
    if r.get o.src1 = 0 ∨ a.suppressed slot r (twos 32 o.imm % 65536) then r
    else if r.emits.length < 15 then { r with emits := r.emits ++ [r.emitOf o] }
    else { r with cut := r.cut + 1 })

end Sys2Proof.Machine
end

