-- ==== Sys2Proof/Machine/Detect.lean ====
section
/-! DEFINITION. Detection (08): the order of runs (R269 to R272), the straggler unit (R286 to R290), causes (R291), verdict
records and their delivery (R292 to R295), state records and restore (R284, R285), drover cores retired (R429, R430). -/

namespace Sys2Proof.Machine

/-! ### Samples (R269, R286) -/

/-- The die's runs are enabled: detection, its slot, and a cluster in service whose domain is ON (R304, R430, R443). -/
def Agg.runsOn (a : Agg) (s : Nat) : Bool :=
  a.cfgOn DET_CFG_EN && a.cfgOn (DET_DIE_CFG_EN s) && !(a.dieDet s).unhomed && a.domOn (0x08 + a.homeOf s / 8)

/-- The close of the round of a sample, ns (R24, R25). -/
def TickFeat.close (t : TickFeat) : Nat :=
  let len := t.us * t.rticks * 1000
  if len = 0 then t.latchNs else ((t.latchNs - 1) / len + 1) * len

/-- The sample is that of its round's last tick. -/
def TickFeat.last (t : TickFeat) : Bool := t.close == t.latchNs

/-- The rounds that close after one instant and not after another, as their number and their close (R24, R25). -/
def closesIn (len lo hi : Nat) : List (Nat × Nat) :=
  if len = 0 then []
  else (List.range (hi / len - lo / len)).map fun i => ((lo / len + i) % 2 ^ 32, (lo / len + 1 + i) * len)

/-- A committed sample is queued for its TICK run, and every round that closed since the sample before for its ROUND run,
whether or not it has a sample (R269, R270). -/
def Agg.queueRuns (a : Agg) (s : Nat) (t : TickFeat) : Agg :=
  let a := if a.reg (DET_DIE_STATUS_STATE s) = 0 then a.put (DET_DIE_STATUS_STATE s) 2 else a
  a.onSlot s fun d => { d with
    jobs := d.jobs ++ [(t.tick, false)]
    rounds := d.rounds ++ closesIn (t.us * t.rticks * 1000) (d.roundsTo.getD (t.latchNs - t.us * 1000)) t.latchNs }

/-- The die is in the cover of a round: the one fixed, or before that the dies for which the aggregator is PRIMARY (R251,
R286). -/
def Agg.covered (a : Agg) (s k : Nat) : Bool :=
  bitAt (((a.tround k).bind (·.cover)).getD (a.coverDies false)) s

/-- STRAGGLER_POST (R286): feature 40 over the round is posted under PROG_KEY when its last sample commits. -/
def Agg.stragglerPost (a : Agg) (s die : Nat) (t : TickFeat) : Agg :=
  if t.last ∧ a.cfgOn DET_CFG_EN ∧ a.covered s t.round then
    a.post t.round (a.cfg DET_STRAG_CFG_PROG_KEY) (die % 2 ^ 17 * 8192) ((a.dieDet s).roundFeat t.round 40)
  else a

/-- What detection does with a committed record (R269, R274, R286). -/
def Agg.detCommit (a : Agg) (c : Committed) : Agg :=
  let a := a.feed c c.gap
  if c.stream = 1 then
    match (a.dieDet c.slot).hist.getLast? with
    | none => a
    | some t =>
      let a := a.stragglerPost c.slot c.die t
      let a := if c.primary ∧ a.runsOn c.slot then a.queueRuns c.slot t else a
      a.onSlot c.slot fun d => { d with roundsTo := some t.latchNs }
  else a

/-! ### Cores and clusters (R429, R430) -/

/-- Lane cores that a cluster has in service, its spare among them where a lane needs it. -/
def Agg.lanesIn (a : Agg) (c : Nat) : Nat := min 32 (33 - (a.det.lost.get c).length)

/-- The register of a cluster follows (R438). -/
def Agg.clusterShow (a : Agg) (c : Nat) : Agg :=
  let lost := a.det.lost.get c
  let a := (a.put (FLT_DRV_CLUSTER_RETIRED c) ((lost.map (2 ^ ·)).sum)).put (FLT_DRV_CLUSTER_IN_SERVICE c)
    (32 - (a.lanesMissing c).length)
  if a.reg (FLT_DRV_CLUSTER_STATE c) = 3 ∨ lost = [] then a
  else a.put (FLT_DRV_CLUSTER_STATE c) (if a.lanesIn c < 32 then 2 else 1)

/-- A home die of a retired cluster moves to the in-service cluster of its paddock with the fewest home dies, the lower one
on a tie, and its state words are copied there; without one it gets no runs (R430). -/
def Agg.rehome (a : Agg) (s c : Nat) : Agg :=
  if a.homeOf s = c ∧ (a.dieOfSlot s).isSome then
    let pad := a.paddockOf s
    let ok := (List.range 32).filter fun k => a.reg (FLT_DRV_CLUSTER_STATE k) ≠ 3 && a.domOn (0x08 + k / 8) && a.cfg (DET_CLUSTER_PAD k) = pad
    let load (k : Nat) : Nat := ((List.range 16).filter fun o => (a.dieOfSlot o).isSome && a.homeOf o = k).length
    match ok.foldl (fun b k => match b with
      | none => some k
      | some x => if load k < load x then some k else some x) none with
    | some k => a.onSlot s fun d => { d with home := some k, unhomed := false, copying := true }
    | none =>
      if (a.dieDet s).unhomed then a
      else
        let a := a.onSlot s fun d => { d with unhomed := true, jobs := [], rounds := [] }
        { a with p := a.p.notify { source := 0x1062, die := a.dieOfSlot s } }
  else a

/-- A cluster is retired, and its home dies move (R430, R436). -/
def Agg.clusterRetire (a : Agg) (c : Nat) : Agg :=
  if a.reg (FLT_DRV_CLUSTER_STATE c) = 3 then a
  else
    let a := a.put (FLT_DRV_CLUSTER_STATE c) 3
    let a : Agg := { a with
      p := a.p.notify { source := 0x1061, master := 0x0100 + c, detail := c }
      rprQueue := a.rprQueue ++ [{ etype := 5, unit := c }] }
    (List.range 16).foldl (fun a s => a.rehome s c) a

/-- A cluster with fewer than CLUSTER_MIN cores in service is retired (R430). -/
def Agg.clusterMin (a : Agg) (c : Nat) : Agg :=
  if a.lanesIn c < a.cfg FLT_CFG2_CLUSTER_MIN then a.clusterRetire c else a

/-- A core leaves a cluster (R429): one that had a lane leaves it to the spare or empty, the spare leaves the lane that it
had taken. -/
def Agg.coreLost (a : Agg) (c core : Nat) : Agg :=
  (a.onDet fun d => { d with
    lost := d.lost.upd c (· ++ [core])
    spare := if core = 32 then d.spare.set c none else d.spare }).clusterShow c

/-- The retirement of a drover core takes effect (R429, R430). -/
def Agg.coreRetired (a : Agg) (c core : Nat) : Agg :=
  if (a.det.lost.get c).contains core then a
  else
    let a := a.coreLost c core
    ({ a with
      p := a.p.notify { source := 0x1060, master := 0x0100 + c, detail := 64 * c + core }
      rprQueue := a.rprQueue ++ [{ etype := 4, unit := c, place := core }] } : Agg).clusterMin c

/-- A run is under way on a cluster. -/
def Agg.clusterBusy (a : Agg) (c : Nat) : Bool := (List.range 16).any fun s => (a.dieDet s).run.any fun r => r.cluster == c

/-- A drover core is retired, at the end of its current run (R429). -/
def Agg.coreRetire (a : Agg) (c core : Nat) : Agg :=
  if a.clusterBusy c then
    a.onDet fun d => { d with retiring := if d.retiring.contains (c, core) then d.retiring else d.retiring ++ [(c, core)] }
  else a.coreRetired c core

/-- The runs of a cluster have ended: what awaited that takes effect (R429). -/
def Agg.clusterEnd (a : Agg) (c : Nat) : Agg :=
  if a.clusterBusy c then a
  else
    let due := a.det.retiring.filter fun e => e.1 = c
    due.foldl (fun a e => a.coreRetired e.1 e.2) (a.onDet fun d => { d with retiring := d.retiring.filter fun e => e.1 ≠ c })

/-- A run starts on a cluster: its spare takes the lane of a retired core (R429), and spare rows of its cores' SRAM that are
due are mapped (R431). -/
def Agg.clusterStart (a : Agg) (c : Nat) : Agg :=
  let a := a.clusterEnd c
  let lost := a.det.lost.get c
  let a := match lost.find? (· < 32) with
    | some k =>
      if lost.contains 32 ∨ (a.det.spare.get c).isSome then a
      else (a.onDet fun d => { d with spare := d.spare.set c (some k) }).clusterShow c
    | none => a
  a.rowsMap fun o => match o with
    | .drover k _ => k == c
    | _ => false

/-! ### Starting a run (R269 to R272) -/

/-- The round whose ROUND run comes next: its close + RESULT_US has been reached by the last TICK run (R270). -/
def Agg.roundDue (a : Agg) (s : Nat) : Option (Nat × Nat) :=
  (a.dieDet s).rounds.head?.filter fun e =>
    decide (e.2 + a.cfg TALLY_TIMING2_RESULT_US * 1000 ≤ (a.dieDet s).lastNs)

/-- The rule program of the die's paddock, if one is enabled (R302). -/
def Agg.programOf (a : Agg) (s : Nat) : Option (List Byte) :=
  let p := a.paddockOf s
  if a.cfgOn (DET_PAD_PROG_EN p) then
    match a.det.prog.get p with
    | [] => none
    | l => some l
  else none

/-- Outputs of the predictor held for a tick of a die slot (R344). -/
def Agg.predOut (a : Agg) (s tick : Nat) : Option (List (Option Int)) :=
  ((a.vrf.pred.get s).outs.find? fun o => o.1 = tick).map (·.2)

/-- A run at its first operation: its inputs as it holds them, registers 0, state words as the die holds them (R277). -/
def Run.restart (r : Run) (d : DieDet) : Run :=
  let b : Run := {
    round := r.round, tick := r.tick, restore := r.restore, prog := r.prog, progId := r.progId, crc := r.crc, ops := r.ops
    params := r.params, coreEntry := r.coreEntry, roundEntry := r.roundEntry, pred := r.pred, ftest := r.ftest
    cluster := r.cluster, missing := r.missing
    result := r.result, posted := r.posted, near := r.near, words := d.words, cwords := d.cwords
    pc := if r.round.isSome then r.roundEntry else 0 }
  if r.prog then b.settle else { b with ended := true }

/-- A run as it starts, with its inputs (R274, R277, R281 to R283, log entry 154). -/
def Agg.newRun (a : Agg) (s tick : Nat) (round : Option Nat) (restore : Bool) : Run :=
  let d := a.dieDet s
  let now := a.tickRound s tick
  let r : Run := {
    round := round, tick := tick, restore := restore, pred := (a.predOut s tick).getD [], result := a.bellRec round
    cluster := a.homeOf s, missing := a.lanesMissing (a.homeOf s)
    ftest := match round with
      | none => d.ftest.get tick
      | some k => ((d.ofRound k).map fun t => d.ftest.get t.tick).sum
    posted := (a.tly.posts.filter fun e => e.1 = now).map (·.2), near := a.nearOf s }
  let r : Run := match a.programOf s with
    | none => r
    | some l => { r with
        prog := true, progId := leAt l 2 2, crc := leAt l (l.length - 8) 4, ops := progOps l, params := progParams l
        coreEntry := leAt l 8 2, roundEntry := leAt l 10 2 }
  r.restart d

/-- Queued jobs of the predictor whose run starts are discarded, and absent outputs are counted (R345, R354). -/
def Agg.predAtRun (a : Agg) (s tick : Nat) : Agg :=
  let a := if a.cfgOn VRF_PRED_CFG_EN ∧ a.cfgOn (VRF_PRED_DIE_EN s) ∧ (a.predOut s tick).isNone then
      a.count VRF_PRED_STATUS_ABSENT else a
  let keep (j : VJob) : Bool := match j.work with
    | .predict s' t _ => !(s' == s && t == tick)
    | _ => true
  (a.onVrf fun v => { v with jobs := v.jobs.filter keep }).vrfShow

/-- The detection consumer has read the sample of a tick (R212). -/
def Agg.sampleRead (a : Agg) (s tick : Nat) : Agg :=
  match (a.dieDet s).at_ tick with
  | some t => a.ringConsume t.ring 0 a.driftOwed
  | none => a

/-- The TICK run of the oldest job has ended or been discarded, or it has been skipped: only a run is one that a ROUND run
follows (R292, log entry 155). -/
def Agg.tickPassed (a : Agg) (s tick : Nat) (ran : Bool) : Agg :=
  let ns := ((a.dieDet s).at_ tick).elim 0 (·.latchNs)
  let a : Agg := { a with vrf := { a.vrf with
    pred := a.vrf.pred.upd s fun p => { p with outs := p.outs.filter fun o => o.1 ≠ tick } } }
  (a.onSlot s fun d => { d with
    jobs := d.jobs.tail, lastTick := if ran then tick else d.lastTick, lastNs := ns }).sampleRead s tick

/-- The TICK run of the oldest job is skipped (R272). -/
def Agg.tickSkipped (a : Agg) (s tick : Nat) : Agg :=
  let a := (a.tickPassed s tick false).onSlot s fun d => { d with skipped := true }
  (((a.count DET_ERR_COUNT_SKIPPED).count (DET_DIE_STATUS_SKIPS s)).event DET_EVENT_SKIPPED (a.dieOfSlot s)).detShow

/-- The copy of a die's state words to a new home, if one is under way, has finished by now or has not: a free value. The
second component says that it has not (R430, log entry 180). -/
def Agg.copyUnfinished (a : Agg) (s : Nat) : Agg × Bool :=
  if (a.dieDet s).copying then
    let d := a.p.draw
    let still := d.1 % 2 == 1
    (({ a with p := d.2 } : Agg).onSlot s fun x => { x with copying := still }, still)
  else (a, false)

/-- TICK_RUN_START (R269, R270, R272): a run that finds the copy of the die's state words unfinished is skipped (R430). -/
def execTickRunStart (slot : Fin 16) (s : State) : Host.Outcome State Fault Refusal :=
  .next (s.onAgg fun a =>
    let a := a.clusterEnd (a.homeOf slot)
    let d := a.dieDet slot
    match d.jobs with
    | [] => a
    | (t, restore) :: _ =>
      let timely : Bool := match d.at_ t with
        | some f => decide (a.p.nowNs ≤ f.commitNs + 2 * f.us * 1000)
        | none => true
      if d.run.isNone ∧ ¬ a.gasp ∧ a.runsOn slot ∧ (a.roundDue slot).isNone ∧ (restore ∨ (timely ∧
          a.reg (DET_DIE_STATUS_STATE slot) ≠ 1)) then
        let w := a.copyUnfinished slot
        if w.2 then w.1.tickSkipped slot t
        else
          let a := (w.1.predAtRun slot t).clusterStart (a.homeOf slot)
          (a.onSlot slot fun d => { d with run := some (a.newRun slot t none restore) }).detShow
      else a)

/-- ROUND_RUN_START (R270): it waits for the round's result record; one that finds the copy of the die's state words
unfinished does not take place (R430). -/
def execRoundRunStart (slot : Fin 16) (s : State) : Host.Outcome State Fault Refusal :=
  .next (s.onAgg fun a =>
    let a := a.clusterEnd (a.homeOf slot)
    match a.roundDue slot with
    | none => a
    | some (k, _) =>
      let d := a.dieDet slot
      if d.run.isNone ∧ ¬ a.gasp ∧ a.runsOn slot ∧ (a.tround k).isNone then
        let w := a.copyUnfinished slot
        if w.2 then (w.1.onSlot slot fun d => { d with rounds := d.rounds.tail }).detShow
        else
          let a := w.1.clusterStart (a.homeOf slot)
          (a.onSlot slot fun d => { d with
            run := some (a.newRun slot d.lastTick (some k) (a.reg (DET_DIE_STATUS_STATE slot) == 1)) }).detShow
      else a)

/-- The run of a slot is gone, with its request at the Hedge engine, and its job with it. -/
def Agg.runGone (a : Agg) (s : Nat) (r : Run) : Agg :=
  let a := ((a.onSlot s fun d => { d with run := none }).hdgQueue (a.hdg.queue.filter fun q => q.die ≠ s)).clusterEnd r.cluster
  match r.round with
  | none => a.tickPassed s r.tick true
  | some _ => a.onSlot s fun d => { d with rounds := d.rounds.tail }

/-- Rebuilding is over when no run of it is left (R285). -/
def Agg.restoreOver (a : Agg) (s : Nat) : Agg :=
  let d := a.dieDet s
  let asked := a.shed.fetches.any fun f => f.use = .drift s
  if a.reg (DET_DIE_STATUS_STATE s) = 1 ∧ !asked ∧ d.run.isNone ∧ !(d.jobs.any (·.2)) ∧ (a.roundDue s).isNone then
    (a.put (DET_DIE_STATUS_STATE s) 2).onSlot s fun d => { d with restored := true }
  else a

/-- RUN_SKIP (R272): two tick periods after its sample's commit a TICK run that has not started is skipped. -/
def execRunSkip (slot : Fin 16) (s : State) : Host.Outcome State Fault Refusal :=
  .next (s.onAgg fun a =>
    let d := a.dieDet slot
    match d.jobs with
    | [] => a
    | (t, restore) :: _ =>
      if d.run.isSome ∨ restore then a
      else
        let a : Agg := { a with p := a.p.until ((d.at_ t).elim 0 fun f => f.commitNs + 2 * f.us * 1000 + 1) }
        a.tickSkipped slot t)

/-- DROVER_CORE_FAULT (R271, R429): the run is discarded and starts again from the beginning with the same inputs, on the
cluster that is the die's home by then; a core whose run faults twice within CORE_WIN_S is retired. -/
def execDroverCoreFault (slot : Fin 16) (core : Fin 33) (s : State) : Host.Outcome State Fault Refusal :=
  .next (s.onAgg fun a =>
    match (a.dieDet slot).run with
    | none => a
    | some r =>
      let c := r.cluster
      let k := 33 * c + core.val
      let twice := match a.det.coreFault.get k with
        | some n => decide (a.p.nowNs ≤ n + a.cfg FLT_CFG2_CORE_WIN_S * 1000000000)
        | none => false
      let a := a.onDet fun d => { d with coreFault := d.coreFault.set k (some a.p.nowNs) }
      let a := (a.hdgQueue (a.hdg.queue.filter fun q => q.die ≠ slot)).onSlot slot fun d => { d with run := none }
      let a := if twice then a.coreRetired c core else a
      let a := a.clusterEnd (a.homeOf slot)
      let w := a.copyUnfinished slot
      let a := w.1
      if (a.dieDet slot).unhomed then a.detShow
      else if w.2 then
        if r.round.isNone then a.tickSkipped slot r.tick
        else (a.onSlot slot fun d => { d with rounds := d.rounds.tail }).detShow
      else
        let home := a.homeOf slot
        let a := a.clusterStart home
        let r : Run := { r with cluster := home, missing := a.lanesMissing home }
        (a.onSlot slot fun d => { d with run := some (r.restart d) }).detShow)

/-- OVERRUN (R271): a run that reaches RUN_BUDGET_CYC, its wait for a score included, is discarded whole. -/
def execOverrun (slot : Fin 16) (s : State) : Host.Outcome State Fault Refusal :=
  .next (s.onAgg fun a =>
    match (a.dieDet slot).run with
    | none => a
    | some r =>
      if a.inBudget slot r ∧ r.hedge.isNone then a
      else
        ((((a.runGone slot r).count DET_ERR_COUNT_OVERRUN).event DET_EVENT_OVERRUN
          (a.dieOfSlot slot)).restoreOver slot).detShow)

/-! ### The straggler unit (R287 to R290) -/

/-- Severity of a straggler verdict (R290). -/
def stragSev (ref obs : Int) : Nat := if ref ≤ 0 then 0 else (clampInt 0 255 (256 * (ref - obs) / ref)).toNat

/-- One interval of a straggler state (R289): the state after it, and the verdict due, with whether it is CLEARED. -/
def stragStep (o : Option StragOpen) (meets : Bool) (run need tick repeatTicks : Nat) :
    Option StragOpen × Option Bool :=
  match o with
  | none => if meets ∧ need ≤ run then (some { need := need, last := tick }, some false) else (none, none)
  | some o =>
    if meets then
      if o.last + repeatTicks ≤ tick then (some { o with fail := 0, last := tick }, some false)
      else (some { o with fail := 0 }, none)
    else if o.need ≤ o.fail + 1 then (none, some true)
    else (some { o with fail := o.fail + 1 }, none)

/-- The local test at the end of a TICK run (R287). -/
def Agg.localTest (a : Agg) (s : Nat) (r : Run) : Agg × List Emit :=
  let n := a.cfg DET_STRAG_CFG_LOCAL_TICKS
  match (a.dieDet s).at_ r.tick with
  | none => (a, [])
  | some t =>
    if n = 0 then (a, [])
    else
      let v : Int := dieFeature [t] t.us 0 40
      let m : Int := match nbrStat 0 (r.nearFeature 40) with
        | some x => x
        | none => -1
      let meets : Bool := decide (0 < m) && decide (100 * v < a.cfg DET_STRAG_CFG_LOCAL_PCT * m)
      let run := if meets then (a.dieDet s).localRun + 1 else 0
      let st := stragStep (a.dieDet s).localOpen meets run n r.tick (a.cfg DET_CFG_REPEAT_TICKS)
      let a := (a.onSlot s fun d => { d with localRun := run, localOpen := st.1 }).put (DET_DIE_STATUS_LOCAL_RUN s)
        (min run 255)
      (a, match st.2 with
        | none => []
        | some cl => [{ slot := 15, kind := 1, cleared := cl, sev := if cl then 0 else stragSev m v, count := n
                        obs := v, ref := m }])

/-- The fleet test at the end of a ROUND run (R288), and the run with the flags of the test's Bellwether read, which its
verdict carries. A value that R281 does not
state for the block is a free value. -/
def Agg.fleetTest (a : Agg) (s : Nat) (r : Run) (k : Nat) : Agg × Run × List Emit :=
  let n := a.cfg DET_STRAG_CFG_FLEET_ROUNDS
  if n = 0 then (a, r, [])
  else
    let key := a.cfg DET_STRAG_CFG_PROG_KEY
    let v : Int := (a.dieDet s).roundFeat k 40
    let blk := r.bellBlock key
    let r := r.bellFlags key
    let vals := match blk with
      | none => [some (-1), some (-1), some (-1)]
      | some b => [rankOf v b, quantOf 32768 b, momentOf 1 b]
    let d := a.p.draw
    let a : Agg := if vals.all (·.isSome) then a else { a with p := d.2 }
    let val (i : Nat) : Int := ((vals[i]?).join).getD (signed 64 d.1)
    let whole := match blk with
      | some b => !b.incomplete
      | none => false
    let meets : Bool := whole && decide (val 0 < a.cfg DET_STRAG_CFG_FLEET_Q) && decide (0 < val 1) &&
      decide (100 * v < a.cfg DET_STRAG_CFG_FLEET_PCT * val 1)
    let run := if meets then (a.dieDet s).fleetRun + 1 else 0
    let st := stragStep (a.dieDet s).fleetOpen meets run n r.tick (a.cfg DET_CFG_REPEAT_TICKS)
    let a := (a.onSlot s fun d => { d with fleetRun := run, fleetOpen := st.1 }).put (DET_DIE_STATUS_FLEET_RUN s)
      (min run 255)
    (a, r, match st.2 with
      | none => []
      | some cl => [{ slot := 31, kind := 2, cleared := cl, sev := if cl then 0 else stragSev (val 1) v, count := n
                      obs := v, ref := val 1, spread := val 2
                      rank := if val 0 < 0 then none else some (twos 32 (val 0)) }])

/-! ### Causes (R291) -/

/-- The hardware causes over the evidence ticks: their number, and those of which there is a sample. -/
def Agg.causesOf (a : Agg) (d : DieDet) (n : Nat) (ts : List TickFeat) : Nat :=
  let half (p : TickFeat → Bool) : Bool := !ts.isEmpty && decide (n ≤ 2 * (ts.filter p).length)
  let mhz := a.cfg DET_CAUSE_CFG_CORE_MHZ
  (if ts.any (·.link) then 1 else 0) +
  (if ts.any fun t => t.flags % 4 ≠ 0 then 2 else 0) +
  (if ts.any fun t => bitAt t.flags 5 then 4 else 0) +
  (if a.cfg DET_CAUSE_CFG_FT_MIN ≤ (ts.map fun t => d.ftest.get t.tick).sum ∧ ts ≠ [] then 8 else 0) +
  (if mhz ≠ 0 ∧ half fun t => decide (100 * dieFeature [t] t.us 0 41 < a.cfg DET_CAUSE_CFG_THR_PCT * mhz) then 16
    else 0) +
  (if half fun t => decide (a.cfg DET_CAUSE_CFG_MEM_PCT * 65536 ≤ 100 * dieFeature [t] t.us 0 42) then 32 else 0)

/-- The PRIME cause: the lowest hardware bit set, plus 1. -/
def primeOf (causes : Nat) : Nat := match (List.range 8).find? (bitAt causes ·) with
  | some b => b + 1
  | none => 0

/-! ### Verdict records (R292 to R294) -/

/-- TICK_FIRST of a verdict (R292): COUNT ticks with the run's, or from the first tick of round ROUND − COUNT + 1 on, whether or
not the die holds a sample of the round. -/
def Agg.firstTick (a : Agg) (s : Nat) (r : Run) (count : Nat) : Nat :=
  match r.round with
  | none => r.tick + 1 - count
  | some k =>
    let d := a.dieDet s
    let ticks := match d.at_ r.tick with
      | some t => (t.us, t.rticks)
      | none => (a.p.tick.us, a.p.tick.ticks)
    let close := match d.rounds.find? fun e => e.1 = k with
      | some e => e.2
      | none => (d.ofRound k).getLast?.elim 0 (·.close)
    (close / max 1 (ticks.1 * ticks.2 * 1000) - count) * ticks.2 + 1

/-- The bytes of a verdict record (R292). -/
def verdictBytes (a : Agg) (s die : Nat) (r : Run) (e : Emit) (causes vflags first evRing evFirst evLast : Nat) : List Byte :=
  let ident := r.tick * 256 + e.slot
  let epoch := ((a.dieDet s).at_ r.tick).elim epochNone (·.epoch)
  let round := if e.slot = 15 then none else r.bell
  withTrailer (leBytes 1 6 ++ leBytes 1 1 ++ leBytes 2 vflags ++ leBytes 4 128 ++ leBytes 8 ident ++
    leBytes 4 (die % 2 ^ 17) ++ leBytes 1 e.kind ++ leBytes 1 e.sev ++ leBytes 1 (primeOf (causes % 256)) ++
    leBytes 1 (a.paddockOf s) ++ leBytes 8 ((a.img.dies[s]?).elim 0 (·.uid)) ++ leBytes 8 first ++
    leBytes 4 (round.getD 0xFFFF_FFFF) ++ leBytes 4 epoch ++ leBytes 2 (if e.prog then r.progId else 0xFFFF) ++
    leBytes 2 e.rule ++ leBytes 4 causes ++ leBytes 4 (if e.prog then r.crc else 0) ++ leBytes 4 e.count ++
    leBytes 8 (twos 64 e.obs) ++ leBytes 8 (twos 64 e.ref) ++ leBytes 8 (twos 64 e.spread) ++
    leBytes 4 (e.rank.getD 0xFFFF_FFFF) ++ leBytes 2 evRing ++ zeros 2 ++ leBytes 4 evFirst ++ leBytes 4 evLast ++
    leBytes 8 a.p.nowNs ++ zeros 8)

/-- The record of a sample in its ring. -/
def Agg.sampleRec (a : Agg) (t : TickFeat) : Option RingRec := (a.ring t.ring).find t.seq

/-- The samples that become evidence copies: where one of the range is LOCAL_ONLY, all of the range that are held (R294). -/
def Agg.evidCopies (a : Agg) (ts : List TickFeat) : List (TickFeat × RingRec) :=
  let held := ts.filterMap fun t => (a.sampleRec t).map fun q => (t, q)
  if held.any (·.2.localOnly) then held else []

/-- Copy one sample with its descriptor into the verdict ring; its RING_SEQ there. -/
def Agg.evidCopy (a : Agg) (ring : Nat) (q : RingRec) : Agg × Nat :=
  a.produce {
    ring := a.cfg DET_CFG_VERDICT_RING, type := q.type, cls := q.cls, die := q.die, ident := q.ident, standby := q.standby
    noLocal := true, keep := some (a.ringRead ring q.off 40), bytes := a.recordBytes ring q }

/-- The evidence of a verdict, LOCAL_ONLY samples copied first (R294). The places of the evidence: ring, RING_SEQs. -/
def Agg.evidence (a : Agg) (ts : List TickFeat) : Agg × List (Nat × Nat) :=
  match a.evidCopies ts with
  | [] => (a, (ts.filter fun t => (a.sampleRec t).isSome).map fun t => (t.ring, t.seq))
  | l => l.foldl (fun w e =>
      let b := w.1.evidCopy e.1.ring e.2
      (b.1, w.2 ++ [(b.1.cfg DET_CFG_VERDICT_RING, b.2)])) (a, [])

/-- The delivery of a held verdict or case is begun in the journal once that is possible (R294, R295). -/
def Agg.verdictBegin (a : Agg) (s die : Nat) : Agg :=
  match (a.dieDet s).held.find? fun v => v.op.isNone with
  | none => a
  | some v =>
    if a.jrnReady then
      let arg := v.ident % 2 ^ 64 + v.kind % 256 * 2 ^ 64 + v.paddock % 256 * 2 ^ 72 + v.sev % 256 * 2 ^ 80 +
        v.prime % 256 * 2 ^ 88 + v.seq % 2 ^ 32 * 2 ^ 96
      let b := a.jrnBegin 1 (some die) arg
      b.1.onSlot s fun d => { d with held := d.held.map fun x => if x = v then { x with op := some b.2 } else x }
    else a

/-- An answered Hurdle ends once its verdict's kind has closed with CLEARED (R300), whether or not that verdict finds room. -/
def Agg.hurdleClosed (a : Agg) (s : Nat) (e : Emit) : Agg :=
  if e.cleared ∧ 2 ≤ a.hurdleState s ∧ ((a.dieDet s).hurdle.map (·.kind)) = some e.kind then a.hurdleNone s else a

/-- Commit one verdict of a run (R292, R293), with its evidence copies if room is for all of it. -/
def Agg.commitVerdict (a : Agg) (s die : Nat) (r : Run) (e : Emit) : Agg :=
  let d := a.dieDet s
  let first := a.firstTick s r e.count
  let ts := d.hist.filter fun t => decide (first ≤ t.tick) && decide (t.tick ≤ r.tick)
  let causes := a.causesOf d (r.tick + 1 - first) ts + r.cause
  let vring := a.cfg DET_CFG_VERDICT_RING
  let fl := (if e.cleared then 1 else 0) + (if d.restored then 2 else 0) + (if 0 < d.cold then 4 else 0) + r.flags +
    (if d.skipped then 256 else 0)
  let copies := ((a.evidCopies ts).map fun c => 40 + c.2.len).sum
  if a.ringFits vring (copies + 128) then
    let w := a.evidence ts
    let a := w.1
    let evRing := (w.2.head?).elim 0 (·.1)
    let bytes := verdictBytes a s die r e causes fl first evRing ((w.2.head?).elim 0 (·.2)) ((w.2.getLast?).elim 0 (·.2))
    let b := a.produce {
      ring := vring, type := 6, cls := a.cfg DET_RUN_CFG_VERDICT_CLASS, die := some die, ident := r.tick * 256 + e.slot
      noLocal := true, bytes := bytes }
    let a := b.1.onRing vring fun g => { g with cursors := g.cursors.upd 2 fun c => some (c.getD b.2) }
    let v : HeldVerdict := {
      ident := r.tick * 256 + e.slot, kind := e.kind, cleared := e.cleared, sev := e.sev, prime := primeOf (causes % 256)
      paddock := a.paddockOf s, rule := e.rule, program := if e.prog then r.progId else 0xFFFF, obs := e.obs, ref := e.ref
      causes := causes, ring := vring, seq := b.2, evid := w.2, round := if e.slot = 15 then none else r.bell
      commitNs := a.p.nowNs }
    let a := (a.onSlot s fun d => { d with held := d.held ++ [v], skipped := false }).put (DET_DIE_STATUS_LAST_TICK s)
      (r.tick % 2 ^ 32)
    a.verdictBegin s die
  else (a.count DET_ERR_COUNT_VERDICTS_LOST).event DET_EVENT_VERDICT_RING_FULL

/-! ### State records (R284, R285) -/

/-- PROG_CRC of the die's live program, 0 without one. -/
def Agg.liveCrc (a : Agg) (s : Nat) : Nat := (a.programOf s).elim 0 fun l => leAt l (l.length - 8) 4

/-- A state record (R284): the straggler counts stand as three 8-byte words. -/
def Agg.stateBytes (a : Agg) (s die tick : Nat) : List Byte :=
  let d := a.dieDet s
  let cores := ((d.at_ tick).elim 0 (·.clusters)) * 64
  let len := 64 + 2048 + 24 + 32 * cores + 8
  let opens := (if d.localOpen.isSome then 1 else 0) + (if d.fleetOpen.isSome then 2 else 0)
  withTrailer (leBytes 1 7 ++ leBytes 1 1 ++ zeros 2 ++ leBytes 4 len ++ leBytes 4 (die % 2 ^ 17) ++
    leBytes 4 (a.liveCrc s) ++ leBytes 8 ((a.img.dies[s]?).elim 0 (·.uid)) ++ leBytes 8 tick ++
    leBytes 1 (a.hurdleState s) ++ zeros 31 ++ ((List.range 256).map fun i => leBytes 8 (twos 64 (d.words.get i))).flatten ++
    leBytes 8 d.localRun ++ leBytes 8 d.fleetRun ++ leBytes 8 opens ++
    ((List.range (4 * cores)).map fun i => leBytes 8 (twos 64 (d.cwords.get i))).flatten)

/-- STATE_RECORD (R284). -/
def Agg.checkpoint (a : Agg) (s die tick : Nat) : Agg :=
  let n := a.cfg DET_CFG_CKPT_TICKS
  if n ≠ 0 ∧ tick % n = 0 then
    (a.produce {
      ring := a.cfg DET_CFG_STATE_RING, type := 7, cls := a.cfg DET_CFG_STATE_CLASS, die := some die, ident := tick
      noLocal := true, bytes := a.stateBytes s die tick }).1
  else a

/-- The die starts COLD (R285): state at 0, for CKPT_TICKS × 2 ticks. A run in progress starts again later, from that
state. -/
def Agg.goCold (a : Agg) (s : Nat) : Agg :=
  let a := (a.hdgQueue (a.hdg.queue.filter fun q => q.die ≠ s)).onSlot s fun d => { d with
    run := none, words := [], cwords := [], localRun := 0, fleetRun := 0, localOpen := none, fleetOpen := none, rules := []
    restored := false, cold := 2 * a.cfg DET_CFG_CKPT_TICKS }
  (((a.put (DET_DIE_STATUS_STATE s) 3).put (DET_DIE_STATUS_LOCAL_RUN s) 0).put (DET_DIE_STATUS_FLEET_RUN s) 0).detShow

/-- RESTORE_COLD: no qualifying copy (R285). -/
def Agg.restoreCold (a : Agg) (s : Nat) : Agg :=
  ((a.onShed fun x => { x with fetches := x.fetches.filter fun f => f.use ≠ .drift s }).goCold s).event
    DET_EVENT_RESTORE_COLD

/-- The signed 64-bit words of a state record from an offset on. -/
def stateWords (l : List Byte) (off n : Nat) : Tab Int :=
  (List.range n).filterMap fun i =>
    let v := signed 64 (leAt l (off + 8 * i) 8)
    if v = 0 then none else some (i, v)

/-- State is taken from a copy, and the TICK and ROUND runs of every later tick that the ring holds are to come (R285).
The record holds the state of a Hurdle but not the kind of its verdict: that is a free value (log entry 156). A Hurdle
that is under way already stays. -/
def Agg.restoreFrom (a : Agg) (s : Nat) (l : List Byte) : Agg :=
  let t0 := leAt l 24 8
  let later := (a.dieDet s).hist.filter fun t => decide (t0 < t.tick) && (a.sampleRec t).isSome
  let ns0 := ((a.dieDet s).at_ t0).elim (t0 * a.p.tick.us * 1000) (·.latchNs)
  let rds := match later.getLast? with
    | some t => closesIn (t.us * t.rticks * 1000) (ns0 - a.cfg TALLY_TIMING2_RESULT_US * 1000) t.latchNs
    | none => []
  let fl := leAt l 2128 8
  let hs := leAt l 32 1
  let a := a.onSlot s fun d => { d with
    words := stateWords l 64 256, cwords := stateWords l 2136 ((l.length - 2144) / 8)
    localRun := leAt l 2112 8, fleetRun := leAt l 2120 8
    localOpen := if bitAt fl 0 then some { need := a.cfg DET_STRAG_CFG_LOCAL_TICKS, last := t0 } else none
    fleetOpen := if bitAt fl 1 then some { need := a.cfg DET_STRAG_CFG_FLEET_ROUNDS, last := t0 } else none
    jobs := later.map fun t => (t.tick, true), rounds := rds, lastTick := t0, lastNs := ns0, cold := 0 }
  let a := (a.put (DET_DIE_STATUS_LOCAL_RUN s) (min (leAt l 2112 8) 255)).put (DET_DIE_STATUS_FLEET_RUN s)
    (min (leAt l 2120 8) 255)
  let a := if 2 ≤ hs ∧ (a.dieDet s).hurdle.isNone then
      let d := a.p.draw
      (({ a with p := d.2 } : Agg).put (DET_DIE_STATUS_HURDLE s) hs).onSlot s fun x => { x with
        hurdle := some { kind := d.1 % 256 } }
    else a
  a.restoreOver s

/-- The answer to the FETCH of drift state (R285): the newest copy whose PROG_CRC is the live program's. -/
def Agg.driftAnswer (a : Agg) (s die : Nat) : Agg :=
  let cls := a.cfg DET_CFG_STATE_CLASS
  let mine (l : List Byte) : Bool := (readDesc l).die = some die && (readDesc l).cls = cls
  let copies := (a.shed.fetched.filter mine).map (·.drop 40)
  let a := a.onShed fun x => { x with fetched := x.fetched.filter fun l => !mine l }
  let good := copies.filter fun l => leAt l 0 1 = 7 && leAt l 12 4 = a.liveCrc s
  match good.foldl (fun b l => match b with
    | none => some l
    | some x => if leAt x 24 8 < leAt l 24 8 then some l else some x) none with
  | none => a.restoreCold s
  | some l => a.restoreFrom s l

/-- RESTORE_COLD (R285): no answer within 1 ms. -/
def execRestoreCold (slot : Fin 16) (s : State) : Host.Outcome State Fault Refusal :=
  .next (s.onAgg fun a =>
    let d := a.dieDet slot
    if a.reg (DET_DIE_STATUS_STATE slot) = 1 ∧ d.run.isNone ∧ !(d.jobs.any (·.2)) then
      let a : Agg := match a.shed.fetches.find? fun f => f.use = .drift slot with
        | some f => { a with p := a.p.until (f.sentNs + 1000000) }
        | none => a
      a.restoreCold slot
    else a)

/-! ### The end of a run (R271, R279, R293) -/

/-- The program's verdicts are remembered for REPEAT_TICKS (R289). -/
def Agg.rememberRules (a : Agg) (s : Nat) (r : Run) : Agg :=
  a.onSlot s fun d => { d with rules := r.emits.foldl (fun t e => t.set e.rule (some r.tick)) d.rules }

/-- The posts of a run (R242, R277); a value outside 32 bits is one that the spec does not state. -/
def Agg.runPosts (a : Agg) (s die : Nat) (r : Run) : Agg :=
  r.posts.foldl (fun a e =>
    let ident := die % 2 ^ 17 * 8192
    if 0 ≤ e.2 ∧ e.2 < 2 ^ 32 then a.post (a.tickRound s r.tick) e.1 ident e.2.toNat
    else
      let d := a.p.draw
      ({ a with p := d.2 } : Agg).post (a.tickRound s r.tick) e.1 ident (d.1 % 2 ^ 32)) a

/-- One more tick of a COLD die has run (R285). -/
def Agg.coldTick (a : Agg) (s : Nat) : Agg :=
  let c := (a.dieDet s).cold
  let a := a.onSlot s fun d => { d with cold := c - 1 }
  if c = 1 ∧ a.reg (DET_DIE_STATUS_STATE s) = 3 then a.put (DET_DIE_STATUS_STATE s) 2 else a

/-- The effects of a run that has ended, all together (R271, R279, R284, R287, R288, R293). Of a run that rebuilds state
only the state changes are left. -/
def Agg.runEffects (a : Agg) (s die : Nat) (r : Run) : Agg :=
  let a := a.onSlot s fun d => { d with words := r.words, cwords := r.cwords }
  let (a, q, strag) := match r.round with
    | none =>
      let w := a.localTest s r
      (w.1, r, w.2)
    | some k => a.fleetTest s r k
  let a := strag.foldl (fun a e => a.hurdleClosed s e) a
  if r.restore then a
  else
    let a := (a.rememberRules s r).runPosts s die r
    let a := if 0 < r.cut then (a.count DET_ERR_COUNT_EMIT_CUT r.cut).event DET_EVENT_EMIT_CUT else a
    let a := r.emits.foldl (fun a e => a.commitVerdict s die r e) a
    strag.foldl (fun a e => a.commitVerdict s die q e) a

/-- RUN_END (R293): state writes take effect together, and verdicts are committed in IDENT order. -/
def execRunEnd (slot : Fin 16) (s : State) : Host.Outcome State Fault Refusal :=
  .next (s.onAgg fun a =>
    match (a.dieDet slot).run, a.dieOfSlot slot with
    | some r, some die =>
      if r.ended ∧ a.inBudget slot r then
        let a := a.runEffects slot die r
        let a := if r.round.isNone then a.coldTick slot else a
        let a := if r.round.isNone ∧ ¬ r.restore then a.checkpoint slot die r.tick else a
        ((a.runGone slot r).restoreOver slot).detShow
      else a
    | _, _ => a)

/-! ### Delivery (R294, R295) -/

/-- Everything that a held verdict rests on is mirrored, and so is the BEGIN of its delivery (R294). -/
def Agg.verdictReady (a : Agg) (v : HeldVerdict) : Bool :=
  (v.copied || (a.mirrored v.ring v.seq && v.evid.all (fun e => a.mirrored e.1 e.2) &&
    (match v.round with
      | none => true
      | some k => (a.tly.results.find? fun b => b.round = k).any fun b => a.mirrored b.ring b.seq))) &&
    v.op.any a.beginMirrored

/-- A Hurdle whose BEGIN has been mirrored is sent (R234, R299). -/
def Agg.hurdleSend (a : Agg) (s : Nat) : Agg :=
  match (a.dieDet s).hurdle with
  | none => a
  | some h =>
    match a.deliv h.op with
    | some d => if d.host = 0 ∧ a.beginMirrored h.op then a.delivStart h.op else a
    | none => a

/-- The oldest held verdict or case of a die is delivered when it may be (R294). -/
def Agg.verdictDeliver (a : Agg) (s die : Nat) : Agg :=
  match (a.dieDet s).held with
  | [] => a
  | v :: rest =>
    if a.reg (DET_DIE_STATUS_STATE s) = 1 ∨ ¬ a.verdictReady v then a
    else
      match v.op with
      | none => a
      | some op =>
        let a := a.onSlot s fun d => { d with held := rest }
        let a := a.onDet fun d => { d with deliv := d.deliv ++ [{
          op := op, kind := 1, slot := s, die := die, entry := verdictEntry v.ntype die v (a.jrnOfOp op)
          toAggs := a.subscribers v.paddock false, verdict := some v }] }
        a.delivStart op

/-- VERDICT_DELIVERY (R294, R299): the BEGIN of a delivery that has none, the Hurdle of the die whose BEGIN is mirrored, and
the oldest verdict that may be delivered. -/
def execVerdictDelivery (slot : Fin 16) (s : State) : Host.Outcome State Fault Refusal :=
  .next (s.onAgg fun a =>
    match a.dieOfSlot slot with
    | none => a
    | some die => ((((a.hurdlesRetry slot).verdictBegin slot die).hurdleSend slot).verdictDeliver slot die).detShow)

/-- EVID_WAIT (R294): a verdict has been held back for more than EVID_WAIT_MS. -/
def execEvidWait (slot : Fin 16) (s : State) : Host.Outcome State Fault Refusal :=
  .next (s.onAgg fun a =>
    match (a.dieDet slot).held.find? fun v => !v.late with
    | none => a
    | some v =>
      let a : Agg := { a with p := a.p.until (v.commitNs + a.cfg DET_RUN_CFG_EVID_WAIT_MS * 1000000 + 1) }
      let a := a.onSlot slot fun d => { d with held := d.held.map fun x => if x = v then { x with late := true } else x }
      a.event DET_EVENT_EVID_WAIT (a.dieOfSlot slot))

end Sys2Proof.Machine
end

