-- ==== Sys2Proof/Machine/Silent.lean ====
section
/-! DEFINITION. Silent errors (11): the epochs of a die as the aggregator follows them (R366, R367, R369), its records
(R361, R373, R377, R381), taints (R370, R371), cases, and the outcome of a tile check (R357, R359). -/

namespace Sys2Proof.Machine

/-! ### The order of epochs (R130) -/

/-- An epoch moved by `k`. -/
def epAdd (e : Nat) (k : Int) : Nat := (((e : Int) + k) % (2 ^ 32 - 1)).toNat

/-- Epoch `x` is `y` or earlier; NONE takes no part. -/
def epLe (x y : Nat) : Bool := (x == y && x != epochNone) || laterEpoch y x

/-- Epoch `x` lies in a range, whose LAST may be open. -/
def epIn (first last x : Nat) : Bool := x != epochNone && epLe first x && (last == epochNone || epLe x last)

/-- Two ranges meet. -/
def epMeet (f1 l1 f2 l2 : Nat) : Bool := (l2 == epochNone || epLe f1 l2) && (l1 == epochNone || epLe f2 l1)

/-- The epochs after `e` up to `t`, or `t` alone where the numbers jump. -/
def epochsTo (e t : Nat) : List Nat :=
  if laterEpoch t e then (List.range ((t + (2 ^ 32 - 1) - e) % (2 ^ 32 - 1))).map fun i => epAdd e (i + 1)
  else if e = t then [] else [t]

/-- Epochs begun, with those up to `t`. -/
def extendEpochs (l : List Nat) (t : Nat) : List Nat :=
  match l.getLast? with
  | none => [t]
  | some e => l ++ epochsTo e t

/-! ### The die's settings (R367) -/

/-- The activation instant of the die's next or last length, ns. -/
def Agg.actNs (a : Agg) (s : Nat) : Nat := (a.seDie s).actSec * 1000000000

/-- The epoch length that governs an instant, ms. -/
def Agg.epochMsAt (a : Agg) (s ns : Nat) : Nat :=
  let cur := a.reg (SE_DIE_EPOCH_CUR_MS s)
  let next := a.reg (SE_DIE_EPOCH_NEXT_MS s)
  if next ≠ 0 then (if a.actNs s ≤ ns then next else cur)
  else if (a.seDie s).prevMs ≠ 0 ∧ ns < a.actNs s then (a.seDie s).prevMs
  else cur

/-- The epoch of the die at an instant. -/
def Agg.epochAt (a : Agg) (s ns : Nat) : Nat := epochOf ns (max 1 (a.epochMsAt s ns))

/-- The next length is in force once its second has come. -/
def Agg.lengthBegan (a : Agg) (s : Nat) : Agg :=
  let next := a.reg (SE_DIE_EPOCH_NEXT_MS s)
  if next ≠ 0 ∧ a.actNs s ≤ a.p.nowNs then
    let t := a.actNs s
    let old := a.epochAt s (t - 1)
    let new := a.epochAt s t
    let a := a.onSE s fun d => { d with
      prevMs := a.reg (SE_DIE_EPOCH_CUR_MS s)
      epochs := if d.epochs = [] then [] else
        let l := extendEpochs d.epochs old
        if l.getLast? = some new then l else l ++ [new] }
    (a.put (SE_DIE_EPOCH_CUR_MS s) next).put (SE_DIE_EPOCH_NEXT_MS s) 0
  else a

/-- The epochs that have begun by now are known, in their order (R369). -/
def Agg.epochsBegan (a : Agg) (s : Nat) : Agg :=
  let a := a.lengthBegan s
  if a.reg (SE_DIE_STATUS_STATE s) = 2 then
    let e := a.epochAt s a.p.nowNs
    a.onSE s fun d => { d with epochs := extendEpochs d.epochs e }
  else a

/-- The instant at which `k` more epochs have begun, ns. -/
def Agg.epochsAhead (a : Agg) (s k : Nat) : Nat :=
  let len := max 1 (a.epochMsAt s a.p.nowNs) * 1000000
  if k = 0 then a.p.nowNs else (a.p.nowNs / len + k) * len

/-- A record's EPOCH is faulty (R367). -/
def Agg.epochFaulty (a : Agg) (s ns epoch : Nat) : Bool :=
  let e := a.epochAt s ns
  let len := max 1 (a.epochMsAt s ns) * 1000000
  let near := min (ns % len) (len - ns % len)
  if epoch = e then false
  else if epoch = epAdd e 1 ∨ e = epAdd epoch 1 then decide (1000 < near)
  else true

/-! ### Counts (R357) -/

/-- Tiles counted for an epoch; one of NONE belongs to no epoch (R357, R368). -/
def Agg.countTiles (a : Agg) (s epoch : Nat) (f : Nat × Nat → Nat × Nat) : Agg :=
  if epoch = epochNone then a else a.onSE s fun d => { d with counts := d.counts.upd epoch f }

/-- Tiles counted UNCHECKED (R357). -/
def Agg.countUnchecked (a : Agg) (s epoch n : Nat) : Agg :=
  if n = 0 then a
  else (a.count SE_ERR_COUNT_UNCHECKED n).countTiles s epoch fun c => (c.1, c.2 + n)

/-! ### Records of `SE_RING` -/

/-- Commit a record of this chapter; the place it stands at is returned. -/
def Agg.seCommit (a : Agg) (die type ident : Nat) (l : List Byte) : Agg × (Nat × Nat) :=
  let ring := a.cfg SE_CFG_SE_RING
  let r := a.produce { ring := ring, type := type, cls := a.cfg SE_CFG_SE_CLASS, die := some die, ident := ident, bytes := l }
  (r.1, (ring, r.2))

/-- An epoch record (R373). -/
def epochRecBytes (die : Nat) (r : EpochRec) : List Byte :=
  withTrailer (leBytes 1 9 ++ leBytes 1 1 ++ leBytes 2 r.flags ++ leBytes 4 64 ++ leBytes 8 r.dseq ++
    leBytes 4 (die % 2 ^ 17) ++ leBytes 4 r.first ++ leBytes 4 r.last ++ leBytes 4 r.checked ++ leBytes 4 r.unchecked ++
    leBytes 2 r.core ++ zeros 2 ++ leBytes 8 r.checkedTo ++ leBytes 8 r.caseSeq)

/-- Commit an epoch record under the next DSEQ (R373). -/
def Agg.epochRecord (a : Agg) (s die : Nat) (r : EpochRec) : Agg :=
  let r : EpochRec := { r with dseq := (a.seDie s).dseq, checkedTo := a.checkedTo s }
  let c := a.seCommit die 9 r.dseq (epochRecBytes die r)
  let r : EpochRec := { r with ring := c.2.1, seq := c.2.2 }
  (c.1.onSE s fun d => { d with dseq := d.dseq + 1, recs := d.recs ++ [r] }).seShow s

/-- A case record (R377). -/
def caseBytes (a : Agg) (s die kind : Nat) (c : SeCase) (runs runsRef runsHost first last good : Nat) : List Byte :=
  let sm := c.summary
  let flags := (if c.restored then 1 else 0) + (if bitAt (leAt c.bytes 2 2) 1 then 2 else 0)
  withTrailer (leBytes 1 0xA ++ leBytes 1 1 ++ leBytes 2 flags ++ leBytes 4 128 ++ leBytes 8 (a.seDie s).caseSeq ++
    leBytes 4 (die % 2 ^ 17) ++ leBytes 1 kind ++ leBytes 1 (if kind = 0xA then 128 else if kind = 0xE then 64 else 255) ++
    leBytes 2 c.core ++ leBytes 8 ((a.img.dies[s]?).elim 0 (·.uid)) ++ leBytes 8 c.source ++ leBytes 4 c.epoch ++
    leBytes 4 first ++ leBytes 4 last ++ leBytes 4 good ++ leBytes 1 runs ++ leBytes 1 runsRef ++ leBytes 1 runsHost ++
    zeros 1 ++ leBytes 2 c.arrays ++ zeros 2 ++ leBytes 4 (leAt sm 16 4) ++ leBytes 4 (leAt sm 20 4) ++
    leBytes 4 (leAt sm 4 4) ++ leBytes 4 (leAt sm 24 4) ++ leBytes 2 c.evRing ++ zeros 2 ++ leBytes 4 c.evSeq ++
    leBytes 2 (leAt c.bytes 52 2) ++ leBytes 2 (leAt c.bytes 54 2) ++ zeros 4 ++ leBytes 8 a.p.nowNs ++ zeros 16)

/-- Commit a case record; it is held for delivery as a verdict is (R294, R377). Its CASE_SEQ and place are returned. -/
def Agg.caseRecord (a : Agg) (s die kind : Nat) (c : SeCase) (runs runsRef runsHost first last good : Nat) :
    Agg × Nat × (Nat × Nat) :=
  let seq := (a.seDie s).caseSeq
  let r := a.seCommit die 0xA seq (caseBytes a s die kind c runs runsRef runsHost first last good)
  let v : HeldVerdict := {
    ident := seq, kind := kind, sev := if kind = 0xA then 128 else if kind = 0xE then 64 else 255
    paddock := a.paddockOf s, obs := leAt c.summary 16 4, ref := leAt c.summary 20 4, ntype := 5
    ring := r.2.1, seq := r.2.2, evid := if kind = 0xE ∨ c.restored then [] else [(c.evRing, c.evSeq)], commitNs := a.p.nowNs }
  let a := (r.1.onSE s fun d => { d with caseSeq := seq + 1 }).onSlot s fun d => { d with held := d.held ++ [v] }
  ((a.verdictBegin s die).seShow s, seq, r.2)

/-! ### Taints (R370, R371, R376) -/

/-- The BEGIN of an epoch record's delivery, once the journal takes it (R383). -/
def Agg.epochBegin (a : Agg) (s die : Nat) (r : EpochRec) : Agg :=
  if a.jrnReady ∧ r.op.isNone ∧ ¬ r.dropped ∧ ¬ r.begun then
    let b := a.jrnBegin (if bitAt r.flags 0 then 3 else 4) (some die)
      (r.dseq % 2 ^ 64 + r.first % 2 ^ 32 * 2 ^ 64 + r.last % 2 ^ 32 * 2 ^ 96)
    b.1.onSE s fun d => { d with recs := d.recs.map fun x => if x.dseq = r.dseq then { x with op := some b.2 } else x }
  else a

/-- The BEGINs of every epoch record that has none. -/
def Agg.epochBegins (a : Agg) (s die : Nat) : Agg := (a.seDie s).recs.foldl (fun a r => a.epochBegin s die r) a

/-- Clears not begun whose range meets a new taint are abandoned, and their epochs are decided again (R376). -/
def Agg.clearsAbandon (a : Agg) (s first last : Nat) : Agg :=
  let d := a.seDie s
  let gone (r : EpochRec) : Bool := !bitAt r.flags 0 && !r.begun && !r.dropped && epMeet first last r.first r.last
  let rs := d.recs.filter gone
  match rs with
  | [] => a
  | r0 :: _ =>
    let again := (rs.map fun r => r.first :: epochsTo r.first r.last).flatten
    let a := rs.foldl (fun a r => match r.op with
      | some op => a.jrnEnd op 0x12 2
      | none => a) a
    (a.onSE s fun d => { d with
      recs := d.recs.map fun r => if gone r then { r with dropped := true } else r
      epochs := again ++ d.epochs, past := d.past.filter fun e => !again.contains e
      decidedTo := d.decidedTo.map fun x => if epLe r0.first x then epAdd r0.first (-1) else x }).put (SE_DIE_STATUS_DECIDED s)
      (epAdd r0.first (-1))

/-- A range wholly inside a taint already announced for the die (R370). -/
def DieSE.tainted (d : DieSE) (first last : Nat) : Bool :=
  (d.taints true).any fun t => epIn t.1 t.2 first && (if last = epochNone then t.2 == epochNone else epIn t.1 t.2 last)

/-- A taint (R370, R371): its record, with OPEN, CLOSES and RETRACTS; one wholly inside a taint already announced adds
nothing (log entry 186). `late` for a tile that was checked after its epoch had been decided (R372). -/
def Agg.taint (a : Agg) (s die first last core caseSeq kind : Nat) (closes late : Bool) (needs : List (Nat × Nat)) : Agg :=
  let d := a.seDie s
  if !closes && d.tainted first last then a
  else
    let told := late || d.recs.any fun r => !bitAt r.flags 0 && r.begun && epMeet first last r.first r.last
    let fl := 1 + (if !closes && last == epochNone then 4 else 0) + (if closes then 8 else 0) + (if told then 16 else 0)
    let a := a.epochRecord s die {
      flags := fl, first := first, last := last, core := core, caseSeq := caseSeq, kind := kind, needs := needs }
    let a := (a.put (SE_DIE_TAINT_FIRST s) first).put (SE_DIE_TAINT_LAST s) last
    ((a.clearsAbandon s first last).epochBegins s die).seShow s

/-! ### Fleece records (R381) -/

/-- The sample of a die latched last at or before an instant: its tick and feature 41. -/
def Agg.sampleBefore (a : Agg) (s ns : Nat) : Nat × Nat :=
  match ((a.dieDet s).hist.filter fun t => decide (t.latchNs ≤ ns)).getLast? with
  | some t => (t.tick, dieFeature [t] t.us 0 41)
  | none => (0, 0)

/-- A Fleece record (R381). -/
def fleeceBytes (a : Agg) (s die kind seq : Nat) (c : SeCase) (runs runsRef runsHost : Nat) : List Byte :=
  let sm := c.summary
  let d := tileDesc c.bytes
  let t (n : Nat) : Nat := if c.tile then n else 0
  let tick := a.sampleBefore s c.endNs
  let flags := (if c.tile then 1 else 2) + (if leAt sm 28 2 = 1 then 4 else 0) + (if leAt sm 30 2 = 1 then 8 else 0) +
    leAt sm 2 1 % 4 * 16
  withTrailer (leBytes 1 0xC ++ leBytes 1 1 ++ leBytes 2 flags ++ leBytes 4 128 ++ leBytes 8 seq ++
    leBytes 4 (die % 2 ^ 17) ++ leBytes 1 kind ++ leBytes 1 (t (descA d + 16 * descB d)) ++ leBytes 2 c.core ++
    leBytes 8 ((a.img.dies[s]?).elim 0 (·.uid)) ++ leBytes 8 c.source ++ leBytes 4 c.epoch ++
    leBytes 1 (t (descProfile d)) ++ leBytes 1 (t (descOut d + 16 * descC d)) ++ leBytes 1 (if c.tile then 0 else c.kernel) ++
    zeros 1 ++ leBytes 4 (t (d % 2 ^ 27)) ++ leBytes 2 (leAt c.bytes 52 2) ++ leBytes 2 (leAt c.bytes 54 2) ++
    leBytes 2 (leAt sm 12 2) ++ leBytes 2 (leAt sm 14 2) ++ leBytes 2 (leAt sm 28 2) ++ leBytes 2 (leAt sm 30 2) ++
    leBytes 4 (leAt sm 4 4) ++ leBytes 4 (leAt sm 24 4) ++ leBytes 4 (leAt sm 16 4) ++ leBytes 4 (leAt sm 20 4) ++
    leBytes 4 (leAt sm 16 4 ^^^ leAt sm 20 4) ++ leBytes 1 runs ++ leBytes 1 runsRef ++ leBytes 1 runsHost ++ zeros 1 ++
    leBytes 8 tick.1 ++ leBytes 4 tick.2 ++ leBytes 4 (leAt sm 32 4) ++ leBytes 8 c.endNs ++ zeros 8)

/-- The BEGIN of an export that has none (R382, R383). -/
def Agg.fleeceBegin (a : Agg) (s die : Nat) : Agg :=
  match (a.seDie s).fleece.find? fun f => f.op.isNone with
  | none => a
  | some f =>
    if a.jrnReady then
      let b := a.jrnBegin 6 (some die) (f.caseSeq % 2 ^ 64 + die % 2 ^ 32 * 2 ^ 64 + a.cfg SE_FLEECE_CFG_DEST * 2 ^ 96)
      b.1.onSE s fun d => { d with fleece := d.fleece.map fun x => if x = f then { x with op := some b.2 } else x }
    else a

/-- Commit a Fleece record; with EN it waits for its export (R381, R382). -/
def Agg.fleece (a : Agg) (s die kind seq : Nat) (c : SeCase) (runs runsRef runsHost : Nat) : Agg :=
  let l := fleeceBytes a s die kind seq c runs runsRef runsHost
  let r := a.seCommit die 0xC seq l
  if a.cfgOn SE_FLEECE_CFG_EN then
    (r.1.onSE s fun d => { d with fleece := d.fleece ++ [{
      caseSeq := seq, kind := kind, body := l, ring := r.2.1, seq := r.2.2 }] }).fleeceBegin s die
  else r.1

/-! ### Cases (R365, R370, R371) -/

/-- GOOD_EPOCH as R370 takes it: of the core's latest evidence before an instant. -/
def DieSE.goodBefore (d : DieSE) (core ns : Nat) : Option Nat :=
  ((d.good.filter fun g => g.core = core && g.ns < ns && g.epoch != epochNone).foldl (fun b g => match b with
    | none => some g
    | some x => if x.ns ≤ g.ns then some g else some x) none).map (·.epoch)

/-- A case opens with its taint (R370). `beforeNs` is the START of the faulty tile or the instant of the failing test; `late`
marks a tile checked after its epoch had been decided (R372). -/
def Agg.caseOpen (a : Agg) (s die : Nat) (c : SeCase) (beforeNs : Nat) (late : Bool) : Agg :=
  let kind := if c.tile then 8 else 9
  let good := (a.seDie s).goodBefore c.core beforeNs
  let first := good.getD (epAdd c.epoch (-(a.cfg SE_CFG_LOOKBACK : Int)))
  let last := epAdd c.epoch (a.cfg SE_CFG_LINGER)
  let r := a.caseRecord s die kind c 0 0 0 first last (good.getD epochNone)
  let a := r.1.onSE s fun d => { d with cases := d.cases ++ [{ c with seq := r.2.1, good := good.getD epochNone }] }
  a.taint s die first last c.core r.2.1 kind false late [(c.evRing, c.evSeq), r.2.2]

/-- A case closes with a classification, and one that is not TRANSIENT opens a taint (R371). Its record carries the GOOD_EPOCH
with which the case opened. -/
def Agg.caseClose (a : Agg) (s die kind : Nat) (c : SeCase) (runs runsRef runsHost : Nat) (fleece : Bool) : Agg :=
  let a := a.onSE s fun d => { d with cases := d.cases.filter fun x => x.seq ≠ c.seq }
  let first := epAdd c.epoch (a.cfg SE_CFG_LINGER + 1)
  let bad := kind ≠ 0xA
  let r := a.caseRecord s die kind c runs runsRef runsHost (if bad then first else epochNone) epochNone c.good
  let a := if bad then
      r.1.taint s die first epochNone c.core r.2.1 kind false false [(c.evRing, c.evSeq), r.2.2] else r.1
  if fleece then a.fleece s die kind r.2.1 c runs runsRef runsHost else a.seShow s

/-! ### The outcome of a tile check (R357, R359, R361) -/

/-- OUTCOME of a pass. -/
def TilePass.outcome (p : TilePass) : Nat := leAt p.summary 0 1

/-- The pass was computed. -/
def TilePass.computed (p : TilePass) : Bool := decide (p.outcome ≤ 2)

/-- ARRAYS of a check. -/
def TileCheck.arrays (c : TileCheck) : Nat := (c.passes.zipIdx.map fun p => p.1.array % 8 * 8 ^ p.2).sum

/-- A check record (R361). -/
def checkBytes (c : TileCheck) (final : Nat) (late : Bool) (dec : TilePass) (now : Nat) : List Byte :=
  let flags := (if 1 < c.passes.length ∨ c.again then 1 else 0) + (if 2 < c.passes.length then 2 else 0) +
    (if late then 4 else 0)
  withTrailer (leBytes 1 8 ++ leBytes 1 1 ++ leBytes 2 flags ++ leBytes 4 112 ++ leBytes 4 (c.die % 2 ^ 17) ++
    leBytes 2 (if c.tag < 4096 then c.tag else 0) ++ leBytes 2 c.core ++ leBytes 8 c.captureSeq ++ leBytes 4 c.epoch ++
    leBytes 4 c.seq ++ leBytes 4 (refCrc (tileDesc c.bytes) dec.ref) ++ leBytes 4 (hostCrc c.bytes) ++ leBytes 8 now ++
    dec.summary ++ leBytes 1 final ++ zeros 1 ++ leBytes 2 c.arrays ++ zeros 4)

/-- The registers and counts that a final outcome moves (R357, R372, R385). -/
def Agg.outcomeCounts (a : Agg) (s epoch final : Nat) (late : Bool) : Agg :=
  let a := a.count VRF_WORK_COUNT_TILES
  let a := match final with
    | 0 => (a.count SE_WORK_COUNT_PASSED).countTiles s epoch fun n => (n.1 + 1, n.2)
    | 1 => (a.count SE_WORK_COUNT_CONFIRMED).event SE_EVENT_CONFIRMED (a.dieOfSlot s)
    | 2 => ((a.count SE_WORK_COUNT_SUSPECT).event SE_EVENT_VERIFIER_SUSPECT).countTiles s epoch fun n => (n.1 + 1, n.2)
    | 3 => (a.event SE_EVENT_UNCONFIRMED (a.dieOfSlot s)).countUnchecked s epoch 1
    | _ => a.countUnchecked s epoch 1
  if late then (a.count SE_ERR_COUNT_LATE).event SE_EVENT_LATE_TILE (a.dieOfSlot s) else a

/-- The profile of a tile is a BOUND one. -/
def Agg.tileBound (a : Agg) (c : TileCheck) : Bool :=
  (parseProfile (a.profileFor (descProfile (tileDesc c.bytes)) c.endNs).1).bound

/-- The epoch of a tile has been decided: here, or by the former primary (R372, R378). -/
def DieSE.isLate (d : DieSE) (epoch : Nat) : Bool := d.past.contains epoch || d.decidedTo.any fun x => epLe epoch x

/-- The final outcome of a check (R359, R361, R366): its record, its counts, evidence for its core, the arrays that passed
the tile, a case for CONFIRMED, and a self-test of the arrays named due. -/
def Agg.checkFinal (a : Agg) (c : TileCheck) (final : Nat) (dec : TilePass) (passed due : List Nat) : Agg :=
  let late := (a.seDie c.slot).isLate c.epoch
  let bound := a.tileBound c
  let r := a.seCommit c.die 8 c.captureSeq (checkBytes c final late dec a.p.nowNs)
  let a := r.1.onVrf fun v => { v with checks := v.checks.filter fun x => x.tag ≠ c.tag }
  let a := a.outcomeCounts c.slot c.epoch final late
  let a := if final = 0 ∨ final = 2 then
      a.onSE c.slot fun d => { d with good := d.good ++ [{ core := c.core, epoch := c.epoch, ns := c.endNs }] }
    else a
  let ref : TileRef := {
    slot := c.slot, ring := c.ring, seq := c.seq, captureSeq := c.captureSeq, epoch := c.epoch, endNs := a.p.nowNs }
  let a := passed.foldl (fun a x => a.onArr x fun y => { y with since := y.since ++ [ref] }) a
  let a := if final = 1 then
      a.caseOpen c.slot c.die {
        core := c.core, epoch := c.epoch, source := c.captureSeq, endNs := c.endNs, bytes := c.bytes
        refCrc := refCrc (tileDesc c.bytes) dec.ref, hostCrc := hostCrc c.bytes, bound := bound, summary := dec.summary
        arrays := c.arrays, evRing := r.2.1, evSeq := r.2.2 } c.startNs late
    else a
  (due.foldl (fun a x => a.testDue x) a).seShow c.slot

/-- A check goes on to another array, in class 0, without those that computed it (R359). -/
def Agg.recheck (a : Agg) (c : TileCheck) : Agg :=
  let a := a.onVrf fun v => { v with checks := v.checks.map fun x => if x.tag = c.tag then c else x }
  let used := (c.passes.map (·.array)).eraseDups
  a.submit (.tile c.tag) 0 ((used.map (2 ^ ·)).sum)

/-- One more pass of a check has ended: the table of R359. -/
def Agg.checkStep (a : Agg) (tag : Nat) (p : TilePass) : Agg :=
  match a.vrf.checks.find? fun c => c.tag = tag with
  | none => a
  | some c0 =>
    let c : TileCheck := { c0 with passes := c0.passes ++ [p] }
    match c.passes with
    | [p1] =>
      if p1.outcome = 0 ∨ p1.outcome = 2 then a.checkFinal c 0 p1 [p1.array] []
      else if p1.outcome = 1 then a.recheck c
      else a.checkFinal c 4 p1 [] []
    | [p1, p2] =>
      if ¬ p2.computed then a.checkFinal c 3 p1 [] []
      else if p2.ref = p1.ref then a.checkFinal c 1 p2 [] []
      else if p2.outcome ≠ 1 then a.checkFinal c 2 p2 [p2.array] [p1.array]
      else a.recheck c
    | [p1, p2, p3] =>
      if ¬ p3.computed then a.checkFinal c 3 p1 [] []
      else if p3.ref = p1.ref ∨ p3.ref = p2.ref then
        let odd := if p3.ref = p1.ref then p2.array else p1.array
        if p3.outcome = 1 then a.checkFinal c 1 p3 [] [odd] else a.checkFinal c 2 p3 [p3.array] [odd]
      else a.checkFinal c 3 p1 [] [p1.array, p2.array, p3.array]
    | _ => a

end Sys2Proof.Machine
end

