-- ==== Sys2Proof/Machine/Verifier.lean ====
section
/-! DEFINITION. The commands of the Verifier (10): passes (R325, R335, R347, R348), self-tests, repair and retirement (R349
to R352), predictor jobs (R343 to R345), and the dispatch of tile checks (R355, R356). -/

namespace Sys2Proof.Machine

/-! ### Tests and arrays (R350 to R352, R360) -/

/-- An array records PASS: tiles it passed before the test began are vouched for (R350, R369). -/
def Agg.testPass (a : Agg) (t : SelfTest) (x : Nat) : Agg :=
  let began := t.beganNs.getD 0
  ((a.put (VRF_ARR_ST_LAST_PASS_SEC x) a.p.nowSec).put (VRF_ARR_ST_RESULT x) 1).onArr x fun y => { y with
    since := y.since.filter fun r => decide (began ≤ r.endNs) }

/-- The record of a tile, while the ring still holds it: found by its CAPTURE_SEQ, since a tile that was fetched on takeover
has its RING_SEQ from another aggregator's ring (R360, R378). -/
def Agg.tileRecord (a : Agg) (r : TileRef) : Option RingRec :=
  (a.ring r.ring).recs.find? fun q => q.cls == a.cfg ING_CLASS_MAP_TILE && q.die == a.dieOfSlot r.slot && q.ident == r.captureSeq

/-- A tile is checked again because an array that passed it was retired: it counts no more as CHECKED, and its new check
runs in class 0 without that array, while its record is held (R360). -/
def Agg.tileAgain (a : Agg) (x : Nat) (r : TileRef) : Agg :=
  let a := a.countTiles r.slot r.epoch fun n => (n.1 - 1, n.2)
  match a.tileRecord r with
  | none => a.countUnchecked r.slot r.epoch 1
  | some q =>
    let l := a.recordBytes r.ring q
    let endNs := extendStamp (leAt l 48 4) q.arriveNs
    let tag := a.se.nextAgain
    let c : TileCheck := {
      tag := tag, slot := r.slot, die := (a.dieOfSlot r.slot).getD 0, ring := r.ring, seq := q.seq
      captureSeq := r.captureSeq, epoch := r.epoch, core := leAt l 14 2, startNs := extendStamp (leAt l 44 4) endNs
      endNs := endNs, bytes := l, again := true }
    let a : Agg := { a with se := { a.se with nextAgain := tag + 1 } }
    (a.onVrf fun v => { v with checks := v.checks ++ [c] }).submit (.tile tag) 0 (2 ^ x)

/-- The jobs of the passes in progress on an array return to the heads of their classes (R348, R352). -/
def Agg.passDiscard (a : Agg) (x : Nat) : Agg :=
  let js := (a.vrf.arr.get x).passes.flatMap fun p => p.job :: p.more
  (a.onVrf fun v => { v with jobs := js ++ v.jobs }).onArr x fun y => { y with job := none, drain := [] }

/-- A self-test is over. -/
def Agg.testGone (a : Agg) (id : Nat) : Agg :=
  let mine (j : VJob) : Bool := j.work == .selfTest id
  a.onVrf fun v => { v with tests := v.tests.filter fun t => t.id ≠ id, jobs := v.jobs.filter fun j => !mine j }

/-- The pending reruns of an array's repair: none outlives its retirement, after which only RETEST brings it back (R352). -/
def Agg.rerunsOf (a : Agg) (x : Nat) : List Nat := (a.vrf.tests.filter fun t => t.kind = 1 && t.target = x).map (·.id)

/-- An array is retired (R351, R352, R360). -/
def Agg.arrayRetire (a : Agg) (x : Nat) : Agg :=
  if a.reg (VRF_ARR_STATUS_STATE x) = 2 then a
  else
    let refs := (a.vrf.arr.get x).since
    let a := (a.put (VRF_ARR_STATUS_STATE x) 2).event VRF_EVENT_ARR_RETIRED
    let a : Agg := { a with rprQueue := a.rprQueue ++ [{ etype := 3, unit := x }] }
    let a := (a.passDiscard x).onArr x fun y => { y with since := [], repair := none }
    let a := (a.rerunsOf x).foldl Agg.testGone a
    (refs.foldl (fun a r => a.tileAgain x r) a).vrfShow

/-- The lowest spare column that replaces nothing. -/
def Agg.freeSpare (a : Agg) (x : Nat) : Option Nat :=
  (List.range 8).find? fun k =>
    !bitAt (if k < 4 then a.reg (VRF_ARR_SPARE_LO_SPARE x k) else a.reg (VRF_ARR_SPARE_HI_SPARE x (k - 4))) 15

/-- A column is replaced, and the array reruns the self-test `t` (R351). -/
def Agg.arrayRepair (a : Agg) (x col : Nat) (t : SelfTest) : Agg :=
  match a.freeSpare x with
  | none => a.arrayRetire x
  | some k =>
    let f := if k < 4 then VRF_ARR_SPARE_LO_SPARE x k else VRF_ARR_SPARE_HI_SPARE x (k - 4)
    let a := (a.put f (2 ^ 15 + col % 512)).put (VRF_ARR_STATUS_SPARES_USED x) (a.reg (VRF_ARR_STATUS_SPARES_USED x) + 1)
    let a := (a.put (VRF_ARR_STATUS_MHZ x) (min 1850 (a.reg (VRF_ARR_STATUS_MHZ x)))).put (VRF_ARR_STATUS_STATE x) 1
    let a : Agg := { a with rprQueue := a.rprQueue ++ [{ etype := 2, unit := x, place := col, detail := k }] }
    (a.onArr x fun y => { y with repair := none }).testStart t

/-- A pass of an array is over: ARR_EN and the array's domain take effect, and a repair that waited for the current pass
begins (R351, R354). -/
def Agg.passOver (a : Agg) (x : Nat) : Agg :=
  let a := a.arrPermit x
  match (a.vrf.arr.get x).repair with
  | some (col, t) => if (a.vrf.arr.get x).passes = [] then a.arrayRepair x col t else a
  | none => a

/-- Columns in which two results differ. -/
def diffColumns (r m : List (Nat × Nat)) : List Nat :=
  (((r ++ m).map Prod.fst).eraseDups).filter fun c => decide (assocGet r c ≠ assocGet m c)

/-- An array is found faulty in self-test `t`: its result `r` differs from the majority's `m` (R351). One that was retired
meanwhile is not repaired (R352). -/
def Agg.arrayFaulty (a : Agg) (x : Nat) (t : SelfTest) (r m : List (Nat × Nat)) : Agg :=
  let a := a.count VRF_ERR_COUNT_ST_FAIL
  match diffColumns r m with
  | [col] =>
    let a := (a.put (VRF_ARR_ST_RESULT x) 2).put (VRF_ARR_ST_FAIL_COL x) col
    if a.cfgOn VRF_ST_CFG_AUTO_REPAIR ∧ (a.freeSpare x).isSome ∧ a.reg (VRF_ARR_STATUS_STATE x) ≠ 2 then
      let again : SelfTest := { num := t.num, seed := t.seed, target := x, arrays := [x], kind := 1, expect := m }
      if (a.vrf.arr.get x).passes = [] then a.arrayRepair x col again
      else a.onArr x fun y => { y with repair := some (col, again) }
    else a.arrayRetire x
  | _ => (a.put (VRF_ARR_ST_RESULT x) 3).arrayRetire x

/-- Arrays that disagree without a majority are all retired (R350). -/
def Agg.testDisagree (a : Agg) (xs : List Nat) : Agg :=
  (xs.foldl (fun a x => (a.put (VRF_ARR_ST_RESULT x) 3).arrayRetire x) (a.event VRF_EVENT_ST_DISAGREE))

/-- An array that passed returns to IN_SERVICE, from REPAIRING or RETIRED, as far as ARR_EN and its domain let it serve (R351,
R352, R354). -/
def Agg.arrayReturn (a : Agg) (x from_ : Nat) : Agg :=
  if a.reg (VRF_ARR_STATUS_STATE x) = from_ then (a.put (VRF_ARR_STATUS_STATE x) 0).arrPermit x else a

/-- The results of a self-test are compared once all its arrays have run it (R350 to R352). -/
def Agg.testEval (a : Agg) (t : SelfTest) : Agg :=
  let res (x : Nat) : Option (List (Nat × Nat)) := (t.results.find? fun r => r.1 = x).map Prod.snd
  match t.kind, t.arrays.map fun x => (x, res x) with
  | 1, [(x, some r)] =>
    let a := a.testGone t.id
    if r = t.expect then
      ((a.arrayReturn x 1).event VRF_EVENT_COL_REPAIRED).testPass t x
    else a.arrayRetire x
  | 2, [(x, some r), (_, some r2), (_, some r3)] =>
    let a := a.testGone t.id
    if r = r2 ∧ r = r3 then (a.arrayReturn x 2).testPass t x else a
  | 0, [(x, some r), (y, some r2)] =>
    if r = r2 then ((a.testGone t.id).testPass t x).testPass t y
    else match a.nextArrays y [x] with
      | [] => (a.testGone t.id).testDisagree [x, y]
      | z :: _ =>
        (a.onVrf fun v => { v with tests := v.tests.map fun q =>
          if q.id = t.id then { q with arrays := [x, y, z] } else q }).submit (.selfTest t.id) 0 (255 - 2 ^ z)
  | 0, [(x, some r), (y, some r2), (z, some r3)] =>
    let a := a.testGone t.id
    if r = r3 then ((a.testPass t x).testPass t z).arrayFaulty y t r2 r
    else if r2 = r3 then ((a.testPass t y).testPass t z).arrayFaulty x t r r2
    else a.testDisagree [x, y, z]
  | _, _ => a

/-- An array has run a self-test: `flips` gives the columns whose results differ from the exact ones. -/
def Agg.testResult (a : Agg) (id x : Nat) (flips : List (Nat × Nat)) : Agg :=
  let a := a.onVrf fun v => { v with tests := v.tests.map fun t =>
    if t.id = id then { t with results := t.results ++ [(x, flips)] } else t }
  match a.testOf id with
  | some t => a.testEval t
  | none => a

/-! ### Jobs without an array (R347) -/

/-- A job leaves the queue. -/
def Agg.jobGone (a : Agg) (j : VJob) : Agg := a.onVrf fun v => { v with jobs := v.jobs.filter fun x => x.id ≠ j.id }

/-- A job is over without having computed: a check with its outcome, a predictor job without outputs, a self-test without
comparison (R347, R348). The rerun of a repair has then not passed, and its array is retired (R351). -/
def Agg.jobVoid (a : Agg) (j : VJob) (outcome array : Nat) : Agg :=
  match j.work with
  | .tile tag => a.checkStep tag { array := array, summary := emptySummary outcome array 0 false }
  | .predict _ _ _ => a
  | .selfTest id =>
    match a.testOf id with
    | some t => if t.kind = 1 then (a.testGone id).arrayRetire t.target else a.testGone id
    | none => a

/-- Jobs that no array may take complete at once (R347); `n` bounds their number. -/
def Agg.vrfSweep (a : Agg) : Nat → Agg
  | 0 => a.vrfShow
  | n + 1 =>
    match a.vrf.jobs.find? a.noArrayFor with
    | none => a.vrfShow
    | some j => (((a.jobGone j).event VRF_EVENT_NO_ARRAY).jobVoid j 7 0).vrfSweep n

/-- Every job that no array may take. -/
def Agg.vrfSettle (a : Agg) : Agg := a.vrfSweep (2 * a.vrf.jobs.length + 8)

/-! ### Passes (R325, R335, R347, R348) -/

/-- The job that a free array takes (R347): the oldest eligible one of the highest class that has one. -/
def Agg.jobFor (a : Agg) (x : Nat) : Option VJob :=
  let l := a.vrf.jobs.filter fun j => a.eligible j x
  (List.range 4).findSome? fun c => l.find? fun j => j.cls = c

/-- The queued predictor jobs that run with a job in one pass: those of its package and tick, of any die slot (R344). -/
def Agg.batchOf (a : Agg) (x : Nat) (j : VJob) : List VJob :=
  match j.work with
  | .predict _ tick l => a.vrf.jobs.filter fun q => a.eligible q x && match q.work with
    | .predict _ t k => t == tick && k == l
    | _ => false
  | _ => []

/-- Start a job on an array; a tile that cannot be computed ends with its outcome (R335). -/
def Agg.jobStart (a : Agg) (x : Nat) (j : VJob) : Agg :=
  let a := a.jobGone j
  let run (a : Agg) : Agg :=
    let more := a.batchOf x j
    let a := more.foldl Agg.jobGone a
    (a.onArr x fun y => { y with job := some { job := j, startNs := a.p.nowNs, more := more } }).vrfShow
  match j.work with
  | .tile tag =>
    match a.vrf.checks.find? fun c => c.tag = tag with
    | none => a
    | some c =>
      let d := tileDesc c.bytes
      let pr := a.profileFor (descProfile d) c.endNs
      let p := parseProfile pr.1
      if ¬ p.valid then a.checkStep tag { summary := emptySummary 4 0 0 pr.2 }
      else if tileUnsupported p d then a.checkStep tag { summary := emptySummary 3 0 p.crc pr.2 }
      else run a
  | .selfTest id =>
    run (a.onVrf fun v => { v with tests := v.tests.map fun t =>
      if t.id = id ∧ t.beganNs.isNone then { t with beganNs := some a.p.nowNs } else t })
  | .predict _ _ _ => run a

/-- Cycles for which a job occupies its array (R325, R342). -/
def Agg.jobCycles (a : Agg) (j : VJob) : Nat :=
  match j.work with
  | .tile tag =>
    (a.vrf.checks.find? fun c => c.tag = tag).elim 0 fun c =>
      let d := tileDesc c.bytes
      passCycles (descA d) (descB d) (descK d)
  | .selfTest id => (a.testOf id).elim 0 fun t => passCycles (testFmt t.num) (testFmt t.num) 512
  | .predict _ _ l => predCycles l

/-- The array comes to its pass boundary: the pass that occupies it no longer does, and its results follow (R325). -/
def Agg.passBoundary (a : Agg) (x : Nat) : Agg :=
  match (a.vrf.arr.get x).job with
  | none => a
  | some p =>
    let a : Agg := { a with p := a.p.until (p.startNs + a.arrNs x (a.jobCycles p.job)) }
    (a.onArr x fun y => { y with job := none, drain := y.drain ++ [p] }).arrPermit x

/-- PASS_START (R325, R347): an array takes a job, at once when it is free and else at its pass boundary, so that passes
follow one another without a gap; none in safe state or GASP, or on an array that is to be repaired. -/
def execPassStart (x : Fin 8) (s : State) : Host.Outcome State Fault Refusal :=
  .next (s.onAgg fun a =>
    let a := a.vrfSettle
    if a.safe ∨ a.gasp ∨ (a.vrf.arr.get x).repair.isSome ∨ (a.jobFor x).isNone then a
    else
      let a := a.passBoundary x
      match a.jobFor x with
      | some j => ((a.rowsMap fun o => o == .array x).jobStart x j).vrfSettle
      | none => a.vrfShow)

/-- Bits that a fault changes in a column: a free value, not 0. -/
def drawFlips (p : Part) (cols : List Nat) : Part × List (Nat × Nat) :=
  cols.foldl (fun w c =>
    let d := w.1.draw
    (d.2, assocPut w.2 (c % 512) (1 + d.1 % (2 ^ 4 - 1)))) (p, [])

/-- The TICK run of a tick is still to come or under way (R344). -/
def Agg.tickWanted (a : Agg) (s tick : Nat) : Bool :=
  let d := a.dieDet s
  decide (d.lastTick < tick) || d.jobs.any fun j => j.1 = tick

/-- A job has its results. -/
def Agg.jobResult (a : Agg) (x : Nat) (j : VJob) (flips : List (Nat × Nat)) : Agg :=
  match j.work with
  | .tile tag =>
    match a.vrf.checks.find? fun c => c.tag = tag with
    | none => a
    | some c =>
      let pr := a.profileFor (descProfile (tileDesc c.bytes)) c.endNs
      let r := tileCompute (parseProfile pr.1) c.bytes x pr.2 flips
      a.checkStep tag { array := x, summary := r.summary, ref := r.ref }
  | .selfTest id => a.testResult id x flips
  | .predict s tick l =>
    match a.predOutputs s tick l with
    | some o =>
      if a.tickWanted s tick then
        a.onVrf fun v => { v with pred := v.pred.upd s fun p => { p with
          outs := p.outs.filter (fun q => q.1 ≠ tick) ++ [(tick, o)] } }
      else a
    | none => a

/-- The results of a pass leave the array: those of its job and of the jobs batched with it (R344). -/
def Agg.passResult (a : Agg) (x : Nat) (p : Pass) (flips : List (Nat × Nat)) : Agg :=
  (p.job :: p.more).foldl (fun a j => a.jobResult x j flips) a

/-- The results of an array's oldest pass leave it, 1,024 cycles after it stopped occupying the array (R325). -/
def Agg.passEnd (a : Agg) (x : Nat) (f : PassFault) : Agg :=
  match (a.vrf.arr.get x).passes with
  | [] => a
  | p :: _ =>
    let a : Agg := { a with p := a.p.until (p.startNs + a.arrNs x (a.jobCycles p.job + 1024)) }
    let d := drawFlips a.p f.columns
    let a := (({ a with p := d.1 } : Agg).count VRF_WORK_COUNT_PASSES).onArr x fun y =>
      if y.drain = [] then { y with job := none } else { y with drain := y.drain.tail }
    ((a.passResult x p d.2).passOver x).vrfSettle

/-- PASS_END (R325). -/
def execPassEnd (x : Fin 8) (f : PassFault) (s : State) : Host.Outcome State Fault Refusal :=
  .next (s.onAgg fun a => a.passEnd x f)

/-- JOB_AGING (R347): a job that has waited AGE_US moves up one class, never into class 0. -/
def execJobAging (job : Nat) (s : State) : Host.Outcome State Fault Refusal :=
  .next (s.onAgg fun a =>
    match a.vrf.jobs.find? fun j => j.id = job with
    | none => a
    | some j =>
      let n := a.cfg VRF_PRIO_AGE_US
      if n = 0 ∨ j.cls < 2 then a
      else
        let a : Agg := { a with p := a.p.until (j.sinceNs + n * 1000) }
        (a.onVrf fun v => { v with jobs := v.jobs.map fun x =>
          if x.id = job then { x with cls := x.cls - 1, aged := true, sinceNs := a.p.nowNs } else x }).vrfSettle)

/-- An uncorrectable operand error (R348): of the discarded pass's jobs, those that met one before end by it, and the others
run once more, at once on their array, or from the queue where the array is to be repaired. -/
def Agg.passUe (a : Agg) (x : Nat) (p : Pass) : Agg :=
  let js := p.job :: p.more
  let free := a.onArr x fun y => { y with job := none }
  let a := (js.filter (·.again)).foldl (fun a j => a.jobVoid j 6 x) free
  match (js.filter (! ·.again)).map fun j => ({ j with again := true } : VJob) with
  | [] => (a.passOver x).vrfSettle
  | j :: more =>
    if (a.vrf.arr.get x).repair.isSome ∨ a.reg (VRF_ARR_STATUS_STATE x) = 2 then
      ((a.onVrf fun v => { v with jobs := j :: more ++ v.jobs }).passOver x).vrfSettle
    else (a.onArr x fun y => { y with job := some { job := j, startNs := a.p.nowNs, more := more } }).vrfSettle

/-- OPERAND_UE (R348), with `corrected` for a corrected error. -/
def execOperandUe (x : Fin 8) (corrected : Bool) (s : State) : Host.Outcome State Fault Refusal :=
  .next (s.onAgg fun a =>
    if corrected then (a.count VRF_ERR_COUNT_OPERAND_CE).event VRF_EVENT_OPERAND_CE
    else
      let a := (a.count VRF_ERR_COUNT_OPERAND_UE).event VRF_EVENT_OPERAND_UE
      match (a.vrf.arr.get x).job with
      | none => a
      | some p => a.passUe x p)

/-! ### Self-test commands (R349, R352) -/

/-- SELF_TEST_DUE (R349): the next instant at which the array is due. -/
def execSelfTestDue (x : Fin 8) (s : State) : Host.Outcome State Fault Refusal :=
  .next (s.onAgg fun a =>
    let ms := a.cfg VRF_ST_CFG_ST_PERIOD_MS
    if ms = 0 then a
    else
      let off := x.val * ms * 1000000 / 8
      let per := ms * 1000000
      let a : Agg := { a with p := a.p.until (ceilDiv (a.p.nowNs - off) per * per + off) }
      (a.testDue x).vrfSettle)

/-- SELFTEST (R349). -/
def execSelftest (x : Fin 8) (s : State) : Host.Outcome State Fault Refusal :=
  .next (s.onWrite fun a => (a.testDue x).vrfSettle)

/-- RETEST (R352). -/
def execRetest (x : Fin 8) (s : State) : Host.Outcome State Fault Refusal :=
  .next (s.onWrite fun a => (a.testRetired x).vrfSettle)

/-- RETIRE (R352). -/
def execRetire (x : Fin 8) (s : State) : Host.Outcome State Fault Refusal :=
  .next (s.onWrite fun a => (a.arrayRetire x).vrfSettle)

/-- A tile that ended before the change of profiles waits or is being checked (R336). -/
def Agg.prevNeeded (a : Agg) : Bool :=
  match a.vrf.profPrev with
  | none => false
  | some (_, ns) => a.vrf.checks.any (fun c => c.endNs < ns) ||
      (List.range 16).any fun s => (a.seDie s).wait.any fun w => w.endNs < ns

/-- PREV_TABLE_RELEASE (R336). -/
def execPrevTableRelease (s : State) : Host.Outcome State Fault Refusal :=
  .next (s.onAgg fun a =>
    if a.prevNeeded then a else (a.onVrf fun v => { v with profPrev := none }).put VRF_STATUS_PREV_TABLE 0)

/-- Safe state: passes in progress are discarded; their jobs wait (R348, R358). -/
def Agg.vrfSafe (a : Agg) : Agg := ((List.range 8).foldl (fun a x => (a.passDiscard x).passOver x) a).vrfShow

/-! ### Predictor jobs (R343 to R345) -/

/-- The package that a die slot names is read when its name changes, and checked (R343). -/
def Agg.predPackage (a : Agg) (s : Nat) : Agg :=
  let addr := a.cfg (VRF_PRED_DIE_ADDR_4K s)
  let crc := a.cfg (VRF_PRED_DIE_PKG_CRC s)
  if (a.vrf.pred.get s).tried = some (addr, crc) then a
  else
    let a := a.onVrf fun v => { v with pred := v.pred.upd s fun p => { p with tried := some (addr, crc) } }
    let len := leNat (a.shedRead (addr * 4096 + 20) 4)
    let l := a.shedRead (addr * 4096) len
    if a.inRegion 8 (addr * 4096) len ∧ packageGood l crc then
      a.onVrf fun v => { v with pred := v.pred.upd s fun p => { p with pkg := l } }
    else a.event VRF_EVENT_PRED_PKG_REFUSED (a.dieOfSlot s)

/-- The tick of a queued predictor job has latched, so that it is urgent (R346). -/
def Agg.predLatched (a : Agg) (s tick : Nat) : Bool :=
  let us := ((a.dieDet s).hist.getLast?).elim a.p.tick.us (·.us)
  decide (tick * us * 1000 ≤ a.p.nowNs)

/-- A queued predictor job whose tick has latched moves to URGENT_CLASS, once, unless aging has taken it above; a job of a
rebuilding run does not (R346). -/
def Agg.urgentNow (a : Agg) (j : VJob) : VJob :=
  match j.work with
  | .predict s t _ =>
    if ¬ j.rebuild ∧ ¬ j.urgent ∧ a.predLatched s t then
      let c := a.cfg VRF_PRIO_URGENT_CLASS
      { j with urgent := true, cls := if j.aged then min c j.cls else c, sinceNs := a.p.nowNs }
    else j
  | _ => j

/-- Every queued job whose tick has latched is urgent (R346). -/
def Agg.vrfUrgent (a : Agg) : Agg := (a.onVrf fun v => { v with jobs := v.jobs.map a.urgentNow }).vrfShow

/-- A new predictor job (R344, R345); `rebuild` for a rebuilding run's. -/
def Agg.predJob (a : Agg) (s tick : Nat) (rebuild : Bool) : Agg :=
  if a.cfgOn VRF_PRED_CFG_EN ∧ a.cfgOn (VRF_PRED_DIE_EN s) then
    let a := a.predPackage s
    let l := (a.vrf.pred.get s).pkg
    if l = [] then a
    else
      let stale (j : VJob) : Bool := match j.work with
        | .predict s t _ => !a.tickWanted s t || (a.dieDet s).run.any fun r => r.round.isNone && r.tick == t
        | _ => false
      let a := if 64 ≤ a.predJobs then a.onVrf fun v => { v with jobs := v.jobs.filter fun j => !stale j } else a
      if 64 ≤ a.predJobs then (a.count VRF_ERR_COUNT_PRED_DROP).event VRF_EVENT_PRED_DROP (a.dieOfSlot s)
      else (a.submit (.predict s tick l) (a.cfg VRF_PRIO_PRED_CLASS) 0 rebuild).vrfUrgent.vrfSettle
  else a

/-! ### The dispatch of tile checks (R355, R356) -/

/-- The lowest free tag. -/
def Agg.freeTag (a : Agg) : Option Nat :=
  let used := a.vrf.checks.map (·.tag)
  (List.range 4096).find? fun t => !used.contains t

/-- TAGS_FULL is set when every tag is held (R356). -/
def Agg.tagsFull (a : Agg) : Agg := if 4096 ≤ a.tagsUsed then a.event SE_EVENT_TAGS_FULL else a

/-- The dispatcher takes a die's next tile record (R355): its cursor passes the record, and the check is queued. -/
def Agg.tileTake (a : Agg) (s die : Nat) : Agg :=
  match (a.seDie s).wait, a.freeTag with
  | w :: rest, some tag =>
    let l := if w.bytes = [] then ((a.ring w.ring).find w.seq).elim [] (a.recordBytes w.ring) else w.bytes
    let c : TileCheck := {
      tag := tag, slot := s, die := die, ring := w.ring, seq := w.seq, captureSeq := w.captureSeq, epoch := w.epoch
      core := leAt l 14 2, startNs := extendStamp (leAt l 44 4) w.endNs, endNs := w.endNs, bytes := l }
    let a := a.onSE s fun d => { d with wait := rest }
    let a := if w.bytes = [] then a.ringConsume w.ring 1 a.tilesOwed else a
    let a := a.onVrf fun v => { v with checks := v.checks ++ [c] }
    (((a.submit (.tile tag) (a.cfg VRF_PRIO_VERIFY_CLASS) 0).tagsFull).vrfSettle).seShow s
  | _, _ => a

/-- The dispatcher may take a record of the die slot (R355, R356); none while the die is RESTORING, whose fetched tiles come
before those committed since (R378, log entry 176). -/
def Agg.tileMayTake (a : Agg) (s : Nat) : Bool :=
  (a.dieOfSlot s).isSome && a.cfgOn SE_CFG_EN && a.reg (SE_DIE_STATUS_STATE s) != 1 && (a.seDie s).wait != [] &&
    decide (a.tagsHeld s < a.cfg SE_TAG_CFG_DIE_TAGS)

/-- The die slot that the dispatcher serves: round-robin, the next one from which it may take a record (R355). -/
def Agg.tileTurn (a : Agg) : Option Nat :=
  ((List.range 16).map fun i => (a.se.turn + i) % 16).find? a.tileMayTake

/-- TILE_CHECK_DISPATCH (R355, R356): the dispatcher takes the next record of the die slot whose turn it is. -/
def execTileCheckDispatch (slot : Fin 16) (s : State) : Host.Outcome State Fault Refusal :=
  .next (s.onAgg fun a =>
    match a.dieOfSlot slot with
    | none => a
    | some die =>
      if a.tileTurn = some slot.val ∧ a.freeTag.isSome then
        ({ a with se := { a.se with turn := (slot + 1) % 16 } } : Agg).tileTake slot die
      else a)

end Sys2Proof.Machine
end

