-- ==== Sys2Proof/Machine/Taint.lean ====
section
/-! DEFINITION. The commands of silent errors (11): the die's epoch settings (R367), committed tiles and field tests (R357,
R365, R368), replays (R362, R364), epoch decisions (R369, R372), the delivery of taints, clears and Fleece records (R375,
R376, R382), LIFT and CLOSE_CASE (R371, R385), and the restore after a takeover (R378). -/

namespace Sys2Proof.Machine

/-! ### Settings (R367) -/

/-- The aggregator reads the live epoch settings of a die through `ULG_CFG_LSEL` and `ULG_CFG_LDATA`. -/
def Agg.settingsAsk (a : Agg) (s : Nat) : Agg :=
  let p := a.portOfSlot s
  [(ULG_EPOCH_CFG_EPOCH_MS.off, 0), (ULG_EPOCH_ACT_SEC_ACT_SEC.off, 1)].foldl (fun a w =>
    (a.cmdIssue p { opcode := 2, addr := ULG_CFG_LSEL_OFFSET.off, count := 1, data := [w.1] }).cmdIssue p {
      opcode := 1, addr := ULG_CFG_LDATA_VALUE.off, count := 1, use := .epoch s w.2 }) a

/-- The answer to one of the two reads; with the second the settings are held, and a faulty EPOCH that now agrees stops
decisions no more. -/
def Agg.settingsTake (a : Agg) (s word value : Nat) : Agg :=
  if word = 0 then a.onSE s fun d => { d with readMs := value % 65536 }
  else
    let ms := (a.seDie s).readMs
    let act := value % 2 ^ 48
    let cur := a.reg (SE_DIE_EPOCH_CUR_MS s)
    let a := if act * 1000000000 ≤ a.p.nowNs then
        let a := if cur ≠ ms ∧ act ≠ 0 then a.onSE s fun d => { d with prevMs := cur, actSec := act } else a
        (a.put (SE_DIE_EPOCH_CUR_MS s) ms).put (SE_DIE_EPOCH_NEXT_MS s) 0
      else ((a.onSE s fun d => { d with actSec := act }).put (SE_DIE_EPOCH_NEXT_MS s) ms).put (SE_DIE_EPOCH_ACT_SEC_LO s)
        act
    (a.onSE s fun d => { d with bad := d.bad.filter fun b => a.epochFaulty s b.1 b.2 }).epochsBegan s

/-- A faulty EPOCH of a record of the die (R367): decisions stop until the settings have been read again and agree. -/
def Agg.epochCheck (a : Agg) (s ns epoch : Nat) : Agg :=
  if a.epochFaulty s ns epoch then
    ((a.onSE s fun d => { d with bad := some (ns, epoch) }).event SE_EVENT_EPOCH_MISMATCH (a.dieOfSlot s)).settingsAsk s
  else a

/-- Epochs of a die are followed from its first record in a PRIMARY ring on (R369). -/
def Agg.seStart (a : Agg) (s : Nat) : Agg :=
  (if a.reg (SE_DIE_STATUS_STATE s) = 0 then a.put (SE_DIE_STATUS_STATE s) 2 else a).epochsBegan s

/-! ### Tiles (R355, R357) -/

/-- The value that the image gives a Uligo register of a die slot, else its reset value. -/
def Agg.uligoValue (a : Agg) (s : Nat) (f : Field) : Nat :=
  match (a.img.uligo.filter fun e => e.off = f.off && bitAt e.slots s).getLast? with
  | some e => e.value / 2 ^ f.lsb % 2 ^ f.width
  | none => f.reset

/-- The sampling rule of R127 selects a tap's command index. -/
def Agg.seedSelects (a : Agg) (s tap n : Nat) : Bool :=
  (gen (a.uligoValue s ULG_TILE_SEED_SEED ^^^ (a.img.dies[s]?).elim 0 (·.uid)) tap n).1 %
    2 ^ a.uligoValue s ULG_TILE_CFG_LOG2N == 0

/-- Tiles missing before a committed one: a gap in CAPTURE_SEQ, and command indexes that the sampling rule selects, each
tile once (R357). -/
def Agg.tileGaps (a : Agg) (s seq tap index epoch : Nat) : Agg :=
  let d := a.seDie s
  let gap := match d.lastCapture with
    | some l => ((List.range (seq - (l + 1))).filter fun i => !d.refused.any fun r => r.1 = l + 1 + i).length
    | none => 0
  let sel := match d.cmdIndex.get tap with
    | some l => ((List.range (index - (l + 1))).filter fun i =>
        a.seedSelects s tap (l + 1 + i) && !d.refused.any fun r => r.2.1 = tap && r.2.2 = l + 1 + i).length
    | none => 0
  let known := a.reg (SE_DIE_STATUS_STATE s) ≠ 1
  let gap := if known then gap else 0
  let sel := if known then sel else 0
  let used := min (d.credit + gap) sel
  let a := a.countUnchecked s epoch (gap + (sel - used))
  a.onSE s fun d => { d with
    credit := d.credit + gap - used, lastCapture := some (max seq (d.lastCapture.getD 0))
    cmdIndex := d.cmdIndex.set tap (some index), refused := d.refused.filter fun r => decide (seq < r.1) }

/-- A committed tile waits for its check (R355, R357, R367). -/
def Agg.tileCommitted (a : Agg) (c : Committed) : Agg :=
  if a.cfgOn SE_CFG_EN ∧ c.primary then
    let l := c.bytes
    let epoch := leAt l 40 4
    let endNs := extendStamp (leAt l 48 4) a.p.nowNs
    let a := (a.seStart c.slot).epochCheck c.slot endNs epoch
    let a := a.tileGaps c.slot c.ident (leAt l 12 1) (leAt l 32 8) epoch
    (a.onSE c.slot fun d => { d with wait := d.wait ++ [{
      ring := c.ring, seq := c.seq, captureSeq := c.ident, epoch := epoch, endNs := endNs }] }).seShow c.slot
  else a

/-! ### Field tests (R365, R368) -/

/-- The retest of a case: `ULG_FT_FORCE` is written on the die (R365). -/
def Agg.ftRetest (a : Agg) (s : Nat) (c : SeCase) : Agg :=
  a.cmdIssue (a.portOfSlot s) {
    opcode := 2, addr := ULG_FT_FORCE_CORE.off, count := 1
    data := [c.core % 2 ^ 13 + c.kernel % 256 * 2 ^ 16 + c.source % 2 ^ 32 * 2 ^ 32] }

/-- A confirmed field-test failure opens a case and forces its retest (R365, R370). -/
def Agg.ftCase (a : Agg) (s die core : Nat) (e : List Byte) (ring seq closeNs : Nat) : Agg :=
  let c : SeCase := {
    tile := false, core := core, epoch := leAt e 24 4, source := leAt e 0 8, endNs := closeNs, kernel := leAt e 8 1
    evRing := ring, evSeq := seq, forceNs := a.p.nowNs }
  (a.caseOpen s die c closeNs false).ftRetest s c

/-- The entry is of a retest of the case: FORCED, of its sequence and kernel, with its core among the two (R365). -/
def ftRetestOf (c : SeCase) (e : List Byte) : Bool :=
  !c.tile && c.source == leAt e 0 8 && c.kernel == leAt e 8 1 && bitAt (leAt e 10 2) 3 &&
    (c.core == leAt e 16 2 || c.core == leAt e 18 2)

/-- The classification that a retest's entry gives to its case (R365). -/
def ftClass (c : SeCase) (e : List Byte) : Option Nat :=
  match leAt e 9 1 with
  | 1 => some 0xA
  | 2 => if leAt e 16 2 = c.core then some 0xB else none
  | 3 => if leAt e 18 2 = c.core then some 0xB else none
  | 4 => some 0xC
  | _ => none

/-- The one case that a retest's entry classifies (R365), and its classification: where both cores have a case, the entry does
not say which was forced, and CORE_A, which the instance was opened for, comes first (log entry 177). -/
def DieSE.ftDone (d : DieSE) (e : List Byte) : Option (SeCase × Nat) :=
  let cs := d.cases.filterMap fun c => if ftRetestOf c e then (ftClass c e).map fun n => (c, n) else none
  (cs.find? fun k => k.1.core == leAt e 16 2).orElse fun _ => cs.head?

/-- The cores on which an entry confirms a fault (R365). -/
def ftFaulty (e : List Byte) : List Nat :=
  match leAt e 9 1 with
  | 2 => [leAt e 16 2]
  | 3 => [leAt e 18 2]
  | 4 => [leAt e 16 2, leAt e 18 2]
  | _ => []

/-- One entry of a committed field-test record (R365, R366, R368); a fault whose core has a case of that test open already
opens none. -/
def Agg.ftEntry (a : Agg) (s die ring seq : Nat) (e : List Byte) : Agg :=
  let epoch := leAt e 24 4
  let ns := extendStamp (leAt e 12 4) a.p.nowNs
  if epoch = epochNone then a.event SE_EVENT_EPOCH_MISMATCH (some die)
  else
    let a := a.epochCheck s ns epoch
    let a := if leAt e 9 1 = 1 then
        a.onSE s fun d => { d with good := d.good ++ ([leAt e 16 2, leAt e 18 2].map fun k => {
          core := k, epoch := epoch, ns := ns : GoodEv }) }
      else a
    let open_ := (a.seDie s).cases
    let a := match (a.seDie s).ftDone e with
      | some k => a.caseClose s die k.2 k.1 1 0 0 true
      | none => a
    ((ftFaulty e).filter fun k => !open_.any fun d => !d.tile && d.core == k && d.source == leAt e 0 8 && d.kernel == leAt e 8 1).foldl
      (fun a k => a.ftCase s die k e ring seq ns) a

/-- The entries of a field-test record. -/
def Agg.ftEntries (a : Agg) (s die ring seq : Nat) (l : List Byte) : Agg :=
  (List.range (leAt l 2 2)).foldl (fun a i => a.ftEntry s die ring seq ((l.drop (32 + 64 * i)).take 64)) a

/-- The entries of a committed field-test record (R365). One committed while the die is RESTORING waits until the restore has
given its DSEQ and CASE_SEQ (R378, log entry 176). -/
def Agg.ftCommitted (a : Agg) (c : Committed) : Agg :=
  if a.cfgOn SE_CFG_EN ∧ c.primary then
    if a.reg (SE_DIE_STATUS_STATE c.slot) = 1 then
      a.onSE c.slot fun d => { d with ftWait := d.ftWait ++ [(c.ring, c.seq, c.bytes)] }
    else (a.seStart c.slot).ftEntries c.slot c.die c.ring c.seq c.bytes
  else a

/-- FT_RETEST_EXPIRED (R365): no outcome within WAIT_MS. -/
def execFtRetestExpired (slot : Fin 16) (s : State) : Host.Outcome State Fault Refusal :=
  .next (s.onAgg fun a =>
    match a.dieOfSlot slot, (a.seDie slot).cases.find? fun c => !c.tile with
    | some die, some c =>
      let a : Agg := { a with p := a.p.until (c.forceNs + a.cfg SE_RPL_CFG_WAIT_MS * 1000000) }
      a.caseClose slot die 0xD c 0 0 0 true
    | _, _ => a)

/-! ### Replays (R362, R364) -/

/-- A replay command to the die. -/
def Agg.rplCommand (a : Agg) (s sub off : Nat) (data : List Nat) (use : CmdUse) : Agg :=
  a.cmdIssue (a.portOfSlot s) {
    opcode := 0x10, arg := sub + 256 * off, count := data.length, data := data, use := use }

/-- The driver of a die's replay changed. -/
def Agg.onRpl (a : Agg) (s : Nat) (f : SeReplay → SeReplay) : Agg := a.onSE s fun d => { d with rpl := d.rpl.map f }

/-- The case that a replay is for. -/
def DieSE.rplCase (d : DieSE) : Option SeCase := d.rpl.bind fun r => d.cases.find? fun c => c.seq = r.caseSeq

/-- The image of a replay as words: A, SA, B, SB and C_IN (R362). -/
def imageWords (l : List Byte) : List Nat :=
  let b := ((tileSections l).take 5).flatten
  (List.range (b.length / 8)).map fun i => leAt b (8 * i) 8

/-- The words of an OPEN (R362). -/
def openWords (l : List Byte) (capture core runs runUs : Nat) : List Nat :=
  [capture, core % 2 ^ 13 + runs * 2 ^ 16 + runUs * 2 ^ 32, 8 * (imageWords l).length] ++
    (List.range 4).map fun i => leAt l (56 + 8 * i) 8

/-- The next step of the die's replay: BEGIN for the oldest CONFIRMED tile, or the BEGIN that runs the former primary's
replay of that tile again (R238), then OPEN once it is mirrored (R364, R383). -/
def Agg.rplNext (a : Agg) (s die : Nat) : Agg :=
  let d := a.seDie s
  match d.rpl with
  | none =>
    match d.cases.find? fun c => c.tile && c.bytes ≠ [] with
    | some c =>
      let left := a.shed.left.find? fun e =>
        e.1.kind == 0xA && e.1.die == some die && e.1.arg % 2 ^ 64 == c.source && e.1.arg / 2 ^ 64 % 65536 == c.core
      match left.bind fun e => (a.rerunOf e.1).filter fun op => a.shed.begun.contains op with
      | some op =>
        let runs := ((left.map fun e => e.1.arg / 2 ^ 80 % 256)).getD 0
        a.onSE s fun d => { d with rpl := some { caseSeq := c.seq, op := op, runs := runs } }
      | none =>
        if a.cfgOn SE_RPL_CFG_AUTO ∧ a.jrnReady then
          let runs := a.cfg SE_RPL_CFG_RUNS
          let b := a.jrnBegin 0xA (some die) (c.source % 2 ^ 64 + c.core % 65536 * 2 ^ 64 + runs * 2 ^ 80)
          b.1.onSE s fun d => { d with rpl := some { caseSeq := c.seq, op := b.2, runs := runs } }
        else a
    | none => a
  | some r =>
    match d.rplCase with
    | some c =>
      if r.phase = 0 ∧ a.beginMirrored r.op then
        (a.onRpl s fun r => { r with phase := 1 }).rplCommand s 1 0
          (openWords c.bytes c.source c.core r.runs (a.cfg SE_RPL_CFG_RUN_US)) (.replay s)
      else a
    | none => a

/-- REPLAY_AUTO_OPEN (R364). -/
def execReplayAutoOpen (slot : Fin 16) (s : State) : Host.Outcome State Fault Refusal :=
  .next (s.onAgg fun a =>
    match a.dieOfSlot slot with
    | some die => a.rplNext slot die
    | none => a)

/-- The case of a replay is classified, the replay closed and its operation DONE (R364, R383); `fleece` for a classification by
the replay itself, which has a Fleece record (R381). -/
def Agg.rplClassify (a : Agg) (s die kind : Nat) (c : SeCase) (fleece : Bool := true) : Agg :=
  match (a.seDie s).rpl with
  | none => a
  | some r =>
    let ok := r.sigs.filter (·.2)
    let bad := r.sigs.length - ok.length
    let a := if bad = 0 then a else a.count SE_ERR_COUNT_RPL_BAD bad
    let toRef (v : Nat) : Bool := v == c.refCrc || (c.bound && v != c.hostCrc)
    let a := ((a.rplCommand s 5 0 [] .plain).jrnEnd r.op 0x11 kind).onSE s fun d => { d with rpl := none }
    (a.put (SE_DIE_STATUS_RPL_STATE s) 0).caseClose s die kind c r.sigs.length (ok.filter fun v => toRef v.1).length
      (ok.filter fun v => v.1 = c.hostCrc).length fleece

/-- The classification of the runs seen so far: the first row of R364 that applies. -/
def SeReplay.kind (r : SeReplay) (c : SeCase) : Nat :=
  let ok := (r.sigs.filter (·.2)).map Prod.fst
  if ok.any (· = c.hostCrc) then 0xB
  else if ok = [] then 0xD
  else if ok.all fun v => v == c.refCrc || c.bound then 0xA
  else 0xC

/-- The STATUS words of a replay (R362): once it is DONE with a valid signature the case is classified. -/
def Agg.rplStatus (a : Agg) (s die : Nat) (w : List Nat) : Agg :=
  let w0 := w.headD 0
  let st := w0 % 8
  let n := min (w0 / 8 % 8) ((w.length - 1) / 2)
  let sigs := (List.range n).map fun i => ((w[1 + 2 * i]?).getD 0 % 2 ^ 32, !bitAt w0 (56 + i))
  let a := (a.onRpl s fun r => { r with sigs := sigs }).put (SE_DIE_STATUS_RPL_STATE s) st
  match (a.seDie s).rpl, (a.seDie s).rplCase with
  | some r, some c => if st = 4 ∧ r.kind c ≠ 0xD then a.rplClassify s die (r.kind c) c else a
  | _, _ => a

/-- REPLAY_POLL (R364): STATUS is asked, or with `status` words its answer is taken. -/
def execReplayPoll (slot : Fin 16) (status : List Nat) (s : State) : Host.Outcome State Fault Refusal :=
  .next (s.onAgg fun a =>
    match a.dieOfSlot slot, (a.seDie slot).rpl with
    | some die, some r =>
      if r.phase ≠ 3 then a
      else if status = [] then a.rplCommand slot 4 0 [] (.poll slot)
      else a.rplStatus slot die status
    | _, _ => a)

/-- LOADs of the image from a word on, 16 words each. -/
def Agg.rplLoads (a : Agg) (s : Nat) : Nat → Nat → List Nat → Agg
  | 0, _, _ => a
  | n + 1, off, w =>
    if w = [] then a else (a.rplCommand s 2 off (w.take 16) (.replay s)).rplLoads s n (off + 16) (w.drop 16)

/-- A replay that the die refuses closes its case UNCLASSIFIED (R362, R364). -/
def Agg.rplRefused (a : Agg) (s die : Nat) : Agg :=
  let a := a.event SE_EVENT_RPL_REFUSED (some die)
  match (a.seDie s).rplCase with
  | some c => a.rplClassify s die 0xD c
  | none => a

/-- The response to OPEN, LOAD or START (R362). -/
def Agg.rplResponse (a : Agg) (s die sub status : Nat) (w : List Nat) : Agg :=
  match (a.seDie s).rpl, (a.seDie s).rplCase with
  | some r, some c =>
    if status ≠ 0 then (if r.phase = 1 ∨ r.phase = 2 then a.rplRefused s die else a)
    else if sub = 1 ∧ r.phase = 1 then
      let w0 := w.headD 0
      let loaded := w0 / 2 ^ 16 % 2 ^ 24
      let words := imageWords c.bytes
      if w0 % 8 = 1 then
        let a := a.rplLoads s words.length loaded (words.drop loaded)
        ((a.rplCommand s 3 0 [] (.replay s)).onRpl s fun r => { r with phase := 2 }).put (SE_DIE_STATUS_RPL_STATE s) 1
      else ((a.onRpl s fun r => { r with phase := 3, startNs := a.p.nowNs })).rplStatus s die w
    else if sub = 3 ∧ r.phase = 2 then
      (a.onRpl s fun r => { r with phase := 3, startNs := a.p.nowNs }).put (SE_DIE_STATUS_RPL_STATE s) 2
    else a
  | _, _ => a

/-- RPL_EXPIRED (R364): WAIT_MS after START. -/
def execRplExpired (slot : Fin 16) (s : State) : Host.Outcome State Fault Refusal :=
  .next (s.onAgg fun a =>
    match a.dieOfSlot slot, (a.seDie slot).rpl, (a.seDie slot).rplCase with
    | some die, some r, some c =>
      if r.phase ≠ 3 then a
      else
        let a : Agg := { a with p := a.p.until (r.startNs + a.cfg SE_RPL_CFG_WAIT_MS * 1000000) }
        let a := if r.kind c = 0xD then a.event SE_EVENT_RPL_EXPIRED (some die) else a
        a.rplClassify slot die (r.kind c) c
    | _, _, _ => a)

/-! ### Decisions (R369, R372) -/

/-- What a decision says. -/
inductive Decision where
  | cleared | unverified | tainted
  deriving DecidableEq, Repr

/-- The decision for an epoch (R369). -/
def Agg.decisionOf (a : Agg) (s e : Nat) : Decision :=
  let d := a.seDie s
  let n := d.counts.get e
  if d.taints.any fun t => epIn t.1 t.2 e then .tainted
  else if a.cfg SE_CFG_MIN_TILES ≤ n.1 ∧ n.2 = 0 then .cleared
  else .unverified

/-- No tile of the die with that EPOCH or an earlier one waits, and every array that passed one of that epoch has passed a
later self-test (R369). -/
def Agg.epochSettled (a : Agg) (s e : Nat) (later : List Nat) : Bool :=
  let d := a.seDie s
  let tiles := d.wait.map (·.epoch) ++ (a.vrf.checks.filter fun c => c.slot = s).map (·.epoch)
  tiles.all (fun x => x != e && later.contains x) &&
    (List.range 8).all fun x => !(a.vrf.arr.get x).since.any fun r => r.slot = s && r.epoch = e

/-- The oldest undecided epoch may be decided, but for the instant (R369). -/
def Agg.epochReady (a : Agg) (s : Nat) : Bool :=
  match (a.seDie s).epochs with
  | [] => false
  | e :: later =>
    a.cfgOn SE_CFG_EN && a.reg (SE_DIE_STATUS_STATE s) == 2 && (a.seDie s).bad.isNone && (a.seDie s).cases == [] &&
      a.epochSettled s e later

/-- The oldest undecided epoch leaves the list. -/
def Agg.epochTake (a : Agg) (s e : Nat) : Agg :=
  (a.onSE s fun d => { d with epochs := d.epochs.tail, past := d.past ++ [e] }).put (SE_DIE_STATUS_DECIDED s) e

/-- Consecutive epochs decided at one instant with the same decision (R369): the last of them. -/
def Agg.decideRun (a : Agg) (s : Nat) (dec : Decision) : Nat → Nat → Agg × Nat
  | 0, last => (a, last)
  | n + 1, last =>
    match (a.seDie s).epochs with
    | e :: later =>
      if a.cfg SE_CFG_CLEAR_LAG + 1 ≤ later.length ∧ a.epochReady s ∧ a.decisionOf s e = dec ∧ e = epAdd last 1 then
        (a.epochTake s e).decideRun s dec n e
      else (a, last)
    | [] => (a, last)

/-- A decision is recorded (R373); TAINTED needs no record of its own, its taint has one. -/
def Agg.decisionRecord (a : Agg) (s die : Nat) (dec : Decision) (first last : Nat) : Agg :=
  if dec = .tainted then a.seShow s
  else
    let d := a.seDie s
    let ns := (first :: epochsTo first last).map d.counts.get
    let a := if dec = .unverified then a.event SE_EVENT_UNVERIFIED (some die) else a
    let lt := (d.recs.filter fun r => bitAt r.flags 0).getLast?
    let a := a.epochRecord s die {
      flags := if dec = .unverified then 2 else 0, first := first, last := last, checked := (ns.map Prod.fst).sum
      unchecked := (ns.map Prod.snd).sum, caseSeq := d.caseSeq - 1, lastTaint := lt.elim 0 (·.dseq) }
    (a.epochBegins s die).seShow s

/-- EPOCH_DECISION (R369): the oldest undecided epoch, and those after it with the same decision. -/
def execEpochDecision (slot : Fin 16) (s : State) : Host.Outcome State Fault Refusal :=
  .next (s.onAgg fun a =>
    let a := a.epochsBegan slot
    match a.dieOfSlot slot, (a.seDie slot).epochs with
    | some die, e :: later =>
      if a.epochReady slot then
        let a : Agg := { a with p := a.p.until (a.epochsAhead slot (a.cfg SE_CFG_CLEAR_LAG + 1 - later.length)) }
        let a := a.epochsBegan slot
        let dec := a.decisionOf slot e
        let r := (a.epochTake slot e).decideRun slot dec later.length e
        r.1.decisionRecord slot die dec e r.2
      else a
    | _, _ => a)

/-- EPOCH_HOLD (R372): an epoch still undecided when epoch e + HOLD begins, for another reason than an open case. -/
def execEpochHold (slot : Fin 16) (s : State) : Host.Outcome State Fault Refusal :=
  .next (s.onAgg fun a =>
    let a := a.epochsBegan slot
    match a.dieOfSlot slot, (a.seDie slot).epochs with
    | some die, e :: later =>
      if a.cfgOn SE_CFG_EN ∧ a.reg (SE_DIE_STATUS_STATE slot) = 2 ∧ (a.seDie slot).cases = [] then
        let a : Agg := { a with p := a.p.until (a.epochsAhead slot (a.cfg SE_CFG_HOLD - later.length)) }
        let a := (a.epochsBegan slot).epochTake slot e
        if a.decisionOf slot e = .tainted then a.seShow slot
        else
          let a := (a.decisionRecord slot die .unverified e e).event SE_EVENT_STARVED (some die)
          (a.caseRecord slot die 0xE { tile := false, core := 0xFFFF, epoch := e } 0 0 0 epochNone epochNone epochNone).1
      else a
    | _, _ => a)

/-! ### Delivery (R374 to R376, R382) -/

/-- The entry of a taint or a clear (R374). -/
def epochEntry (die pad : Nat) (r : EpochRec) (j : JrnRec) : List Byte :=
  let t := bitAt r.flags 0
  entryHead (if t then 3 else 4) (nflags false j.replayed) die j.origAgg (if t then r.kind else 0) (if t then 255 else 0)
    0 pad 0 j.origOp ++
    leBytes 8 r.dseq ++ leBytes 4 r.first ++ leBytes 4 r.last ++ leBytes 8 (if t then 0 else r.lastTaint) ++
    leBytes 4 (if t then 0 else r.checked) ++ leBytes 4 (if t then 0 else r.unchecked) ++ leBytes 2 r.flags ++
    leBytes 2 r.core ++ zeros 4

/-- What an epoch record rests on is mirrored, and so are it and its BEGIN (R375). A decision rests on the check and case
records of the die before it. -/
def Agg.epochMirrored (a : Agg) (die : Nat) (r : EpochRec) : Bool :=
  let before := (a.ring r.ring).recs.filter fun q =>
    q.die = some die && decide (q.seq < r.seq) && (q.type == 8 || q.type == 0xA)
  (r.copied || (a.mirrored r.ring r.seq && r.needs.all (fun n => a.mirrored n.1 n.2) &&
    (bitAt r.flags 0 || before.all (·.mirrored)))) && r.op.any a.beginMirrored

/-- The delivery of an epoch record begins outside. -/
def Agg.epochDeliver (a : Agg) (s die : Nat) (r : EpochRec) (to_ : List NoticeTo) : Agg :=
  match r.op with
  | none => a
  | some op =>
    let kind := if bitAt r.flags 0 then 3 else 4
    let a := a.onSE s fun d => { d with recs := d.recs.map fun x => if x.dseq = r.dseq then { x with begun := true } else x }
    let a := a.onDet fun d => { d with deliv := d.deliv ++ [{
      op := op, kind := kind, slot := s, die := die, entry := epochEntry die (a.paddockOf s) r (a.jrnOfOp op)
      toAggs := to_, dseq := r.dseq }] }
    a.delivStart op

/-- The aggregators of the fleet list but this one, with the resend time that a subscription gives (R375). -/
def Agg.fleetList (a : Agg) : List NoticeTo :=
  (a.img.members.filter (· ≠ a.id)).map fun m =>
    match (List.range 8).find? fun i => a.cfgOn (DET_SUB_EN i) && a.cfg (DET_SUB_AGG i) = m with
    | some i => { agg := m, rtoUs := a.cfg (DET_SUB_NOTICE_RTO_US i) }
    | none => { agg := m }

/-- TAINT_DELIVERY (R375): the oldest taint that may be delivered. -/
def execTaintDelivery (slot : Fin 16) (s : State) : Host.Outcome State Fault Refusal :=
  .next (s.onAgg fun a =>
    match a.dieOfSlot slot with
    | none => a
    | some die =>
      let a := a.epochBegins slot die
      match (a.seDie slot).recs.find? fun r => bitAt r.flags 0 && !r.begun && a.epochMirrored die r with
      | some r => (a.event SE_EVENT_TAINT_SENT (some die)).epochDeliver slot die r a.fleetList
      | none => a)

/-- The operation is the delivery of an epoch record. -/
def deliversEpoch (b : BegunOp) (die : Nat) (r : EpochRec) : Bool :=
  b.kind == (if bitAt r.flags 0 then 3 else 4) && b.die == some die && b.arg % 2 ^ 64 == r.dseq

/-- The BEGUN delivery of an epoch record that an answer about the former primary lists (R238, R383). -/
def Agg.epochLeft (a : Agg) (die : Nat) (r : EpochRec) : Option BegunOp :=
  (a.shed.left.find? fun e => deliversEpoch e.1 die r).map Prod.fst

/-- The delivery of an epoch record that the former primary ended. -/
def Agg.epochEnded (a : Agg) (die : Nat) (r : EpochRec) : Option BegunOp := a.shed.ended.find? fun b => deliversEpoch b die r

/-- The delivery of a taint is DONE. One read back from the former primary counts as DONE only once an answer about that
aggregator's operations has shown it so (R8, R238, log entry 149). -/
def Agg.taintDone (a : Agg) (die : Nat) (r : EpochRec) : Bool :=
  r.begun && match r.op with
  | some op => !a.shed.begun.contains op
  | none => !r.copied || (a.epochEnded die r).isSome

/-- CLEAR_DELIVERY (R376): the oldest clear, once every taint of the die with a lower DSEQ is DONE. -/
def execClearDelivery (slot : Fin 16) (s : State) : Host.Outcome State Fault Refusal :=
  .next (s.onAgg fun a =>
    match a.dieOfSlot slot with
    | none => a
    | some die =>
      let a := a.epochBegins slot die
      let recs := (a.seDie slot).recs
      match recs.find? fun r => !bitAt r.flags 0 && !r.begun && !r.dropped with
      | some r =>
        if a.epochMirrored die r ∧ (recs.all fun t => !bitAt t.flags 0 || decide (r.dseq < t.dseq) || a.taintDone die t) then
          a.epochDeliver slot die r (a.subscribers (a.paddockOf slot) false)
        else a
      | none => a)

/-- The BEGIN under which an epoch record was announced: the own one, or the former primary's (R374). -/
def Agg.epochOp (a : Agg) (die : Nat) (r : EpochRec) : Option JrnRec :=
  match r.op with
  | some op => a.jrnFind op
  | none => (a.epochEnded die r).map fun b => { op := b.op, kind := b.kind, origAgg := b.origAgg, origOp := b.origOp, arg := b.arg
                                                replayed := b.origAgg != a.twinId || b.origOp != b.op }

/-- NEED_TAINT (R376): the taint goes to the recipient again, and the clear that named it after it. A taint whose BEGIN is not
known, since no answer about the former primary's operations has come, is delivered to every recipient once more, under a
BEGIN of this aggregator (log entry 149). -/
def execNeedTaint (slot : Fin 16) (recipient dseq : Nat) (s : State) : Host.Outcome State Fault Refusal :=
  .next (s.onAgg fun a =>
    let recs := (a.seDie slot).recs
    match a.dieOfSlot slot, recs.find? fun r => bitAt r.flags 0 && r.dseq = dseq with
    | some die, some t =>
      let a := a.event SE_EVENT_NEED_TAINT (some die)
      let out (a : Agg) (r : EpochRec) : Agg :=
        match a.epochOp die r with
        | some j =>
          a.offerPacket {
            rclass := 3, msgType := 1, dst := recipient, paddock := a.paddockOf slot
            payload := epochEntry die (a.paddockOf slot) r j }
        | none => a.onSE slot fun d => { d with recs := d.recs.map fun x => if x.dseq = r.dseq then { x with begun := false } else x }
      (recs.filter fun r => !bitAt r.flags 0 && r.begun && r.lastTaint = dseq).foldl out (out a t)
    | _, _ => a)

/-- The entry of a Fleece notice (R374). -/
def fleeceEntry (die pad : Nat) (f : FleecePend) (j : JrnRec) : List Byte :=
  verdictEntry 6 die {
    ident := f.caseSeq, kind := f.kind, sev := if f.kind = 0xA then 128 else 255, paddock := pad
    obs := leAt f.body 72 4, ref := leAt f.body 76 4, seq := f.seq } j

/-- FLEECE_EXPORT (R382): the oldest Fleece record whose BEGIN and itself are mirrored. -/
def execFleeceExport (slot : Fin 16) (s : State) : Host.Outcome State Fault Refusal :=
  .next (s.onAgg fun a =>
    match a.dieOfSlot slot with
    | none => a
    | some die =>
      let a := a.fleeceBegin slot die
      match (a.seDie slot).fleece with
      | f :: rest =>
        match f.op with
        | some op =>
          if (f.copied ∨ a.mirrored f.ring f.seq) ∧ a.beginMirrored op then
            let dest : List NoticeTo := if a.cfgOn SE_FLEECE_CFG_DEST_EN then
              [{ agg := a.cfg SE_FLEECE_CFG_DEST, rtoUs := a.cfg SE_FLEECE_CFG_RTO_US, record := true }] else []
            let a := a.onSE slot fun d => { d with fleece := rest }
            let pad := a.paddockOf slot
            let a := a.onDet fun d => { d with deliv := d.deliv ++ [{
              op := op, kind := 6, slot := slot, die := die, entry := fleeceEntry die pad f (a.jrnOfOp op), body := f.body
              toAggs := dest ++ a.subscribers pad false }] }
            a.delivStart op
          else a
        | none => a
      | [] => a)

/-- FLEECE_RESEND (R382): a Fleece record that its destination has not acknowledged. -/
def execFleeceResend (slot : Fin 16) (s : State) : Host.Outcome State Fault Refusal :=
  .next (s.onAgg fun a =>
    match a.det.deliv.find? fun d => d.kind = 6 && d.slot = slot.val && d.toAggs.any fun t => t.record && !t.acked && !t.gaveUp with
    | some d => a.resend d.op (d.toAggs.findIdx fun t => t.record) SE_EVENT_FLEECE_UNACKED
    | none => a)

/-! ### `SE_DIE_CTRL` (R371, R385) -/

/-- The open taints of a die close at an epoch (R371). -/
def Agg.liftAt (a : Agg) (s die epoch : Nat) : Agg :=
  let d := a.seDie s
  ((d.recs.filter d.isOpen).foldl (fun a t => a.taint s die t.first epoch t.core t.caseSeq t.kind true false []) a).epochsBegan s

/-- LIFT (R371): the open taints close at the epoch of the write. While the die is RESTORING they are not known yet: the LIFT
waits until the restore is over (log entry 176). -/
def Agg.seLift (a : Agg) (s : Nat) : Agg :=
  match a.dieOfSlot s with
  | some die =>
    let e := a.epochAt s a.p.nowNs
    if a.reg (SE_DIE_STATUS_STATE s) = 1 then a.onSE s fun d => { d with lift := some (d.lift.getD e) }
    else a.liftAt s die e
  | none => a

/-- SE_LIFT (R371). -/
def execSeLift (slot : Fin 16) (s : State) : Host.Outcome State Fault Refusal := .next (s.onWrite fun a => a.seLift slot)

/-- CLOSE_CASE (R385): the oldest open case closes UNCLASSIFIED, and its replay with it, whose runs its record counts. -/
def Agg.seCloseCase (a : Agg) (s : Nat) : Agg :=
  match a.dieOfSlot s, (a.seDie s).cases with
  | some die, c :: _ =>
    if (a.seDie s).rpl.any fun r => r.caseSeq = c.seq then a.rplClassify s die 0xD c false
    else a.caseClose s die 0xD c 0 0 0 false
  | _, _ => a

/-- SE_CLOSE_CASE (R385). -/
def execSeCloseCase (slot : Fin 16) (s : State) : Host.Outcome State Fault Refusal :=
  .next (s.onWrite fun a => a.seCloseCase slot)

/-! ### Takeover (R378) -/

/-- Fetched copies of a die and class leave the store; each with its RING_SEQ and without its descriptor. -/
def Agg.takeFetched (a : Agg) (die cls : Nat) : Agg × List (Nat × List Byte) :=
  let mine (l : List Byte) : Bool := (readDesc l).die = some die && (readDesc l).cls = cls
  (a.onShed fun x => { x with fetched := x.fetched.filter fun l => !mine l },
    (a.shed.fetched.filter mine).map fun l => (leAt l 36 4, l.drop 40))

/-- An epoch record read back: taken as announced by the old primary, until an answer about its operations says otherwise. -/
def epochOfBytes (l : List Byte) : EpochRec := {
  flags := leAt l 2 2, dseq := leAt l 8 8, first := leAt l 20 4, last := leAt l 24 4, checked := leAt l 28 4
  unchecked := leAt l 32 4, core := leAt l 36 2, checkedTo := leAt l 40 8, caseSeq := leAt l 48 8, begun := true
  copied := true }

/-- What the notice of an epoch record read back needs beside its record: the case kind of a taint, and the LAST_TAINT of a
clear (R374). -/
def epochFilled (recs : List EpochRec) (cases : List (List Byte)) (r : EpochRec) : EpochRec :=
  { r with
    kind := (cases.find? fun l => leAt l 8 8 = r.caseSeq).elim 0 fun l => leAt l 20 1
    lastTaint := (recs.filter fun t => bitAt t.flags 0 && decide (t.dseq < r.dseq)).foldl (fun m t => max m t.dseq) 0 }

/-- What an answer about the former primary's operations says of a die's epoch records that were read back (R238): a delivery
that is begun again is due once more, under its own BEGIN, and one that was NEVER begun was never sent, so that it is due as
one of this aggregator. -/
def Agg.epochsAgain (a : Agg) (s die : Nat) : Agg :=
  let again (r : EpochRec) : EpochRec :=
    if r.copied ∧ r.op = none ∧ r.begun then
      match a.epochLeft die r with
      | some b => (a.rerunOf b).elim r fun op => { r with op := some op, begun := false }
      | none => if a.shed.leftOf.contains a.twinId ∧ (a.epochEnded die r).isNone then { r with begun := false } else r
    else r
  a.onSE s fun d => { d with recs := d.recs.map again }

/-- A case read back from its record. -/
def caseOfBytes (l : List Byte) : SeCase := {
  seq := leAt l 8 8, tile := leAt l 20 1 = 8, core := leAt l 22 2, source := leAt l 32 8, epoch := leAt l 40 4
  arrays := leAt l 60 2, evRing := leAt l 80 2, evSeq := leAt l 84 4, good := leAt l 52 4, restored := true }

/-- The kernel of a test, from the die's field-test records that the aggregator holds. -/
def Agg.ftKernelOf (a : Agg) (die seq : Nat) : Nat :=
  match a.ringOfDie die (a.cfg ING_CLASS_MAP_FT) with
  | none => 0
  | some r =>
    let es := ((a.ring r).recs.flatMap fun q =>
      let l := a.recordBytes r q
      (List.range (leAt l 2 2)).map fun i => (l.drop (32 + 64 * i)).take 64)
    (es.find? fun e => leAt e 0 8 = seq).elim 0 fun e => leAt e 8 1

/-- A case that was open at the old primary: its tile's values stand in the check record, its kernel in the test's. -/
def Agg.restoreCase (a : Agg) (die : Nat) (recs : List (List Byte)) (l : List Byte) : SeCase :=
  let c := caseOfBytes l
  let c : SeCase := { c with forceNs := a.p.nowNs }
  if c.tile then
    match recs.find? fun k => leAt k 0 1 = 8 && leAt k 16 8 = c.source with
    | some k => { c with refCrc := leAt k 32 4, hostCrc := leAt k 36 4, summary := (k.drop 48).take 48 }
    | none => c
  else { c with kernel := a.ftKernelOf die c.source }

/-- The tiles that a case and check records say are decided: CAPTURE_SEQ, EPOCH and whether CHECKED. -/
def checkOfBytes (l : List Byte) : Nat × Nat × Nat := (leAt l 16 8, leAt l 24 4, leAt l 96 1)

/-- The answer to the first FETCH (R378): the newest epoch record gives DSEQ, the last decision and CHECKED_TO; the cases
without a classification are open; the tiles from CHECKED_TO on are fetched next. The epoch records that this aggregator wrote
itself stay beside those read back. -/
def Agg.errorsAnswer (a : Agg) (s die : Nat) : Agg :=
  let w := a.takeFetched die (a.cfg SE_CFG_SE_CLASS)
  let a := w.1
  let got := w.2.map Prod.snd
  let recs := (got.filter fun l => leAt l 0 1 = 9).map epochOfBytes
  let dseq := recs.foldl (fun m r => max m (r.dseq + 1)) 0
  let newest := recs.find? fun r => r.dseq + 1 = dseq
  let dec := recs.foldl (fun (b : Option EpochRec) r =>
    if bitAt r.flags 0 then b else match b with
      | some x => if x.dseq < r.dseq then some r else b
      | none => some r) none
  let cases := got.filter fun l => leAt l 0 1 = 0xA
  let closed (l : List Byte) : Bool := cases.any fun k =>
    0xA ≤ leAt k 20 1 && leAt k 20 1 ≤ 0xD && leAt k 32 8 == leAt l 32 8 && leAt k 22 2 == leAt l 22 2
  let open_ := (cases.filter fun l => (leAt l 20 1 = 8 || leAt l 20 1 = 9) && !closed l).map (a.restoreCase die got)
  let from_ := newest.elim 0 (·.checkedTo)
  let checks := (got.filter fun l => leAt l 0 1 = 8).map checkOfBytes
  let a := a.onSE s fun d => { d with
    dseq := max d.dseq dseq, caseSeq := (cases.map fun l => leAt l 8 8 + 1).foldl max d.caseSeq
    recs := d.recs ++ (recs.filter fun r => !d.recs.any fun x => x.dseq = r.dseq).map (epochFilled recs cases)
    cases := open_, restoreFrom := from_, decidedTo := dec.map (·.last)
    epochs := dec.elim [] fun r => [r.last] }
  let a := (a.put (SE_DIE_STATUS_DECIDED s) (dec.elim epochNone (·.last))).epochsAgain s die
  let a := (checks.filter fun c => from_ ≤ c.1).foldl (fun a c =>
    if c.2.2 = 0 ∨ c.2.2 = 2 then a.countTiles s c.2.1 fun n => (n.1 + 1, n.2)
    else if c.2.2 = 1 then a else a.countUnchecked s c.2.1 1) a
  a.fetchAsk (.tiles s) a.twinPartner die (a.cfg ING_CLASS_MAP_TILE) from_ (2 ^ 64 - 1)

/-- RESTORING ends: epochs are followed again, from the first undecided one (R378). -/
def Agg.restoreEnd (a : Agg) (s : Nat) : Agg :=
  let known := (a.seDie s).epochs ≠ []
  let a := (a.put (SE_DIE_STATUS_STATE s) 2).epochsBegan s
  (if known then a.onSE s fun d => { d with epochs := if 1 < d.epochs.length then d.epochs.tail else d.epochs } else a).seShow s

/-- What waited for the restore of a die is taken: field-test records committed meanwhile, and a LIFT. -/
def Agg.restoreTake (a : Agg) (s die : Nat) : Agg :=
  let d := a.seDie s
  let a := a.onSE s fun d => { d with ftWait := [], lift := none }
  let a := d.ftWait.foldl (fun a w => a.ftEntries s die w.1 w.2.1 w.2.2) a
  match d.lift with
  | some e => a.liftAt s die e
  | none => a

/-- The answer to the second FETCH (R378): the tiles are checked, before those committed since the promotion; those that could
not be fetched count UNCHECKED; an open tile case takes its record, or closes UNCLASSIFIED; a field test is forced again. -/
def Agg.tilesAnswer (a : Agg) (s die : Nat) : Agg :=
  let cls := a.cfg ING_CLASS_MAP_TILE
  let w := a.takeFetched die cls
  let a := w.1.restoreEnd s
  let seqOf (l : List Byte) : Nat := leAt l 24 8
  let from_ := (a.seDie s).restoreFrom
  let own := (a.seDie s).wait.map (·.captureSeq)
  let waits : List TileWait := (w.2.filter fun l => !own.contains (seqOf l.2)).map fun l => {
    ring := (a.ringOfDie die cls).getD 0, seq := l.1, captureSeq := seqOf l.2, epoch := leAt l.2 40 4
    endNs := extendStamp (leAt l.2 48 4) a.p.nowNs, bytes := l.2 }
  let upTo := (a.ing.last.get (8 * s + 3)).elim from_ (· + 1)
  let held := own ++ waits.map (·.captureSeq)
  let lost := (List.range (upTo - from_)).filter fun i => !held.contains (from_ + i)
  let e := ((a.seDie s).epochs.head?).getD epochNone
  let a := (a.countUnchecked s e lost.length).onSE s fun d => { d with
    wait := waits ++ d.wait, lastCapture := if upTo = 0 then none else some (upTo - 1) }
  let a := (a.seDie s).cases.foldl (fun a c =>
    if c.tile then
      match w.2.find? fun l => seqOf l.2 = c.source with
      | some (_, l) => a.onSE s fun d => { d with cases := d.cases.map fun x => if x.seq = c.seq then { x with
          bytes := l, hostCrc := hostCrc l, endNs := extendStamp (leAt l 48 4) a.p.nowNs
          bound := a.tileBound { bytes := l, endNs := extendStamp (leAt l 48 4) a.p.nowNs } } else x }
      | none => a.caseClose s die 0xD c 0 0 0 false
    else a.ftRetest s c) a
  (a.restoreTake s die).seShow s

/-- SE_RESTORE_TIMEOUT (R378): no answer to a FETCH within 1 ms: the die starts at the first undecided epoch with an empty
history. Without the tiles, the open tile cases cannot be replayed and close UNCLASSIFIED, and the tiles count UNCHECKED. -/
def execSeRestoreTimeout (slot : Fin 16) (s : State) : Host.Outcome State Fault Refusal :=
  .next (s.onAgg fun a =>
    match a.shed.fetches.find? fun f => f.use = .errors slot ∨ f.use = .tiles slot with
    | some f =>
      let a : Agg := { a with p := a.p.until (f.sentNs + 1000000) }
      let a := a.onShed fun x => { x with fetches := x.fetches.filter fun g => g.qid ≠ f.qid }
      let a := (a.event SE_EVENT_STARVED (a.dieOfSlot slot)).onSE slot fun d => { d with counts := [], good := [] }
      match f.use with
      | .tiles _ => a.tilesAnswer slot f.die
      | _ => (a.restoreEnd slot).restoreTake slot f.die
    | none => a)

end Sys2Proof.Machine
end

