-- ==== Sys2Proof/Machine/Commit.lean ====
section
/-! DEFINITION. Commands that several chapters answer: the commit of a record and what its consumers do with it (R174,
R191, R269, R344, R355), what a FETCH asks again (R285), a notice received (R375, R376, R397) and a transport
acknowledgement (R394, R395, R397). -/

namespace Sys2Proof.Machine

/-! ### RECORD_COMMIT -/

/-- A committed record goes to detection, to the predictor of the next tick, and to the checks of its stream (R269, R344,
R355, R365). -/
def Agg.recordTaken (a : Agg) (c : Committed) : Agg :=
  let a := a.detCommit c
  match c.stream with
  | 1 => if c.primary then a.predJob c.slot (c.ident + 1) false else a
  | 2 => a.ftCommitted c
  | 3 => a.tileCommitted c
  | _ => a

/-- RECORD_COMMIT (R174): the oldest record of the port's stream whose writes are complete. -/
def execRecordCommit (p : Fin 16) (stream : Fin 16) (s : State) : Host.Outcome State Fault Refusal :=
  .next (s.onAgg fun a =>
    match a.ingestCommit p stream with
    | (a, some c) => a.recordTaken c
    | (a, none) => a)

/-! ### Rebuilding -/

/-- The ticks whose runs rebuild state ask the predictor for their outputs (R285, R344). -/
def Agg.restoreJobs (a : Agg) (s : Nat) : Agg :=
  ((a.dieDet s).jobs.filter (·.2)).foldl (fun a j => a.predJob s j.1 true) a

/-! ### NOTICE_RECEIVED -/

/-- The entry of a taint received (R374). -/
def takenEntry (n : NoticeMsg) : List Byte :=
  entryHead 3 (nflags false n.replayed) n.fleetDie n.origAgg n.kind n.severity 0 n.paddock 0 n.origOp ++
    leBytes 8 n.dseq ++ leBytes 4 n.epochFirst ++ leBytes 4 n.epochLast ++ zeros 16 ++ leBytes 2 n.flags ++
    leBytes 2 n.core ++ zeros 4

/-- The notice repeats one that was received: by (ORIG_AGG, ORIG_OP) (R397), a taint or clear also by (FLEET_DIE, DSEQ) and a
Fleece notice by (FLEET_DIE, CASE_SEQ) (R383). -/
def Agg.noticeKnown (a : Agg) (n : NoticeMsg) : Bool :=
  a.det.taken.any fun t => t.1 = n.ntype && ((t.2.1 = n.origAgg && t.2.2.1 = n.origOp) ||
    ((n.ntype == 3 || n.ntype == 4 || n.ntype == 6) && t.2.2.2 == (n.fleetDie, n.dseq)))

/-- The taint that a clear names has been received and written into the host ring (R376); one that still waits for the ring
has not. -/
def Agg.taintKnown (a : Agg) (die dseq : Nat) : Bool :=
  let waits (x : NqItem) : Bool := match x with
    | .received _ e => leAt e 0 1 == 3 && leAt e 4 4 % 2 ^ 17 == die && leAt e 24 8 == dseq
    | .own _ => false
  (a.det.taken.any fun t => t.1 = 3 && t.2.2.2.1 = die && t.2.2.2.2 = dseq) && !a.det.wait.any waits

/-- An entry that waits for the host ring is the taint that a notice repeats (R383). -/
def NoticeMsg.repeats (n : NoticeMsg) (e : List Byte) : Bool :=
  n.ntype == 3 && ((leAt e 8 2 == n.origAgg % 2 ^ 14 && leAt e 16 8 == n.origOp) ||
    (leAt e 4 4 % 2 ^ 17 == n.fleetDie && leAt e 24 8 == n.dseq))

/-- The taint that repeats a notice still waits for the host ring: the acknowledgement of the repeat waits with it. -/
def Agg.noticeWaits (a : Agg) (n : NoticeMsg) : Bool :=
  a.det.wait.any fun x => match x with
    | .received _ e => NoticeMsg.repeats n e
    | .own _ => false

/-- The packet of a repeat is acknowledged with those that brought the waiting taint. -/
def Agg.nqAlso (a : Agg) (n : NoticeMsg) : Agg :=
  a.onDet fun d => { d with wait := d.wait.map fun x => match x with
    | .received from_ e => if NoticeMsg.repeats n e then .received (from_ ++ [(n.src, n.psn)]) e else x
    | .own _ => x }

/-- The refusal of a clear, NEED_TAINT (R397): ORIG_AGG, REASON 1, ORIG_OP and FLEET_DIE of the clear, little-endian as the notice
entries (log entry 171). -/
def refusalBytes (n : NoticeMsg) : List Byte :=
  leBytes 2 n.origAgg ++ leBytes 1 1 ++ zeros 5 ++ leBytes 8 n.origOp ++ leBytes 4 n.fleetDie ++ zeros 4

/-- NOTICE_RECEIVED (R375, R376, R397): a taint is written into the host ring before it is acknowledged; a clear whose
LAST_TAINT has not been written is acknowledged and refused; a repeat is acknowledged and nothing more. A reserved NTYPE is
refused (R15, R297). -/
def execNoticeReceived (n : NoticeMsg) (s : State) : Host.Outcome State Fault Refusal :=
  .next (s.onAgg fun a =>
    if n.ntype = 0 ∨ 6 < n.ntype then a.fabViol
    else if a.noticeKnown n then (if a.noticeWaits n then a.nqAlso n else a.noticeTaken n.src n.psn)
    else if n.ntype = 4 ∧ n.lastTaint ≠ 0 ∧ ¬ a.taintKnown n.fleetDie n.lastTaint then
      (a.noticeTaken n.src n.psn).offerPacket {
        rclass := 3, msgType := 4, dst := n.src, paddock := n.paddock, payload := refusalBytes n }
    else
      let a := a.onDet fun d => { d with taken := (n.ntype, n.origAgg, n.origOp, n.fleetDie, n.dseq) :: d.taken }
      if n.ntype = 3 then a.nqOffer (.received [(n.src, n.psn)] (takenEntry n)) else a.noticeTaken n.src n.psn)

/-! ### TRANSPORT_ACK -/

/-- TRANSPORT_ACK (R394, R395, R397): the entries are released, and each delivery learns that its recipient has
acknowledged. -/
def execTransportAck (src cls incarn : Nat) (psns : List Nat) (s : State) : Host.Outcome State Fault Refusal :=
  .next (s.onAgg fun a =>
    let r := a.txnAck src cls incarn psns
    r.2.foldl (fun a p => a.delivAck p.o.tag) r.1)

end Sys2Proof.Machine
end

