-- ==== Sys2Proof/Machine/Collect.lean ====
section
/-! DEFINITION. The fault collectors (R412 to R427): classing an occurrence, the record, the first-error capture, the pending
list, the fault ring and the on-die log, and safe state of both parts. -/

namespace Sys2Proof.Machine

/-! ### Shared by both parts -/

/-- The part with its collector changed. -/
def Part.onCol (p : Part) (f : Collector → Collector) : Part := { p with col := f p.col }

/-- Start of exits that still count, within a window in seconds (R424). -/
def Part.recoveries (p : Part) (winS : Nat) : Nat :=
  (p.col.exits.filter fun t => decide (p.nowNs < t + winS * 1000000000)).length

/-- The statistics of a source. -/
def Part.src (p : Part) (s : Nat) : SrcStat := p.col.srcs.get s

/-- The part with a source's statistics changed. -/
def Part.onSrc (p : Part) (s : Nat) (f : SrcStat → SrcStat) : Part := p.onCol fun c => { c with srcs := c.srcs.upd s f }

/-- A record enters the pending list while it has a place; the record of source 0x0004 takes none (R420). The second
component says that source 0x0004 is due. -/
def Part.pend (p : Part) (cap up : Nat) (r : FltRec) : Part × Bool :=
  let p := p.onCol fun c => { c with lastSerious := some p.nowNs }
  if r.source = 0x0004 then (p, false)
  else if p.col.pending.length < cap then
    (p.onCol fun c => { c with pending := c.pending ++ [{
      fseq := r.fseq, source := r.source, cls := r.cls, stamp := r.stamp, up := up, die := r.die, addr := r.addr
      master := r.master, access := r.access }] }, false)
  else (p.onCol fun c => { c with fullRaised := true }, !p.col.fullRaised)

/-- The majority of three copies (R425): one that differs is rewritten, and source 0x0000 is raised. -/
def Part.voteOne (p : Part) (bad : Collector → List Nat) (mend : Collector → Collector) : Part :=
  if (bad p.col).length = 1 then (p.onCol mend).notify { source := 0x0000 } else p

/-- A use of the configuration and of the pending list (R425): each is read by majority; once all three copies of one differ,
source 0x0001 is raised, and only floor classes count from then on. -/
def Part.vote (p : Part) : Part :=
  let p := p.voteOne (·.cfgBad) fun c => { c with cfgBad := [] }
  let p := p.voteOne (·.pendBad) fun c => { c with pendBad := [] }
  if (2 ≤ p.col.cfgBad.length ∨ 2 ≤ p.col.pendBad.length) ∧ ¬ p.col.floorOnly then
    (p.onCol fun c => { c with floorOnly := true }).notify { source := 0x0001 }
  else p

/-- A copy is upset (R425). -/
def Part.upset (p : Part) (pendingList : Bool) (copy : Nat) : Part :=
  let add (l : List Nat) : List Nat := if l.contains copy then l else l ++ [copy]
  p.onCol fun c => if pendingList then { c with pendBad := add c.pendBad } else { c with cfgBad := add c.cfgBad }

/-- The hardware sources that are conditions which hold for a time: clocks, supplies, temperature (R415, log entry 178). -/
def levelSource (src : Nat) : Bool :=
  (src / 256 == 0x10 || src / 256 == 0x0A) && [0x30, 0x31, 0x40, 0x41, 0x50, 0x51].contains (src % 256)

/-- The condition of a level source begins to hold, or ends. -/
def Part.level (p : Part) (src : Nat) (on : Bool) : Part :=
  if levelSource src then
    p.onCol fun c =>
      let rest := c.levels.filter (· ≠ src)
      { c with levels := if on then rest ++ [src] else rest }
  else p

/-- The record with this FSEQ leaves the pending list, which then has had a free place (R420). -/
def Part.unpend (p : Part) (fseq : Nat) : Part :=
  if p.col.pending.any fun r => r.fseq = fseq then
    p.onCol fun c => { c with pending := c.pending.filter fun r => r.fseq ≠ fseq, fullRaised := false }
  else p

/-- Of two occurrences the one recorded first: the higher class, then the lower source (R420). -/
def occFirst (cls : Occ → Nat) (x y : Occ) : Bool := cls y < cls x || (cls x == cls y && x.source ≤ y.source)

/-- The notified occurrence that is recorded next (R420). -/
def nextOcc (cls : Occ → Nat) : List Occ → Option Occ
  | [] => none
  | x :: l => match nextOcc cls l with
    | none => some x
    | some y => if occFirst cls x y then some x else some y

/-- Take an occurrence out of the notifications. -/
def Part.unnotify (p : Part) (o : Occ) : Part := p.onCol fun c => { c with notified := c.notified.erase o }

/-! ### The aggregator -/

/-- The class of an occurrence before the rate rules (R413, R425); in GASP and SEALING a supply outside its absolute range
counts as contained (R501). -/
def Agg.occClass (a : Agg) (o : Occ) : Nat :=
  if o.exact then o.cls
  else if o.source = 0x1041 ∧ (a.reg PWR_STATUS_FLUSH = 2 ∨ a.reg PWR_STATUS_FLUSH = 3) then 1
  else max (max (floorAgg o.source) o.cls) (if a.p.col.floorOnly then 0 else a.cfg (FLT_SRC_CFG_CLASS o.source))

/-- The rate rules (R413): the class raised, and the statistics of the source with the occurrence counted. -/
def Agg.rateClass (a : Agg) (o : Occ) : Agg × Nat :=
  let cls := a.occClass o
  if o.exact ∨ a.p.col.floorOnly then (a, cls)
  else
    let hour := a.p.nowSec / 3600
    let st := a.p.src o.source
    let n := (if st.hour = hour then st.hourCount else 0) + 1
    let ce := a.cfg (FLT_SRC_CFG_CE_RATE o.source)
    let st : SrcStat := if cls = 0 then { st with hour := hour, hourCount := n, raised := ce ≠ 0 && decide (ce < n) } else st
    let cls := if cls = 0 ∧ st.raised then 1 else cls
    let rmax := a.cfg (FLT_SRC_CFG_RATE_MAX o.source)
    let win := a.p.nowNs :: st.win.filter fun t =>
      decide (a.p.nowNs < t + a.cfg (FLT_SRC_CFG_RATE_WIN_MS o.source) * 1000000)
    let st : SrcStat := if cls = 1 then { st with win := win.take 256 } else st
    let cls := if cls = 1 ∧ rmax ≠ 0 ∧ rmax < win.length then 2 else cls
    ({ a with p := a.p.onSrc o.source fun _ => st }, cls)

/-- The bytes of a fault record (R418). -/
def FltRec.bytes (r : FltRec) : List Byte :=
  let bit (b : Bool) (k : Nat) : Nat := if b then 2 ^ k else 0
  let fl := bit r.first 0 + bit r.escalated 1 + bit r.fromUligo 2 + bit r.injected 3 + bit r.safeEntered 4
  let l := leBytes 1 0x0D ++ leBytes 1 1 ++ leBytes 2 fl ++ leBytes 4 64 ++ leBytes 8 r.fseq ++
    leBytes 4 (r.die.elim (2 ^ 31) (· % 2 ^ 17)) ++ leBytes 2 r.source ++ leBytes 1 r.cls ++ leBytes 1 r.orig ++
    leBytes 8 r.stamp ++ leBytes 8 r.addr ++ leBytes 2 r.master ++ leBytes 1 r.access ++ zeros 1 ++
    leBytes 4 r.detail ++ leBytes 4 r.count ++ leBytes 4 r.ufseq
  l ++ leBytes 4 (crc32c l) ++ zeros 4

/-- The bit of `FLT_EVENT` that corresponds to a source (R415). -/
def aggSrcBit (src : Nat) : Option Field :=
  match src with
  | 0x0000 => some FLT_EVENT_TMR_CORRECTED
  | 0x0002 => some FLT_EVENT_INJ_REFUSED
  | 0x0003 => some FLT_EVENT_LOG_FULL
  | 0x0005 => some FLT_EVENT_RPR_WRITE_FAIL
  | 0x1060 => some FLT_EVENT_CORE_RETIRED
  | 0x1061 => some FLT_EVENT_CLUSTER_RETIRED
  | 0x1062 => some FLT_EVENT_UNHOMED
  | 0x1070 => some FLT_EVENT_AGE_WARN
  | 0x1071 => some FLT_EVENT_AGE_LIMIT
  | _ => none

/-- Everything that safe state stops in the aggregator (R423): passes (R348), egress (R401), and the role that the die
ports advertise (R160). -/
def Agg.safeStop (a : Agg) : Agg := (List.range 16).foldl (fun a p => a.advertise p) (a.vrfSafe.safeFlush)

/-- The aggregator goes into a safe state of R422: 1 SAFE, 3 LATCHED, 4 FATAL. From RUN and EXITING its work stops. -/
def Agg.toSafe (a : Agg) (new : Nat) : Agg :=
  let old := a.reg FLT_STATUS_STATE
  if old = new then a
  else
    let a := a.put FLT_STATUS_STATE new
    let a := if new = 3 then a.put FLT_EVENT_LATCHED 1 else a
    if old = 0 ∨ old = 2 then
      let a := a.put FLT_EVENT_SAFE_ENTER 1
      let moving := (a.pwr.dom.filter fun e => e.2.running.isSome).map fun e => (e.1, none)
      ({ a with p := a.p.onCol fun c => { c with safeAt := some a.p.nowNs, moving := moving } }).safeStop
    else a

/-- The safe state that an uncontained record or `ENTER_SAFE` leads to (R422). -/
def Agg.safeTarget (a : Agg) : Nat :=
  match a.reg FLT_STATUS_STATE with
  | 0 => if a.cfg FLT_CFG_RECOVER_MAX ≤ a.p.recoveries (a.cfg FLT_CFG_RECOVER_WIN_S) then 3 else 1
  | 2 => 1
  | st => st

/-- What a record does to the state of the collector (R422): the new state. -/
def Agg.stateAfter (a : Agg) (cls : Nat) : Nat :=
  let st := a.reg FLT_STATUS_STATE
  if cls = 3 then 4
  else if cls = 2 then a.safeTarget
  else if cls = 1 ∧ st = 2 then 1
  else st

/-- Capture of the first error (R417): the capture registers are written whole, their parity with them (log entry 179). -/
def Agg.capture (a : Agg) (r : FltRec) : Agg :=
  (((((((a.put FLT_FIRST_SRC_SOURCE r.source).put FLT_FIRST_SRC_CLASS r.cls).put FLT_FIRST_SRC_ACCESS r.access).put
    FLT_FIRST_SRC_MASTER r.master).put FLT_FIRST_SRC_VALID 1).put FLT_FIRST_SRC_CAP_PARITY 0).put FLT_FIRST_ADDR_ADDR
    r.addr).put FLT_FIRST_TIME_NS r.stamp

/-- A record is counted, raises its interrupt, is committed into the fault ring and enters the on-die log; a ring without
space for it, under all the cursors of R212, leaves it in the log only (R415, R418). -/
def Agg.fltCommit (a : Agg) (r : FltRec) : Agg :=
  let a := match r.cls with
    | 0 => a.count FLT_COUNT_CORR
    | 1 => a.count FLT_COUNT_CONT
    | _ => a.count FLT_COUNT_UNCONT
  let a := if r.escalated ∧ ¬ r.fromUligo then a.count FLT_COUNT_ESCAL else a
  let a := if r.cls ≠ 0 then a.send (.msix (a.cfg FLT_CFG2_VECTOR)) else a
  let ring := a.cfg FLT_CFG2_FLT_RING
  let on := a.ringOn ring && !a.gasp
  let ok := on && a.ringFits ring 64
  let a := if ok then (a.produce {
      ring := ring, type := 0x0D, cls := a.cfg FLT_CFG2_FLT_CLASS, die := r.die, ident := r.fseq, bytes := r.bytes }).1
    else a
  let a : Agg := { a with p := a.p.onCol fun c => { c with log := ({ r with committed := ok } :: c.log).take 64 } }
  if on ∧ ¬ ok ∧ r.source ≠ 0x0003 then { a with p := a.p.notify { source := 0x0003 } } else a

/-- A correctable occurrence joins an uncommitted correctable record of its source (R418). -/
def mergeInto (src : Nat) (first : Bool) : List FltRec → Option (List FltRec)
  | [] => none
  | r :: l =>
    if r.source = src ∧ r.cls = 0 ∧ ¬ r.committed ∧ ¬ r.fromUligo then
      some ({ r with count := min (r.count + 1) (2 ^ 32 - 1), first := r.first || first } :: l)
    else (mergeInto src first l).map (r :: ·)

/-- Record an occurrence in the aggregator (R413, R417, R418, R420, R422): class, capture, event bit, pending list, safe
state, then the log. `esc` is the class of the record that the sheepdog escalates (R421). -/
def Agg.collect (a : Agg) (o : Occ) (esc : Option Nat := none) : Agg :=
  let a : Agg := { a with p := a.p.vote }
  let orig := esc.getD (a.occClass o)
  let (a, cls) := a.rateClass o
  let a : Agg := { a with p := a.p.onSrc o.source fun x =>
    { x with count := min (x.count + 1) (2 ^ 24 - 1) } }
  let first := a.reg FLT_FIRST_SRC_VALID = 0 && decide (a.cfg FLT_CFG2_CAPTURE_MIN ≤ cls)
  let r : FltRec := {
    fseq := a.p.col.nextFseq, source := o.source, cls := cls, orig := orig, first := first, escalated := esc.isSome
    injected := o.injected, die := o.die, stamp := a.p.nowNs, addr := o.addr, master := o.master, access := o.access
    detail := o.detail % 2 ^ 32, cores := o.cores }
  let a := if first then a.capture r else a
  let a := match aggSrcBit o.source with
    | some f => a.put f 1
    | none => a
  match if cls = 0 then mergeInto o.source first a.p.col.log else none with
  | some log => { a with p := a.p.onCol fun c => { c with log := log, beatLost := false } }
  | none =>
    let p := a.p.onCol fun c => { c with nextFseq := c.nextFseq + 1, beatLost := false }
    let a : Agg := { a with p := p.onSrc o.source fun x => { x with lastFseq := r.fseq } }
    let (a, full) : Agg × Bool := if cls = 0 then (a, false) else
      let q := a.p.pend 512 0 r
      ({ a with p := q.1 }, q.2)
    let st := a.reg FLT_STATUS_STATE
    let new := a.stateAfter cls
    let enters := decide (st ≤ 2) && st != new
    let a := if enters then a.put FLT_STATUS_CAUSE_SRC r.source else a
    let a := (a.toSafe new).fltCommit { r with safeEntered := enters }
    if full then { a with p := a.p.notify { source := 0x0004 } } else a

/-- Record the next notified occurrence: the one of the higher class as it will be recorded, rate rules included (R412, R413,
R420). -/
def Agg.collectNext (a : Agg) : Agg :=
  match nextOcc (fun o => (a.rateClass o).2) a.p.col.notified with
  | none => a
  | some o => ({ a with p := a.p.unnotify o }).collect o

/-- Record every notified occurrence; what they raise in turn is within the bound (R420). -/
def Agg.collectAll (a : Agg) : Agg := (List.range (2 * a.p.col.notified.length)).foldl (fun a _ => a.collectNext) a

/-- A level source of class uncontained or fatal is still asserted (R424). -/
def Agg.levelHeld (a : Agg) : Bool := a.p.col.levels.any fun src => decide (2 ≤ a.occClass { source := src })

/-- The conditions of R424 but for time: nothing pending, no serious level asserted, and a control pair is ACTIVE. -/
def Agg.exitClear (a : Agg) : Bool :=
  a.p.col.pending.isEmpty && !a.levelHeld && (a.reg FLT_PAIR_STATUS_P0_STATE == 0 || a.reg FLT_PAIR_STATUS_P1_STATE == 0)

/-- The instant from which no serious record has been made for QUIET_MS (R424). -/
def Agg.quietNs (a : Agg) : Nat := a.p.col.lastSerious.elim 0 (· + a.cfg FLT_CFG_QUIET_MS * 1000000)

/-- Start of an exit (R424). -/
def Agg.exitBegin (a : Agg) : Agg :=
  let a := a.put FLT_STATUS_STATE 2
  { a with p := a.p.onCol fun c => { c with exits := a.p.nowNs :: c.exits } }

/-- The last step of an exit: checks, egress and roles resume, a FENCED sender may send a HELLO with RESET (R217), and the
state is RUN (R424). -/
def Agg.exitEnd (a : Agg) : Agg :=
  let a := ((a.put FLT_STATUS_STATE 0).put FLT_EVENT_SAFE_EXIT 1).put FAB_STATUS_SAFE 0
  let a : Agg := { a with
    p := a.p.onCol fun c => { c with safeAt := none, moving := [] }
    shed := { a.shed with resetHello := true } }
  let a := a.reoffer.joinGo
  (List.range 16).foldl (fun a p => a.advertise p) (a.vrfSettle.vrfShow)

/-! ### The Uligo -/

/-- A source of the host fault inputs (R414): the input. -/
def hfltOf (src : Nat) : Option Nat := if 0x1000 ≤ src ∧ src < 0x1400 then some (src - 0x1000) else none

/-- The class of an occurrence of the Uligo (R413, R416, R425). -/
def Ulg.occClass (u : Ulg) (o : Occ) : Nat :=
  if o.exact then o.cls
  else
    let own := match hfltOf o.source with
      | some n => u.cfg (ULG_HFLT_CFG_CLASS n)
      | none => u.cfg (ULG_FLT_SRC_CFG_CLASS o.source)
    max (max (floorUlg o.source) o.cls) (if u.p.col.floorOnly then 0 else own)

/-- The bit of `ULG_FLT_EVENT` that corresponds to a source (R415). -/
def ulgSrcBit (src : Nat) : Option Field :=
  match src with
  | 0x0000 => some ULG_FLT_EVENT_TMR_CORRECTED
  | 0x0002 => some ULG_FLT_EVENT_INJ_REFUSED
  | 0x0003 => some ULG_FLT_EVENT_LOG_FULL
  | 0x0006 => some ULG_FLT_EVENT_HOST_WRITE
  | 0x0A70 => some ULG_FLT_EVENT_AGE_WARN
  | 0x0A71 => some ULG_FLT_EVENT_AGE_LIMIT
  | _ => none

/-- An entry of the Uligo's log (R419), its 32 bytes. -/
def FltRec.entry (r : FltRec) : List Byte :=
  let bit (b : Bool) (k : Nat) : Nat := if b then 2 ^ k else 0
  leBytes 4 r.fseq ++ leBytes 2 r.source ++
    leBytes 1 (r.cls % 4 + bit r.escalated 2 + bit r.injected 3 + r.orig % 4 * 16) ++ leBytes 1 r.access ++
    leBytes 4 r.stamp ++ leBytes 4 r.addr ++ leBytes 1 r.master ++ zeros 1 ++ leBytes 2 r.count ++ leBytes 4 r.detail ++
    zeros 8

/-- The Uligo goes into a safe state (R422, R423). -/
def Ulg.toSafe (u : Ulg) (new : Nat) : Ulg :=
  let old := u.reg ULG_FLT_STATUS_STATE
  if old = new then u
  else
    let u := u.put ULG_FLT_STATUS_STATE new
    let u := if new = 3 then u.put ULG_FLT_EVENT_LATCHED 1 else u
    if old = 0 ∨ old = 2 then
      let u := u.put ULG_FLT_EVENT_SAFE_ENTER 1
      ({ u with p := u.p.onCol fun c => { c with safeAt := some u.p.nowNs } }).ftEnterSafe
    else u

/-- The safe state that an uncontained record or `ENTER_SAFE` leads to (R422). -/
def Ulg.safeTarget (u : Ulg) : Nat :=
  match u.reg ULG_FLT_STATUS_STATE with
  | 0 => if u.cfg ULG_FLT_CFG_RECOVER_MAX ≤ u.p.recoveries (u.cfg ULG_FLT_CFG_RECOVER_WIN_S) then 3 else 1
  | 2 => 1
  | st => st

/-- The new state of the collector after a record (R422). -/
def Ulg.stateAfter (u : Ulg) (cls : Nat) : Nat :=
  let st := u.reg ULG_FLT_STATUS_STATE
  if cls = 3 then 4
  else if cls = 2 then u.safeTarget
  else if cls = 1 ∧ st = 2 then 1
  else st

/-- Capture of the first error (R417, R440, log entry 179). -/
def Ulg.capture (u : Ulg) (r : FltRec) : Ulg :=
  ((((((u.put ULG_FLT_FIRST_SOURCE r.source).put ULG_FLT_FIRST_CLASS r.cls).put ULG_FLT_FIRST_ACCESS r.access).put
    ULG_FLT_FIRST_MASTER r.master).put ULG_FLT_FIRST_VALID 1).put ULG_FLT_FIRST_CAP_PARITY 0 |>.put ULG_FLT_FIRST_STAMP
    r.stamp).put ULG_FLT_FIRST_ADDR_ADDR r.addr

/-- A record enters the log of 32: full, a correctable one merges into the newest entry and any other is dropped with
LOG_FULL (R419). -/
def Ulg.fltLog (u : Ulg) (r : FltRec) : Ulg :=
  let l := u.p.col.log
  if l.length < 32 then { u with p := u.p.onCol fun c => { c with log := l ++ [r] } }
  else if r.cls = 0 then
    match l.getLast? with
    | some y => { u with p := u.p.onCol fun c => { c with log := l.dropLast ++ [{ y with count := min (y.count + 1) 65535 }] } }
    | none => u
  else u.put ULG_FLT_EVENT_LOG_FULL 1

/-- Record an occurrence in the Uligo (R413, R417, R419, R420, R422). -/
def Ulg.collect (u : Ulg) (o : Occ) (esc : Option Nat := none) : Ulg :=
  let u : Ulg := { u with p := u.p.vote }
  let cls := u.occClass o
  let u : Ulg := { u with p := u.p.onSrc o.source fun x =>
    { x with count := min (x.count + 1) (2 ^ 24 - 1), lastFseq := u.p.col.nextFseq } }
  let first := u.reg ULG_FLT_FIRST_VALID = 0 && decide (u.cfg ULG_FLT_CFG_CAPTURE_MIN ≤ cls)
  let r : FltRec := {
    fseq := u.p.col.nextFseq % 2 ^ 32, source := o.source, cls := cls, orig := esc.getD cls, first := first
    escalated := esc.isSome, injected := o.injected, stamp := u.p.nowNs, addr := o.addr % 2 ^ 32
    master := o.master % 256, access := o.access, detail := o.detail % 2 ^ 32, cores := o.cores }
  let u := if first then u.capture r else u
  let u := match ulgSrcBit o.source with
    | some f => u.put f 1
    | none => u
  let u : Ulg := { u with p := u.p.onCol fun c => { c with nextFseq := c.nextFseq + 1, beatLost := false } }
  let (u, full) : Ulg × Bool := if cls = 0 then (u, false) else
    let q := u.p.pend 32 u.upTime r
    ({ u with p := q.1 }, q.2)
  let u := (u.toSafe (u.stateAfter cls)).fltLog r
  if full then { u with p := u.p.notify { source := 0x0004 } } else u

/-- Record the next notified occurrence (R412, R420). -/
def Ulg.collectNext (u : Ulg) : Ulg :=
  match nextOcc u.occClass u.p.col.notified with
  | none => u
  | some o => ({ u with p := u.p.unnotify o }).collect o

/-- Record every notified occurrence. -/
def Ulg.collectAll (u : Ulg) : Ulg := (List.range (2 * u.p.col.notified.length)).foldl (fun u _ => u.collectNext) u

/-- An enabled level input of class uncontained or fatal is still asserted (R416, R424). -/
def Ulg.inputHeld (u : Ulg) : Bool :=
  (List.range 1024).any fun n =>
    u.bit (ULG_HFLT_STATE_LEVEL n) && u.cfgOn (ULG_HFLT_CFG_EN n) && !u.cfgOn (ULG_HFLT_CFG_PULSE n) && decide (2 ≤ u.cfg (ULG_HFLT_CFG_CLASS n))

/-- A level source of the Uligo's own hardware, of class uncontained or fatal, is still asserted (R424). -/
def Ulg.levelHeld (u : Ulg) : Bool := u.p.col.levels.any fun src => decide (2 ≤ u.occClass { source := src })

/-- The conditions of R424 but for time. -/
def Ulg.exitClear (u : Ulg) : Bool := u.p.col.pending.isEmpty && !u.inputHeld && !u.levelHeld

/-- The instant from which no serious record has been made for QUIET_MS (R424). -/
def Ulg.quietNs (u : Ulg) : Nat := u.p.col.lastSerious.elim 0 (· + u.cfg ULG_FLT_CFG_QUIET_MS * 1000000)

/-- Start of an exit (R424). -/
def Ulg.exitBegin (u : Ulg) : Ulg :=
  let u := u.put ULG_FLT_STATUS_STATE 2
  { u with p := u.p.onCol fun c => { c with exits := u.p.nowNs :: c.exits } }

/-- The end of an exit (R424). -/
def Ulg.exitEnd (u : Ulg) : Ulg :=
  let u := (u.put ULG_FLT_STATUS_STATE 0).put ULG_FLT_EVENT_SAFE_EXIT 1
  { u with p := u.p.onCol fun c => { c with safeAt := none } }

end Sys2Proof.Machine
end

