-- ==== Sys2Proof/Machine/Hedge.lean ====
section
/-! DEFINITION. The Hedge engine (09): packages and their check (R309, R310), tree SRAM (R314), the score (R308, R311), the
model slots (R315 to R320). -/

namespace Sys2Proof.Machine

/-! ### Packages (R307 to R310) -/

/-- Trees of a package. -/
def pkgTrees (l : List Byte) : Nat := leAt l 4 4
/-- Depth. -/
def pkgDepth (l : List Byte) : Nat := leAt l 8 1
/-- Leaf format. -/
def pkgFmt (l : List Byte) : Nat := leAt l 9 1
/-- Link mode. -/
def pkgLink (l : List Byte) : Nat := leAt l 10 1
/-- SCALE_SH. -/
def pkgShift (l : List Byte) : Int := signed 8 (leAt l 11 1)
/-- Slots used. -/
def pkgFeat (l : List Byte) : Nat := leAt l 12 2
/-- Bytes of a tree (R307). -/
def treeBytes (depth : Nat) : Nat := 2 ^ (depth + 3)
/-- Word `w` of tree `t`. -/
def pkgWord (l : List Byte) (t w : Nat) : Nat := leAt l (64 + t * treeBytes (pkgDepth l) + 4 * w) 4

/-- The header is one that R309 allows and R310 does not refuse. -/
def pkgHeaderGood (l : List Byte) : Bool :=
  let n := pkgTrees l
  let d := pkgDepth l
  let trees := n * treeBytes d
  l.length == 64 && leAt l 0 1 == 0x51 && leAt l 1 1 == 1 && decide (1 ≤ n) && decide (n ≤ 65536) && decide (1 ≤ d) &&
    decide (d ≤ 12) && decide (pkgFmt l ≤ 1) && decide (pkgLink l ≤ 1) && !(pkgLink l == 1 && pkgFmt l == 0) &&
    decide (-32 ≤ pkgShift l) && decide (pkgShift l ≤ 32) && decide (1 ≤ pkgFeat l) && decide (pkgFeat l ≤ 256) &&
    leAt l 14 2 == 0 && (pkgFmt l == 0 || leAt l 20 4 == 0) && leAt l 24 4 == treeBytes d && leAt l 28 4 == 64 &&
    leAt l 32 4 == (if pkgLink l = 1 then 64 + trees else 0) &&
    leAt l 36 4 == 64 + trees + (if pkgLink l = 1 then 16384 else 0) + 8 && leNat (l.drop 40) == 0

/-- A binary32 that is finite. -/
def finiteB32 (bits : Nat) : Bool := bits / 2 ^ 23 % 256 != 255

/-- The body: reserved words and bits, features, leaves, BASE (R310). -/
def pkgBodyGood (l : List Byte) : Bool :=
  let d := pkgDepth l
  let fl := pkgFmt l == 1
  (!fl || finiteB32 (leAt l 16 4)) && (List.range (pkgTrees l)).all fun t =>
    pkgWord l t 0 == 0 &&
      (List.range (2 ^ d - 1)).all (fun i =>
        let w := pkgWord l t (i + 1)
        w / 256 % 256 == 0 && decide (w % 256 < pkgFeat l)) &&
      (!fl || (List.range (2 ^ d)).all fun i => finiteB32 (pkgWord l t (2 ^ d + i)))

/-- A package in the Model region, as bytes, when it passes every check but that for space (R310). -/
def Agg.pkgAt (a : Agg) (addr crc : Nat) : Option (List Byte) :=
  let h := a.shedRead addr 64
  if a.inRegion 8 addr 64 && pkgHeaderGood h && a.inRegion 8 addr (leAt h 36 4) then
    let l := a.shedRead addr (leAt h 36 4)
    let c := leAt l (l.length - 8) 4
    if c == crc && c == crc32c (l.take (l.length - 8)) && pkgBodyGood l then some l else none
  else none

/-! ### Slots and their registers (R314, R316, R322) -/

/-- Bytes per bank that a package takes (R314). -/
def pkgBank (l : List Byte) : Nat := ceilDiv (ceilDiv (pkgTrees l) 64 * treeBytes (pkgDepth l)) 4096 * 4096

/-- State code of a slot. -/
def Agg.hdgState (a : Agg) (m : Nat) : Nat := a.reg (HDG_SLOT_STATUS_STATE m)

/-- The aggregator with a slot changed. -/
def Agg.onHdg (a : Agg) (m : Nat) (f : HdgSlot → HdgSlot) : Agg :=
  { a with hdg := { a.hdg with slot := a.hdg.slot.upd m f } }

/-- The slot's registers follow. -/
def Agg.hdgShow (a : Agg) (m : Nat) : Agg :=
  let s := a.hdg.slot.get m
  let l := s.cur.elim [] (·.bytes)
  let on (n : Nat) : Nat := if s.cur.isSome then n else 0
  let a := (((a.put (HDG_SLOT_STATUS_DEPTH m) (on (pkgDepth l))).put (HDG_SLOT_STATUS_LEAF_FMT m) (on (pkgFmt l))).put
    (HDG_SLOT_STATUS_LINK m) (on (pkgLink l))).put (HDG_SLOT_STATUS_NTREES m) (on (pkgTrees l))
  let a := (a.put (HDG_SLOT_STATUS_OFF_4K m) (s.cur.elim 0 fun c => c.off / 4096)).put (HDG_SLOT_STATUS_MODEL_ID m)
    (on (leAt l 2 2))
  let a := (a.put (HDG_SLOT_CRC_CUR m) (s.cur.elim 0 (·.crc))).put (HDG_SLOT_CRC_OTHER m)
    ((s.next.orElse fun _ => s.kept).elim 0 (·.crc))
  (a.put HDG_STATUS_FREE_4K a.bankLargest).put HDG_STATUS_ACTIVE_SLOTS
    ((List.range 16).filter fun k => (a.hdg.slot.get k).cur.isSome).length

/-- A slot enters a state. -/
def Agg.hdgEnter (a : Agg) (m st : Nat) : Agg := (a.put (HDG_SLOT_STATUS_STATE m) st).hdgShow m

/-- The swap of a slot ends in the journal, if it has begun there, and with it those that it runs again. -/
def Agg.swapEnd (a : Agg) (m type outcome : Nat) : Agg :=
  let s := a.hdg.slot.get m
  let a := (s.op.toList ++ s.again).foldl (fun a op => a.jrnEnd op type outcome) a
  a.onHdg m fun s => { s with op := none, again := [] }

/-- BEGIN of a swap (R319), once the journal takes it. -/
def Agg.swapBegin (a : Agg) (m : Nat) : Agg :=
  let s := a.hdg.slot.get m
  if s.op.isSome ∨ ¬ a.jrnReady then a
  else
    let b := a.jrnBegin 9 none (s.asked % 2 ^ 64 + s.crc % 2 ^ 32 * 2 ^ 64 + m % 256 * 2 ^ 96)
    b.1.onHdg m fun s => { s with op := some b.2 }

/-- An accepted COMMIT of a slot's fields (R317, R319): EN loads the package, unless it is already current; EN clear empties
an ACTIVE slot at ACT_TICK, until another COMMIT sets EN. A slot that is neither EMPTY nor ACTIVE stays as it is. -/
def Agg.hdgCommit (a : Agg) (m addr crc act : Nat) (en : Bool) : Agg :=
  let st := a.hdgState m
  if st ≠ 0 ∧ st ≠ 3 then a
  else if en then
    let a := a.onHdg m fun s => { s with emptyAt := none }
    if (a.hdg.slot.get m).cur.any fun c => c.crc == crc then a
    else
      let a := a.onHdg m fun s => { s with prev := st, actTick := act, asked := act, crc := crc, addr := addr * 4096 }
      (a.swapBegin m).hdgEnter m 1
  else if st = 3 then a.onHdg m fun s => { s with emptyAt := some act }
  else a

/-- The instant of a tick number under the period in force (R23). -/
def Agg.tickNs (a : Agg) (t : Nat) : Nat := t * a.p.tick.us * 1000

/-- A swap whose ACT_TICK has latched before the slot reached PENDING is stopped for lateness (R317, R319). -/
def Agg.swapLate (a : Agg) (m : Nat) : Agg :=
  ((a.swapEnd m 0x12 2).event HDG_EVENT_SWAP_LATE).hdgEnter m (a.hdg.slot.get m).prev

/-- A range of every tree SRAM bank is loaded anew: the spare rows that are due in it are mapped (R431). -/
def Agg.treeRows (a : Agg) (off size : Nat) : Agg :=
  a.rowsMap fun o => match o with
    | .tree from_ n => decide (from_ < off + size) && decide (off < from_ + n)
    | _ => false

/-- MODEL_LOADED (R317): the package is checked and copied, and the swap's BEGIN is mirrored. An ACT_TICK of 0 becomes the
first tick that latches from now on. -/
def execModelLoaded (m : Fin 16) (s : State) : Host.Outcome State Fault Refusal :=
  .next (s.onAgg fun a =>
    if a.hdgState m = 1 then
      let h := a.hdg.slot.get m
      let refuse (a : Agg) (f : Field) : Agg :=
        (((a.swapEnd m 0x12 1).count HDG_ERR_COUNT_REFUSED).event f).hdgEnter m h.prev
      match a.pkgAt h.addr h.crc with
      | none => refuse a HDG_EVENT_LOAD_REFUSED
      | some l =>
        match a.bankPlace (pkgBank l) with
        | none => refuse a HDG_EVENT_NO_SPACE
        | some off =>
          let a := a.swapBegin m
          if ¬ (a.hdg.slot.get m).op.any a.beginMirrored then a
          else if h.actTick ≠ 0 ∧ a.tickNs h.actTick ≤ a.p.nowNs then a.swapLate m
          else
            ((a.treeRows off (pkgBank l)).onHdg m fun s => { s with
              next := some { crc := h.crc, addr := h.addr, bytes := l, off := off, size := pkgBank l }
              actTick := if h.actTick = 0 then tickOf a.p.nowNs a.p.tick.us + 1 else h.actTick }).hdgEnter m 2
    else a)

/-- MODEL_ACTIVATE (R317): ACT_TICK latches. -/
def execModelActivate (m : Fin 16) (s : State) : Host.Outcome State Fault Refusal :=
  .next (s.onAgg fun a =>
    let h := a.hdg.slot.get m
    let reach (t : Nat) : Agg := { a with p := a.p.until (a.tickNs t) }
    match a.hdgState m with
    | 2 =>
      let a := reach h.actTick
      let tick := if h.actTick = 0 then tickOf a.p.nowNs a.p.tick.us else h.actTick
      let a := (a.onHdg m fun s => { s with cur := s.next, next := none, kept := s.cur, swapTick := tick }).swapEnd m 0x11 0
      a.hdgEnter m (if h.cur.isSome then 4 else 3)
    | 1 =>
      if h.actTick = 0 then a
      else (reach h.actTick).swapLate m
    | 3 =>
      match h.emptyAt with
      | some t => ((reach t).onHdg m fun s => { s with cur := none, emptyAt := none }).hdgEnter m 0
      | none => a
    | _ => a)

/-- RETAIN_END (R317). -/
def execRetainEnd (m : Fin 16) (s : State) : Host.Outcome State Fault Refusal :=
  .next (s.onAgg fun a =>
    let h := a.hdg.slot.get m
    if a.hdgState m = 4 ∧ ¬ (a.hdg.queue.any fun q => q.model = m.val && some q.copy = h.kept) then
      let a : Agg := { a with p := a.p.until (a.tickNs (h.swapTick + a.cfg HDG_CFG_RETAIN_TICKS)) }
      (a.onHdg m fun s => { s with kept := none }).hdgEnter m 3
    else a)

/-! ### The score (R308, R311, R313) -/

/-- The walk of one tree: the leaf word. -/
def hdgWalk (l : List Byte) (t : Nat) (x : Tab Nat) : Nat → Nat → Nat
  | 0, n => pkgWord l t n
  | k + 1, n =>
    let w := pkgWord l t n
    hdgWalk l t x k (if w / 2 ^ 16 ≤ x.get (w % 256) then 2 * n + 1 else 2 * n)

/-- The leaf words of a lane's trees, in ascending tree order. -/
def laneLeaves (l : List Byte) (x : Tab Nat) (lane : Nat) : List Nat :=
  ((List.range (pkgTrees l)).filter fun t => t % 64 = lane).map fun t => hdgWalk l t x (pkgDepth l) 1

/-- Neighbours added pairwise, once. -/
def pairLevel {α : Type} (f : α → α → α) : List α → List α
  | x :: y :: t => f x y :: pairLevel f t
  | l => l

/-- The six pairwise levels over the 64 lane sums. -/
def pairSum {α : Type} (f : α → α → α) (l : List α) : List α :=
  (List.range 6).foldl (fun l _ => pairLevel f l) l

/-- The score of a model with INT32 leaves, as an exact integer. -/
def scoreInt (l : List Byte) (x : Tab Nat) : Int :=
  let lanes := (List.range 64).map fun j => ((laneLeaves l x j).map fun w => signed 32 w).foldl (· + ·) 0
  (pairSum (· + ·) lanes).headD 0 + signed 64 (leAt l 16 8)

/-- The binary32 sum of a model with BINARY32 leaves. -/
def scoreB32 (l : List Byte) (x : Tab Nat) : Val :=
  let lanes := (List.range 64).map fun j => ((laneLeaves l x j).map fun w => decodeElem 0xB w false).foldl addB32 Val.zero
  addB32 ((pairSum addB32 lanes).headD Val.zero) (decodeElem 0xB (leAt l 16 4) false)

/-- Floor of a finite value × 2^sh. -/
def floorScaled (v : Val) (sh : Int) : Int := v.num.elim 0 fun a => (numFloor (a.1, a.2 + sh) 0).1

/-- The link table entry for a sum (R311). -/
def linkEntry (l : List Byte) (v : Val) : Int :=
  let i : Int := match v with
    | .inf neg => if neg then 0 else 4095
    | v => clampInt 0 4095 (floorScaled v (pkgShift l) + 2048)
  signed 32 (leAt l (leAt l 32 4 + 4 * i.toNat) 4)

/-- The score; `none` where the sum leaves 64 bits, or is a NaN, so that R311 states none. -/
def hdgScore (l : List Byte) (x : Tab Nat) : Option Int :=
  if pkgFmt l = 0 then
    let s := scoreInt l x
    if -(2 ^ 63) ≤ s ∧ s < 2 ^ 63 then some s else none
  else
    let v := scoreB32 l x
    if v = .nan then none
    else if pkgLink l = 1 then some (linkEntry l v)
    else toInt64 (-max63) v (pkgShift l)

/-- Engine cycles for which a request occupies the lanes (R313). -/
def hdgLanes (l : List Byte) : Nat := ceilDiv (pkgTrees l) 64

/-- Engine cycles from the start of a request to its score (R313). -/
def hdgCycles (l : List Byte) : Nat := hdgLanes l + pkgDepth l + 14

/-- The instant at which a request starts: when the lanes are free for it (R313). One cycle at 1.2 GHz is 5 sixths of a
nanosecond. -/
def Agg.hdgStart (a : Agg) (q : HdgReq) : Nat := max q.issued a.hdg.free

/-- The drover cycles at 1.5 GHz, 4 sixths of a nanosecond each, for which the core of a request waits for an answer, queue
time included (R273, R313). -/
def Agg.hdgWait (a : Agg) (q : HdgReq) (engine : Nat) : Nat := ceilDiv (a.hdgStart q + 5 * engine - q.issued) 4

/-- The waiting run of a die slot takes an answer that comes after some engine cycles (R271, R313). -/
def Agg.hdgReturn (a : Agg) (q : HdgReq) (v : Int) (engine flags : Nat) : Agg :=
  let a : Agg := { a with p := a.p.until (ceilDiv (a.hdgStart q + 5 * engine) 6) }
  a.onRun q.die fun r => match r.hedge with
    | none => r
    | some d =>
      let r := ({ r with hedge := none, flags := r.flags ||| flags } : Run)
      ((r.set d v).charge (a.hdgWait q engine)).step 1 0 []

/-- A request is answered 0 when it would start. -/
def Agg.hdgZero (a : Agg) (q : HdgReq) (flags : Nat) : Agg := (a.count HDG_ERR_COUNT_MISSING).hdgReturn q 0 0 flags

/-- A request occupies the lanes from its start, and the next one starts when they are free (R313). -/
def Agg.hdgOccupied (a : Agg) (q : HdgReq) (f : Agg → Agg) : Agg :=
  let free := a.hdgStart q + 5 * hdgLanes q.copy.bytes
  let a := f ((a.count HDG_EVAL_COUNT_TREES (pkgTrees q.copy.bytes)).count HDG_REQ_COUNT_REQUESTS)
  { a with hdg := { a.hdg with free := free } }

/-- The request at the head of the queue is answered (R311 to R313). One that meets a FAULTED slot is answered 0 with
HEDGE_MISSING, and so is, without it, one that starts with the engine disabled or its domain not ON (R322, R443).
`corrected` is the number of tree words that its reads corrected (R320). -/
def Agg.hdgServe (a : Agg) (corrected : Nat) : Agg :=
  match a.hdg.queue with
  | [] => a
  | q :: rest =>
    let a := a.hdgQueue rest
    if a.cfg HDG_CFG_EN = 0 ∨ ¬ a.domOn 0x0C then a.hdgZero q 0
    else if a.hdgState q.model = 5 then (a.event HDG_EVENT_MISSING_REQ).hdgZero q 128
    else a.hdgOccupied q fun a =>
      let l := q.copy.bytes
      let a := if corrected = 0 then a else (a.count HDG_ERR_COUNT_CE corrected).event HDG_EVENT_SRAM_CE
      let w := match hdgScore l q.vec with
        | some v => (a, v)
        | none =>
          let d := a.p.draw
          (({ a with p := d.2 } : Agg), signed 64 d.1)
      w.1.hdgReturn q w.2 (hdgCycles l) 0

/-- HEDGE_SCORE (R311 to R313): the oldest request is answered. -/
def execHedgeScore (corrected : Nat) (s : State) : Host.Outcome State Fault Refusal :=
  .next (s.onAgg fun a => if a.gasp then a else a.hdgServe corrected)

/-! ### SRAM errors (R320) -/

/-- The request of a slot that reads the word (R320): its oldest. The requests ahead of it start before it and are answered
first (R312). It returns 0 when its walk is over, having occupied the lanes (R313). DESIGN CHOICE, log entry 158. -/
def Agg.hdgUe (a : Agg) (m : Nat) : Agg :=
  let ahead := (a.hdg.queue.takeWhile fun q => q.model ≠ m).length
  let a := (List.range ahead).foldl (fun a _ => a.hdgServe 0) a
  match a.hdg.queue with
  | [] => a
  | q :: rest => (a.hdgQueue rest).hdgOccupied q fun a => (a.count HDG_ERR_COUNT_MISSING).hdgReturn q 0 (hdgCycles q.copy.bytes) 0

/-- SRAM_UE (R320): the request of the slot that reads the word returns 0, and the slot is FAULTED. The current copy is
reloaded, or the next one where there is no current one; the further copy goes. R317 lets a slot in LOADING go on with its
load. The word may lie in a copy that the slot no longer holds and that the request still reads (R317): the slot then stays
as it is. A slot that neither holds a copy nor has a request waiting has no word to read. -/
def execSramUe (m : Fin 16) (s : State) : Host.Outcome State Fault Refusal :=
  .next (s.onAgg fun a =>
    let st := a.hdgState m
    let reader := a.hdg.queue.find? fun q => q.model = m.val
    let copies := (a.hdg.slot.get m).copies
    if (copies = [] ∧ reader = none) ∨ st = 5 then a
    else
      let a := if a.gasp ∨ reader = none then a else a.hdgUe m
      let a := (a.count HDG_ERR_COUNT_UE).event HDG_EVENT_SRAM_UE
      if st = 0 ∨ st = 1 ∨ reader.any (fun q => ! copies.contains q.copy) then a
      else
        let a := if st = 2 ∧ (a.hdg.slot.get m).cur.isSome then a.swapEnd m 0x12 2 else a
        (a.onHdg m fun s => { s with cur := s.cur.orElse fun _ => s.next, next := none, kept := none }).hdgEnter m 5)

/-- RELOADED (R320): the copy is taken again from its package, or the slot is emptied. -/
def execReloaded (m : Fin 16) (s : State) : Host.Outcome State Fault Refusal :=
  .next (s.onAgg fun a =>
    match a.hdgState m, (a.hdg.slot.get m).cur with
    | 5, some c =>
      match a.pkgAt c.addr c.crc with
      | some l =>
        let a := (a.swapEnd m 0x11 0).onHdg m fun s => { s with cur := some { c with bytes := l } }
        ((a.treeRows c.off c.size).event HDG_EVENT_RELOADED).hdgEnter m 3
      | none =>
        let a := (a.swapEnd m 0x12 1).onHdg m fun s => { s with cur := none }
        ((a.count HDG_ERR_COUNT_REFUSED).event HDG_EVENT_LOAD_REFUSED).hdgEnter m 0
    | _, _ => a)

end Sys2Proof.Machine
end

