-- ==== Sys2Proof/Machine/Fault.lean ====
section
/-! DEFINITION. The commands of fault collection and self-repair (R412 to R441). -/

namespace Sys2Proof.Machine

/-! ### Occurrences (R412, R416, R417) -/

/-- The occurrence that a hardware source reports (R415). -/
def hwOcc (h : HwOccurrence) : Occ := {
  source := h.source % 65536, addr := h.addr % 2 ^ 64, master := h.master % 65536, access := h.access % 8
  detail := h.detail % 2 ^ 32 }

/-- A supply outside its absolute range while the loader is in RESET holds the part there (R503). -/
def Agg.supplyHold (a : Agg) (source : Nat) : Agg :=
  if source = 0x1041 ∧ a.reg CFG_STATUS_STATE = 0 then { a with conf := { a.conf with held := true } } else a

/-- FAULT_OCCURRENCE (R412, R417) at the aggregator: the next occurrence that a block has notified, one of a hardware source,
or what the collector finds in itself. -/
def Agg.report (a : Agg) : FaultReport → Agg
  | .notified => a.collectNext
  | .hardware h => (({ a with p := a.p.level (h.source % 65536) true } : Agg).collect (hwOcc h)).supplyHold h.source
  | .released src => { a with p := a.p.level (src % 65536) false }
  | .captureParity => a.put FLT_FIRST_SRC_CAP_PARITY 1
  | .copyUpset l k => { a with p := a.p.upset l k }

/-- FAULT_OCCURRENCE at the Uligo. -/
def Ulg.report (u : Ulg) : FaultReport → Ulg
  | .notified => u.collectNext
  | .hardware h => ({ u with p := u.p.level (h.source % 65536) true } : Ulg).collect (hwOcc h)
  | .released src => { u with p := u.p.level (src % 65536) false }
  | .captureParity => u.put ULG_FLT_FIRST_CAP_PARITY 1
  | .copyUpset l k => { u with p := u.p.upset l k }

/-- FAULT_OCCURRENCE (R412, R417, R425). -/
def execFaultOccurrence (part : PartSel) (r : FaultReport) (s : State) : Host.Outcome State Fault Refusal :=
  .next (s.onPart part (fun a => a.report r) (fun u => u.report r))

/-- An input has held a level for that many island cycles: it is the active one, set by POL, or the inactive one, and it is
counted after FILT + 1 cycles (R416). -/
def Ulg.hfltCounts (u : Ulg) (n : Nat) (active level : Bool) (cycles : Nat) : Bool :=
  u.cfgOn (ULG_HFLT_CFG_EN n) && (level != u.cfgOn (ULG_HFLT_CFG_POL n)) == active &&
    decide (u.cfg (ULG_HFLT_CFG_FILT n) < cycles)

/-- HFLT_ASSERT (R416): an enabled input that has held its active level long enough, and that is not asserted yet, records
one occurrence. -/
def execHfltAssert (n : Fin 1024) (level : Bool) (cycles : Nat) (s : State) : Host.Outcome State Fault Refusal :=
  .next (s.onUlg fun u =>
    if u.hfltCounts n true level cycles ∧ ¬ u.bit (ULG_HFLT_STATE_LEVEL n) then
      ((u.put (ULG_HFLT_STATE_LEVEL n) 1).count (ULG_HFLT_STATE_COUNT n)).collect {
        source := 0x1000 + n.val, addr := n, master := 0xFF }
    else u)

/-- HFLT_RELEASE (R416): an input that has held its inactive level long enough may be counted again. -/
def execHfltRelease (n : Fin 1024) (level : Bool) (cycles : Nat) (s : State) : Host.Outcome State Fault Refusal :=
  .next (s.onUlg fun u => if u.hfltCounts n false level cycles then u.put (ULG_HFLT_STATE_LEVEL n) 0 else u)

/-- CE_RATE_HOUR_END (R413): at the end of a fleet-time hour the sources that CE_RATE raised are correctable again. The
Uligo has no such rule. -/
def execCeRateHourEnd (part : PartSel) (s : State) : Host.Outcome State Fault Refusal :=
  .next (s.onPart part
    (fun a =>
      let p := a.p.until ((a.p.nowSec / 3600 + 1) * 3600 * 1000000000)
      { a with p := p.onCol fun c => { c with srcs := c.srcs.map fun e => (e.1, { e.2 with hourCount := 0, raised := false }) } })
    (fun u => u))

/-! ### Pending list and sheepdog (R420, R421) -/

/-- FLT_ACK (R420): a record leaves the pending list. -/
def execFltAck (part : PartSel) (fseq : Nat) (s : State) : Host.Outcome State Fault Refusal :=
  .next (s.onPart part
    (fun a => { a with p := a.p.vote.unpend (fseq % 2 ^ 64) })
    (fun u => { u with p := u.p.vote.unpend (fseq % 2 ^ 32) }))

/-- The oldest contained record of the pending list (R421). -/
def Part.sheep (p : Part) : Option Pend := p.col.pending.find? fun r => r.cls = 1

/-- The occurrence that escalates a record (R421). -/
def escalation (r : Pend) : Occ := {
  source := r.source, cls := 2, exact := true, die := r.die, addr := r.addr, master := r.master, access := r.access
  detail := r.fseq % 2 ^ 32 }

/-- SHEEPDOG (R421): the timer of the oldest contained record expires. A Uligo's timer stands while no port is UP or in
RETRY. -/
def execSheepdog (part : PartSel) (s : State) : Host.Outcome State Fault Refusal :=
  .next (s.onPart part
    (fun a =>
      let a : Agg := { a with p := a.p.vote }
      match a.p.sheep with
      | none => a
      | some r =>
        let p := (a.p.until (r.stamp + a.cfg FLT_CFG_SHEEPDOG_US * 1000)).unpend r.fseq
        ((({ a with p := p } : Agg).put FLT_EVENT_SHEEPDOG 1).collect (escalation r) (some r.cls)))
    (fun u =>
      let u : Ulg := { u with p := u.p.vote }
      match u.p.sheep with
      | none => u
      | some r =>
        let left := r.up + u.cfg ULG_FLT_CFG_SHEEPDOG_US * 1000 - u.upTime
        if left = 0 ∨ u.p.col.upFrom.isSome then
          let p := (u.p.until (u.p.nowNs + left)).unpend r.fseq
          ((({ u with p := p } : Ulg).put ULG_FLT_EVENT_SHEEPDOG 1).collect (escalation r) (some r.cls))
        else u))

/-! ### Safe state (R422 to R426) -/

/-- ENTER_SAFE (R422): no record is made. -/
def execEnterSafe (part : PartSel) (s : State) : Host.Outcome State Fault Refusal :=
  .next (s.onPart part (fun a => a.toSafe a.safeTarget) (fun u => u.toSafe u.safeTarget))

/-- The instant by which a block must be quiesced (R422, R447): SAFE_US after the entry, or, for one whose power domain was in
a transition then, after that transition's completion; while it still runs there is none. -/
def Agg.quiesceBy (a : Agg) (dom : Option Nat) : Option Nat :=
  let from_ := match dom.bind fun d => a.p.col.moving.find? fun e => e.1 = d with
    | some e => e.2
    | none => a.p.col.safeAt
  from_.map (· + a.cfg FLT_CFG_SAFE_US * 1000)

/-- QUIESCE_TIMEOUT (R422): a block of the aggregator, with its power domain where it has one, is not quiesced in time. -/
def execQuiesceTimeout (dom : Option Nat) (s : State) : Host.Outcome State Fault Refusal :=
  .next (s.onAgg fun a =>
    match a.quiesceBy dom with
    | none => a
    | some t => if a.safe then ({ a with p := a.p.until t } : Agg).toSafe 4 else a)

/-- EXIT_START (R422, R424): with AUTO_EXIT set, the exit starts once the conditions hold. -/
def execExitStart (part : PartSel) (s : State) : Host.Outcome State Fault Refusal :=
  .next (s.onPart part
    (fun a =>
      let a : Agg := { a with p := a.p.vote }
      if a.reg FLT_STATUS_STATE = 1 ∧ a.cfgOn FLT_CFG_AUTO_EXIT ∧ a.exitClear then
        ({ a with p := a.p.until a.quietNs } : Agg).exitBegin
      else a)
    (fun u =>
      let u : Ulg := { u with p := u.p.vote }
      if u.reg ULG_FLT_STATUS_STATE = 1 ∧ u.cfgOn ULG_FLT_CFG_AUTO_EXIT ∧ u.exitClear then
        ({ u with p := u.p.until u.quietNs } : Ulg).exitBegin
      else u))

/-- EXIT (R438): an exit when R424 holds now; ignored otherwise. -/
def execExit (part : PartSel) (s : State) : Host.Outcome State Fault Refusal :=
  .next (s.onPart part
    (fun a =>
      let a : Agg := { a with p := a.p.vote }
      if a.reg FLT_STATUS_STATE = 1 ∧ a.exitClear ∧ a.quietNs ≤ a.p.nowNs then a.exitBegin else a)
    (fun u =>
      let u : Ulg := { u with p := u.p.vote }
      if u.reg ULG_FLT_STATUS_STATE = 1 ∧ u.exitClear ∧ u.quietNs ≤ u.p.nowNs then u.exitBegin else u))

/-- SAFE_EXIT (R420, R424): the last step, unless an occurrence of class contained or above abandons the exit. -/
def execSafeExit (part : PartSel) (s : State) : Host.Outcome State Fault Refusal :=
  .next (s.onPart part
    (fun a => if a.reg FLT_STATUS_STATE = 2 then
        let a := a.collectAll
        if a.reg FLT_STATUS_STATE = 2 then a.exitEnd else a
      else a)
    (fun u => if u.reg ULG_FLT_STATUS_STATE = 2 then
        let u := u.collectAll
        if u.reg ULG_FLT_STATUS_STATE = 2 then u.exitEnd else u
      else u))

/-- The monitor has driven the safe output by itself (R426). -/
def Part.beatGone (p : Part) : Part := p.onCol fun c => { c with monitor := true, beatLost := true }

/-- HEARTBEAT_LOSS (R426): no heartbeat for 1 us, so the monitor takes the part into FATAL. -/
def execHeartbeatLoss (part : PartSel) (s : State) : Host.Outcome State Fault Refusal :=
  .next (s.onPart part
    (fun a => { a.toSafe 4 with p := (a.toSafe 4).p.beatGone })
    (fun u => { u.toSafe 4 with p := (u.toSafe 4).p.beatGone }))

/-- CLEAR_FIRST (R417): VALID clears. -/
def execClearFirst (part : PartSel) (s : State) : Host.Outcome State Fault Refusal :=
  .next (s.onPart part (fun a => a.put FLT_FIRST_SRC_VALID 0) (fun u => u.put ULG_FLT_FIRST_VALID 0))

/-- What an injection notifies: outside factory test mode source 0x0002 (R427). -/
def injected (ftm : Bool) (source cls : Nat) : Occ :=
  if ftm then { source := source % 65536, cls := cls, exact := true, injected := true } else { source := 0x0002 }

/-- FLT_INJECT (R427). -/
def execFltInject (part : PartSel) (source : Nat) (cls : Fin 4) (s : State) : Host.Outcome State Fault Refusal :=
  .next (s.onPart part
    (fun a => a.collect (injected (a.bit FLT_STATUS_FTM) source cls))
    (fun u => u.collect { injected (u.bit ULG_FLT_STATUS_FTM) source cls with master := 0xFF }))

/-! ### The Uligo's log (R419) -/

/-- The fault ring holds a record of this die and UFSEQ (R419). -/
def Agg.holdsUligo (a : Agg) (die ufseq : Nat) : Bool :=
  let r := a.cfg FLT_CFG2_FLT_RING
  (a.ring r).recs.any fun q =>
    q.type = 0x0D && q.die = some die &&
      (let l := a.recordBytes r q
       bitAt (leAt l 2 2) 2 && leAt l 52 4 = ufseq)

/-- A READ of the fault registers of a slot's die (R419). -/
def Agg.fltRead (a : Agg) (s off count : Nat) (use : CmdUse) : Agg :=
  a.cmdIssue (a.portOfSlot s) { opcode := 1, addr := off, count := count, use := use }

/-- This aggregator polls the faults of a slot's die: it is its primary, on an ACTIVE session (R419). -/
def Agg.fltPolls (a : Agg) (s : Nat) : Bool :=
  (a.dieOfSlot s).isSome && a.role.get s == 1 && a.reg (DP_STATUS_SESSION (a.portOfSlot s)) == 2

/-- FLT_POLL (R419): POLL_US after the last poll of the die, the primary reads its `ULG_FLT_STATUS` through Rycon-D. -/
def execFltPoll (slot : Fin 16) (s : State) : Host.Outcome State Fault Refusal :=
  .next (s.onAgg fun a =>
    if a.fltPolls slot then
      let p := a.p.until ((a.flt.pollNs.get slot).elim 0 (· + a.cfg FLT_CFG2_POLL_US * 1000))
      let a : Agg := { a with p := p, flt := { a.flt with pollNs := a.flt.pollNs.set slot (some p.nowNs) } }
      a.fltRead slot ULG_FLT_STATUS_STATE.off 1 (.fltStatus slot)
    else a)

/-- `ULG_FLT_STATUS` of a die has been read: while LOG_LEVEL is not 0, the oldest entry is read next (R419). -/
def Agg.fltStatusTaken (a : Agg) (s status : Nat) : Agg :=
  if a.fltPolls s ∧ status / 2 ^ ULG_FLT_STATUS_LOG_LEVEL.lsb % 2 ^ ULG_FLT_STATUS_LOG_LEVEL.width ≠ 0 then
    a.fltRead s (ULG_FLT_LOG_DATA_DATA 0).off 4 (.fltEntry s)
  else a

/-- The record that the aggregator makes of an entry of a Uligo's log (R418, R419). -/
def Agg.fromUligo (a : Agg) (die : Nat) (l : List Byte) : FltRec :=
  let c := leAt l 6 1
  { fseq := a.p.col.nextFseq, source := leAt l 4 2, cls := c % 4, orig := c / 16 % 4, escalated := bitAt c 2
    fromUligo := true, injected := bitAt c 3, die := some die, stamp := extendStamp (leAt l 8 4) a.p.nowNs
    addr := leAt l 12 4, master := leAt l 16 1, access := leAt l 7 1, count := leAt l 18 2, detail := leAt l 20 4
    ufseq := leAt l 0 4 }

/-- The oldest entry of a die's log has been read (R419): it is committed with FROM_ULIGO unless the ring holds it, popped
and, from contained on, acknowledged; the log is looked at again. -/
def Agg.fltEntryTaken (a : Agg) (s die : Nat) (data : List Nat) : Agg :=
  if a.fltPolls s ∧ data.length = 4 then
    let l := data.flatMap (leBytes 8 ·)
    let u := leAt l 0 4
    let r := a.fromUligo die l
    let a := if a.holdsUligo die u then a else
      ({ a with p := a.p.onCol fun c => { c with nextFseq := c.nextFseq + 1, beatLost := false } } : Agg).fltCommit r
    let tell (a : Agg) (off : Nat) : Agg :=
      a.cmdIssue (a.portOfSlot s) { opcode := 2, addr := off, count := 1, data := [u] }
    let a := tell a ULG_FLT_POP_FSEQ.off
    let a := if r.cls = 0 then a else tell a ULG_FLT_ACK_FSEQ.off
    a.fltRead s ULG_FLT_STATUS_STATE.off 1 (.fltStatus s)
  else a

/-- ULG_FLT_POP (R419): the oldest entry leaves the log when its FSEQ is equal. -/
def execUlgFltPop (fseq : Nat) (s : State) : Host.Outcome State Fault Refusal :=
  .next (s.onUlg fun u =>
    match u.p.col.log with
    | [] => u
    | r :: l => if r.fseq = fseq % 2 ^ 32 then { u with p := u.p.onCol fun c => { c with log := l } } else u)

/-! ### Control pairs (R428) -/

/-- The state field of a control pair. -/
def pairField (k : Nat) : Field := if k = 0 then FLT_PAIR_STATUS_P0_STATE else FLT_PAIR_STATUS_P1_STATE

/-- The aggregator with its repair state changed. -/
def Agg.onFlt (a : Agg) (f : AggFlt → AggFlt) : Agg := { a with flt := f a.flt }

/-- A control pair is retired, and a repair-log entry follows (R428). -/
def Agg.pairRetire (a : Agg) (k : Nat) : Agg :=
  let a := a.put (pairField k) 3
  { a with rprQueue := a.rprQueue ++ [{ etype := 7, unit := k }] }

/-- LOCKSTEP_MISMATCH (R428): the pair is halted and tests itself, or is retired at a second mismatch within
RECOVER_WIN_S; without an ACTIVE or STANDBY pair source 0x1002 follows. -/
def execLockstepMismatch (pair : Fin 2) (addr : Nat) (s : State) : Host.Outcome State Fault Refusal :=
  .next (s.onAgg fun a =>
    let st := a.reg (pairField pair)
    if 2 ≤ st then a
    else
      let again := match a.flt.pairMiss.get pair with
        | some t => decide (a.p.nowNs < t + a.cfg FLT_CFG_RECOVER_WIN_S * 1000000000)
        | none => false
      let a := a.onFlt fun x => { x with pairMiss := x.pairMiss.set pair (some a.p.nowNs) }
      let a := if again then a.pairRetire pair else a.put (pairField pair) 2
      let other := a.reg (pairField (1 - pair))
      let a := if st = 0 ∧ other = 1 then a.onFlt fun x => { x with switch := true } else a
      let a := a.collect {
        source := 0x1000 + pair.val, addr := addr % 2 ^ 64, master := 0x0010 + 2 * pair.val, access := 4 }
      if 2 ≤ other then a.collect { source := 0x1002 } else a)

/-- PAIR_SELF_TEST_DONE (R428). -/
def execPairSelfTestDone (pair : Fin 2) (pass : Bool) (s : State) : Host.Outcome State Fault Refusal :=
  .next (s.onAgg fun a =>
    if a.reg (pairField pair) = 2 then
      if pass then a.put (pairField pair) 1 else a.pairRetire pair
    else a)

/-! ### Spare rows (R431) -/

/-- A spare row replaces a bad one (R431): where the owner can reload its contents, at its next reload; elsewhere at the next
start, by the repair-log entry that is written now. -/
def Agg.rowSpare (a : Agg) (owner : SramOwner) (inst row n : Nat) : Agg :=
  if owner = .other then
    { a with rprQueue := a.rprQueue ++ [{ etype := 6, unit := inst, place := row % 2 ^ 20, detail := n % 16 }] }
  else a.onFlt fun x => { x with rowsDue := x.rowsDue ++ [(owner, inst, row, n)] }

/-- An owner without a spare row stops using the bad one (R431). -/
def Agg.rowGone (a : Agg) (owner : SramOwner) : Agg :=
  match owner with
  | .drover c k => if c < 32 ∧ k < 33 then a.coreRetire c k else a
  | .array x => a.arrayRetire x
  | .tree off size =>
    let a : Agg := { a with hdg := { a.hdg with withheld := a.hdg.withheld ++ [(off, size)] } }
    a.put HDG_STATUS_FREE_4K a.bankLargest
  | .other => a

/-- An uncorrectable error in a drover core's local SRAM retires the core (R429). -/
def Agg.rowCore (a : Agg) (owner : SramOwner) (hour : Option Nat) : Agg :=
  match owner, hour with
  | .drover c k, none => if c < 32 ∧ k < 33 then a.coreRetire c k else a
  | _, _ => a

/-- ROW_BAD (R431): on an uncorrectable error of a row, or with `hour` on its corrected errors of one fleet-time hour, bad
when they are more than ROW_CE. A spare row is taken while the instance has one; else the owner stops using the row. -/
def execRowBad (owner : SramOwner) (inst row : Nat) (hour : Option Nat) (s : State) : Host.Outcome State Fault Refusal :=
  .next (s.onAgg fun a =>
    let inst := inst % 2 ^ 32
    let n := a.flt.rows.get inst
    if hour.any (· ≤ a.cfg FLT_CFG2_ROW_CE) then a
    else
      let a := a.rowCore owner hour
      if n < Config.spareRows inst then
        (a.onFlt fun x => { x with rows := x.rows.set inst (n + 1) }).rowSpare owner inst row n
      else a.rowGone owner)

/-! ### The repair log (R432 to R435) -/

/-- The header of a sector under a GEN (R432). -/
def rprHeader (gen agg : Nat) : List Byte :=
  let l := leBytes 1 0x60 ++ leBytes 1 1 ++ zeros 2 ++ leBytes 4 gen ++ leBytes 2 (agg % 2 ^ 14) ++ zeros 18
  l ++ leBytes 4 (crc32c l)

/-- GEN of a sector with a valid header (R432, log entry 181). -/
def RprSector.gen (x : RprSector) : Option Nat :=
  let h := x.header
  if h.length = 32 ∧ leAt h 0 1 = 0x60 ∧ leAt h 1 1 = 1 ∧ leAt h 28 4 = crc32c (h.take 28) then some (leAt h 4 4) else none

/-- Places of a sector (R432). -/
def rprPlaces : Nat := 2047

/-- An entry whose CRC holds (R433). -/
def rprValid (e : List Byte) : Bool := leAt e 28 4 == crc32c (e.take 28)

/-- The valid entries of a sector, in order (R433). -/
def RprSector.entries (x : RprSector) : List (List Byte) :=
  x.places.filterMap fun e => match e with
    | some l => if rprValid l then some l else none
    | none => none

/-- The ESEQ that REVOKE entries name (R433). -/
def RprSector.revoked (x : RprSector) : List Nat :=
  (x.entries.filter fun e => leAt e 0 1 = 9).map fun e => leAt e 12 4

/-- The entries not revoked (R434). -/
def RprSector.kept (x : RprSector) : List (List Byte) :=
  x.entries.filter fun e => !x.revoked.contains (leAt e 4 4)

/-- The sector of the flash. -/
def Agg.rprSector (a : Agg) (k : Nat) : RprSector := a.conf.flash.rpr.get k

/-- The live sector: the one with a valid header and the later GEN (R432). -/
def Agg.rprLive (a : Agg) : Option Nat :=
  match (a.rprSector 0).gen, (a.rprSector 1).gen with
  | some g, some h => some (if laterRound h g then 1 else 0)
  | some _, none => some 0
  | none, some _ => some 1
  | none, none => none

/-- The aggregator with its flash changed. -/
def Agg.onFlash (a : Agg) (f : Flash → Flash) : Agg := { a with conf := { a.conf with flash := f a.conf.flash } }

/-- A sector is set. -/
def Agg.rprPut (a : Agg) (k : Nat) (x : RprSector) : Agg := a.onFlash fun f => { f with rpr := f.rpr.set k x }

/-- The status register follows the live sector (R438). -/
def Agg.rprShow (a : Agg) : Agg :=
  match a.rprLive with
  | none => ((a.put FLT_RPR_STATUS_ENTRIES 0).put FLT_RPR_STATUS_GEN 0).put FLT_RPR_STATUS_FREE 0
  | some k =>
    let x := a.rprSector k
    let inForce := (x.kept.filter fun e => leAt e 0 1 ≠ 9).length
    ((a.put FLT_RPR_STATUS_ENTRIES inForce).put FLT_RPR_STATUS_GEN (x.gen.getD 0)).put FLT_RPR_STATUS_FREE
      (rprPlaces - x.places.length)

/-- One step of a compaction (R434): the entries not revoked go into the other sector, which has been erased; then its header
with GEN + 1; then the old sector is erased. -/
def Agg.rprCompact (a : Agg) : Agg :=
  let k := a.rprLive.getD 1
  let x := a.rprSector k
  let reach (n : Nat) (a : Agg) : Agg := a.onFlt fun y => { y with compact := n }
  match a.flt.compact with
  | 0 => reach 1 (a.rprPut (1 - k) { places := x.kept.map some })
  | 1 => reach 2 (a.rprPut (1 - k) { a.rprSector (1 - k) with header := rprHeader ((x.gen.getD 0 + 1) % 2 ^ 32) a.id })
  | _ => reach 3 (a.rprPut (1 - k) {})

/-- A compaction is due, or under way: fewer than 8 places of the live sector are free (R434). -/
def Agg.rprCompacts (a : Agg) : Bool :=
  let free := a.rprLive.elim 0 fun k => rprPlaces - (a.rprSector k).places.length
  match a.flt.compact with
  | 0 => decide (free < 8)
  | 3 => false
  | _ => true

/-- The source whose record caused an entry (R433). -/
def rprCause (e : RepairEntry) : Option Nat :=
  match e.etype with
  | 1 => some 0x0403
  | 2 => some 0x0900
  | 3 => some 0x0901
  | 4 => some 0x1060
  | 5 => some 0x1061
  | 6 => some 0x1022
  | 7 => some (0x1000 + e.unit)
  | _ => none

/-- The bytes of an entry (R433). -/
def Agg.rprBytes (a : Agg) (e : RepairEntry) (eseq : Nat) : List Byte :=
  let unit := if e.etype = 4 then 33 * e.unit + e.place else e.unit
  let place := match e.etype with
    | 2 => e.place % 512 + e.detail % 8 * 512
    | 6 => e.place % 2 ^ 20 + e.detail % 16 * 2 ^ 20
    | 9 => e.place
    | _ => 0
  let detail := if e.etype = 8 then e.detail else (rprCause e).elim 0 fun s => (a.p.src s).lastFseq
  let l := leBytes 1 e.etype ++ leBytes 1 1 ++ zeros 2 ++ leBytes 4 eseq ++ leBytes 4 unit ++ leBytes 4 place ++
    leBytes 8 (a.p.nowSec % 2 ^ 48) ++ leBytes 4 detail
  l ++ leBytes 4 (crc32c l)

/-- The next entry is written at the next free place of the live sector; a write that fails its read-back is tried once more
(R434). -/
def Agg.rprAppend (a : Agg) (readBack : Bool) (e : RepairEntry) (rest : List RepairEntry) : Agg :=
  match a.rprLive with
  | none => a
  | some k =>
    let x := a.rprSector k
    if rprPlaces ≤ x.places.length then a
    else
      let eseq := (x.entries.getLast?).elim 0 fun e => (leAt e 4 4 + 1) % 2 ^ 32
      let place := if readBack then some (a.rprBytes e eseq) else none
      let a := (a.rprPut k { x with places := x.places ++ [place] }).rprShow
      if readBack ∨ a.flt.again then
        let a : Agg := { (a.onFlt fun y => { y with again := false }) with rprQueue := rest }
        if readBack then a else a.collect { source := 0x0005 }
      else (a.onFlt fun y => { y with again := true }).collect { source := 0x0005 }

/-- REPAIR_LOG_APPEND (R434): one write of the repair log: a step of the compaction that the next entry needs, or the entry
itself (log entry 181). -/
def execRepairLogAppend (readBack : Bool) (s : State) : Host.Outcome State Fault Refusal :=
  .next (s.onAgg fun a =>
    match a.rprQueue with
    | [] => a
    | e :: rest =>
      if a.rprCompacts then a.rprCompact.rprShow
      else (a.onFlt fun y => { y with compact := 0 }).rprAppend readBack e rest)

/-- REVOKE (R435): a REVOKE of the named entry is appended; it acts at the next start. -/
def execRevoke (eseq : Nat) (s : State) : Host.Outcome State Fault Refusal :=
  .next (s.onAgg fun a => { a with rprQueue := a.rprQueue ++ [{ etype := 9, unit := 0, place := eseq % 2 ^ 32 }] })

/-! ### Aging (R436) -/

/-- The next whole multiple of a period in hours. -/
def Part.agingInstant (p : Part) (hours : Nat) : Nat :=
  let t := hours * 3600 * 1000000000
  (p.nowNs / t + 1) * t

/-- What one island's monitor found (R436). -/
def Agg.ageSample (a : Agg) (m : AgeSample) : Agg :=
  if 79 ≤ m.island then a
  else
    let loss := m.fusedPs - m.slackPs
    let a := ((a.putInt (FLT_AGE_STATUS_SLACK_PS m.island) m.slackPs).putInt (FLT_AGE_STATUS_LOSS_PS m.island) loss).put
      (FLT_AGE_STATUS_LAST_SEC m.island) (a.p.nowSec % 2 ^ 32)
    let a := if (a.cfg FLT_AGE_CFG_WARN_PS : Int) ≤ loss then
        let a := if a.flt.aged.contains m.island then a else
          { (a.onFlt fun x => { x with aged := m.island :: x.aged }) with
            rprQueue := a.rprQueue ++ [{ etype := 8, unit := m.island, detail := (loss % 2 ^ 32).toNat }] }
        a.collect { source := 0x1070, detail := m.island }
      else a
    let a := if m.slackPs ≤ (a.cfg FLT_AGE_CFG_MIN_PS : Int) then a.collect { source := 0x1071, detail := m.island } else a
    if m.slackPs < (a.cfg FLT_AGE_CFG_MIN_PS : Int) then
      if m.island < 32 then a.clusterRetire m.island
      else if m.island < 40 then a.arrayRetire (m.island - 32)
      else a
    else a

/-- The island with the least slack, the first on a tie (R440). -/
def leastSlack : List AgeSample → Option AgeSample
  | [] => none
  | x :: l => match leastSlack l with
    | none => some x
    | some y => if y.slackPs < x.slackPs then some y else some x

/-- AGING_CHECK (R436): the delay monitors run at a whole multiple of PERIOD_H hours. -/
def execAgingCheck (part : PartSel) (m : List AgeSample) (s : State) : Host.Outcome State Fault Refusal :=
  .next (s.onPart part
    (fun a =>
      let h := a.cfg FLT_AGE_CFG_PERIOD_H
      if h = 0 then a
      else m.foldl Agg.ageSample { a with p := a.p.until (a.p.agingInstant h) })
    (fun u =>
      let h := u.cfg ULG_FLT_AGE_CFG_PERIOD_H
      if h = 0 then u
      else
        let u : Ulg := { u with p := u.p.until (u.p.agingInstant h) }
        let u := match leastSlack m with
          | none => u
          | some w => ((u.put ULG_FLT_AGE_ISLAND (w.island % 256)).putInt ULG_FLT_AGE_SLACK_PS w.slackPs).putInt
              ULG_FLT_AGE_LOSS_PS (w.fusedPs - w.slackPs)
        m.foldl (fun u w =>
          let u := if (u.cfg ULG_FLT_AGE_CFG_WARN_PS : Int) ≤ w.fusedPs - w.slackPs then
            u.collect { source := 0x0A70, master := 0xFF, detail := w.island } else u
          if w.slackPs ≤ (u.cfg ULG_FLT_AGE_CFG_MIN_PS : Int) then
            u.collect { source := 0x0A71, master := 0xFF, detail := w.island } else u) u))

end Sys2Proof.Machine
end

