-- ==== Sys2Proof/Machine/Power.lean ====
section
/-! DEFINITION. Power domains of both parts and the last gasp (R442 to R456). -/

namespace Sys2Proof.Machine

/-! ### Domains of the aggregator (R443, R445 to R448) -/

/-- Reasons of a refusal (R448). -/
def pdBusy : Nat := 1
/-- A dependency holds. -/
def pdDepend : Nat := 2
/-- `OFF_OK` forbids OFF. -/
def pdPolicy : Nat := 3
/-- The part is not in RUN. -/
def pdSafe : Nat := 4
/-- The flush runs. -/
def pdGasp : Nat := 5
/-- No such domain or target. -/
def pdBadDomain : Nat := 6

/-- Domains of the aggregator (R443). -/
def aggDomain (d : Nat) : Bool :=
  decide (d ≤ 0x0D) || (decide (0x10 ≤ d) && decide (d ≤ 0x1B)) || (decide (0x20 ≤ d) && decide (d ≤ 0x2F))

/-- The domains of ports, exempt from the SAFE refusal (R448). -/
def aggPortDomain (d : Nat) : Bool := decide (0x10 ≤ d)

/-- A port is the last up port of a set. -/
def Agg.lastUp (a : Agg) (set_ p : Nat) : Bool :=
  bitAt set_ p && a.fabUp p && (List.range 12).all fun q => q = p || !(bitAt set_ q && a.fabUp q)

/-- A dependency of R443 refuses RET and OFF. -/
def Agg.domDepends (a : Agg) (d : Nat) : Bool :=
  if d < 0x08 then
    a.cfgOn VRF_CFG_EN && decide (((List.range 8).filter fun x => x ≠ d && a.inService x).length < 2)
  else if d < 0x0C then (List.range 16).any fun s => (a.dieOfSlot s).isSome && a.homeOf s / 8 = d - 0x08
  else if d = 0x0C then (List.range 16).any fun m => a.hdgState m = 1 || a.hdgState m = 2
  else if d = 0x0D then a.cfgOn SHED_ARCH_CFG_EN
  else if d < 0x20 then
    let p := d - 0x10
    a.reg (PTP_PORT_STATE_ST p) = 3 || a.lastUp (a.cfg TALLY_CFG_PORTS) p || a.lastUp (a.cfg FAB_CLASS_PORTS_MIRROR) p ||
      a.lastUp (a.cfg FAB_CLASS_PORTS_NOTICE) p
  else
    let p := d - 0x20
    a.heldAt p = 1 && a.reg (DP_STATUS_PEER_LINK p) ≠ 3

/-- Why a request is refused before its owner is asked (R448). -/
def Agg.domRefusal (a : Agg) (d tgt : Nat) : Option Nat :=
  if ¬ aggDomain d ∨ 3 ≤ tgt then some pdBadDomain
  else if tgt ≠ 0 ∧ a.domDepends d then some pdDepend
  else if tgt = 2 ∧ ¬ a.cfgOn (PWR_DOM_CFG_OFF_OK d) then some pdPolicy
  else if tgt = 0 ∧ a.safe ∧ ¬ aggPortDomain d then some pdSafe
  else if a.reg PWR_STATUS_FLUSH = 2 ∨ a.reg PWR_STATUS_FLUSH = 3 then some pdGasp
  else none

/-- A refusal is counted and shown (R448). -/
def Agg.domRefuse (a : Agg) (d reason : Nat) : Agg :=
  let f := match reason with
    | 1 => PWR_DOM_REFUSE_BUSY d
    | 2 => PWR_DOM_REFUSE_DEPEND d
    | 3 => PWR_DOM_REFUSE_POLICY d
    | _ => PWR_DOM_REFUSE_OTHER d
  ((a.count f).put (PWR_DOM_STATUS_LAST_REFUSE d) reason).event PWR_EVENT_DOM_REFUSED

/-- The aggregator with a domain's controller changed; its registers follow. -/
def Agg.onDom (a : Agg) (d : Nat) (f : Dom → Dom) : Agg :=
  let x := f (a.pwr.dom.get d)
  let a : Agg := { a with pwr := { a.pwr with dom := a.pwr.dom.set d x } }
  (((a.put (PWR_DOM_STATUS_BUSY d) (if x.running.isSome then 1 else 0)).put (PWR_DOM_STATUS_TARGET d)
    (x.running.elim 0 (·.tgt))).put (PWR_DOM_STATUS_PENDING d) (if x.pending.isSome then 1 else 0)).put
    (PWR_DOM_STATUS_PEND_TGT d) (x.pending.elim 0 (·.tgt))

/-- A request to a controller that is at rest: refused, already met, or put to the owner (R446, R448). -/
def Agg.domAsk (a : Agg) (d tgt : Nat) : Agg :=
  match a.domRefusal d tgt with
  | some r => a.domRefuse d r
  | none =>
    if a.reg (PWR_DOM_STATUS_STATE d) = tgt then a
    else a.onDom d fun x => { x with asked := some { tgt := tgt } }

/-- DOMAIN_REQUEST (R445 to R447): a write of `PWR_DOM_CTRL` with GO; during a transition it takes the pending place. -/
def execDomainRequest (value : Word) (s : State) : Host.Outcome State Fault Refusal :=
  .next (s.onWrite fun a =>
    let v := value.toNat
    let d := v % 256
    let tgt := v / 256 % 4
    if ¬ bitAt v 10 then a
    else
      let x := a.pwr.dom.get d
      if aggDomain d ∧ tgt < 3 ∧ (x.asked.isSome ∨ x.running.isSome) then
        a.onDom d fun x => { x with pending := some { tgt := tgt } }
      else a.domAsk d tgt)

/-- The owner's work has reached its boundary (R446): no pass of the array is unfinished, no run is under way on a cluster
of the group, no decompression runs. Frames and flits are whole in a command (log entry 184). -/
def Agg.domQuiet (a : Agg) (d : Nat) : Bool :=
  if d < 0x08 then (a.vrf.arr.get d).passes.isEmpty
  else if d < 0x0C then (List.range 8).all fun i => !a.clusterBusy (8 * (d - 0x08) + i)
  else if d = 0x0D then !a.bit SHED_DZ_STATUS_BUSY
  else true

/-- A power-domain command takes a die port down: from UP or RETRY it goes DOWN, with its event (R146). It goes OFF as the
domain leaves ON. -/
def Agg.powerDown (a : Agg) (p : Nat) : Agg :=
  if a.linkState p = 3 ∨ a.linkState p = 4 then a.linkEnd p false else a

/-- What stops as a block leaves ON (R443). -/
def Agg.domStops (a : Agg) (d : Nat) : Agg :=
  if d < 0x08 then a.arrPermit d
  else if 0x10 ≤ d ∧ d ≤ 0x1B then a.fabPortDown (d - 0x10)
  else if 0x20 ≤ d then a.powerDown (d - 0x20)
  else a

/-- A Hedge slot is emptied with its SRAM (R443). -/
def Agg.hdgEmpty (a : Agg) (m : Nat) : Agg :=
  ((a.swapEnd m 0x12 2).onHdg m fun s => { s with cur := none, next := none, kept := none, emptyAt := none }).hdgEnter m 0

/-- A Hedge slot is loaded again from its package (R443). -/
def Agg.hdgReload (a : Agg) (m : Nat) : Agg :=
  if a.cfgOn (HDG_SLOT_PKG_EN m) ∧ a.hdgState m = 0 then
    let addr := a.cfg (HDG_SLOT_PKG_ADDR_4K m) * 4096
    let crc := a.cfg (HDG_SLOT_PKG_PKG_CRC m)
    match a.pkgAt addr crc with
    | none => (a.count HDG_ERR_COUNT_REFUSED).event HDG_EVENT_LOAD_REFUSED
    | some l =>
      match a.bankPlace (pkgBank l) with
      | none => (a.count HDG_ERR_COUNT_REFUSED).event HDG_EVENT_NO_SPACE
      | some off =>
        ((a.treeRows off (pkgBank l)).onHdg m fun s => { s with
          cur := some { crc := crc, addr := addr, bytes := l, off := off, size := pkgBank l } }).hdgEnter m 3
  else a

/-- What follows once a state is reached (R443). -/
def Agg.domReached (a : Agg) (d was new : Nat) : Agg :=
  if d < 0x08 then a.arrPermit d
  else if d = 0x0C ∧ new = 2 then (List.range 16).foldl Agg.hdgEmpty a
  else if d = 0x0C ∧ new = 0 ∧ was = 2 then (List.range 16).foldl Agg.hdgReload a
  else if 0x20 ≤ d ∧ new = 0 then a.portStart (d - 0x20)
  else a

/-- The owner of a block accepts: the transition runs (R446). -/
def Agg.domAccept (a : Agg) (d : Nat) : Agg :=
  match (a.pwr.dom.get d).asked with
  | none => a
  | some r =>
    if a.domQuiet d then
      let a := a.onDom d fun x => { x with asked := none, running := some r }
      if r.tgt = 0 then a else a.domStops d
    else a

/-- The controller is at rest again: a pending request is checked afresh; one for the state reached completes without
action (R447). -/
def Agg.domNext (a : Agg) (d : Nat) : Agg :=
  match (a.pwr.dom.get d).pending with
  | none => a
  | some r =>
    let a := a.onDom d fun x => { x with pending := none }
    if a.reg (PWR_DOM_STATUS_STATE d) = r.tgt then a else a.domAsk d r.tgt

/-- The owner of a block denies with BUSY (R446). -/
def Agg.domDeny (a : Agg) (d : Nat) : Agg :=
  if (a.pwr.dom.get d).asked.isSome then
    ((a.onDom d fun x => { x with asked := none }).domRefuse d pdBusy).domNext d
  else a

/-- A transition that ran at entry into SAFE is complete: its block has SAFE_US from now (R422, R447). -/
def Agg.domMoved (a : Agg) (d : Nat) : Agg :=
  { a with p := a.p.onCol fun c => { c with
      moving := c.moving.map fun e => if e.1 = d ∧ e.2 = none then (d, some a.p.nowNs) else e } }

/-- A transition is complete (R446, R447). -/
def Agg.domComplete (a : Agg) (d : Nat) : Agg :=
  match (a.pwr.dom.get d).running with
  | none => a
  | some r =>
    let was := a.reg (PWR_DOM_STATUS_STATE d)
    let a := ((a.onDom d fun x => { x with running := none }).put (PWR_DOM_STATUS_STATE d) r.tgt).domMoved d
    let a := if 0x20 ≤ d ∧ r.tgt ≠ 0 then a.linkEnd (d - 0x20) true else a
    (a.domReached d was r.tgt).domNext d

/-! ### Domains of the Uligo (R444 to R450) -/

/-- Why a request is refused (R444, R448). -/
def Ulg.domRefusal (u : Ulg) (d tgt : Nat) : Option Nat :=
  let rpl := u.reg ULG_RPL_STATUS_STATE
  let open_ := (List.range 32).any fun t => (u.tile.tile.get t).isSome
  if 22 ≤ d ∨ 3 ≤ tgt then some pdBadDomain
  else if tgt ≠ 0 ∧ ((d = 0x12 ∧ (rpl = 2 ∨ rpl = 3)) ∨ (d = 0x13 ∧ (open_ ∨ rpl ≠ 0))) then some pdBusy
  else if tgt ≠ 0 ∧ ((d = 0x14 ∧ u.linkState 1 ≠ 3) ∨ (d = 0x15 ∧ u.linkState 0 ≠ 3)) then some pdDepend
  else if tgt = 2 ∧ ¬ bitAt (u.cfg ULG_PD_CFG_OFF_OK) d then some pdPolicy
  else if tgt = 0 ∧ u.safe ∧ d < 0x14 then some pdSafe
  else none

/-- The Uligo with a domain's controller changed; BUSY follows. -/
def Ulg.onDom (u : Ulg) (d : Nat) (f : Dom → Dom) : Ulg :=
  let u : Ulg := { u with pwr := { u.pwr with dom := u.pwr.dom.set d (f (u.pwr.dom.get d)) } }
  u.put ULG_PD_STATUS_BUSY (if (List.range 22).any fun k => (u.pwr.dom.get k).running.isSome then 1 else 0)

/-- The answer to a requester: a response on its port, or a line of the handshake while the request stands (R449, R450). -/
def Ulg.domAnswer (u : Ulg) (r : DomReq) (status arg : Nat) (data : List Nat) : Ulg :=
  if r.from_ = 3 then
    if u.pwr.req then
      if status = 0 then { u with pwr := { u.pwr with ack := true } }
      else { u.event ULG_PD_EVENT_HS_DENY with pwr := { (u.event ULG_PD_EVENT_HS_DENY).pwr with deny := true } }
    else u
  else if (u.link.port.get (r.from_ - 1)).l.nonce = r.nonce ∧
      ((u.link.port.get (r.from_ - 1)).running.any fun q => q.1 = r.seq) then
    u.respond (r.from_ - 1) { opcode := 0x20, status := status, seq := r.seq, arg := arg, data := data } true
  else u

/-- A refusal is counted, and its requester learns the reason (R448 to R450). -/
def Ulg.domRefuse (u : Ulg) (r : DomReq) (reason : Nat) : Ulg :=
  let f := match reason with
    | 1 => ULG_PD_REFUSE_BUSY
    | 2 => ULG_PD_REFUSE_DEPEND
    | 3 => ULG_PD_REFUSE_POLICY
    | _ => ULG_PD_REFUSE_OTHER
  ((u.count f).event ULG_PD_EVENT_REFUSED).domAnswer r 2 reason []

/-- A request to a controller that is at rest. -/
def Ulg.domAsk (u : Ulg) (d : Nat) (r : DomReq) : Ulg :=
  match u.domRefusal d r.tgt with
  | some w => u.domRefuse r w
  | none =>
    if u.reg (ULG_PD_STATUS_ST d) = r.tgt then u.domAnswer r 0 0 [r.tgt]
    else u.onDom d fun x => { x with asked := some r }

/-- A request (R446, R447): during a transition it takes the pending place; the one that it replaces there is refused. -/
def Ulg.domRequest (u : Ulg) (d : Nat) (r : DomReq) : Ulg :=
  let x := u.pwr.dom.get d
  if d < 22 ∧ r.tgt < 3 ∧ (x.asked.isSome ∨ x.running.isSome) then
    let u := match x.pending with
      | some old => u.domAnswer old 2 pdBusy []
      | none => u
    u.onDom d fun x => { x with pending := some r }
  else u.domAsk d r

/-- The state that a domain has or goes to next is answered by QUERY as it is now (R449). -/
def Ulg.domQuery (u : Ulg) (d : Nat) : CmdResult :=
  if 22 ≤ d then (u, some (2, pdBadDomain, [])) else (u, some (0, 0, [u.reg (ULG_PD_STATUS_ST d)]))

/-- What a DOMAIN command does (R449). -/
def Ulg.domCommand (x : Nat) (c : Cmd) (u : Ulg) : CmdResult :=
  let d := c.arg % 256
  let tgt := c.arg / 256 % 4
  if c.addr ≠ 0 then (u, some (1, 0, []))
  else if tgt = 3 then u.domQuery d
  else (u.domRequest d { tgt := tgt, from_ := x + 1, seq := c.seq, nonce := (u.link.port.get x).l.nonce }, none)

/-- DOMAIN (R449): the response follows once the transition is complete. -/
def execDomain (x : Fin 2) (c : Cmd) (s : State) : Host.Outcome State Fault Refusal :=
  .next (s.onUlg fun u => u.command x 0x20 c (Ulg.domCommand x c))

/-- DOMAIN_QUERY (R449): DOMAIN with TARGET 3. -/
def execDomainQuery (x : Fin 2) (c : Cmd) (s : State) : Host.Outcome State Fault Refusal :=
  .next (s.onUlg fun u => u.command x 0x20 c fun u => Ulg.domCommand x { c with arg := c.arg % 256 + 768 } u)

/-- Counter numbers of a domain (R71, R444). -/
def ctrDomain (i : Nat) : Nat := if i < 65536 then i / 4096 else 0x10

/-- The contents of a counter domain are lost (R442, R444): its counters, and at the front ends of a group the event rings,
the period counters and the requests of its cores (log entry 184). -/
def Ulg.countersLost (u : Ulg) (d : Nat) : Ulg :=
  let keep (t : Tab Nat) : Tab Nat := t.filter fun e => ctrDomain e.1 ≠ d
  let away (k : Nat) : Bool := d < 0x10 && k / 512 == d
  u.onCnt fun c => { c with
    counters := keep c.counters, shadow := keep c.shadow, prev := keep c.prev
    depth := if d = 0x10 then [] else c.depth
    rings := c.rings.filter fun e => !away e.1
    remainder := c.remainder.filter fun e => !away (u.reg (ULG_OVS_SLOT_COUNTER e.1) / 8)
    request := c.request.filter fun e => !away e.1 }

/-- The contents of the trace islands are lost (R442): the encoders, the ring, and the block under construction, after which
the next one carries LOST. -/
def Ulg.traceLost (u : Ulg) : Ulg :=
  u.onTrc fun t => { t with
    core := [], ring := [], ringCount := 0, ringStopped := false, openStamp := 0, openWords := []
    lost := t.lost || !t.openWords.isEmpty }

/-- The contents of the field-test sequencer are lost (R442): the state of every core, and a force that waits. -/
def Ulg.ftLost (u : Ulg) : Ulg := { u with ft := { u.ft with inst := [], core := [], force := none } }

/-- What stops as a block leaves ON (R444). The response of a command that turns off the PHY of its own port is sent
before the port goes OFF (R449). -/
def Ulg.domStops (u : Ulg) (d : Nat) (r : DomReq) : Ulg :=
  if d = 0x12 then u.ftPowerDown
  else if 0x14 ≤ d then (if r.from_ = d - 0x13 then u.domAnswer r 0 0 [r.tgt] else u).powerDown (d - 0x14)
  else u

/-- A counter domain has been OFF in the present interval (R444). -/
def Ulg.domDark (u : Ulg) (d was new : Nat) : Ulg :=
  if d ≤ 0x10 ∧ (was = 2 ∨ new = 2) then { u with pwr := { u.pwr with dark := d :: u.pwr.dark.filter (· ≠ d) } } else u

/-- What follows once a state is reached (R442, R444). A block that comes from OFF is at reset, its contents lost before. -/
def Ulg.domReached (u : Ulg) (d was new : Nat) : Ulg :=
  let u := u.domDark d was new
  if d ≤ 0x10 ∧ new = 2 then u.countersLost d
  else if d = 0x11 ∧ new = 2 then u.traceLost
  else if d = 0x12 ∧ new = 2 then u.ftLost
  else if d = 0x13 ∧ new = 2 then { u with tile := { u.tile with reserved := 0, tile := [] } }
  else if 0x14 ≤ d ∧ new = 0 then u.portStart (d - 0x14)
  else u

/-- The owner's work has reached its boundary (R446): no test kernel runs, no tile is open. -/
def Ulg.domQuiet (u : Ulg) (d : Nat) : Bool :=
  if d = 0x12 then u.ft.core.all (fun e => e.2.run.isNone) && u.reg ULG_RPL_STATUS_STATE != 3
  else if d = 0x13 then u.tile.tile.all fun e => e.2.isNone
  else true

/-- The owner of a block of the Uligo accepts (R446). -/
def Ulg.domAccept (u : Ulg) (d : Nat) : Ulg :=
  match (u.pwr.dom.get d).asked.filter fun _ => u.domQuiet d with
  | none => u
  | some r =>
    let u := u.onDom d fun x => { x with asked := none, running := some r }
    if r.tgt = 0 then u else u.domStops d r

/-- The pending request of a domain is checked afresh (R447). -/
def Ulg.domNext (u : Ulg) (d : Nat) : Ulg :=
  match (u.pwr.dom.get d).pending with
  | none => u
  | some r =>
    let u := u.onDom d fun x => { x with pending := none }
    if u.reg (ULG_PD_STATUS_ST d) = r.tgt then u.domAnswer r 0 0 [r.tgt] else u.domAsk d r

/-- The owner of a block of the Uligo denies with BUSY (R446). -/
def Ulg.domDeny (u : Ulg) (d : Nat) : Ulg :=
  match (u.pwr.dom.get d).asked with
  | none => u
  | some r => ((u.onDom d fun x => { x with asked := none }).domRefuse r pdBusy).domNext d

/-- A transition of the Uligo is complete (R444, R446, R449); a port's link ends with it (R146, R166), but not before the
responses that the port holds have left (R449). -/
def Ulg.domComplete (u : Ulg) (d : Nat) : Ulg :=
  match (u.pwr.dom.get d).running with
  | none => u
  | some r =>
    if 0x14 ≤ d ∧ r.tgt ≠ 0 ∧ u.respWaits (d - 0x14) then u
    else
      let u := if 0x14 ≤ d ∧ r.tgt ≠ 0 then u.linkEnd (d - 0x14) true else u
      let was := u.reg (ULG_PD_STATUS_ST d)
      let u := (u.onDom d fun x => { x with running := none }).put (ULG_PD_STATUS_ST d) r.tgt
      ((u.domReached d was r.tgt).domAnswer r 0 0 [r.tgt]).domNext d

/-- QUIESCE_ACCEPT (R446). -/
def execQuiesceAccept (part : PartSel) (d : Nat) (s : State) : Host.Outcome State Fault Refusal :=
  .next (s.onPart part (fun a => a.domAccept d) (fun u => u.domAccept d))

/-- QUIESCE_DENY (R446). -/
def execQuiesceDeny (part : PartSel) (d : Nat) (s : State) : Host.Outcome State Fault Refusal :=
  .next (s.onPart part (fun a => a.domDeny d) (fun u => u.domDeny d))

/-- DOMAIN_TRANSITION_COMPLETE (R446, R447, R449). -/
def execDomainTransitionComplete (part : PartSel) (d : Nat) (s : State) : Host.Outcome State Fault Refusal :=
  .next (s.onPart part (fun a => a.domComplete d) (fun u => u.domComplete d))

/-- The request is denied (R450). -/
def Ulg.hsDeny (u : Ulg) : Ulg :=
  let u := u.event ULG_PD_EVENT_HS_DENY
  { u with pwr := { u.pwr with deny := true } }

/-- PD_REQ (R450): the host raises the request and holds it. -/
def execPdReq (grp : Fin 16) (tgt : Fin 4) (s : State) : Host.Outcome State Fault Refusal :=
  .next (s.onUlg fun u =>
    if u.pwr.req then u
    else
      let u : Ulg := { u with pwr := { u.pwr with req := true, ack := false, deny := false } }
      if tgt = 3 then (u.event ULG_PD_EVENT_HS_VIOL).hsDeny
      else if ¬ u.cfgOn ULG_PD_CFG_HS_EN then u.hsDeny
      else u.domRequest grp { tgt := tgt, from_ := 3 })

/-- PD_REQ_RELEASE (R450): the answer falls with the request. -/
def execPdReqRelease (s : State) : Host.Outcome State Fault Refusal :=
  .next (s.onUlg fun u => { u with pwr := { u.pwr with req := false, ack := false, deny := false } })

/-! ### Last gasp (R451 to R456) -/

/-- The aggregator with its flush changed. -/
def Agg.onFlush (a : Agg) (f : AggFlush → AggFlush) : Agg := { a with pwr := { a.pwr with flush := f a.pwr.flush } }

/-- A slot of the flush record. -/
def Agg.flushPages (a : Agg) (k : Nat) : FlushPages := a.conf.flash.flush.get k

/-- A slot of the flush record is written. -/
def Agg.flushPut (a : Agg) (k : Nat) (x : FlushPages) : Agg := a.onFlash fun f => { f with flush := f.flush.set k x }

/-- Tail records that the partner has not acknowledged (R224). -/
def Agg.tailLeft (a : Agg) : List TailEnt := a.shed.tail.filter fun t => !t.acked

/-- The BEGIN page (R455). -/
def Agg.flushBegin (a : Agg) (gen : Nat) : List Byte :=
  let l := leBytes 1 0x70 ++ leBytes 1 1 ++ zeros 2 ++ leBytes 4 gen ++ leBytes 2 a.id ++ zeros 2 ++
    leBytes 4 (a.reg FAB_STATUS_INCARN) ++ leBytes 8 a.p.nowNs ++ leBytes 8 a.tailBytes ++
    leBytes 8 (a.reg SHED_JRN_NEXT_OP) ++ leBytes 4 a.tailLeft.length ++ zeros 12
  l ++ leBytes 4 (crc32c l) ++ zeros 4

/-- The highest OP_SEQ whose BEGIN was acknowledged (R455). -/
def Agg.jrnCovered (a : Agg) : Nat :=
  (a.shed.journal.filter fun j => j.type == 0x10 && a.mirrored ringJournal j.seq).foldl (fun m j => max m j.op) 0

/-- The END page (R455). -/
def Agg.flushEnd (a : Agg) : List Byte :=
  let x := a.pwr.flush
  let fl := (if x.incomplete then 1 else 0) + (if x.mainBack then 2 else 0)
  let l := leBytes 1 0x71 ++ leBytes 1 1 ++ leBytes 2 fl ++ leBytes 4 x.gen ++ zeros 4 ++ leBytes 4 a.tailLeft.length ++
    leBytes 8 a.p.nowNs ++ leBytes 8 (x.bytes - a.tailBytes) ++ leBytes 8 a.jrnCovered ++
    leBytes 4 (a.tailLeft.head?.elim 0 (·.seq)) ++ leBytes 2 (a.tailLeft.head?.elim 0 (·.ring)) ++ zeros 10
  l ++ leBytes 4 (crc32c l) ++ zeros 4

/-- The slot reads all 0xFF (R453). -/
def FlushPages.erased (x : FlushPages) : Bool := x.begin_.isEmpty && x.end_.isEmpty

/-- The conditions of arming (R453). -/
def Agg.armable (a : Agg) : Bool :=
  a.cfgOn PWR_CFG_GASP_EN && a.bit PWR_STATUS_CELL_OK && decide (a.cfg PWR_CFG_ARM_MV ≤ a.reg PWR_STATUS_CELL_MV) &&
    (a.flushPages (a.reg PWR_STATUS_NEXT_SLOT)).erased

/-- The cell as it is measured (R451). -/
def Agg.cellTake (a : Agg) (mv : Nat) (ok : Bool) : Agg :=
  (a.put PWR_STATUS_CELL_MV mv).put PWR_STATUS_CELL_OK (if ok then 1 else 0)

/-- ARM (R453): IDLE becomes ARMED when every condition holds. -/
def execArm (cellMv : Nat) (cellOk : Bool) (s : State) : Host.Outcome State Fault Refusal :=
  .next (s.onAgg fun a =>
    let a := a.cellTake cellMv cellOk
    if a.reg PWR_STATUS_FLUSH = 0 ∧ a.armable then a.put PWR_STATUS_FLUSH 1 else a)

/-- DISARM (R453): any condition of arming is lost. -/
def execDisarm (cellMv : Nat) (cellOk : Bool) (s : State) : Host.Outcome State Fault Refusal :=
  .next (s.onAgg fun a =>
    let a := a.cellTake cellMv cellOk
    if a.reg PWR_STATUS_FLUSH = 1 ∧ ¬ a.armable then a.put PWR_STATUS_FLUSH 0 else a)

/-- Entry into GASP (R453, R454): an armed flush writes BEGIN; the Verifier's passes are discarded, and the tail is sent,
journal first. -/
def Agg.gaspEnter (a : Agg) (armed : Bool) : Agg :=
  let slot := a.reg PWR_STATUS_NEXT_SLOT
  let gen := (a.reg PWR_STATUS_GEN + 1) % 2 ^ 32
  let a := if armed then
      (a.flushPut slot { begin_ := a.flushBegin gen }).put PWR_STATUS_GEN gen
    else a
  let a := a.onFlush fun _ => {
    armed := armed, slot := slot, gen := gen, atNs := a.p.nowNs, bytes := a.tailBytes
    mainBack := a.bit PWR_STATUS_MAIN_OK }
  (((a.put PWR_STATUS_FLUSH 2).event PWR_EVENT_GASP).vrfSafe).mirSendTail

/-- PFAIL (R453): main power is lost. -/
def execPfail (s : State) : Host.Outcome State Fault Refusal :=
  .next (s.onAgg fun a =>
    let a := a.put PWR_STATUS_MAIN_OK 0
    match a.reg PWR_STATUS_FLUSH with
    | 0 => (a.event PWR_EVENT_UNARMED_GASP).gaspEnter false
    | 1 => a.gaspEnter true
    | _ => a)

/-- TAIL_FLUSHED (R453): the tail is empty, and BEGIN has been read back. -/
def execTailFlushed (s : State) : Host.Outcome State Fault Refusal :=
  .next (s.onAgg fun a => if a.reg PWR_STATUS_FLUSH = 2 ∧ a.tailLeft = [] then a.put PWR_STATUS_FLUSH 3 else a)

/-- FLUSH_LIMIT (R453): FLUSH_LIMIT_MS has passed in GASP. -/
def execFlushLimit (s : State) : Host.Outcome State Fault Refusal :=
  .next (s.onAgg fun a =>
    if a.reg PWR_STATUS_FLUSH = 2 then
      let a : Agg := { a with p := a.p.until (a.pwr.flush.atNs + a.cfg PWR_CFG_FLUSH_LIMIT_MS * 1000000) }
      ((a.onFlush fun x => { x with incomplete := true }).put PWR_STATUS_FLUSH 3).event PWR_EVENT_INCOMPLETE
    else a)

/-- A page that its CRC proves (R455, R456). -/
def pageValid (ptype : Nat) (l : List Byte) : Bool := l.length == 64 && leAt l 0 1 == ptype && leAt l 56 4 == crc32c (l.take 56)

/-- The slot of the flush record with a valid BEGIN of the later GEN (R456). -/
def Agg.flushLatest (a : Agg) : Option Nat :=
  let good (k : Nat) : Bool := pageValid 0x70 (a.flushPages k).begin_
  let gen (k : Nat) : Nat := leAt (a.flushPages k).begin_ 4 4
  if good 0 ∧ good 1 then some (if laterRound (gen 1) (gen 0) then 1 else 0)
  else if good 0 then some 0
  else if good 1 then some 1
  else none

/-- The result of the last flush is shown, and the other slot is erased (R456). The second component says that it was
SEALED. -/
def Agg.flushResult (a : Agg) : Agg × Option Bool :=
  match a.flushLatest with
  | none => (a, none)
  | some k =>
    let b := (a.flushPages k).begin_
    let e := (a.flushPages k).end_
    let gen := leAt b 4 4
    let sealed_ := pageValid 0x71 e && leAt e 4 4 == gen
    let fl := leAt e 2 2
    let a := (a.put PWR_FLUSH_STATUS_RESULT (if sealed_ then (if bitAt fl 0 then 2 else 1) else 3)).put
      PWR_FLUSH_STATUS_MAIN_BACK (if sealed_ ∧ bitAt fl 1 then 1 else 0)
    let a := (a.put PWR_FLUSH_STATUS_UNFLUSHED (if sealed_ then min (leAt e 12 4) (2 ^ 24 - 1) else 0)).put
      PWR_FLUSH_STATUS_GEN gen
    let a := ((a.flushPut (1 - k) {}).put PWR_STATUS_NEXT_SLOT (1 - k)).put PWR_STATUS_GEN gen
    (a, some sealed_)

/-- The stopped blocks start again, and the flush is IDLE (R454). -/
def Agg.gaspOver (a : Agg) : Agg :=
  let a := (a.put PWR_STATUS_FLUSH 0).event PWR_EVENT_SEALED
  (if a.pwr.flush.armed then a.flushResult.1 else a).vrfSettle.vrfShow

/-- SEALED (R453, R454): END has been read back; on main power the flush is over at once. -/
def execSealed (s : State) : Host.Outcome State Fault Refusal :=
  .next (s.onAgg fun a =>
    if a.reg PWR_STATUS_FLUSH = 3 then
      let x := a.pwr.flush
      let a := if x.armed then a.flushPut x.slot { a.flushPages x.slot with end_ := a.flushEnd } else a
      let a := a.put PWR_STATUS_FLUSH 4
      if a.bit PWR_STATUS_MAIN_OK then a.gaspOver else a
    else a)

/-- A page program of the flush record that the supply does not last for: the page is whole, or it holds a free value, which
its CRC decides on (R456, log entry 183). -/
def Agg.pageCut (a : Agg) (page : List Byte) : Agg × List Byte :=
  let d := a.p.draw
  let e := d.2.draw
  ({ a with p := e.2 }, if d.1 % 2 = 0 then page else leBytes 64 e.1)

/-- The page of an armed flush that may be programming now is cut short: BEGIN in GASP, END in SEALING (R453, R456). -/
def Agg.flushCut (a : Agg) : Agg :=
  let x := a.pwr.flush
  let pages := a.flushPages x.slot
  if ¬ x.armed then a
  else match a.reg PWR_STATUS_FLUSH with
    | 2 => let w := a.pageCut pages.begin_; w.1.flushPut x.slot { pages with begin_ := w.2 }
    | 3 => let w := a.pageCut a.flushEnd; w.1.flushPut x.slot { pages with end_ := w.2 }
    | _ => a

/-- CUT (R453): the cell has reached WARN_MV; with main power back the flush goes on. -/
def execCut (cellMv : Nat) (s : State) : Host.Outcome State Fault Refusal :=
  .next (s.onAgg fun a =>
    let a := a.put PWR_STATUS_CELL_MV cellMv
    if cellMv ≤ a.cfg PWR_CFG_WARN_MV then
      let a := a.event PWR_EVENT_CELL_LOW
      if (a.reg PWR_STATUS_FLUSH = 2 ∨ a.reg PWR_STATUS_FLUSH = 3) ∧ ¬ a.bit PWR_STATUS_MAIN_OK then
        (a.flushCut.put PWR_STATUS_FLUSH 5).event PWR_EVENT_CUT
      else a
    else a)

/-- MAIN_RETURN (R453, R454). -/
def execMainReturn (s : State) : Host.Outcome State Fault Refusal :=
  .next (s.onAgg fun a =>
    let a := a.put PWR_STATUS_MAIN_OK 1
    match a.reg PWR_STATUS_FLUSH with
    | 2 => a.onFlush fun x => { x with mainBack := true }
    | 3 => a.onFlush fun x => { x with mainBack := true }
    | 4 => a.gaspOver
    | 5 =>
      let k := 1 - a.pwr.flush.slot
      ((a.flushPut k {}).put PWR_STATUS_NEXT_SLOT k).gaspEnter (a.cfgOn PWR_CFG_GASP_EN)
    | _ => a)

/-- CELL_TEST (R467): the load test, in IDLE and ARMED only. -/
def execCellTest (dropMv : Nat) (s : State) : Host.Outcome State Fault Refusal :=
  .next (s.onWrite fun a =>
    if a.reg PWR_STATUS_FLUSH ≤ 1 then
      let a := a.send .cellTest
      if a.cfg PWR_CFG_TEST_DROP * 100 < dropMv then a.event PWR_EVENT_CELL_TEST_FAIL else a
    else a)

end Sys2Proof.Machine
end

