-- ==== Sys2Proof/Machine/Slots.lean ====
section
/-! DEFINITION. Slot supervision (R457 to R465): the power of the tray's host-die slots. -/

namespace Sys2Proof.Machine

/-! ### Channels (R457 to R459) -/

/-- A slot channel. -/
def Agg.slotCh (a : Agg) (s : Nat) : SlotCh := a.pwr.slot.get s

/-- The aggregator with a channel changed. -/
def Agg.onCh (a : Agg) (s : Nat) (f : SlotCh → SlotCh) : Agg := { a with pwr := { a.pwr with slot := a.pwr.slot.upd s f } }

/-- State code of a slot (R459). -/
def Agg.slotSt (a : Agg) (s : Nat) : Nat := a.reg (SLOT_STATUS_STATE s)

/-- The owner acts on the slot (R458). -/
def Agg.owns (a : Agg) (s : Nat) : Bool := a.bit (SLOT_STATUS_OWNER s)

/-- `SLOT_EN` is driven, and the bus shows its level (R457, R458). -/
def Agg.slotDrive (a : Agg) (s : Nat) (level : Bool) : Agg :=
  (a.put (SLOT_STATUS_EN_SENSE s) (if level then 1 else 0)).send (.slotEn s level)

/-- A slot enters a state at the present instant. The samples in a row above the limit in force go on counting from RAMP into
ON (R460). -/
def Agg.slotEnter (a : Agg) (s st : Nat) : Agg :=
  (a.put (SLOT_STATUS_STATE s) st).onCh s fun c => { c with
    over_ := if st = 2 then c.over_ else 0, ok := 0, atNs := a.p.nowNs }

/-- The switch is opened and REF goes to 0 (R459). -/
def Agg.slotCut (a : Agg) (s st : Nat) : Agg := ((a.slotDrive s false).put (SLOT_STATUS_REF_NOW s) 0).slotEnter s st

/-- The reference code that is driven: linear over RAMP_US in RAMP (R459). -/
def Agg.refNow (a : Agg) (s : Nat) : Nat :=
  match a.slotSt s with
  | 1 =>
    let us := a.cfg (SLOT_ENV0_RAMP_US s) * 1000
    a.cfg (SLOT_ENV1_REF_TGT s) * min (a.p.nowNs - (a.slotCh s).atNs) us / max 1 us
  | 2 => a.cfg (SLOT_ENV1_REF_TGT s)
  | _ => 0

/-! ### Requests (R460, R463, R464) -/

/-- Every change in progress completes with an outcome (R463). -/
def Agg.slotDone (a : Agg) (s outcome : Nat) : Agg :=
  let ops := (a.slotCh s).ops
  let a := a.onCh s fun c => { c with ops := [] }
  ops.foldl (fun a op => a.jrnEnd op 0x11 outcome) a

/-- The slot is in OFF. -/
def Agg.slotIsOff (a : Agg) (s : Nat) (outcome : Nat) : Agg := (a.slotEnter s 0).slotDone s outcome

/-- A slot is FAULTED; changes in progress, an ON that waits among them, complete with OUTCOME 3 (R463). -/
def Agg.slotFaulted (a : Agg) (s : Nat) : Agg :=
  let a := (a.slotCut s 5).event PWR_EVENT_SLOT_FAULTED (a.dieOfSlot s)
  (a.onCh s fun c => { c with ops := c.ops ++ c.waiting.toList, waiting := none }).slotDone s 3

/-- A trip from RAMP or ON: BACKOFF while fewer than RETRY_MAX trips went before in this request (R460). -/
def Agg.slotTrip (a : Agg) (s cause : Nat) : Agg :=
  let n := a.reg (SLOT_STATUS_TRIPS s)
  let a := (a.put (SLOT_STATUS_LAST_CAUSE s) cause).put (SLOT_STATUS_TRIPS s) (min (n + 1) 3)
  let a := a.onCh s fun c => { c with eflags := c.eflags ||| 1 }
  if n < a.cfg SLOT_CFG_RETRY_MAX then a.slotCut s 4 else a.slotFaulted s

/-- A trip by the slot's controller (R460, R461). -/
def Agg.slotCtrlTrip (a : Agg) (s : Nat) : Agg :=
  ((a.count (SLOT_COUNT_CTRL_TRIPS s)).event PWR_EVENT_SLOT_CTRL_TRIP (a.dieOfSlot s)).slotTrip s 3

/-- RAMP begins: the switch closes and REF rises (R459, R460); `SLOT_FLT_N` still low trips it at once. -/
def Agg.rampStart (a : Agg) (s : Nat) : Agg :=
  let a := (a.slotDrive s true).slotEnter s 1
  if a.bit (SLOT_STATUS_FLT_SENSE s) then a.slotCtrlTrip s else a

/-- An ON whose BEGIN has been mirrored begins to act in OFF (R460). -/
def Agg.slotBegun (a : Agg) (s : Nat) : Agg :=
  match (a.slotCh s).waiting with
  | none => a
  | some op =>
    if a.slotSt s = 0 ∧ a.owns s ∧ a.beginMirrored op ∧ ¬ a.safe ∧ ¬ a.gasp then
      let a := a.onCh s fun c => { c with waiting := none, ops := c.ops ++ [op] }
      (a.put (SLOT_STATUS_TRIPS s) 0).rampStart s
    else a

/-- Every slot's waiting ON. -/
def Agg.slotsBegun (a : Agg) : Agg := (List.range 16).foldl (fun a s => a.slotBegun s) a

/-- New slot requests are not carried out (R464). -/
def Agg.slotsHeld (a : Agg) : Bool := a.safe || a.gasp || a.reg CFG_STATUS_STATE == 5

/-- BEGIN of a slot power change (R463): KIND 0x08, slot in byte 0 and OP in byte 1 of ARG. -/
def Agg.slotBegin (a : Agg) (s opc : Nat) : Agg × Nat := a.jrnBegin 8 (a.dieOfSlot s) (s + 256 * opc)

/-- An ON whose BEGIN is written (R460, R463): one whose target is reached completes at once; in RAMP and BACKOFF it joins
the change under way; in OFF and DRAIN it waits for its BEGIN to be mirrored and for OFF. -/
def Agg.slotOn (a : Agg) (slot op : Nat) : Agg :=
  match a.slotSt slot with
  | 2 => a.jrnEnd op 0x11 0
  | 5 => a.jrnEnd op 0x11 3
  | 1 => a.onCh slot fun c => { c with ops := c.ops ++ [op] }
  | 4 => a.onCh slot fun c => { c with ops := c.ops ++ [op] }
  | _ =>
    let a := match (a.slotCh slot).waiting with
      | some old => a.onCh slot fun c => { c with ops := c.ops ++ [old] }
      | none => a
    (a.onCh slot fun c => { c with waiting := some op }).slotBegun slot

/-- An OFF whose BEGIN is written (R460, R463): it acts in every state except FAULTED, and an ON that still waits ends with
it. -/
def Agg.slotOff (a : Agg) (slot op : Nat) : Agg :=
  let a := match (a.slotCh slot).waiting with
    | some old => (a.onCh slot fun c => { c with waiting := none }).jrnEnd old 0x11 1
    | none => a
  match a.slotSt slot with
  | 0 => a.jrnEnd op 0x11 1
  | 5 => a.jrnEnd op 0x11 3
  | 3 => a.onCh slot fun c => { c with ops := c.ops ++ [op] }
  | _ => (a.onCh slot fun c => { c with ops := c.ops ++ [op] }).slotCut slot 3

/-- A CLEAR whose BEGIN is written (R460, R463): FAULTED goes to OFF. -/
def Agg.slotClear (a : Agg) (slot op : Nat) : Agg :=
  match a.slotSt slot with
  | 0 => a.jrnEnd op 0x11 2
  | 5 => (a.slotEnter slot 0).jrnEnd op 0x11 2
  | _ => a.jrnEnd op 0x11 4

/-- The change that OP names, its BEGIN written, from the state that the slot shows (R463). -/
def Agg.slotAct (a : Agg) (slot opc op : Nat) : Agg :=
  if a.slotsHeld then a.jrnEnd op 0x11 4
  else match opc with
    | 1 => a.slotOn slot op
    | 2 => a.slotOff slot op
    | _ => a.slotClear slot op

/-- A request of the owner once the journal takes it; a held one is refused with OUTCOME 4. -/
def Agg.slotRequest (a : Agg) (s opc : Nat) : Agg :=
  if a.owns s ∧ a.jrnReady then
    let b := a.slotBegin s opc
    b.1.slotAct s opc b.2
  else a

/-- SLOT_ON (R460, R463). -/
def execSlotOn (slot : Fin 16) (s : State) : Host.Outcome State Fault Refusal :=
  .next (s.onWrite fun a => a.slotRequest slot 1)

/-- SLOT_OFF (R460, R463). -/
def execSlotOff (slot : Fin 16) (s : State) : Host.Outcome State Fault Refusal :=
  .next (s.onWrite fun a => a.slotRequest slot 2)

/-- SLOT_CLEAR (R460, R463). -/
def execSlotClear (slot : Fin 16) (s : State) : Host.Outcome State Fault Refusal :=
  .next (s.onWrite fun a => a.slotRequest slot 3)

/-! ### Trips (R460 to R462) -/

/-- The limit in force on a sample taken at an instant (R461). -/
def Agg.slotLimit (a : Agg) (s ns : Nat) : Nat :=
  if a.slotSt s = 1 then
    let us := max 1 (a.cfg (SLOT_ENV0_RAMP_US s) * 1000)
    let i0 := a.cfg (SLOT_ENV0_I_RAMP0 s)
    i0 + (a.cfg (SLOT_ENV0_I_RAMP1 s) - i0) * min (ns - (a.slotCh s).atNs) us / us
  else a.cfg (SLOT_ENV0_I_ON s)

/-- A sample enters the statistics of the tick (R465). -/
def SlotCh.take (c : SlotCh) (code ns : Nat) : SlotCh := {
  c with
  sampleNs := ns, samples := c.samples + 1, iSum := c.iSum + code, iMax := max c.iMax code
  iMin := if c.samples = 0 then code else min c.iMin code
  eflags := if code = 4095 then c.eflags ||| 4 else c.eflags }

/-- The inputs of a slot's channel beside its current, as a sample finds them: the level on `SLOT_EN_s`, and `SLOT_FLT_N`
that is high again. Its fall is SLOT_FLT (R457). -/
def Agg.slotSense (a : Agg) (s : Nat) (en fltN : Bool) : Agg :=
  let a := a.put (SLOT_STATUS_EN_SENSE s) (if en then 1 else 0)
  if fltN then a.put (SLOT_STATUS_FLT_SENSE s) 0 else a

/-- SLOT_SAMPLE (R457, R460, R461): the sample of the next whole microsecond that this slot has not seen, available 1 us
after it, with the levels of the channel's other inputs. -/
def execSlotSample (slot : Fin 16) (code : Nat) (en fltN : Bool) (s : State) : Host.Outcome State Fault Refusal :=
  .next (s.onAgg fun a =>
    let a := a.slotSense slot en fltN
    let code := code % 4096
    let ns := max ((a.slotCh slot).sampleNs + 1000) ((a.p.nowNs - 1000) / 1000 * 1000)
    let a : Agg := { a with p := a.p.until (ns + 1000) }
    let a := (a.onCh slot fun c => c.take code ns).put (SLOT_STATUS_I_NOW slot) code
    if ¬ a.owns slot then a
    else
      match a.slotSt slot with
      | 3 => if code ≤ a.cfg (SLOT_ENV1_I_OFF slot) then (a.slotIsOff slot 1).slotBegun slot else a
      | 1 =>
        let over_ := if a.slotLimit slot ns < code then (a.slotCh slot).over_ + 1 else 0
        let ok := if code ≤ a.cfg (SLOT_ENV0_I_ON slot) then (a.slotCh slot).ok + 1 else 0
        if a.cfg SLOT_CFG_TRIP_N ≤ over_ then
          ((a.count (SLOT_COUNT_TRIPS slot)).event PWR_EVENT_SLOT_TRIP (a.dieOfSlot slot)).slotTrip slot 1
        else a.onCh slot fun c => { c with over_ := over_, ok := ok }
      | 2 =>
        let over_ := if a.slotLimit slot ns < code then (a.slotCh slot).over_ + 1 else 0
        if a.cfg SLOT_CFG_TRIP_N ≤ over_ then
          ((a.count (SLOT_COUNT_TRIPS slot)).event PWR_EVENT_SLOT_TRIP (a.dieOfSlot slot)).slotTrip slot 2
        else a.onCh slot fun c => { c with over_ := over_ }
      | _ => a)

/-- SLOT_FLT (R460, R461): the slot's controller reports that its own breaker has tripped. -/
def execSlotFlt (slot : Fin 16) (s : State) : Host.Outcome State Fault Refusal :=
  .next (s.onAgg fun a =>
    let a := (a.put (SLOT_STATUS_FLT_SENSE slot) 1).onCh slot fun c => { c with eflags := c.eflags ||| 2 }
    if ¬ a.owns slot then a
    else
      let st := a.slotSt slot
      if st = 1 ∨ st = 2 then
        a.slotCtrlTrip slot
      else if st = 0 then
        (a.count (SLOT_COUNT_FLT_UNEXPECTED slot)).event PWR_EVENT_SLOT_FLT_UNEXPECTED (a.dieOfSlot slot)
      else a)

/-- RAMP_END (R460): RAMP_US has elapsed and the last TRIP_N samples are at or below I_ON. -/
def execRampEnd (slot : Fin 16) (s : State) : Host.Outcome State Fault Refusal :=
  .next (s.onAgg fun a =>
    if a.slotSt slot = 1 ∧ a.owns slot ∧ a.cfg SLOT_CFG_TRIP_N ≤ (a.slotCh slot).ok then
      let a : Agg := { a with p := a.p.until ((a.slotCh slot).atNs + a.cfg (SLOT_ENV0_RAMP_US slot) * 1000) }
      ((a.put (SLOT_STATUS_REF_NOW slot) (a.cfg (SLOT_ENV1_REF_TGT slot))).slotEnter slot 2).slotDone slot 0
    else a)

/-- BACKOFF_END (R460, R464): BACKOFF_MS × 2^(n − 1) has elapsed; in safe state and in a flush it waits. -/
def execBackoffEnd (slot : Fin 16) (s : State) : Host.Outcome State Fault Refusal :=
  .next (s.onAgg fun a =>
    if a.slotSt slot = 4 ∧ a.owns slot ∧ ¬ a.slotsHeld then
      let n := a.reg (SLOT_STATUS_TRIPS slot)
      let ms := a.cfg SLOT_CFG_BACKOFF_MS * 2 ^ (n - 1)
      let a : Agg := { a with p := a.p.until ((a.slotCh slot).atNs + ms * 1000000) }
      (a.count (SLOT_COUNT_RETRIES slot)).rampStart slot
    else a)

/-- DRAIN_TIMEOUT (R460): DRAIN_US has passed without a sample at or below I_OFF. -/
def execDrainTimeout (slot : Fin 16) (s : State) : Host.Outcome State Fault Refusal :=
  .next (s.onAgg fun a =>
    if a.slotSt slot = 3 ∧ a.owns slot then
      let a : Agg := { a with p := a.p.until ((a.slotCh slot).atNs + a.cfg (SLOT_ENV1_DRAIN_US slot) * 1000) }
      ((a.put (SLOT_STATUS_LAST_CAUSE slot) 4).event PWR_EVENT_SLOT_DRAIN_FAIL (a.dieOfSlot slot)).slotFaulted slot
    else a)

/-! ### Slot record (R465) -/

/-- The entry of one slot. -/
def Agg.slotEntry (a : Agg) (s : Nat) : List Byte :=
  let c := a.slotCh s
  let mean := if c.samples = 0 then 0 else 16 * c.iSum / c.samples
  leBytes 2 c.iMax ++ leBytes 2 c.iMin ++ leBytes 4 mean ++ leBytes 2 c.samples ++ leBytes 1 (a.slotSt s) ++
    leBytes 1 c.eflags ++ leBytes 2 (a.refNow s) ++ zeros 2

/-- The slot record of a tick. -/
def Agg.slotRecord (a : Agg) (tick us : Nat) : List Byte :=
  let owned := ((List.range 16).map fun s => if a.owns s then 2 ^ s else 0).sum
  let l := leBytes 1 0x0E ++ leBytes 1 1 ++ zeros 2 ++ leBytes 4 296 ++ leBytes 8 tick ++ leBytes 4 us ++
    leBytes 2 a.id ++ leBytes 2 owned ++ zeros 8 ++ ((List.range 16).map a.slotEntry).flatten
  l ++ leBytes 4 (crc32c l) ++ zeros 4

/-- At a tick the slot record is committed, and the statistics of the next interval begin. -/
def Agg.slotLatch (a : Agg) (tick us : Nat) : Agg :=
  let a := if a.cfgOn SLOT_CFG_REC_EN then
      (a.produce {
        ring := a.cfg SLOT_CFG_REC_RING, type := 0x0E, cls := 0, ident := tick, never := true
        bytes := a.slotRecord tick us }).1
    else a
  (List.range 16).foldl (fun a s => a.onCh s fun c => { c with
    iMax := 0, iMin := 0, iSum := 0, samples := 0, eflags := 0 }) a

end Sys2Proof.Machine
end

