-- ==== Sys2Proof/Machine/Push.lean ====
section
/-! DEFINITION. Pushing configuration to a Uligo (R486, R487), what the aggregator does with the response of a command
(R157, R492), and the link command that leads to pushes: HELLO_ACK (R149). -/

namespace Sys2Proof.Machine

/-! ### What a push writes (R486) -/

/-- The ULIGO entries of the image that name a die slot, in image order. -/
def Agg.pushUligo (a : Agg) (s : Nat) : List (Nat × Nat) :=
  (a.img.uligo.filter fun e => bitAt e.slots s).map fun e => (e.off, e.value)

/-- The TRACE_AUTH entry of a die slot, when present (R476). -/
def Agg.pushAuth (a : Agg) (s : Nat) : List (Nat × Nat) :=
  match a.img.traceAuth[s]? with
  | some v => [(ULG_TRC_AUTH_PRIV_OK.off, v)]
  | none => []

/-- `ULG_CFG_DIE` with FLEET_DIE and VALID. -/
def Agg.pushDie (a : Agg) (s : Nat) : Nat × Nat := (ULG_CFG_DIE_FLEET_DIE.off, (a.dieOfSlot s).getD 0 + 2 ^ 17)

/-- Every register that the push writes before `ULG_CFG_ID`, in push order. -/
def Agg.pushItems (a : Agg) (s : Nat) : List (Nat × Nat) := a.pushDie s :: (a.pushUligo s ++ a.pushAuth s)

/-- UCFG_ID (R486): the CRC-32C over the items of the push. -/
def Agg.ucfgId (a : Agg) (s : Nat) : Nat :=
  crc32c ((a.pushItems s).flatMap fun e => leBytes 2 e.1 ++ leBytes 8 e.2)

/-- One more entry: it extends the newest run, or begins one. -/
def joinStep (runs : List (Nat × List Nat)) (e : Nat × Nat) : List (Nat × List Nat) :=
  match runs with
  | (off, w) :: r => if e.1 = off + 8 * w.length ∧ w.length < 16 then (off, w ++ [e.2]) :: r else (e.1, [e.2]) :: runs
  | [] => [(e.1, [e.2])]

/-- Entries with consecutive offsets joined into runs of up to 16 words. -/
def joinRuns (l : List (Nat × Nat)) : List (Nat × List Nat) := (l.foldl joinStep []).reverse

/-- The WRITE of a run of registers. -/
def writeCmd (e : Nat × List Nat) (use : CmdUse) : OutCmd :=
  { opcode := 2, addr := e.1, count := e.2.length, data := e.2, use := use }

/-- The commands of a push, in order (R486). -/
def Agg.pushCmds (a : Agg) (s : Nat) : List OutCmd :=
  let one (e : Nat × Nat) : OutCmd := writeCmd (e.1, [e.2]) (.push s false)
  [one (a.pushDie s)] ++ (joinRuns (a.pushUligo s)).map (fun e => writeCmd e (.push s false)) ++ (a.pushAuth s).map one ++
    [one (ULG_CFG_ID_UCFG_ID.off, a.ucfgId s), { opcode := 4, use := .push s true }]

/-! ### Running a push (R486, R487) -/

/-- The bits of `CFG_UCFG_STATUS` of a slot. -/
def Agg.ucfgDone (a : Agg) (s : Nat) (b : Bool) : Agg := a.put CFG_UCFG_STATUS_DONE (withBit (a.reg CFG_UCFG_STATUS_DONE) s b)

/-- BUSY of a slot. -/
def Agg.ucfgBusy (a : Agg) (s : Nat) (b : Bool) : Agg := a.put CFG_UCFG_STATUS_BUSY (withBit (a.reg CFG_UCFG_STATUS_BUSY) s b)

/-- The commands of a push whose BEGIN has been mirrored go to the die, and after them what waited for the push (R157,
R234). -/
def Agg.pushSend (a : Agg) (s : Nat) : Agg :=
  let q := a.conf.push.get s
  match q.op with
  | some op =>
    if q.waiting ∧ a.beginMirrored op then
      let p := a.portOfSlot s
      let a := a.onPush s fun q => { q with waiting := false }
      ((a.pushCmds s).foldl (fun a c => a.cmdIssue p c) a).againIssue p
    else a
  | none => a

/-- Every push whose BEGIN waited. -/
def Agg.pushesBegun (a : Agg) : Agg := (List.range 16).foldl (fun a s => a.pushSend s) a

/-- A push of the fenced former primary that is BEGUN, by (ORIG_AGG, ORIG_OP), and that this aggregator has not begun
again (R238, R487). -/
def Agg.pushLeft (a : Agg) (s : Nat) : Option (Nat × Nat) :=
  (a.shed.left.find? fun e => e.2 && e.1.kind == 7 && e.1.die == a.dieOfSlot s && (a.rerunOf e.1).isNone).map fun e =>
    (e.1.origAgg, e.1.origOp)

/-- BEGIN of a push: KIND 7 with UCFG_ID, slot and cause; the first one of a die that the former primary left BEGUN runs that
one again (R487). -/
def Agg.pushOpen (a : Agg) (s cause : Nat) : Agg × Nat :=
  a.jrnBegin 7 (a.dieOfSlot s) (a.ucfgId s + 2 ^ 32 * s + 2 ^ 40 * cause) (a.pushLeft s)

/-- A push begins. -/
def Agg.pushBegin (a : Agg) (s cause : Nat) : Agg :=
  let b := a.pushOpen s cause
  let a := b.1.onPush s fun q => { q with running := true, cause := cause, op := some b.2, waiting := true }
  (a.ucfgBusy s true).pushSend s

/-- Read the live `ULG_CFG_ID` of a slot's die through `ULG_CFG_LSEL` and `ULG_CFG_LDATA` (R493). -/
def Agg.idAsk (a : Agg) (s : Nat) : Agg :=
  let p := a.portOfSlot s
  (a.cmdIssue p (writeCmd (ULG_CFG_LSEL_OFFSET.off, [ULG_CFG_ID_UCFG_ID.off]) .pushSel)).cmdIssue p
    { opcode := 1, addr := ULG_CFG_LDATA_VALUE.off, count := 1, use := .pushId s }

/-- This aggregator pushes to a slot's die: it advertises PRIMARY on an ACTIVE session (R486). -/
def Agg.pushOwner (a : Agg) (s : Nat) : Bool :=
  let p := a.portOfSlot s
  (a.dieOfSlot s).isSome && a.reg (DP_STATUS_ROLE p) == 1 && a.reg (DP_STATUS_SESSION p) == 2

/-- A cause of a push arises (R486): during a push of the same die, and until the journal takes a BEGIN (R217, R235), it is
held; for a claim or a resumed session the live `ULG_CFG_ID` is read first. -/
def Agg.pushCause (a : Agg) (s cause : Nat) : Agg :=
  if a.pushOwner s then
    let q := a.conf.push.get s
    if q.running ∨ ¬ a.jrnReady then a.onPush s fun q => { q with held := some (q.held.getD cause) }
    else if cause = 5 ∨ (cause = 2 ∧ (a.die.get (a.portOfSlot s)).l.resuming) then
      ((a.onPush s fun q => { q with running := true, cause := cause, op := none, waiting := false }).ucfgBusy s true).idAsk s
    else a.pushBegin s cause
  else a

/-- The pushes that were held for the journal begin once it takes a BEGIN. -/
def Agg.pushesRetry (a : Agg) : Agg :=
  if a.jrnReady then
    (List.range 16).foldl (fun a s =>
      let q := a.conf.push.get s
      match q.held with
      | some c => if q.running then a else (a.onPush s fun q => { q with held := none }).pushCause s c
      | none => a) a
  else a

/-- A push ends: the one that was held follows (R486). -/
def Agg.pushEnd (a : Agg) (s : Nat) : Agg :=
  let held := (a.conf.push.get s).held
  let a := (a.onPush s fun _ => {}).ucfgBusy s false
  match held with
  | some c => a.pushCause s c
  | none => a

/-- The COMMIT response of a push (R487, R367). -/
def Agg.pushDone (a : Agg) (s status arg : Nat) : Agg :=
  match (a.conf.push.get s).op with
  | none => a
  | some op =>
    if status = 0 ∧ arg % 256 = 0 then (((a.jrnEnd op 0x11 0).ucfgDone s true).settingsAsk s).pushEnd s
    else
      let a := a.jrnEnd op 0x11 (1 + arg % 256 * 256)
      (a.event CFG_EVENT_PUSH_FAIL (a.dieOfSlot s)).pushEnd s

/-- The live `ULG_CFG_ID` of a die has been read (R486): an equal one needs no push, and answers the BEGUN push of the
former primary with DONE (R487); at a standby a different one sets `UCFG_DIFF`. -/
def Agg.idTaken (a : Agg) (s id : Nat) : Agg :=
  let same := id == a.ucfgId s
  let a := a.ucfgDone s same
  let q := a.conf.push.get s
  if q.running ∧ q.op = none then
    if same then
      let a :=
        match a.pushLeft s with
        | some _ => let b := a.pushOpen s 5; b.1.jrnEnd b.2 0x11 0
        | none => a
      (a.pushEnd s).againIssue (a.portOfSlot s)
    else if a.pushOwner s then
      if a.jrnReady then a.pushBegin s q.cause
      else (a.onPush s fun x => { x with running := false, held := some (x.held.getD q.cause) }).ucfgBusy s false
    else a.pushEnd s
  else if same ∨ a.role.get s = 1 then a
  else
    (a.put CFG_UCFG_STATUS_DIFF (withBit (a.reg CFG_UCFG_STATUS_DIFF) s true)).event CFG_EVENT_UCFG_DIFF (a.dieOfSlot s)

/-- PUSH (R486): a cause of the push arises, by its code in R487. -/
def execPush (slot : Fin 16) (cause : Nat) (s : State) : Host.Outcome State Fault Refusal :=
  .next (s.onAgg fun a => a.pushCause slot cause)

/-- UPUSH (R486): cause 6. -/
def execUpush (slot : Fin 16) (s : State) : Host.Outcome State Fault Refusal := .next (s.onAgg fun a => a.pushCause slot 6)

/-! ### Responses (R157) -/

/-- The result of the last proxied command (R492). -/
def Agg.proxyShow (a : Agg) (slot status arg : Nat) : Agg :=
  ((a.put CFG_PROXY_STATUS_SLOT slot).put CFG_PROXY_STATUS_STATUS status).put CFG_PROXY_STATUS_ARG arg

/-- A proxied command is answered: a read that still waits returns the register, or 0 with another STATUS than OK
(R492). -/
def Agg.proxyTaken (a : Agg) (slot : Nat) (read : Bool) (r : Resp) : Agg :=
  let a := a.proxyShow slot r.status r.arg
  if read then
    { a with rdata := if r.status = 0 then r.data.headD 0 else 0
             conf := { a.conf with proxy := a.conf.proxy.eraseP fun e => e.1 = slot } }
  else a

/-- What the aggregator does with the answer to a command of its own. -/
def Agg.answered (a : Agg) (c : OutCmd) (r : Resp) : Agg :=
  match c.use with
  | .plain => a
  | .domain _ => a
  | .pushSel => a
  | .push s last => if last then a.pushDone s r.status r.arg else a
  | .pushId s => if r.status = 0 then a.idTaken s (r.data.headD 0 % 2 ^ 32) else a
  | .proxy s read => a.proxyTaken s read r
  | .replay s => (a.dieOfSlot s).elim a fun die => a.rplResponse s die (c.arg % 256) r.status r.data
  | .poll s => (a.dieOfSlot s).elim a fun die => if r.status = 0 then a.rplStatus s die r.data else a
  | .epoch s w => if r.status = 0 then a.settingsTake s w (r.data.headD 0) else a
  | .fltStatus s => if r.status = 0 then a.fltStatusTaken s (r.data.headD 0) else a
  | .fltEntry s => (a.dieOfSlot s).elim a fun die => if r.status = 0 then a.fltEntryTaken s die r.data else a

/-- RESPONSE (R157). -/
def execResponse (p : Fin 16) (r : Resp) (s : State) : Host.Outcome State Fault Refusal :=
  .next (s.onAgg fun a =>
    let (a, c) := a.takeResponse p r
    c.elim a fun c => a.answered c r)

/-! ### HELLO_ACK and a mirror ACK -/

/-- What follows when a HELLO_ACK has opened or resumed a session: the epoch settings are read again (R367), and a standby
reads `ULG_CFG_ID` of a new session once (R486). -/
def Agg.sessionOpened (a : Agg) (p : Nat) : Agg :=
  match a.slotOfPort p with
  | none => a
  | some s =>
    let a := a.settingsAsk s
    if (a.die.get p).l.resuming then a
    else
      let a := a.ucfgDone s false
      if a.role.get s = 2 then a.idAsk s else a

/-- HELLO_ACK (R149). -/
def execHelloAck (p : Fin 16) (k : HelloAck) (s : State) : Host.Outcome State Fault Refusal :=
  .next (s.onAgg fun a =>
    let before := a.reg (DP_STATUS_SESSION p)
    let a := a.takeHelloAck p k
    if before = 1 ∧ a.reg (DP_STATUS_SESSION p) = 2 then a.sessionOpened p else a)

end Sys2Proof.Machine
end

