-- ==== Sys2Proof/Machine/RegRead.lean ====
section
/-! DEFINITION. Reading registers (R16, R17, R78, R79, R94, R96): the value a read shows, with the fields that follow other
state computed from it, and what a read changes. -/

namespace Sys2Proof.Machine

/-! ### Views: fields whose value follows other state -/

/-- Oldest-first entry `k` of an event ring as `ULG_RING_DATA` shows it (R80, R98). -/
def EvRing.word (r : EvRing) (k : Nat) : Nat :=
  match r.entries.reverse[k]? with
  | some (stamp, code, arg) => stamp % 2 ^ 32 + code % 256 * 2 ^ 32 + arg % 2 ^ 24 * 2 ^ 40
  | none => 0

/-- State code of a host core in `ULG_FT_CORE_STATUS` (R98 of 03): RUNNING while it runs an instance. -/
def FtCore.code (c : FtCore) : Nat := if c.run.isSome then 3 else c.state

/-- The word of 8 bytes at place `k` of a list of bytes. -/
def wordAt (l : List Byte) (k : Nat) : Nat := leAt l (8 * k) 8

/-- The control core whose FIFO a read of the sample registers concerns: `HR_MID` on the host port, else
`ULG_OVS_PEEK_SEL` (R78, R79). -/
def Ulg.ovsReader (u : Ulg) (mid : Option Nat) : Nat := mid.getD (u.reg ULG_OVS_PEEK_SEL_CORE)

/-- The sample registers (R78, R79): POP shows the oldest entry, and PC the last popped one on the host port, the oldest
one to Rycon-D. -/
def Ulg.ovsView (u : Ulg) (mid : Option Nat) (off : Nat) : Nat :=
  let c := u.ovsReader mid
  let q := u.cnt.fifo.get c
  if off = 0x280 then q.head?.elim 0 ovsPopWord
  else if off = 0x288 then mid.elim (q.head?.elim 0 (·.data)) fun m => u.cnt.popped.get m
  else q.length

/-- The whole word of a Uligo register that other state determines; `none` for a register that is held in its fields. SRC of
ULG_TIME_STATUS reads 0 without a source (log entry 125). -/
def Ulg.viewWord (u : Ulg) (mid : Option Nat) (off : Nat) : Option Nat :=
  if off = 0x100 then some (u.p.nowSec % 2 ^ 48)
  else if off = 0x110 then some u.p.stamp32
  else if off = 0x120 then
    let valid (x : Nat) : Nat := if portFresh u x then 1 else 0
    some (u.p.servo.state + u.time.src.getD 0 % 2 * 8 + u.errNs * 16 + valid 0 * 2 ^ 8 + valid 1 * 2 ^ 9)
  else if off = 0x258 then some (u.cnt.counters.get (u.reg ULG_LIVE_SEL_INDEX) % 2 ^ 48)
  else if off = 0x268 then
    let r := u.cnt.rings.get (u.reg ULG_RING_SEL_CORE)
    some ((if r.frozen then 1 else 0) + r.entries.length * 2 + (if r.dump then 2 ^ 8 else 0))
  else if off = 0x278 then some (u.cnt.rings.filter fun e => e.2.frozen).length
  else if off = 0x280 ∨ off = 0x288 ∨ off = 0x290 then some (u.ovsView mid off)
  else if off = 0x420 then
    let m := u.reg ULG_TRC_SEL_CORE
    some ((if u.trcActive m then 1 else 0) + (u.trc.core.get m).level % 64 * 2)
  else if off = 0x438 then some (u.trc.ring.get (u.reg ULG_TRC_RING_SEL_OFFSET))
  else if off = 0x518 then
    let run := (u.ft.core.filter fun e => e.2.run.isSome).length + (if u.reg ULG_RPL_STATUS_STATE = 3 then 1 else 0)
    some (u.ft.inst.length % 2 ^ 7 + run * 2 ^ 7 + (u.ft.core.filter fun e => e.2.state = 2).length * 2 ^ 21)
  else if off = 0x548 then
    let c := u.ft.core.get (u.reg ULG_FT_CORE_SEL_CORE)
    some (c.code + (if c.failed then 4 else 0) + min c.defers 255 * 2 ^ 8 + c.lastPass % 2 ^ 32 * 2 ^ 16)
  else if off = 0x618 then some ((captureBytes - u.tile.reserved) / 1024 + u.reg ULG_TILE_STATUS_OPEN * 2 ^ 14)
  else if off = 0x710 then some (u.epoch + (if u.epoch = epochNone then 0 else 2 ^ 32))
  else if off = 0x910 then some (u.rpl.words.getD (u.reg ULG_RPL_SEL_OFFSET) 0)
  else if off = 0xA08 then
    some ((if u.p.col.beatLost then 4 else u.reg ULG_FLT_STATUS_STATE) + u.p.col.pending.length * 8 + u.p.col.log.length * 2 ^ 9 +
      min (u.p.recoveries (u.cfg ULG_FLT_CFG_RECOVER_WIN_S)) 15 * 2 ^ 16 + u.reg ULG_FLT_STATUS_FTM * 2 ^ 20 +
      u.reg ULG_FLT_STATUS_BIST_FAIL * 2 ^ 21 + u.p.col.nextFseq % 2 ^ 32 * 2 ^ 32)
  else if 0x1000 ≤ off ∧ off < 0x1200 then
    some (u.cnt.shadow.get (u.reg ULG_SHADOW_SEL_INDEX + (off - 0x1000) / 8) % 2 ^ 48)
  else if 0x1200 ≤ off ∧ off < 0x1400 then
    some ((u.cnt.rings.get (u.reg ULG_RING_SEL_CORE)).word ((off - 0x1200) / 8))
  else if 0xA80 ≤ off ∧ off < 0xAA0 then
    some (wordAt (u.p.col.log.head?.elim [] FltRec.entry) ((off - 0xA80) / 8))
  else none

/-- FREE_4K and the rest of `SHED_RING_CONS` for the ring selected (R239). -/
def Agg.ringConsWord (a : Agg) (r : Nat) : Nat :=
  let g := a.ring r
  let lo := (g.recs.getLast?).any fun q => a.isLocalOnly q.cls
  ((g.cursors.filterMap fun e => e.2.map fun _ => 2 ^ e.1).sum) % 256 + g.mode * 2 ^ 8 + (if lo then 2 ^ 10 else 0) + a.ringFree r / 4096 * 2 ^ 11

/-- The members now excluded in ring mode (R262, R268). -/
def Agg.excludedNow (a : Agg) : List Nat :=
  ((a.tly.excluded.filter fun e => !a.tly.lifted (roundOf a.p.nowNs a.p.tick.us a.p.tick.ticks) e).map (·.1)).eraseDups

/-- Bit `j` of the exclusion set of ring mode, for the word selected (R262). -/
def Agg.exclWord (a : Agg) (i : Nat) : Nat :=
  ((List.range 64).map fun j => if a.excludedNow.contains (64 * i + j) then 2 ^ j else 0).sum

/-- HOME and UNHOMED of eight die slots (R430). -/
def Agg.homeWord (a : Agg) (s0 : Nat) : Nat :=
  ((List.range 8).map fun j =>
    (a.homeOf (s0 + j) % 32 + (if (a.dieDet (s0 + j)).unhomed then 2 ^ 7 else 0)) * 2 ^ (8 * j)).sum

/-- The state that `FLT_STATUS` reads: FATAL after a lost heartbeat until the first record (R426). -/
def Agg.fltStateRead (a : Agg) : Nat := if a.p.col.beatLost then 4 else a.reg FLT_STATUS_STATE

/-- The whole word of an aggregator register that other state determines. -/
def Agg.viewWord (a : Agg) (off : Nat) : Option Nat :=
  if off = 0x10000 then some (a.p.nowSec % 2 ^ 48)
  else if off = 0x10010 then
    some (a.p.servo.state + a.reg SERVO_STATUS_SRC_PORT * 16 + (if a.reg SYNCE_STATUS_STATE = 1 then 2 ^ 8 else 0) +
      a.errNs * 2 ^ 12 + a.p.holdS * 2 ^ 16)
  else if off = 0x10020 then some (twos 40 a.p.servo.rate)
  else if off = 0x10058 then some (a.p.lastTick % 2 ^ 64)
  else if off = 0x10060 then
    let i := a.p.lastRoundIndex
    some (i % 2 ^ 32 + (a.p.lastTick - i * a.p.tick.lastTicks) % 2 ^ 20 * 2 ^ 32)
  else if off = 0x30010 then
    let v := a.ing.table.filter fun e => e.2.isSome
    some (v.length % 2 ^ 17 + (v.filter fun e => 65536 ≤ e.1).length * 2 ^ 17 + a.reg ING_STATUS_SWEEPS * 2 ^ 32)
  else if 0x30200 ≤ off ∧ off < 0x30400 ∧ off % 32 = 0 then
    let s := (off - 0x30200) / 32
    some (a.dieRole s + a.samplePort s % 32 * 4 + a.reg (ING_DIE_STATUS_GAPS s) * 2 ^ 16)
  else if off = 0x40050 then
    let g := a.ring (a.reg SHED_RING_SEL_INDEX)
    some (g.writeSeq % 2 ^ 32 + g.mirrorSeq % 2 ^ 32 * 2 ^ 32)
  else if off = 0x40058 then some (a.ringConsWord (a.reg SHED_RING_SEL_INDEX))
  else if off = 0x40208 then
    some (a.reg SHED_JRN_STATUS_OPEN + a.reg SHED_JRN_STATUS_BEGUN * 2 + min a.jrnWaiting 32767 * 2 ^ 17)
  else if off = 0x50068 then some (a.exclWord (a.reg TALLY_EXCL_SEL_INDEX))
  else if off = 0xB0010 then
    some (a.fltStateRead + min a.p.col.pending.length 1023 * 8 +
      min (a.p.recoveries (a.cfg FLT_CFG_RECOVER_WIN_S)) 15 * 2 ^ 16 + a.reg FLT_STATUS_FTM * 2 ^ 20 +
      a.reg FLT_STATUS_CAUSE_SRC * 2 ^ 32 + a.p.col.nextFseq % 2 ^ 16 * 2 ^ 48)
  else if off = 0xB0060 then
    let src := a.reg FLT_SRC_SEL_SOURCE
    let st := a.p.src src
    some (floorAgg src + min st.count (2 ^ 24 - 1) * 2 ^ 8 + st.lastFseq % 2 ^ 32 * 2 ^ 32)
  else if off = 0xB0080 then some (a.homeWord 0)
  else if off = 0xB0088 then some (a.homeWord 8)
  else if 0xB0100 ≤ off ∧ off < 0xB0140 then
    some (wordAt ((a.p.col.log[a.reg FLT_LOG_SEL_INDEX]?).elim [] FltRec.bytes) ((off - 0xB0100) / 8))
  else if 0xB0140 ≤ off ∧ off < 0xB0160 then
    let e := a.rprLive.bind fun k => ((a.rprSector k).places[a.reg FLT_RPR_SEL_INDEX]?).join
    some (wordAt (e.getD []) ((off - 0xB0140) / 8))
  else none

/-- `TALLY_STATUS` counts the members now excluded (R262); SLOT_STATUS.REF_NOW follows the ramp (R461). -/
def Agg.viewField (a : Agg) (f : Field) (v : Nat) : Nat :=
  if f = TALLY_STATUS_EXCLUDED then min a.excludedNow.length (2 ^ 15 - 1)
  else if f.off = 0xC0110 ∧ f.lsb = (SLOT_STATUS_REF_NOW 0).lsb then a.refNow f.idx
  else v

/-! ### A register's word -/

/-- A field of a part as a read shows it: the staged value of an RWS field, zero for a WO field (R16). -/
def Part.fieldRead (p : Part) (f : Field) : Nat :=
  match f.acc with
  | .rws => p.staged.get f
  | .wo => 0
  | _ => p.regs.get f

/-- The word of fields, each at its place. -/
def fieldsWord (l : List Field) (val : Field → Nat) : Nat := (l.map fun f => val f % 2 ^ f.width * 2 ^ f.lsb).sum

/-- The live value of the RWS register at an offset, 0 where it is not RWS (R495). -/
def Part.liveWord (p : Part) (map : List RegDesc) (off : Nat) : Nat :=
  match findReg map off with
  | some (d, i) => fieldsWord ((d.fieldsAt p.regs i).filter fun f => f.acc = .rws) p.live.get
  | none => 0

/-- The word that a read of a Uligo register returns; `none` for an offset that no chapter assigns. -/
def Ulg.regWord (u : Ulg) (mid : Option Nat) (off : Nat) : Option Nat :=
  match findReg regMapUlg off with
  | none => none
  | some (d, i) =>
    if off = 0xC18 then some (u.p.liveWord regMapUlg (8 * u.reg ULG_CFG_LSEL_OFFSET))
    else if off = 0xA78 then
      let src := u.reg ULG_FLT_SRC_SEL_SOURCE
      some (u.p.staged.get (ULG_FLT_SRC_CFG_CLASS src) + floorUlg src * 4)
    else some ((u.viewWord mid off).getD (fieldsWord (d.fieldsAt u.p.regs i) u.p.fieldRead))

/-- The word of the MSI-X table at an offset of BAR0: 16 bytes for each of the 64 vectors, from the start of the window
(R488, R491; the layout is PCI Express's, log entry 26). -/
def msixWord (off : Nat) : Option Nat :=
  if 0xF0000 ≤ off ∧ off < 0xF0400 ∧ off % 8 = 0 then some ((off - 0xF0000) / 8) else none

/-- The word that a read of an aggregator register returns. -/
def Agg.regWord (a : Agg) (off : Nat) : Option Nat :=
  match findReg regMapAgg off with
  | none => (msixWord off).map a.conf.msix.get
  | some (d, i) =>
    if off = 0x30 then some (a.p.liveWord regMapAgg (8 * a.reg CFG_LIVE_SEL_OFFSET))
    else some ((a.viewWord off).getD (fieldsWord (d.fieldsAt a.p.regs i) fun f => a.viewField f (a.p.fieldRead f)))

/-! ### What a read changes -/

/-- RC fields clear on read (R16). -/
def Part.clearRc (p : Part) (l : List Field) : Part :=
  l.foldl (fun p f => if f.acc = .rc then p.put f 0 else p) p

/-- The change a read of a Uligo register makes, after its value was taken: RC fields clear (R16), `ULG_TIME_SEC` captures
the sub-second part (R57), a live read may find a counter's parity wrong (R74), `ULG_TRC_RING_DATA` and `ULG_RPL_DATA` advance (R110, R387), and a host-port read of
`ULG_OVS_POP` pops (R78). -/
def Ulg.afterRead (u : Ulg) (mid : Option Nat) (off : Nat) : Ulg :=
  if off = 0x100 then
    (u.put ULG_TIME_SUBSEC_NS (u.p.nowNs % 1000000000)).put ULG_TIME_SUBSEC_FRAC (u.p.nowQ % 65536)
  else if off = 0x438 then u.put ULG_TRC_RING_SEL_OFFSET (u.reg ULG_TRC_RING_SEL_OFFSET + 1)
  else if off = 0x258 then u.liveParity (u.reg ULG_LIVE_SEL_INDEX)
  else if off = 0x910 then u.put ULG_RPL_SEL_OFFSET (u.reg ULG_RPL_SEL_OFFSET + 1)
  else if off = 0x280 then
    match mid with
    | none => u
    | some m =>
      match u.cnt.fifo.get m with
      | [] => u
      | e :: rest => u.onCnt fun c => { c with fifo := c.fifo.set m rest, popped := c.popped.set m e.data }
  else
    match findReg regMapUlg off with
    | some (d, i) => { u with p := u.p.clearRc (d.fieldsAt u.p.regs i) }
    | none => u

/-- The change a read of an aggregator register makes. -/
def Agg.afterRead (a : Agg) (off : Nat) : Agg :=
  if off = 0x10000 then
    (a.put TIME_SUBSEC_NS (a.p.nowNs % 1000000000)).put TIME_SUBSEC_FRAC (a.p.nowQ % 65536)
  else
    match findReg regMapAgg off with
    | some (d, i) => { a with p := a.p.clearRc (d.fieldsAt a.p.regs i) }
    | none => a

/-- A read of a Uligo register: the Uligo after it, and the word. -/
def Ulg.readReg (u : Ulg) (mid : Option Nat) (off : Nat) : Ulg × Nat :=
  (u.afterRead mid off, (u.regWord mid off).getD 0)

/-- A host-port read that is misaligned or names no register (R94). -/
def hostReadBad (off : Nat) : Bool := off % 65536 % 8 != 0 || (findReg regMapUlg (off % 65536)).isNone

/-- A BAR0 offset lies in a window: the fifteen of R491. -/
def inWindow (off : Nat) : Bool :=
  let w := off / 65536
  decide (w ≤ 0xC) || w == 0xF || (decide (0x80 ≤ w) && decide (w < 0x90))

/-- RC_READ (R16): a register read by BAR0 or by the host register port returns its value, and its RC fields clear; a refused
read returns data 0 with `HR_RERR` (R94). -/
def execRcRead (part : PartSel) (off : Nat) (mid : Fin 64) (s : State) : Host.Outcome State Fault Refusal :=
  .next (s.onPart part
    (fun a => { a.afterRead off with rdata := (a.regWord off).getD 0 })
    (fun u =>
      let o := off % 65536
      if hostReadBad o then { u.event ULG_CNT_EVENT_HR_ERR with rdata := 0, rerr := true }
      else (u.afterRead (some mid) o).answer ((u.regWord (some mid) o).getD 0)))

/-- HOST_PORT_BAD_ACCESS (R94): a misaligned access, or one to an offset that no chapter assigns, sets HR_ERR; a read
returns `HR_RERR` with data 0, and a write is dropped. -/
def execHostPortBadAccess (off : Nat) (write : Bool) (_mid : Fin 64) (s : State) : Host.Outcome State Fault Refusal :=
  .next (s.onUlg fun u =>
    if hostReadBad off then
      let u := u.event ULG_CNT_EVENT_HR_ERR
      if write then u else { u with rdata := 0, rerr := true }
    else u)

/-- BAR0_UNMAPPED_ACCESS (R491): an access outside every window completes with data 0 and sets APERTURE_VIOL. -/
def execBar0UnmappedAccess (off : Nat) (write : Bool) (s : State) : Host.Outcome State Fault Refusal :=
  .next (s.onAgg fun a =>
    if inWindow off then a
    else
      let a := a.event CFG_EVENT_APERTURE_VIOL
      if write then a else { a with rdata := 0 })

end Sys2Proof.Machine
end

