-- ==== Sys2Proof/Machine/FieldWrite.lean ====
section
/-! DEFINITION. Writing a register's fields (R16, R483): what a write of a word does to each field by its access type. Effects
beyond the fields are those of the chapters (Access). -/

namespace Sys2Proof.Machine

/-- A field of a part after a write of `v` to it (R16): RO, WO and RC keep their value, RW takes it, RWS takes it into the
staged bank, W1C clears and W1S sets the bits written as 1. -/
def Part.fieldWrite (p : Part) (f : Field) (v : Nat) : Part :=
  match f.acc with
  | .ro => p
  | .wo => p
  | .rc => p
  | .rw => p.put f v
  | .rws => { p with staged := p.staged.set f v }
  | .w1c => p.put f (p.reg f - (p.reg f &&& v % 2 ^ f.width))
  | .w1s => p.put f (p.reg f ||| v % 2 ^ f.width)

/-- The bits of a word that a field takes. -/
def Field.of (f : Field) (word : Nat) : Nat := word / 2 ^ f.lsb % 2 ^ f.width

/-- The part after a write of a word to fields. -/
def Part.fieldsWrite (p : Part) (l : List Field) (word : Nat) : Part :=
  l.foldl (fun p f => p.fieldWrite f (f.of word)) p

/-- Entries 65,534 and 65,535 of the ring table ignore writes (R240). -/
def Field.ignored (f : Field) : Bool := f.off == 0x40048 && decide (65534 ≤ f.idx)

/-- The part after a write of a word to the register at an offset of its map; behind a select register, to the entry
selected at the write (R483). -/
def Part.wordWrite (p : Part) (map : List RegDesc) (off word : Nat) : Part :=
  match findReg map off with
  | some (d, i) => p.fieldsWrite ((d.fieldsAt p.regs i).filter fun f => !f.ignored) word
  | none => p

/-- The fields of the register at an offset, as they stand. -/
def Part.fieldsOf (p : Part) (map : List RegDesc) (off : Nat) : List Field :=
  match findReg map off with
  | some (d, i) => d.fieldsAt p.regs i
  | none => []

/-- The register at an offset has a field that software may write as RW or RWS (R478, R479). -/
def writableAt (map : List RegDesc) (off : Nat) : Bool :=
  match findReg map off with
  | some (d, i) => (d.fields i).any fun f => f.acc == .rw || f.acc == .rws
  | none => false

end Sys2Proof.Machine
end

