-- ==== Sys2Proof/Machine/Check.lean ====
section
/-! DEFINITION. The checks of a COMMIT (R483, R485): every refusal rule on RWS fields, of both parts, over the copy of the
staged bank. A rule on several fields that must agree is broken by each register concerned; the COMMIT reports the lowest
offset and the lowest reason of its register. -/

namespace Sys2Proof.Machine

/-! ### Breaches (R485) -/

/-- A register that breaks a rule: its offset and the reason. -/
abbrev Breach := Nat × Nat

/-- The reasons of R485. -/
def rsnRange : Nat := 1
/-- Fields that must agree do not. -/
def rsnAgree : Nat := 2
/-- An activation instant not later than the boundary. -/
def rsnLate : Nat := 3
/-- A COMMIT pending, or a block that refuses change. -/
def rsnBusy : Nat := 4
/-- A change not allowed now. -/
def rsnState : Nat := 5
/-- No room. -/
def rsnSpace : Nat := 6
/-- A setting that may never hold. -/
def rsnForbidden : Nat := 7

/-- The breaches of one rule: none unless it is broken. -/
def breach (broken : Bool) (reason : Nat) (offs : List Nat) : List Breach :=
  if broken then offs.map fun o => (o, reason) else []

/-- A field outside its range. -/
def range (broken : Bool) (off : Nat) : List Breach := breach broken rsnRange [off]

/-- The breach to report: the lowest offset, and of its reasons the lowest. -/
def firstBreach (l : List Breach) : Option Breach :=
  l.foldl (fun m b => match m with
    | none => some b
    | some x => if b.1 < x.1 ∨ (b.1 = x.1 ∧ b.2 < x.2) then some b else some x) none

/-- The indexes of a register for which a store lists a field. -/
def Store.idxsAt (c : Store) (off : Nat) : List Nat :=
  (c.filterMap fun e => if e.1 / 64 % 1048576 = off then some (e.1 / 64 / 1048576) else none).eraseDups

/-- A one-bit field of a store differs, or any of some fields does, between two stores. -/
def changed (c live : Store) (l : List Field) : Bool := l.any fun f => c.get f != live.get f

/-- Two intervals overlap. -/
def overlaps (a b : Nat × Nat) : Bool := decide (a.1 < b.1 + b.2) && decide (b.1 < a.1 + a.2) && a.2 != 0 && b.2 != 0

/-- Some two places of a list, at different positions, are related. -/
def somePair {α : Type} (r : α → α → Bool) : List α → Bool
  | [] => false
  | x :: t => t.any (r x) || somePair r t

/-! ### Tick and epoch settings of both parts (R49, R50, R131) -/

/-- The tick boundary at which a COMMIT of now applies: the next one, or now while no tick exists (R483). -/
def Part.boundaryNs (p : Part) : Nat := if p.timed then p.nextTickNs else p.nowNs

/-- The tick set of R49: the offsets of the two registers, the staged values and the live ones. -/
def tickBreaches (p : Part) (offCfg offAct : Nat) (us ticks act : Nat) (lus lticks lact : Nat) : List Breach :=
  if us = lus ∧ ticks = lticks ∧ act = lact then []
  else
    let round := us * ticks
    range (us < 10 || 1000000 < us || round < 100 || 10000000 < round) offCfg ++
      (if act = 0 then []
      else
        breach (act * 1000000 % (p.tick.us * p.tick.ticks) != 0 || act * 1000000 % round != 0) rsnAgree [offCfg, offAct] ++
        breach (act * 1000000000 ≤ p.boundaryNs) rsnLate [offAct])

/-! ### The Uligo -/

/-- Class below the floor, for the sources that a store lists (R413). -/
def classBreaches (c : Store) (off : Nat) (cls : Nat → Field) (floor : Nat → Nat) : List Breach :=
  range ((c.idxsAt off).any fun i => c.get (cls i) < floor i) off

/-- The tick settings of the Uligo. -/
def Ulg.tickCheck (u : Ulg) (c : Store) : List Breach :=
  tickBreaches u.p 0x138 0x140 (c.get ULG_TICK_CFG_TICK_US) (c.get ULG_TICK_CFG_ROUND_TICKS)
    (c.get ULG_TICK_ACT_SEC_ACT_SEC) (u.cfg ULG_TICK_CFG_TICK_US) (u.cfg ULG_TICK_CFG_ROUND_TICKS)
    (u.cfg ULG_TICK_ACT_SEC_ACT_SEC)

/-- The epoch settings (R131). -/
def Ulg.epochCheck (u : Ulg) (c : Store) : List Breach :=
  let ms := c.get ULG_EPOCH_CFG_EPOCH_MS
  let act := c.get ULG_EPOCH_ACT_SEC_ACT_SEC
  if ms = u.cfg ULG_EPOCH_CFG_EPOCH_MS ∧ act = u.cfg ULG_EPOCH_ACT_SEC_ACT_SEC then []
  else
    range (ms < 1 || 60000 < ms) 0x700 ++
      (if act = 0 then []
      else
        breach (act * 1000 % u.ep.ms != 0 || act * 1000 % ms != 0) rsnAgree [0x700, 0x708] ++
        breach (act * 1000000000 ≤ u.p.boundaryNs) rsnLate [0x708])

/-- The field-test settings (R134). -/
def ftCheck (c : Store) : List Breach :=
  range (c.get ULG_FT_CFG_PERIOD_S == 0) 0x500 ++
    breach (c.get ULG_FT_CFG_PERIOD_S ≤ c.get ULG_FT_CFG_DEADLINE_S) rsnAgree [0x500] ++
    ((List.range 16).map fun i =>
      range (c.on (ULG_FT_KTAB_EN i) && (c.get (ULG_FT_KTAB_ID i) == 0 || c.get (ULG_FT_KTAB_ID i) == 0xFF ||
        c.get (ULG_FT_KTAB_MAX_US i) == 0 || 50 < c.get (ULG_FT_KTAB_MAX_US i))) (0x580 + 8 * i)).flatten

/-- Every rule on the Uligo's fields (R37, R49, R99, R131, R134, R170, R413, R440, R469). -/
def Ulg.breaches (u : Ulg) (c : Store) : List Breach :=
  range (c.get ULG_TIME_CFG_COAST_US ≤ 8) 0x130 ++ u.tickCheck c ++
    range (c.get ULG_CNT_CFG_CLUSTERS == 0 || 128 < c.get ULG_CNT_CFG_CLUSTERS || 16 < c.get ULG_CNT_CFG_UNCORE_BUSES ||
      256 < c.get ULG_CNT_CFG_QUEUES) 0x200 ++
    ftCheck c ++
    range (16 < c.get ULG_TILE_CFG_LOG2N || 32 < c.get ULG_TILE_CFG_TAPS || c.get ULG_TILE_CFG_TIMEOUT_US == 0) 0x600 ++
    u.epochCheck c ++
    breach (!c.on ULG_LINK_CFG_EN_A && !c.on ULG_LINK_CFG_EN_B) rsnForbidden [0x880] ++
    range (c.get ULG_FLT_CFG_SHEEPDOG_US == 0 || c.get ULG_FLT_CFG_RECOVER_WIN_S == 0) 0xA00 ++
    breach (c.get ULG_FLT_AGE_CFG_WARN_PS ≤ c.get ULG_FLT_AGE_CFG_MIN_PS) rsnAgree [0xA60] ++
    classBreaches c 0xA78 ULG_FLT_SRC_CFG_CLASS floorUlg ++
    range (c.get ULG_PD_CFG_RET_MV < 50 || 70 < c.get ULG_PD_CFG_RET_MV) 0xB08

/-! ### Rule programs (R276 to R278) -/

/-- The sections in which an operation may stand: TICK, CORE, ROUND; none for a reserved opcode (R277). -/
def opSections (opc : Nat) : Option (Bool × Bool × Bool) :=
  if opc ≤ 0x0E ∨ (0x10 ≤ opc ∧ opc ≤ 0x13) then some (true, true, true)
  else if opc = 0x18 then some (false, true, false)
  else if opc = 0x19 ∨ opc = 0x1A then some (true, false, false)
  else if 0x20 ≤ opc ∧ opc ≤ 0x24 then some (true, false, true)
  else if 0x28 ≤ opc ∧ opc ≤ 0x2A then some (true, false, false)
  else if opc = 0x30 ∨ opc = 0x31 then some (true, false, true)
  else none

/-- The operation has a key in IMM. -/
def opHasKey (opc : Nat) : Bool := decide (0x20 ≤ opc ∧ opc ≤ 0x24)

/-- Operation `i` of a program breaks none of R278's rules on operations; keys are checked apart. -/
def progOpGood (coreAt roundAt nops i w : Nat) : Bool :=
  let opc := w % 256
  let mode := w / 2 ^ 23 % 32
  let imm := signed 32 (w / 2 ^ 32)
  let core := decide (coreAt ≤ i) && decide (i < roundAt)
  let stop := if i < coreAt then coreAt else if i < roundAt then roundAt else nops
  match opSections opc with
  | none => false
  | some (t, c, r) =>
    w / 2 ^ 28 % 16 == 0 && (if i < coreAt then t else if core then c else r) &&
      (opc != 0x0E || (decide (0 ≤ imm) && decide ((i : Int) + 1 + imm ≤ stop))) &&
      (!(decide (0x10 ≤ opc) && decide (opc ≤ 0x13)) ||
        (decide (0 ≤ imm) && decide (imm ≤ if core then 3 else 255))) &&
      (!(opc == 0x18 || opc == 0x19) || (decide (0 ≤ imm) && decide (imm ≤ 15))) &&
      (opc != 0x31 || (decide (3 ≤ mode) && decide (mode ≤ 6)))

/-- The words of a program's operations. -/
def progWords (l : List Byte) : List Nat :=
  (List.range (leAt l 6 2)).map fun i => leAt l (32 + 8 * leAt l 4 2 + 8 * i) 8

/-- The image has none of the faults of R278 but for keys; `crc` is PROG_CRC. -/
def progGood (l : List Byte) (crc : Nat) : Bool :=
  let np := leAt l 4 2
  let n := leAt l 6 2
  let len := leAt l 12 4
  leAt l 0 1 == 0x50 && leAt l 1 1 == 1 && leAt l 2 2 != 0xFFFF && decide (np ≤ 256) && decide (1 ≤ n) &&
    decide (n ≤ 4096) && len == 40 + 8 * np + 8 * n && l.length == len && leAt l 16 8 == 0 && leAt l 24 8 == 0 &&
    leAt l (len - 8) 4 == crc && crc32c (l.take (len - 8)) == crc &&
    ((List.range n).zip (progWords l)).all fun e => progOpGood (leAt l 8 2) (leAt l 10 2) n e.1 e.2

/-- Every key of the program lies in the paddock's range (R278, R302). -/
def progKeysGood (l : List Byte) (lo hi : Nat) : Bool :=
  (progWords l).all fun w =>
    let imm := signed 32 (w / 2 ^ 32)
    !opHasKey (w % 256) || (decide ((lo : Int) ≤ imm) && decide (imm ≤ hi))

/-- The bytes of a program image at an address: as many as its header says. -/
def Agg.progImage (a : Agg) (addr : Nat) : List Byte := a.shedRead addr (min (leAt (a.shedRead addr 32) 12 4) 34864)

/-! ### The aggregator -/

/-- The stack mapped out under a copy: the repair log prevails over STACK_OUT (R207, R435). -/
def Agg.outUnder (a : Agg) (c : Store) : Nat := a.flt.stackOut.getD (c.get SHED_CFG_STACK_OUT)

/-- The ring is enabled in the copy (R211, R483). -/
def ringIn (c : Store) (r : Nat) : Bool := decide (65534 ≤ r) || c.on (SHED_RING_CFG_EN r)

/-- A field that names a ring, while its block is enabled in the copy. -/
def ringNamed (c : Store) (en : Bool) (r off : Nat) : List Breach := breach (en && !ringIn c r) rsnAgree [off, 0x40048]

/-- Time, die ports and ingest (R49, R57, R164, R172, R199). -/
def Agg.checkTime (a : Agg) (c : Store) : List Breach :=
  range (c.get PTP_CFG_ANN_TIMEOUT ≤ 1) 0x10030 ++
    tickBreaches a.p 0x10048 0x10050 (c.get TICK_CFG_TICK_US) (c.get TICK_CFG_ROUND_TICKS) (c.get TICK_ACT_SEC_ACT_SEC)
      (a.cfg TICK_CFG_TICK_US) (a.cfg TICK_CFG_ROUND_TICKS) (a.cfg TICK_ACT_SEC_ACT_SEC) ++
    ((List.range 16).map fun p =>
      let t := c.get (DP_CFG_STREAM_TMO_US p)
      range ((t != 0 && decide (t < 2 * a.cfg TICK_CFG_TICK_US)) || c.get (DP_CFG_TRAIN_LIMIT_MS p) == 0)
        (0x20020 + 64 * p)).flatten ++
    range (c.get ING_CFG_SBY_TICKS < 8) 0x30000

/-- The classes that ingest gives to records (R199). -/
def ingClasses (c : Store) : List Nat :=
  [c.get ING_CLASS_MAP_SAMPLE, c.get ING_CLASS_MAP_TRACE, c.get ING_CLASS_MAP_FT, c.get ING_CLASS_MAP_TILE]

/-- The local-only rank of a class in the copy, and the offset of its register (R223). -/
def rankIn (c : Store) (cls : Nat) : Nat := c.get (SHED_LO_RANK_RANK (cls / 16) (cls % 16))

/-- Classes (R199, R213, R378, R418): a class that must not be marked LOCAL_ONLY has rank 0; RESULT_CLASS and
VERDICT_CLASS are no other class of R213 or of ingest. -/
def checkClasses (c : Store) : List Breach :=
  let ing := ingClasses c
  let prod := [(c.get TALLY_CFG_RESULT_CLASS, 0x50000), (c.get DET_RUN_CFG_VERDICT_CLASS, 0x60008),
    (c.get DET_CFG_STATE_CLASS, 0x60000), (c.get SE_CFG_SE_CLASS, 0x90000), (c.get FLT_CFG2_FLT_CLASS, 0xB0008)]
  let rank (cls off : Nat) : List Breach := breach (rankIn c cls != 0) rsnAgree [off, 0x40140 + 8 * (cls / 16)]
  let same (cls off : Nat) : List Breach :=
    let others := (prod.filter fun q => q.1 = cls ∧ q.2 ≠ off).map (·.2) ++ (if cls ∈ ing then [0x30008] else [])
    breach (!others.isEmpty || cls == 0) rsnAgree (off :: others)
  breach (ing.eraseDups.length != 4) rsnAgree [0x30008] ++
    rank (c.get TALLY_CFG_RESULT_CLASS) 0x50000 ++ rank (c.get DET_RUN_CFG_VERDICT_CLASS) 0x60008 ++
    rank (c.get SE_CFG_SE_CLASS) 0x90000 ++ rank (c.get FLT_CFG2_FLT_CLASS) 0xB0008 ++
    same (c.get TALLY_CFG_RESULT_CLASS) 0x50000 ++ same (c.get DET_RUN_CFG_VERDICT_CLASS) 0x60008

/-- Entries of the region table in use. -/
def regionsUsed (c : Store) : List Nat := (List.range 8).filter fun i => c.get (SHED_REGION_KIND i) ≠ 0

/-- The region table (R208, R210). -/
def Agg.checkRegions (a : Agg) (c : Store) : List Breach :=
  let out := a.outUnder c
  let used := regionsUsed c
  let off (i : Nat) : Nat := 0x40100 + 8 * i
  let kindOf (i : Nat) : Nat := c.get (SHED_REGION_KIND i)
  let clash (i : Nat) : Bool := used.any fun j => j ≠ i && overlaps (regionPlace c out i) (regionPlace c out j)
  let twice (i : Nat) : Bool := kindOf i ≠ 8 && used.any fun j => j ≠ i && kindOf j == kindOf i
  let changedAt (i : Nat) : Bool := changed c a.p.live [SHED_REGION_KIND i, SHED_REGION_BASE_256M i, SHED_REGION_SIZE_256M i]
  (used.map fun i =>
    breach (clash i) rsnAgree [off i] ++ breach (twice i) rsnAgree [off i] ++
      breach (shedGib out * 2 ^ 30 < (regionPlace c out i).1 + (regionPlace c out i).2) rsnRange [off i] ++
      breach ((regionPlace c out i).2 == 0) rsnRange [off i]).flatten ++
    range ((List.range 7).any fun k => !used.any fun i => kindOf i = k + 1) (off 0) ++
    ((List.range 8).map fun i => breach (a.conf.portsLeft && changedAt i) rsnState [off i]).flatten

/-- Rings named by entries of the stream table and by image entries from which entries are learned: the ring, and whether it
serves a sample stream (R180, R211). -/
def Agg.streamRings (a : Agg) (c : Store) : List (Nat × Bool) :=
  let sample := c.get ING_CLASS_MAP_SAMPLE
  (a.ing.table.filterMap fun e => e.2.map fun t => (t.ring, t.cls == sample)) ++
    (a.img.static.map fun e => (e.ring, e.cls == sample))

/-- The ring table (R211): enabled entries, their places and sizes; entries name enabled rings. -/
def Agg.checkRings (a : Agg) (c : Store) : List Breach :=
  let out := a.outUnder c
  let on := (c.idxsAt 0x40048).filter fun i => i < 65534 && c.on (SHED_RING_CFG_EN i)
  let place (i : Nat) : Nat × Nat := (c.get (SHED_RING_CFG_BASE_4K i) * 4096, c.get (SHED_RING_CFG_SIZE_4K i) * 4096)
  let named := a.streamRings c
  let homes := regionsOf c out 1 ++ regionsOf c out 4
  range (on.any fun i => (place i).2 < 65536) 0x40048 ++
    range (on.any fun i => (place i).2 < 4 * 2 ^ 20 && named.contains (i, true)) 0x40048 ++
    breach (on.any fun i => !within homes (place i).1 (place i).2) rsnAgree [0x40048] ++
    breach (somePair overlaps (on.map place)) rsnAgree [0x40048] ++
    breach (named.any fun r => !ringIn c r.1) rsnAgree [0x40048]

/-- The Shed's own settings (R216, R240). -/
def checkShed (c : Store) : List Breach :=
  range (c.get SHED_CFG_STACK_OUT == 6 || c.get SHED_CFG_UE_LIMIT == 0) 0x40000 ++
    range (1000 < c.get SHED_MIR_CFG_LIMIT_GBPS) 0x40080 ++
    breach (c.on SHED_MIR_CFG_EN && c.get SHED_MIR_CFG_OWN_TAG == c.get SHED_MIR_CFG_PARTNER_TAG) rsnForbidden [0x40080] ++
    range (c.get SHED_MIR_TIMING_RTO_US == 0 || c.get SHED_MIR_TIMING_TAIL_MAX_MIB == 0) 0x40090 ++
    range (c.get SHED_ARCH_CFG_SEG_RAW_KIB < 64 || 4096 < c.get SHED_ARCH_CFG_SEG_RAW_KIB ||
      c.get SHED_ARCH_CFG_SEG_BUF_KIB < 64 || c.get SHED_ARCH_CFG_SEG_AGE_MS == 0 || c.get SHED_ARCH_CFG_TABLES == 3 ||
      c.get SHED_ARCH_CFG_POOL_MIB < 64) 0x400C0

/-- TALLY_ACT names a round not later than the one in progress (R268); without a fleet time no round is in progress. -/
def Agg.tallyLate (a : Agg) (c : Store) : Bool :=
  !c.on TALLY_ACT_IMMEDIATE && a.p.timed &&
    !laterRound (c.get TALLY_ACT_ROUND) (roundOf a.p.nowNs a.p.tick.us a.p.tick.ticks)

/-- The settings of ring mode (R259). -/
def checkRingMode (c : Store) : List Breach :=
  let n := c.get TALLY_RING_CFG_AGGS
  let w := c.get TALLY_RING_CFG_ROW
  let steps := 2 * (w - 1) + 2 * (n / (if w = 0 then 1 else w) - 1)
  let att := c.get TALLY_TIMING2_ATTEMPT_US
  if c.get TALLY_CFG_MODE ≠ 1 then []
  else
    range (n == 0 || w < 2) 0x50020 ++ breach (n % w != 0) rsnAgree [0x50020] ++
      breach (att * 1000 < steps * c.get TALLY_TIMING2_STEP_NS + 2000 * c.get TALLY_TIMING2_SKIP_GUARD_US) rsnAgree
        [0x50018, 0x50020] ++
      breach (4 * (c.get TICK_CFG_TICK_US * c.get TICK_CFG_ROUND_TICKS) <
        c.get TALLY_TIMING2_RING_START_US + c.get TALLY_RING_CFG_ATTEMPTS * att) rsnAgree [0x10048, 0x50018, 0x50020]

/-- Tallies (R259, R268). -/
def Agg.checkTally (a : Agg) (c : Store) : List Breach :=
  let obs := c.get TALLY_TIMING_OBS_US + c.get TALLY_TIMING_COVER_WAIT_US
  range (2 ≤ c.get TALLY_CFG_MODE || c.get TALLY_CFG_KEYS == 0 || 65536 < c.get TALLY_CFG_KEYS ||
      c.get TALLY_CFG_PORTS == 0) 0x50000 ++
    ringNamed c (c.on TALLY_CFG_EN) (c.get TALLY_CFG_RESULT_RING) 0x50000 ++
    breach (a.tallyLate c) rsnLate [0x50008] ++
    breach (c.get TALLY_TIMING_COUNT_US < obs || c.get TALLY_TIMING_DATA_US ≤ c.get TALLY_TIMING_COUNT_US ||
      c.get TALLY_TIMING_CLOSE_US ≤ c.get TALLY_TIMING_DATA_US) rsnAgree [0x50010] ++
    breach (c.get TALLY_TIMING2_RESULT_US ≤ c.get TALLY_TIMING_CLOSE_US ||
      c.get TALLY_TIMING2_RING_START_US < obs) rsnAgree [0x50010, 0x50018] ++
    range (c.get TALLY_TIMING2_STEP_NS == 0 || c.get TALLY_TIMING2_SKIP_GUARD_US == 0) 0x50018 ++
    range (c.get TALLY_RING_CFG_ATTEMPTS == 0) 0x50020 ++ checkRingMode c

/-- The program that a paddock names is faulty (R278): outside the Model region or bad, and, apart, a key out of range. -/
def Agg.progBreaches (a : Agg) (c : Store) : List Breach :=
  let model := regionsOf c (a.outUnder c) 8
  ((List.range 64).map fun p =>
    if c.on (DET_PAD_PROG_EN p) then
      let addr := c.get (DET_PAD_PROG_ADDR_4K p) * 4096
      let l := a.progImage addr
      range (!within model addr l.length || !progGood l (c.get (DET_PAD_PROG_PROG_CRC p))) (0x60200 + 8 * p) ++
        breach (!progKeysGood l (c.get (DET_PAD_KEYS_KEY_LO p)) (c.get (DET_PAD_KEYS_KEY_HI p))) rsnAgree
          [0x60200 + 8 * p, 0x60400 + 8 * p]
    else []).flatten

/-- Detection (R273, R284, R286, R302, R304). -/
def Agg.checkDet (a : Agg) (c : Store) : List Breach :=
  let en := c.on DET_CFG_EN
  let sby := c.get ING_CFG_SBY_TICKS
  ringNamed c en (c.get DET_CFG_VERDICT_RING) 0x60000 ++ ringNamed c en (c.get DET_CFG_STATE_RING) 0x60000 ++
    range (c.get DET_CFG_CKPT_TICKS == 0) 0x60000 ++
    breach (sby < c.get DET_CFG_CKPT_TICKS + 8) rsnAgree [0x30000, 0x60000] ++
    breach (1350 * min a.p.tick.us (c.get TICK_CFG_TICK_US) < c.get DET_RUN_CFG_RUN_BUDGET_CYC) rsnAgree
      [0x10048, 0x60008] ++
    range (c.get DET_RUN_CFG_EVID_WAIT_MS == 0) 0x60008 ++
    range (100 < c.get DET_STRAG_CFG_LOCAL_PCT || 100 < c.get DET_STRAG_CFG_FLEET_PCT) 0x60010 ++
    breach (c.on (TALLY_KEY_CFG_SCOPE (c.get DET_STRAG_CFG_PROG_KEY))) rsnAgree [0x50058, 0x60010] ++
    range (c.get DET_CAUSE_CFG_FT_MIN == 0) 0x60018 ++
    range (c.get DET_HURDLE_CFG_WIN_S == 0 || c.get DET_HURDLE_CFG_ANS_MS == 0) 0x60020 ++
    ((List.range 16).map fun s =>
      let home := c.get (DET_DIE_CFG_HOME s)
      breach ((a.dieOfSlot s).isSome && c.get (DET_CLUSTER_PAD home) != a.paddockOf s) rsnAgree
        [0x60100 + 8 * s, 0x60600 + 8 * home]).flatten ++
    a.progBreaches c ++
    ((List.range 8).map fun i => range (c.get (DET_SUB_NOTICE_RTO_US i) == 0) (0x60700 + 8 * i)).flatten

/-- The COMMIT names a Hedge slot: its fields change (R317). -/
def Agg.hdgNamed (a : Agg) (c : Store) (m : Nat) : Bool :=
  changed c a.p.live [HDG_SLOT_PKG_ADDR_4K m, HDG_SLOT_PKG_EN m, HDG_SLOT_PKG_PKG_CRC m, HDG_SLOT_ACT_ACT_TICK m]

/-- A named slot is in LOADING, PENDING, RETAINING or FAULTED (R317). -/
def Agg.hdgBusy (a : Agg) (c : Store) (m : Nat) : Bool := a.hdgNamed c m && !(a.hdgState m == 0 || a.hdgState m == 3)

/-- The Hedge engine (R317, R318, R322). -/
def Agg.checkHdg (a : Agg) (c : Store) : List Breach :=
  let model := regionsOf c (a.outUnder c) 8
  let tick := tickOf a.p.boundaryNs a.p.tick.us
  breach (c.get HDG_CFG_RETAIN_TICKS < c.get ING_CFG_SBY_TICKS) rsnAgree [0x30000, 0x70000] ++
    ((List.range 16).map fun m =>
      let off := 0x70100 + 32 * m
      let act := c.get (HDG_SLOT_ACT_ACT_TICK m)
      range (c.on (HDG_SLOT_PKG_EN m) && !within model (c.get (HDG_SLOT_PKG_ADDR_4K m) * 4096) 1) off ++
        breach (a.hdgBusy c m) rsnBusy [off] ++
        breach (a.hdgNamed c m && act != 0 && decide (act ≤ tick)) rsnLate [off + 8]).flatten

/-- The number that the four words of a profile record spell (R330). -/
def profWord (c : Store) (i : Nat) : Nat :=
  ((List.range 4).map fun k => c.get (VRF_PROF_DATA_BYTES i k) * 2 ^ (64 * k)).sum

/-- The profile records listed in either of two stores. -/
def profListed (c live : Store) : List Nat := ((c.idxsAt 0x80050 ++ live.idxsAt 0x80050 ++ c.idxsAt 0x80058 ++
  live.idxsAt 0x80058 ++ c.idxsAt 0x80060 ++ live.idxsAt 0x80060 ++ c.idxsAt 0x80068 ++ live.idxsAt 0x80068).map
    (· / 4)).eraseDups

/-- A record breaks a rule of R334. -/
def profBad (c : Store) (live : Store) : Bool := (profListed c live).any fun i => !profileGood i (profWord c i)

/-- The profile table changes. -/
def profChanged (c live : Store) : Bool := (profListed c live).any fun i => profWord c i != profWord live i

/-- The Verifier (R334, R336, R353). -/
def Agg.checkVrf (a : Agg) (c : Store) : List Breach :=
  let model := regionsOf c (a.outUnder c) 8
  range (c.get VRF_PRIO_VERIFY_CLASS == 0 || c.get VRF_PRIO_PRED_CLASS == 0 || c.get VRF_PRIO_URGENT_CLASS == 0) 0x80008 ++
    range (profBad c a.p.live) 0x80050 ++
    breach (a.bit VRF_STATUS_PREV_TABLE && profChanged c a.p.live) rsnBusy [0x80050] ++
    ((List.range 16).map fun s =>
      range (c.on (VRF_PRED_DIE_EN s) && !within model (c.get (VRF_PRED_DIE_ADDR_4K s) * 4096) 1) (0x80300 + 8 * s)).flatten

/-- Silent errors (R378, R385). -/
def checkSe (c : Store) : List Breach :=
  ringNamed c (c.on SE_CFG_EN) (c.get SE_CFG_SE_RING) 0x90000 ++
    range (c.get SE_CFG_CLEAR_LAG == 0) 0x90000 ++
    breach (c.get SE_CFG_HOLD < c.get SE_CFG_CLEAR_LAG + 2) rsnAgree [0x90000] ++
    range (c.get SE_RPL_CFG_RUNS == 0 || 4 < c.get SE_RPL_CFG_RUNS || c.get SE_RPL_CFG_RUN_US == 0 ||
      c.get SE_RPL_CFG_WAIT_MS == 0) 0x90008 ++
    range (c.get SE_TAG_CFG_DIE_TAGS == 0 || 4096 < c.get SE_TAG_CFG_DIE_TAGS) 0x90010 ++
    range (c.get SE_FLEECE_CFG_RTO_US == 0) 0x90018

/-- The calendar of a port (R402, R409): enabled windows lie within the cycle and do not overlap. -/
def calCheck (c : Store) (p : Nat) : List Breach :=
  let cyc := c.get (FAB_CAL_CFG_CYCLE_NS p)
  let on := (List.range 8).filter fun q => c.on (FAB_CAL_WIN_EN p q)
  let win (q : Nat) : Nat × Nat := (c.get (FAB_CAL_WIN_START_NS p q), c.get (FAB_CAL_WIN_LEN_NS p q))
  let off (q : Nat) : Nat := 0xA0400 + 64 * p + 8 * q
  range (1 ≤ cyc && cyc < 1000) (0xA0128 + 64 * p) ++
    (on.map fun q =>
      range ((win q).2 == 0) (off q) ++
        breach (cyc < (win q).1 + (win q).2) rsnAgree [0xA0128 + 64 * p, off q] ++
        breach (on.any fun r => r ≠ q && overlaps (win q) (win r)) rsnAgree [off q]).flatten

/-- The fabric (R409). -/
def checkFab (c : Store) : List Breach :=
  let udp := c.get FAB_CFG_UDP_PORT
  let eps := (c.idxsAt 0xA0058).filter fun i => c.on (FAB_EP_ID_EN i)
  range (udp < 1024 || udp == 319 || udp == 320 || c.get FAB_CFG_HOP_LIMIT == 0 || 100 < c.get FAB_CFG_YELLOW_PCT) 0xA0000 ++
    range (c.get FAB_CLASS_PORTS_MIRROR == 0 || c.get FAB_CLASS_PORTS_NOTICE == 0) 0xA0018 ++
    range (c.get FAB_TXN_CFG_RTO_US == 0 || c.get FAB_TXN_CFG_ACK_COAL_NS == 0 || c.get FAB_TXN_CFG_ACK_EVERY == 0 ||
      16 < c.get FAB_TXN_CFG_ACK_EVERY) 0xA0020 ++
    range (c.get FAB_SHP_CFG_REFILL_NS < 100) 0xA0028 ++
    ringNamed c (c.on FAB_STAT_CFG_EN) (c.get FAB_STAT_CFG_RING) 0xA0030 ++
    breach (somePair (fun i j => c.get (FAB_EP_ID_ID i) == c.get (FAB_EP_ID_ID j)) eps) rsnAgree [0xA0058] ++
    ((List.range 12).map fun p =>
      let q := c.get (FAB_PORT_CFG_QMAX_KIB p)
      range (c.get (FAB_PORT_CFG_MODE p) == 3 || q == 0 || 4096 < q) (0xA0100 + 64 * p) ++ calCheck c p).flatten ++
    ((List.range 64).map fun i => range (c.get (FAB_SHP_BURST_KIB i) < 9) (0xA0800 + 8 * i)).flatten ++
    ((List.range 60).map fun i =>
      range (c.get (FAB_MTR_CBS_KIB i) < 9 || c.get (FAB_MTR_PBS_KIB i) < 9) (0xA0A00 + 8 * i) ++
        breach (c.get (FAB_MTR_PIR_MBPS i) < c.get (FAB_MTR_CIR_MBPS i)) rsnAgree [0xA0A00 + 8 * i]).flatten

/-- Faults (R413, R438, R440). -/
def checkFlt (c : Store) : List Breach :=
  range (c.get FLT_CFG_SHEEPDOG_US == 0 || c.get FLT_CFG_SAFE_US == 0 || c.get FLT_CFG_RECOVER_WIN_S == 0) 0xB0000 ++
    ringNamed c true (c.get FLT_CFG2_FLT_RING) 0xB0008 ++
    range (c.get FLT_CFG2_POLL_US == 0 || c.get FLT_CFG2_CLUSTER_MIN == 0 || 32 < c.get FLT_CFG2_CLUSTER_MIN) 0xB0008 ++
    classBreaches c 0xB0058 FLT_SRC_CFG_CLASS floorAgg ++
    range ((c.idxsAt 0xB0058).any fun i => c.get (FLT_SRC_CFG_RATE_WIN_MS i) == 0) 0xB0058 ++
    breach (c.get FLT_AGE_CFG_WARN_PS ≤ c.get FLT_AGE_CFG_MIN_PS) rsnAgree [0xB0090]

/-- Power (R467, R468). -/
def checkPwr (c : Store) : List Breach :=
  range (c.get PWR_CFG_PF_FILT_US == 0 || c.get PWR_CFG_FLUSH_LIMIT_MS == 0) 0xC0000 ++
    breach (c.get PWR_CFG_ARM_MV ≤ c.get PWR_CFG_WARN_MV) rsnAgree [0xC0000] ++
    range ((c.idxsAt 0xC0038).any fun i => c.get (PWR_DOM_CFG_RET_MV i) < 50 || 70 < c.get (PWR_DOM_CFG_RET_MV i)) 0xC0038 ++
    range (c.get SLOT_CFG_TRIP_N == 0 || (c.get SLOT_CFG_BACKOFF_MS == 0 && c.get SLOT_CFG_RETRY_MAX != 0) ||
      c.get SLOT_CFG_ISNS_LSB_MA == 0) 0xC0050 ++
    ringNamed c (c.on SLOT_CFG_REC_EN) (c.get SLOT_CFG_REC_RING) 0xC0050 ++
    ((List.range 16).map fun s =>
      range (c.get (SLOT_ENV0_RAMP_US s) == 0) (0xC0100 + 32 * s) ++
        breach (c.get (SLOT_ENV0_I_RAMP1 s) < c.get (SLOT_ENV0_I_RAMP0 s)) rsnAgree [0xC0100 + 32 * s] ++
        range (c.get (SLOT_ENV1_DRAIN_US s) == 0) (0xC0108 + 32 * s)).flatten

/-- Every rule on the aggregator's fields (R483). -/
def Agg.breaches (a : Agg) (c : Store) : List Breach :=
  a.checkTime c ++ checkClasses c ++ checkShed c ++ a.checkRegions c ++ a.checkRings c ++ a.checkTally c ++ a.checkDet c ++
    a.checkHdg c ++ a.checkVrf c ++ checkSe c ++ checkFab c ++ checkFlt c ++ checkPwr c

/-! ### What a refusal sets beside its reason -/

/-- The events that the rules of the blocks add to a refusal: TICK_LATE (R50), ACT_LATE (R268), PROG_REFUSED (R278),
SWAP_BUSY (R317), PROF_REFUSED (R334, R336). -/
def Agg.refusalEvents (a : Agg) (c : Store) : Agg :=
  let l := a.breaches c
  let late := l.contains (0x10050, rsnLate)
  let a' := if late then a.event TIME_EVENT_TICK_LATE else a
  let a' := if a.tallyLate c then a'.event TALLY_EVENT_ACT_LATE else a'
  let a' := if (a.progBreaches c).isEmpty then a' else a'.event DET_EVENT_PROG_REFUSED
  let a' := if (List.range 16).any (a.hdgBusy c) then a'.event HDG_EVENT_SWAP_BUSY else a'
  if profBad c a.p.live ∨ (a.bit VRF_STATUS_PREV_TABLE ∧ profChanged c a.p.live) then a'.event VRF_EVENT_PROF_REFUSED
  else a'

/-- The events of a refusal at the Uligo: TICK_LATE and EPOCH_LATE (R50, R131). -/
def Ulg.refusalEvents (u : Ulg) (c : Store) : Ulg :=
  let l := u.breaches c
  let u' := if l.contains (0x140, rsnLate) then u.event ULG_TIME_EVENT_TICK_LATE else u
  if l.contains (0x708, rsnLate) then u'.event ULG_EPOCH_EVENT_EPOCH_LATE else u'

end Sys2Proof.Machine
end

