-- ==== Sys2Proof/Machine/TallyRing.lean ====
section
/-! DEFINITION. The ring fallback (07, R259 to R263), the activation of mode, key table and ring shape, and the two
commands that both modes share: OBS_CLOSE and SCHEDULED_LAUNCH. -/

namespace Sys2Proof.Machine

/-! ### The shape of an attempt (R260) -/

/-- What a member knows of the ring in an attempt: itself, AGGS, ROW and the members left out. -/
structure RingShape where
  me : Nat
  aggs : Nat
  row : Nat
  without : List Nat

/-- The shape of a round's present attempt. -/
def TRound.shape (r : TRound) (me : Nat) : RingShape := { me := me, aggs := r.set.aggs, row := r.set.row, without := r.without }

/-- Rows. -/
def RingShape.rows (h : RingShape) : Nat := h.aggs / max h.row 1
/-- Steps of an attempt. -/
def RingShape.steps (h : RingShape) : Nat := 2 * (h.row - 1) + 2 * (h.rows - 1)
/-- The member takes part. -/
def RingShape.alive (h : RingShape) (id : Nat) : Bool := decide (id < h.aggs) && !h.without.contains id
/-- The member that acts at a position of a row: itself, or the next one of the row that takes part (R261). -/
def RingShape.actor (h : RingShape) (r p : Nat) : Option Nat :=
  ((List.range h.row).map fun k => r * h.row + (p + k) % h.row).find? h.alive
/-- Rows with a member left. -/
def RingShape.live (h : RingShape) : List Nat := (List.range h.rows).filter fun r => (h.actor r 0).isSome
/-- The own row. -/
def RingShape.myRow (h : RingShape) : Nat := h.me / max h.row 1
/-- The positions at which the member acts. -/
def RingShape.acted (h : RingShape) : List Nat := (List.range h.row).filter fun p => h.actor h.myRow p = some h.me

/-- The passes of an attempt. -/
inductive RingPass where
  | scatter (s : Nat) | reduce (t : Nat) | distribute (u : Nat) | gather (s : Nat)
  deriving DecidableEq, Repr

/-- The pass of a step. -/
def RingShape.passOf (h : RingShape) (s : Nat) : RingPass :=
  let w := h.row - 1
  let c := h.rows - 1
  if s < w then .scatter s
  else if s < w + c then .reduce (s - w)
  else if s < w + 2 * c then .distribute (s - w - c)
  else .gather (s - w - 2 * c)

/-- Where a position of a row sends at a step: row, position and slice. -/
def RingShape.sendTo (h : RingShape) (s r p : Nat) : Option (Nat × Nat × Nat) :=
  let w := h.row
  let slice := (p + 1) % w
  match h.passOf s with
  | .scatter k => some (r, (p + 1) % w, (p + w - k % w) % w)
  | .gather k => some (r, (p + 1) % w, (p + 1 + w - k % w) % w)
  | .reduce t => if r = t then (h.live.find? (r < ·)).map fun n => (n, p, slice) else none
  | .distribute u =>
    match h.live.getLast?, h.live.head? with
    | some last, some first =>
      if u = 0 ∧ r = last ∧ first ≠ last then some (first, p, slice)
      else if u = r + 1 ∧ r ≠ last then
        match h.live.find? (r < ·) with
        | some n => if n = last then none else some (n, p, slice)
        | none => none
      else none
    | _, _ => none

/-- Where what a position of the own row receives at a step comes from: row, position and slice. -/
def RingShape.from_ (h : RingShape) (s p : Nat) : Option (Nat × Nat × Nat) :=
  let w := h.row
  let here (r q : Nat) : Option (Nat × Nat × Nat) := match h.sendTo s r q with
    | some (r', q', sl) => if r' = h.myRow ∧ q' = p then some (r, q, sl) else none
    | none => none
  match h.passOf s with
  | .scatter _ | .gather _ => here h.myRow ((p + w - 1) % w)
  | _ => h.live.findSome? fun r => here r p

/-- The chunks due from other members at a step of the attempt: position, sender, its position and slice. -/
def RingShape.due (h : RingShape) (s : Nat) : List (Nat × Nat × Nat × Nat) :=
  if h.steps ≤ s then []
  else h.acted.filterMap fun p => match h.from_ s p with
    | some (r, q, sl) => match h.actor r q with
      | some id => if id = h.me then none else some (p, id, q, sl)
      | none => none
    | none => none

/-- The keys of a slice (R260). -/
def sliceKeys (keys w j : Nat) : List Nat := (List.range keys).filter fun k => k % w = j

/-- What a slice leaves in: frames of at most 14 exact blocks, at least one (R254, log entry 150). -/
def pieces {α : Type} (l : List α) : List (List α) :=
  (List.range (max 1 (ceilDiv l.length 14))).map fun i => (l.drop (14 * i)).take 14

/-- The CRC-32C of the attempt's exclusion bitmap, in the words of `TALLY_EXCL` (R254). -/
def RingShape.digest (h : RingShape) : Nat :=
  crc32c ((List.range (ceilDiv h.aggs 64)).map fun w =>
    leBytes 8 (((List.range 64).map fun j => if h.without.contains (64 * w + j) then 2 ^ j else 0).sum)).flatten

/-! ### Running an attempt (R261) -/

/-- The key of a position's block. -/
def accKey (p key : Nat) : Nat := 65536 * p + key

/-- The block held at a position. -/
def TRound.accBlock (r : TRound) (p key : Nat) : Block :=
  (r.acc.get (accKey p key)).getD { key := key, oct := r.set.oct key }

/-- Take blocks and counts into a position: merged in the two reducing passes, replaced in the others. -/
def Agg.take (a : Agg) (r : TRound) (s p slice : Nat) (bs : List Block) (m : Nat × Nat × Nat) : TRound :=
  let add := match (r.shape a.id).passOf s with | .scatter _ | .reduce _ => true | _ => false
  let acc := bs.foldl (fun acc b =>
    acc.set (accKey p b.key) (some (if add then (r.accBlock p b.key).merge b else b))) r.acc
  let k := 256 * p + slice
  let o := r.sums.get k
  let m := if add then (o.1 + m.1, o.2.1 + m.2.1, (o.2.2 + m.2.2) % 2 ^ 64) else m
  { r with acc := acc, sums := r.sums.set k m }

/-- What a position sends of a slice. -/
def TRound.give (r : TRound) (p slice : Nat) : List Block × (Nat × Nat × Nat) :=
  ((sliceKeys r.set.keys r.set.row slice).map (r.accBlock p), r.sums.get (256 * p + slice))

/-- The frames of a chunk of a step (R254). ACT_FOR is the position for which the member acts, also where it is its own (log
entry 170). -/
def Agg.chunkFrames (a : Agg) (r : TRound) (p slice : Nat) : List RedFrame :=
  let g := r.give p slice
  (pieces g.1).map fun bs => { a.redFrame r with
    group := r.step, members := g.2.1, dies := g.2.2.1, memberHash := g.2.2.2, compact := false
    exactSet := bs.all (·.exact), setDigest := (r.shape a.id).digest
    actFor := p, nkeys := bs.length, blocks := bs }

/-- Send the chunks of the present step to other members. -/
def Agg.sendStep (a : Agg) (r : TRound) : Agg :=
  let h := r.shape a.id
  h.acted.foldl (fun a p => match h.sendTo r.step h.myRow p with
    | some (r', q, sl) => match h.actor r' q with
      | some id =>
        if id = h.me then a else (a.chunkFrames r p sl).foldl (fun a f =>
          a.offerPacket { rclass := 2, dst := id, payload := f.bytes 0x45 }) a
      | none => a
    | none => a) a

/-- A frame of a step is of the chunk due: its sender's, and of the position for which that acts (R261). -/
def ofChunk (step : Nat) (d : Nat × Nat × Nat × Nat) (f : RedFrame) : Bool :=
  f.group == step && f.src == d.2.1 && f.actFor == d.2.2.1

/-- The keys of each frame of the chunk due. -/
def TRound.pieceKeys (r : TRound) (d : Nat × Nat × Nat × Nat) : List (List Nat) :=
  pieces (sliceKeys r.set.keys r.set.row d.2.2.2)

/-- The chunk due that a frame belongs to, by sender, position and keys, with the frame's ACT_FOR as its position. From a member
whose chunks carry 0 for its own position, 0 is that position where it names no chunk due with these keys (R261, log entry
170). -/
def TRound.chunkOf (r : TRound) (due : List (Nat × Nat × Nat × Nat)) (f : RedFrame) : Option ((Nat × Nat × Nat × Nat) × RedFrame) :=
  let own : RedFrame := { f with actFor := f.src % max r.set.row 1 }
  (if f.actFor = 0 then [f, own] else [f]).findSome? fun g =>
    (due.find? fun d => ofChunk f.group d g && (r.pieceKeys d).contains (g.blocks.map (·.key))).map fun d => (d, g)

/-- The frames of the chunk due at the present step, once all of them have arrived. -/
def TRound.arrived (r : TRound) (d : Nat × Nat × Nat × Nat) : Option (List RedFrame) :=
  let fs := (r.pieceKeys d).filterMap fun ks => r.inbox.find? fun f => ofChunk r.step d f && f.blocks.map (·.key) == ks
  if fs.length = (r.pieceKeys d).length then some fs else none

/-- What the acted positions pass among themselves at the present step. -/
def Agg.innerStep (a : Agg) (r : TRound) : TRound :=
  let h := r.shape a.id
  let moves := h.acted.filterMap fun p => match h.from_ r.step p with
    | some (r', q, sl) => if h.actor r' q = some h.me then some (p, sl, r.give q sl) else none
    | none => none
  moves.foldl (fun x m => a.take x r.step m.1 m.2.1 m.2.2.1 m.2.2.2) r

/-- Steps go on while every chunk due has come. -/
def Agg.ringRun (a : Agg) (k : Nat) : Nat → Agg
  | 0 => a
  | n + 1 =>
    match a.tround k with
    | none => a
    | some r =>
      let h := r.shape a.id
      if r.stopped ∨ ¬ h.alive a.id ∨ h.steps ≤ r.step then a
      else
        let need := h.due r.step
        let got := need.filterMap fun d => (r.arrived d).map fun fs => (d, fs)
        if got.length = need.length then
          let r1 := a.innerStep r
          let r2 := got.foldl (fun x e =>
            let m := e.2.head?.elim (0, 0, 0) fun f => (f.members, f.dies, f.memberHash)
            a.take x r.step e.1.1 e.1.2.2.2 (e.2.map (·.blocks)).flatten m) r1
          let r3 : TRound := { r2 with step := r.step + 1, inbox := r2.inbox.filter fun f => r.step < f.group }
          let a := a.onRound k fun _ => r3
          let a := if r3.step < h.steps then a.sendStep r3 else a
          a.ringRun k n
        else a

/-- Members expected in an attempt, with the sum of their H (R260). -/
def RingShape.expect (h : RingShape) : Nat × Nat :=
  (List.range h.aggs).foldl (fun e id => if h.alive id then (e.1 + 1, (e.2 + memberH id) % 2 ^ 64) else e) (0, 0)

/-- The result of a whole attempt (R260). -/
def Agg.ringResult (a : Agg) (r : TRound) : TResult :=
  let h := r.shape a.id
  let p := a.id % max r.set.row 1
  let e := h.expect
  let gs := (List.range r.set.row).map fun j => r.sums.get (256 * p + j)
  let whole (m : Nat × Nat × Nat) : Bool := m.1 == e.1 && m.2.2 == e.2
  let bad := (gs.filter fun m => !whole m).length
  { groups := gs, arrived := gs, bad := bad, expected := e.1, expHash := e.2, complete := bad == 0
    blocks := (List.range r.set.keys).map fun k =>
      { r.accBlock p k with incomplete := !whole (r.sums.get (256 * p + k % max r.set.row 1)) } }

/-- Run on, and commit the round when its last step is done (R261). -/
def Agg.ringGo (a : Agg) (k : Nat) : Agg :=
  let n := (a.tround k).elim 0 fun r => (r.shape a.id).steps + 1
  let a := a.ringRun k n
  match a.tround k with
  | none => a
  | some r =>
    let h := r.shape a.id
    if r.started ∧ ¬ r.stopped ∧ h.alive a.id ∧ h.steps ≤ r.step then a.commitResult r (a.ringResult r) else a

/-- Start of attempt `n` of a round, ns (R261). -/
def Agg.attemptNs (a : Agg) (r : TRound) (n : Nat) : Nat :=
  r.closeNs + (a.cfg TALLY_TIMING2_RING_START_US + n * a.cfg TALLY_TIMING2_ATTEMPT_US) * 1000

/-- A member is excluded from attempt 0 of a round (R262): by a SKIP that was sent early enough and that no JOIN of the
member, in force by that round and later than the SKIP's round, has lifted. -/
def Agg.ringExcluded (a : Agg) (k s0 id : Nat) : Bool :=
  a.tly.excluded.any fun e => e.1 = id && decide (e.2.1 + a.cfg TALLY_TIMING2_SKIP_GUARD_US * 1000 ≤ s0) &&
    !a.tly.lifted k e

/-- ATTEMPT_START (R261): attempt 0, or the one after a stopped attempt, starts without the members left out. A SKIP held
for the attempt stops it as it starts. -/
def execAttemptStart (round : Nat) (s : State) : Host.Outcome State Fault Refusal :=
  .next (s.onAgg fun a =>
    match a.tround round with
    | none => a
    | some r =>
      let n := if r.started then r.attempt + 1 else 0
      if ¬ r.ring ∨ (r.started ∧ ¬ r.stopped) ∨ r.set.attempts ≤ n then a
      else
        let s0 := a.attemptNs r n
        let a : Agg := { a with p := a.p.until s0 }
        let a := if n = 0 ∧ ¬ a.contribMirrored r then a.notMirrored round else a
        match a.tround round with
        | none => a
        | some r =>
          let without := if n = 0 then (List.range r.set.aggs).filter (a.ringExcluded round s0)
            else (r.without ++ (r.skips.filter fun e => e.2 = r.attempt).map (·.1)).eraseDups
          let r : TRound := { r with attempt := n, started := true, stopped := r.skips.any fun e => e.2 = n, step := 0
                                     without := without, inbox := [], acc := [], sums := [] }
          let p := a.id % max r.set.row 1
          let own : TRound := if r.out then r else { r with
            acc := (List.range r.set.keys).foldl (fun acc k => acc.set (accKey p k) (some (a.contribBlock r k))) []
            sums := (List.range r.set.row).foldl (fun m j => m.set (256 * p + j) (1, r.dies, memberH a.id)) [] }
          let a := a.onRound round fun _ => own
          let a := if ¬ own.stopped ∧ (own.shape a.id).alive a.id ∧ 0 < (own.shape a.id).steps then a.sendStep own else a
          a.ringGo round)

/-- CHUNK (R261, R266). -/
def execChunk (f : RedFrame) (s : State) : Host.Outcome State Fault Refusal :=
  .next (s.onAgg fun a =>
    if f.reserved then a.tlyViol
    else match a.tround f.round with
      | none => a.tlyStale
      | some r =>
        let h := r.shape a.id
        if ¬ r.ring ∨ ¬ r.started ∨ f.attempt ≠ r.attempt ∨ f.keyset ≠ r.keyset ∨ f.setDigest ≠ h.digest then a.tlyStale
        else
          match r.chunkOf (h.due f.group) f with
          | none => a.tlyViol
          | some (_, f) =>
            let keys := f.blocks.map (·.key)
            if f.nkeys ≠ f.blocks.length ∨ f.blocks.any (fun b => b.oct ≠ r.set.oct b.key) ∨ f.blocks.any (·.badIdentity) then a.tlyViol
            else if r.stopped ∨ f.group < r.step ∨ r.inbox.any (fun x => x.group = f.group && x.src = f.src &&
                x.actFor = f.actFor && x.blocks.map (·.key) == keys) then a
            else (a.onRound f.round fun r => { r with inbox := r.inbox ++ [f] }).ringGo f.round)

/-- The skips of a member with one more of a round: of one round, the earliest SEND_NS counts (R262). -/
def AggTally.withSkip (t : AggTally) (member sendNs round : Nat) : AggTally :=
  let same (e : Nat × Nat × Nat) : Bool := e.1 == member && e.2.2 == round
  let ns := (t.excluded.find? same).elim sendNs fun e => min e.2.1 sendNs
  { t with excluded := t.excluded.filter (fun e => !same e) ++ [(member, ns, round)] }

/-- Hold a SKIP (R261, R262): the attempt it names stops, and the member it names is excluded. -/
def Agg.holdSkip (a : Agg) (n : RingNote) : Agg :=
  let a := (a.count TALLY_ERR_COUNT_SKIPS).onTly (·.withSkip n.member n.sendNs n.head.round)
  a.onRound n.head.round fun r =>
    let r : TRound := { r with skips := (r.skips ++ [(n.member, n.head.attempt)]).eraseDups }
    if r.attempt = n.head.attempt then { r with stopped := true } else r

/-- STEP_DEADLINE (R261): a chunk due has not come, and SKIP names the member due to send it. In safe state none leaves
(R401). -/
def execStepDeadline (round : Nat) (s : State) : Host.Outcome State Fault Refusal :=
  .next (s.onAgg fun a =>
    match a.tround round with
    | none => a
    | some r =>
      let h := r.shape a.id
      if a.safe ∨ ¬ r.ring ∨ ¬ r.started ∨ r.stopped ∨ ¬ h.alive a.id then a
      else
        let a : Agg := { a with
          p := a.p.until (a.attemptNs r r.attempt + (r.step + 1) * a.cfg TALLY_TIMING2_STEP_NS) }
        let late := (h.due r.step).filter fun d => (r.arrived d).isNone
        (late.map (·.2.1)).eraseDups.foldl (fun a id =>
          let n : RingNote := { head := a.noteFrame r, member := id, sendNs := a.p.nowNs }
          ((a.ringNotice n.skipBytes).event TALLY_EVENT_SKIP_SENT).holdSkip n) a)

/-- SKIP (R261, R262, R266): a member that finds itself named sends JOIN and nothing more for the round. -/
def execSkip (n : RingNote) (s : State) : Host.Outcome State Fault Refusal :=
  .next (s.onAgg fun a =>
    if n.head.reserved ∨ a.tly.set.aggs ≤ n.member then a.tlyViol
    else
      let a := a.holdSkip n
      if n.member = a.id then ((a.leaveOut n.head.round).event TALLY_EVENT_SKIPPED_SELF).sendJoin else a)

/-- JOIN (R262, R266). -/
def execJoin (n : RingNote) (s : State) : Host.Outcome State Fault Refusal :=
  .next (s.onAgg fun a =>
    if n.head.reserved ∨ a.tly.set.aggs ≤ n.head.src then a.tlyViol
    else a.onTly (·.withJoin n.head.src n.fromRound))

/-- Commit a round as FAILED, without blocks (R261, R263). -/
def Agg.failRound (a : Agg) (r : TRound) : Agg :=
  let e := if r.ring then (r.shape a.id).expect else (r.count.elim 0 (·.1), r.count.elim 0 (·.2.2))
  (a.commitResult r { groups := [], bad := 0, blocks := [], expected := e.1, expHash := e.2, failed := true }).event
    TALLY_EVENT_ROUND_FAILED

/-- ROUND_FAILED (R261, R263): every attempt has failed, or the close of round k + 4 has come. -/
def execRoundFailed (round : Nat) (s : State) : Host.Outcome State Fault Refusal :=
  .next (s.onAgg fun a =>
    match a.tround round with
    | none => a
    | some r =>
      if r.ring ∧ r.started ∧ r.stopped ∧ r.set.attempts ≤ r.attempt + 1 then a.failRound r
      else
        let a : Agg := { a with p := a.p.until (r.closeNs + 4 * a.roundNs) }
        a.failRound r)

/-! ### Both modes -/

/-- OBS_CLOSE (R251 to R253, R263): at close + OBS_US of a round, once a round. A round that was not committed by the
close of the fourth round after it fails. -/
def execObsClose (round : Nat) (s : State) : Host.Outcome State Fault Refusal :=
  .next (s.onAgg fun a =>
    let again : Bool := match a.tly.closed with
      | some c => !laterRound round c
      | none => false
    if ¬ a.cfgOn TALLY_CFG_EN ∨ ¬ a.p.timed ∨ again then a
    else
      let close := a.roundClose round
      let old := a.tly.rounds.filter fun r => decide (r.closeNs + 4 * a.roundNs ≤ close)
      (old.foldl Agg.failRound a).obsClose round)

/-- SCHEDULED_LAUNCH (R51, R253, R404): the next pending launch of a port leaves at its instant. -/
def execScheduledLaunch (port : Fin 12) (s : State) : Host.Outcome State Fault Refusal :=
  .next (s.onAgg fun a =>
    match a.nextLaunch port with
    | none => a
    | some l =>
      if a.p.timed then
        let a : Agg := { a with p := a.p.until l.ns, fab := { a.fab with launches := a.fab.launches.erase l } }
        match l.kind with
        | .frames fs => if a.fabUp port ∧ ¬ a.safe then fs.foldl (fun a o => a.launchOut port o) a else a
        | .count k => a.launchCount k port
        | .data k => a.launchData k port
      else a)

/-- What rounds from the first one on have been posted already, under new settings: a key of another scope or no longer
active loses its posts, one of another OCT is counted again (R241). -/
def AggTally.repost (t : AggTally) (first : Nat) (y : TlySet) : AggTally :=
  let open_ (round key : Nat) : Bool :=
    laterRound first round || (decide (key < y.keys) && y.scope key == (t.setOf round).scope key)
  let round (e : Nat) : Nat := e / 16 / 65536
  let key (e : Nat) : Nat := e / 16 % 65536
  { t with
    posts := t.posts.filter fun e => open_ e.1 e.2.1
    local_ := (t.local_.filter fun e => open_ (round e.1) (key e.1)).map fun e =>
      if laterRound first (round e.1) then e
      else (e.1, e.2.map fun b => if b.oct = y.oct b.key then b else b.recount (y.oct b.key)
        ((t.posts.filter fun x => x.1 = round e.1 && x.2.1 = b.key && x.2.2.1 = e.1 % 16).map (·.2.2.2))) }

/-- The settings that wait take effect from a round on (R241, R259, R262, R268): rounds before it keep theirs,
once there is a fleet time to count rounds by. -/
def Agg.tlyActivate (a : Agg) (first : Nat) : Agg :=
  let was := a.tly.set.mode
  let keys := a.cfg TALLY_CFG_KEYS
  let y : TlySet := {
    mode := a.cfg TALLY_CFG_MODE, keys := keys, aggs := a.cfg TALLY_RING_CFG_AGGS, row := a.cfg TALLY_RING_CFG_ROW
    attempts := a.cfg TALLY_RING_CFG_ATTEMPTS
    keyTab := (List.range keys).foldl (fun (t : Tab (Nat × Nat)) k =>
      t.set k (a.cfg (TALLY_KEY_CFG_OCT k), a.cfg (TALLY_KEY_CFG_SCOPE k))) [] }
  let enters := was ≠ 1 ∧ y.mode = 1
  let a := a.onTly fun t => { t.repost first y with
    set := y, prev := if a.p.timed then (first, t.set) :: t.prev else [], waitRound := none
    excluded := if enters then [] else t.excluded, joined := if enters then [] else t.joined }
  let a := a.put TALLY_STATUS_MODE y.mode
  if enters then a.sendJoin else if y.mode ≠ 1 then a.onTly fun t => { t with joinDue := false } else a

/-- TALLY_ACTIVATION (R241, R259, R262): the round named by TALLY_ACT begins, which takes a fleet time to count rounds by. -/
def execTallyActivation (s : State) : Host.Outcome State Fault Refusal :=
  .next (s.onAgg fun a =>
    match a.tly.waitRound with
    | none => a
    | some k =>
      if ¬ a.p.timed then a else
      let a : Agg := { a with p := a.p.until (a.roundClose k - a.roundNs) }
      a.tlyActivate k)

end Sys2Proof.Machine
end

