-- ==== Sys2Proof/Machine/Apply.lean ====
section
/-! DEFINITION. Staged banks and COMMIT (R483 to R485): the request with its copy and checks, and the tick boundary at which
the copy becomes live, with what each block does about a changed setting. -/

namespace Sys2Proof.Machine

/-! ### Both parts -/

/-- The tick set of a copy that became live (R49): ACT_SEC 0 applies it at once, else it waits for its instant and replaces
a change that waits; fields equal to the former live values leave everything as it is. -/
def Part.tickApply (p : Part) (now was : Nat × Nat × Nat) : Part :=
  if now = was then p
  else if now.2.2 = 0 then { p with tick := { p.tick with us := now.1, ticks := now.2.1, wait := none } }
  else { p with tick := { p.tick with wait := some (now.1, now.2.1, now.2.2 * 1000000000) } }

/-- The copy of the whole staged bank waits for the next tick boundary. -/
def Part.takeCopy (p : Part) : Part := { p with copy := some p.staged, copyNs := p.boundaryNs }

/-- The copy becomes live, all at one instant. -/
def Part.goLive (p : Part) (c : Store) : Part := { p with live := c, copy := none }

/-- The boundary of the pending copy has been latched, or no tick exists. -/
def Part.copyDue (p : Part) : Bool := !p.timed || p.tick.lastNs.any fun t => decide (p.copyNs ≤ t)

/-! ### The aggregator: what blocks do about changed settings -/

/-- STACKS, OUT and SIZE_GIB follow the stack mapped out (R208). -/
def Agg.stackShow (a : Agg) : Agg :=
  let out := a.outUnder a.p.live
  ((a.put SHED_STATUS_STACKS (if out < 6 then 5 else 6)).put SHED_STATUS_OUT (if out < 6 then out else 7)).put
    SHED_STATUS_SIZE_GIB (shedGib out)

/-- Entries of the ring table whose fields changed begin empty; their numbering goes on. -/
def Agg.ringsChanged (a : Agg) (old : Store) : Agg :=
  (a.p.live.idxsAt 0x40048 ++ old.idxsAt 0x40048).eraseDups.foldl (fun a i =>
    if i < 65534 ∧ changed a.p.live old [SHED_RING_CFG_BASE_4K i, SHED_RING_CFG_SIZE_4K i, SHED_RING_CFG_EN i] then
      let a := (a.rxRingGone i).onRing i fun g => { g with
        recs := [], reserved := [], waits := [], archSeq := g.writeSeq
        gone := g.gone ++ (g.recs.filter fun q => !q.mirrored).map (·.seq)
        cursors := g.cursors.map fun e => (e.1, e.2.map fun _ => g.writeSeq) }
      (a.onShed fun x => { x with tail := x.tail.filter fun t => t.ring ≠ i }).tailAdvance
    else a) a

/-- Mirroring begins again from the oldest record held in each PRIMARY ring and in the journal (R225). -/
def Agg.mirrorRestart (a : Agg) : Agg :=
  let owes (q : RingRec) : Bool := q.mirror && !q.localOnly
  let rings := (a.shed.ring.filter fun e => e.2.mode = 1 ∨ e.1 = ringJournal).map Prod.fst
  let entry (r : Nat) (q : RingRec) : TailEnt :=
    let place := a.ringPlace r
    { addr := place.1 + (if place.2 = 0 then 0 else q.off % place.2), ring := r, seq := q.seq, len := 40 + q.len }
  let again := (rings.map fun r => ((a.ring r).recs.filter fun q => owes q && q.acked).map (entry r)).flatten
  let a := rings.foldl (fun a r => a.onRing r fun g => { g with
    recs := g.recs.map fun q => if owes q then { q with acked := false, mirrored := false } else q }) a
  let l := again ++ a.shed.tail.filter fun t => !t.acked
  l.foldl Agg.tailAppend (a.onShed fun x => { x with tail := [] })

/-- A mirror source that the COMMIT removed: its session and its stream-table entries go (R222). -/
def Agg.sourceGone (a : Agg) (src : Nat) : Agg :=
  if a.isSource src then a
  else
    let locs := a.ing.table.filterMap fun e => if e.2.any fun t => t.copySrc = some src then some e.1 else none
    (locs.foldl (fun a l => a.stPut l none) a).onSrc src fun _ => {}

/-- The mirror session after an applied COMMIT (R217, R225), and marks of classes that may no longer be marked (R223). -/
def Agg.mirrorChanged (a : Agg) (old : Store) : Agg :=
  let a := if changed a.p.live old [SHED_MIR_CFG_PARTNER] then a.mirrorRestart else a
  let session := changed a.p.live old [SHED_MIR_CFG_EN, SHED_MIR_CFG_PARTNER, SHED_MIR_CFG_PARTNER_TAG, SHED_MIR_CFG_OWN_TAG]
  let st := a.mirState
  let a := if st ≠ 5 ∧ (session ∨ st = 4) then
      a.put SHED_MIR_STATUS_STATE (if a.cfgOn SHED_MIR_CFG_EN then 1 else 0)
    else a
  let gone := (if old.on SHED_MIR_SRC_SRC0_EN then [old.get SHED_MIR_SRC_SRC0] else []) ++
    (if old.on SHED_MIR_SRC_SRC1_EN then [old.get SHED_MIR_SRC_SRC1] else [])
  let a := gone.foldl Agg.sourceGone a
  (a.shed.marked.filter fun c => a.loRank c = 0).foldl (fun a c => a.loMark c false) a

/-- A change of MODE, KEYS, the key table or the ring takes effect from the next round to close with IMMEDIATE, else at the
round that TALLY_ACT names (R259, R268), also where the COMMIT comes before there is a fleet time. -/
def Agg.tallyApply (a : Agg) (old : Store) : Agg :=
  let table := (a.p.live.idxsAt 0x50058 ++ old.idxsAt 0x50058).any fun k =>
    changed a.p.live old [TALLY_KEY_CFG_OCT k, TALLY_KEY_CFG_SCOPE k]
  let shape := changed a.p.live old [TALLY_CFG_MODE, TALLY_CFG_KEYS, TALLY_RING_CFG_AGGS, TALLY_RING_CFG_ROW,
    TALLY_RING_CFG_ATTEMPTS]
  let act := changed a.p.live old [TALLY_ACT_ROUND, TALLY_ACT_IMMEDIATE] && a.tly.waitRound.isSome
  if table ∨ shape ∨ act then
    if a.cfgOn TALLY_ACT_IMMEDIATE then a.tlyActivate a.roundNow
    else a.onTly fun t => { t with waitRound := some (a.cfg TALLY_ACT_ROUND) }
  else a

/-- A paddock's program changes: the image is taken, and with another PROG_CRC its dies start COLD (R276, R285). -/
def Agg.progChanged (a : Agg) (old : Store) (p : Nat) : Agg :=
  if changed a.p.live old [DET_PAD_PROG_ADDR_4K p, DET_PAD_PROG_EN p, DET_PAD_PROG_PROG_CRC p] then
    let l := if a.cfgOn (DET_PAD_PROG_EN p) then a.progImage (a.cfg (DET_PAD_PROG_ADDR_4K p) * 4096) else []
    let a := a.onDet fun d => { d with prog := d.prog.set p l }
    if changed a.p.live old [DET_PAD_PROG_PROG_CRC p] then
      (List.range 16).foldl (fun a s =>
        if (a.dieOfSlot s).isSome ∧ a.paddockOf s = p then
          let a := a.onShed fun x => { x with fetches := x.fetches.filter fun f => f.use ≠ .drift s }
          (a.onSlot s fun d => { d with jobs := d.jobs.filter fun j => !j.2 }).goCold s
        else a) a
    else a
  else a

/-- A die's home cluster is named anew (R302). -/
def Agg.homeChanged (a : Agg) (old : Store) (s : Nat) : Agg :=
  if changed a.p.live old [DET_DIE_CFG_HOME s] then
    a.onSlot s fun d => { d with home := none, unhomed := false, copying := false }
  else a

/-- A die whose home cluster is out of service, by the repair log or since, moves (R430). -/
def Agg.homeCheck (a : Agg) (s : Nat) : Agg :=
  let c := a.homeOf s
  if a.reg (FLT_DRV_CLUSTER_STATE c) = 3 then a.rehome s c else a

/-- Programs, homes, and the clusters that a higher CLUSTER_MIN retires (R430). -/
def Agg.detApply (a : Agg) (old : Store) : Agg :=
  let a := (List.range 64).foldl (fun a p => a.progChanged old p) a
  let a := (List.range 16).foldl (fun a s => a.homeChanged old s) a
  let a := if changed a.p.live old [FLT_CFG2_CLUSTER_MIN] then (List.range 32).foldl Agg.clusterMin a else a
  (List.range 16).foldl Agg.homeCheck a

/-- A COMMIT is accepted (R483): its copy waits, and the slots of the Hedge engine that it names begin their loads, and
these their journal entries, at once (R317, R319). -/
def Agg.takeCopy (a : Agg) : Agg :=
  let c := a.p.staged
  (List.range 16).foldl (fun a m =>
    if a.hdgNamed c m then
      a.hdgCommit m (c.get (HDG_SLOT_PKG_ADDR_4K m)) (c.get (HDG_SLOT_PKG_PKG_CRC m)) (c.get (HDG_SLOT_ACT_ACT_TICK m))
        (c.on (HDG_SLOT_PKG_EN m))
    else a) { a with p := a.p.takeCopy }

/-- A profile table from its live words (R330). -/
def profTable (live : Store) : Tab Nat :=
  (profListed live []).foldl (fun (t : Tab Nat) i => t.set i (profWord live i)) []

/-- A profile table that changes keeps the previous one until no tile needs it (R336). -/
def Agg.profApply (a : Agg) (old : Store) : Agg :=
  if profChanged a.p.live old then
    let ns := a.p.nowNs
    (a.onVrf fun v => { v with prof := profTable a.p.live, profPrev := some (v.prof, ns) }).put VRF_STATUS_PREV_TABLE 1
  else a

/-- The Verifier: profiles, and which arrays serve (R336, R354). -/
def Agg.vrfApply (a : Agg) (old : Store) : Agg :=
  let a := a.profApply old
  if changed a.p.live old [VRF_CFG_EN, VRF_CFG_ARR_EN] then ((List.range 8).foldl Agg.arrPermit a).vrfShow.vrfSettle else a

/-- A port's calendar changes from its next cycle on (R403). -/
def Agg.calApply (a : Agg) (old : Store) (p : Nat) : Agg :=
  if calOf a.p.live p = calOf old p then a
  else
    let was : Calendar := match a.fab.calOld.get p with
      | some c => if a.p.nowNs < c.untilNs then c else calOf old p
      | none => calOf old p
    let len := if was.cycle = 0 then a.cfg (FAB_CAL_CFG_CYCLE_NS p) else was.cycle
    let ns := if a.p.timed ∧ len ≠ 0 then ceilDiv a.p.nowNs len * len else 0
    a.onFab fun f => { f with calOld := f.calOld.set p (some { was with untilNs := ns }) }

/-- A shaper that changes keeps its settings up to the next refill (R406). -/
def Agg.shpApply (a : Agg) (old : Store) (d : Nat) : Agg :=
  if changed a.p.live old [FAB_SHP_RATE_MBPS d, FAB_SHP_BURST_KIB d, FAB_SHP_LEN_OVH d] ∧ a.fab.shpOld.get d = none then
    let was := (old.get (FAB_SHP_RATE_MBPS d), old.get (FAB_SHP_BURST_KIB d), old.get (FAB_SHP_LEN_OVH d))
    a.onFab fun f => { f with shpOld := f.shpOld.set d (some was) }
  else a

/-- A meter that changes has both buckets full (R407). -/
def Agg.mtrApply (a : Agg) (old : Store) (m : Nat) : Agg :=
  if changed a.p.live old [FAB_MTR_CIR_MBPS m, FAB_MTR_PIR_MBPS m, FAB_MTR_CBS_KIB m, FAB_MTR_PBS_KIB m] then
    a.onFab fun f => { f with meter := f.meter.set m none }
  else a

/-- A fabric port that is disabled, or whose mode changes, goes down (R388). -/
def Agg.fabPortApply (a : Agg) (old : Store) (p : Nat) : Agg :=
  if ¬ a.cfgOn (FAB_PORT_CFG_EN p) ∨ changed a.p.live old [FAB_PORT_CFG_MODE p] then a.fabPortDown p else a

/-- The fabric. -/
def Agg.fabApply (a : Agg) (old : Store) : Agg :=
  let a := (List.range 12).foldl (fun a p => (a.calApply old p).fabPortApply old p) a
  let a := (List.range 64).foldl (fun a d => a.shpApply old d) a
  let a := ((List.range 60).foldl (fun a m => a.mtrApply old m) a).reoffer
  if changed a.p.live old [PTP_CFG_DOMAIN, PTP_CFG_SDO_ID, PTP_CFG_PORT_EN] then ptpSelect a else a

/-- A die port that is disabled goes OFF; one that is enabled begins to train (R146). -/
def Agg.portApply (a : Agg) (p : Nat) : Agg :=
  if ¬ a.cfgOn (DP_CFG_EN p) ∧ a.linkState p ≠ 0 then a.linkEnd p true
  else a.portStart p

/-- A die port has left OFF once one is enabled with the image live (R210). -/
def Agg.portsNote (a : Agg) : Agg :=
  if (List.range 16).any a.portEnabled then { a with conf := { a.conf with portsLeft := true } } else a

/-- The tick settings of a store. -/
def tickOfStore (c : Store) : Nat × Nat × Nat :=
  (c.get TICK_CFG_TICK_US, c.get TICK_CFG_ROUND_TICKS, c.get TICK_ACT_SEC_ACT_SEC)

/-- A sweep of another period starts anew at a multiple of it (R183). -/
def Agg.sweepApply (a : Agg) (old : Store) : Agg :=
  if changed a.p.live old [ING_CFG_SWEEP_MS] then a.onIng fun i => { i with sweepLoc := 0, sweepFrom := none } else a

/-- What the blocks do once a copy is live in place of `old`. -/
def Agg.blocksApply (a : Agg) (old : Store) : Agg :=
  let a : Agg := { a with p := a.p.tickApply (tickOfStore a.p.live) (tickOfStore old) }
  let a := ((a.stackShow.ringsChanged old).sweepApply old).mirrorChanged old
  let a := a.poolShow
  let a := (a.tallyApply old).detApply old
  let a := (a.vrfApply old).fabApply old
  ((List.range 16).foldl (fun a p => a.portApply p) a).portsNote

/-- COMMIT_APPLY at the aggregator (R483). -/
def Agg.applyCopy (a : Agg) : Agg :=
  match a.p.copy with
  | none => a
  | some c =>
    let old := a.p.live
    let a : Agg := { a with p := a.p.goLive c }
    let a := ((a.put CFG_COMMIT_STATUS_PENDING 0).put CFG_COMMIT_STATUS_REASON 0).put CFG_COMMIT_STATUS_OFFSET 0
    (a.put CFG_COMMIT_STATUS_TICK (a.p.lastTick % 2 ^ 32)).blocksApply old

/-- A COMMIT is refused: reason, offset and COMMIT_REFUSED (R483, R485). -/
def Agg.commitRefuse (a : Agg) (b : Breach) : Agg :=
  ((a.put CFG_COMMIT_STATUS_REASON b.2).put CFG_COMMIT_STATUS_OFFSET (b.1 / 8)).event CFG_EVENT_COMMIT_REFUSED

/-- A write of CFG_COMMIT with GO (R483, R484). -/
def Agg.commit (a : Agg) : Agg :=
  if a.p.copy.isSome then a.commitRefuse (0, rsnBusy)
  else if a.reg PWR_STATUS_FLUSH = 2 ∨ a.reg PWR_STATUS_FLUSH = 3 then a.commitRefuse (0, rsnState)
  else
    match firstBreach (a.breaches a.p.staged) with
    | some b => (a.refusalEvents a.p.staged).commitRefuse b
    | none =>
      let a := a.takeCopy.put CFG_COMMIT_STATUS_PENDING 1
      if a.p.timed then a else a.applyCopy

/-- CFG_COMMIT (R483). -/
def execCfgCommit (s : State) : Host.Outcome State Fault Refusal := .next (s.onAgg Agg.commit)

/-! ### The Uligo -/

/-- The tick settings of a store of the Uligo. -/
def ulgTickOfStore (c : Store) : Nat × Nat × Nat :=
  (c.get ULG_TICK_CFG_TICK_US, c.get ULG_TICK_CFG_ROUND_TICKS, c.get ULG_TICK_ACT_SEC_ACT_SEC)

/-- The epoch settings of a copy that became live (R131). -/
def Ulg.epochApply (u : Ulg) (old : Store) : Ulg :=
  let ms := u.cfg ULG_EPOCH_CFG_EPOCH_MS
  let act := u.cfg ULG_EPOCH_ACT_SEC_ACT_SEC
  if ¬ changed u.p.live old [ULG_EPOCH_CFG_EPOCH_MS, ULG_EPOCH_ACT_SEC_ACT_SEC] then u
  else if act = 0 then ({ u with ep := { u.ep with ms := ms, wait := none, lastNs := some u.p.nowNs } }).stampOut
  else { u with ep := { u.ep with wait := some (ms, act * 1000000000) } }

/-- A host fault input whose EN cleared has no level (R421). -/
def Ulg.hfltApply (u : Ulg) (old : Store) : Ulg :=
  (old.idxsAt 0xA48).foldl (fun u n => if u.cfgOn (ULG_HFLT_CFG_EN n) then u else u.put (ULG_HFLT_STATE_LEVEL n) 0) u

/-- The responses of a COMMIT that was pending go to their ports (R155, R485). -/
def Ulg.commitRespond (u : Ulg) (x : Nat) : Ulg :=
  ((u.link.port.get x).running.filter fun r => r.2 = 4).foldl (fun u r =>
    u.respond x { opcode := 4, status := 0, seq := r.1, arg := 0, data := [] } true) u

/-- A port of the Uligo that is disabled goes OFF once the responses that it holds have left; one that is enabled begins
to train (R146, R170). -/
def Ulg.portApply (u : Ulg) (x : Nat) : Ulg :=
  let f := if x = 0 then ULG_LINK_CFG_EN_A else ULG_LINK_CFG_EN_B
  let waits := u.respWaits x
  if u.cfgOn f then (u.onPort x fun q => { q with closing := false }).portStart x
  else if u.linkState x = 0 then u
  else if waits then u.onPort x fun q => { q with closing := true }
  else u.linkEnd x true

/-- What the Uligo does once a copy is live in place of `old` (R49, R71, R87, R105, R131). -/
def Ulg.blocksApply (u : Ulg) (old : Store) : Ulg :=
  let u : Ulg := { u with p := u.p.tickApply (ulgTickOfStore u.p.live) (ulgTickOfStore old) }
  let u := u.epochApply old
  let u := if changed u.p.live old [ULG_CNT_CFG_CLUSTERS, ULG_CNT_CFG_UNCORE_BUSES] then
      u.onCnt fun c => { c.trim (u.cfg ULG_CNT_CFG_CLUSTERS) (u.cfg ULG_CNT_CFG_UNCORE_BUSES) with fullAll := true }
    else u
  let u := if changed u.p.live old [ULG_TRC_AUTH_PRIV_OK, ULG_TRC_AUTH_SECURE_OK, ULG_TRC_AUTH_EXPIRY] then
      u.onTrc fun t => { t with expired := false }
    else u
  let u := u.hfltApply old
  let u := (u.commitRespond 0).commitRespond 1
  (u.portApply 0).portApply 1

/-- COMMIT_APPLY at the Uligo (R483). -/
def Ulg.applyCopy (u : Ulg) : Ulg :=
  match u.p.copy with
  | none => u
  | some c =>
    let old := u.p.live
    let u : Ulg := { u with p := u.p.goLive c }
    let u := ((u.put ULG_COMMIT_STATUS_PENDING 0).put ULG_COMMIT_STATUS_REASON 0).put ULG_COMMIT_STATUS_OFFSET 0
    (u.put ULG_COMMIT_STATUS_TICK (u.p.lastTick % 2 ^ 32)).blocksApply old

/-- A COMMIT at the Uligo is refused: `ULG_COMMIT_STATUS` and the response's ARG say why (R485). -/
def Ulg.commitRefuse (u : Ulg) (b : Breach) : CmdResult :=
  ((u.put ULG_COMMIT_STATUS_REASON b.2).put ULG_COMMIT_STATUS_OFFSET b.1, some (0, b.2 + b.1 * 2 ^ 16, []))

/-- A COMMIT command runs (R483): it is refused at once, or answered when its copy is live. -/
def Ulg.commitRun (u : Ulg) : CmdResult :=
  if u.p.copy.isSome then u.commitRefuse (0, rsnBusy)
  else
    match firstBreach (u.breaches u.p.staged) with
    | some b => (u.refusalEvents u.p.staged).commitRefuse b
    | none => (({ u with p := u.p.takeCopy } : Ulg).put ULG_COMMIT_STATUS_PENDING 1, none)

/-- COMMIT (R153, R155, R483): without a tick the copy is live at once. -/
def execCommit (x : Fin 2) (c : Cmd) (s : State) : Host.Outcome State Fault Refusal :=
  .next (s.onUlg fun u =>
    let u := u.command x 0x04 c Ulg.commitRun
    if u.p.timed then u else u.applyCopy)

/-- COMMIT_APPLY (R483): the boundary of the pending copy has come. -/
def execCommitApply (part : PartSel) (s : State) : Host.Outcome State Fault Refusal :=
  .next (s.onPart part (fun a => if a.p.copyDue then a.applyCopy else a) (fun u => if u.p.copyDue then u.applyCopy else u))

end Sys2Proof.Machine
end

