-- ==== Sys2Proof/Machine/Image.lean ====
section
/-! DEFINITION. The configuration image (R475 to R479), the loader from VALIDATE on (R480), adoption (R482), and the writing of
image slots (R477, R495). -/

namespace Sys2Proof.Machine

/-! ### Reading an image (R475, R476) -/

/-- Bytes of an image slot: what the flash does not list reads 0xFF (log entry 10). -/
def imgBytes (b : List Byte) (off n : Nat) : List Byte :=
  let l := (b.drop off).take n
  l ++ List.replicate (n - l.length) 0xFF

/-- A little-endian number of an image. -/
def imgNum (b : List Byte) (off n : Nat) : Nat := leNat (imgBytes b off n)

/-- Largest image, in bytes. -/
def imgMax : Nat := 31 * 2 ^ 20

/-- A section-table entry. -/
structure ImgSect where
  type : Nat
  off : Nat
  len : Nat
  crc : Nat
  deriving DecidableEq, Repr

/-- The section table. -/
def imgSections (b : List Byte) : List ImgSect :=
  (List.range (imgNum b 16 2)).map fun i =>
    let o := 128 + 16 * i
    { type := imgNum b o 2, off := imgNum b (o + 4) 4, len := imgNum b (o + 8) 4, crc := imgNum b (o + 12) 4 }

/-- The bytes of a section. -/
def ImgSect.bytes (x : ImgSect) (b : List Byte) : List Byte := imgBytes b x.off x.len

/-- The bodies of the sections of a type, in table order. -/
def imgBodies (b : List Byte) (t : Nat) : List (List Byte) :=
  ((imgSections b).filter fun x => x.type = t).map fun x => x.bytes b

/-- A list cut into whole pieces of `n` bytes. -/
def entriesOf (n : Nat) (l : List Byte) : List (List Byte) :=
  (List.range (l.length / n)).map fun i => (l.drop (n * i)).take n

/-- The entries of all sections of a type. -/
def imgEntries (b : List Byte) (t n : Nat) : List (List Byte) := ((imgBodies b t).map (entriesOf n)).flatten

/-- A DIES entry. -/
def readDie (l : List Byte) : DieBind :=
  let d := leAt l 0 4
  { fleetDie := if bitAt d 31 then none else some (d % 2 ^ 17), role := leAt l 4 1, port := leAt l 5 1, uid := leAt l 8 8 }

/-- A STATIC entry. -/
def readStatic (l : List Byte) : StaticEnt := {
  uid := leAt l 0 8, cls := leAt l 8 1, port := leAt l 9 1, paddock := leAt l 10 1, fleetDie := leAt l 12 4 % 2 ^ 17
  ring := leAt l 16 2 }

/-- The aggregators whose bits are set in the fleet list. -/
def readMembers (l : List Byte) : List Nat :=
  ((List.range l.length).map fun i =>
    let v := leAt l i 1
    ((List.range 8).filter (bitAt v)).map (8 * i + ·)).flatten

/-- The image that bytes spell (R475, R476). -/
def readImage (b : List Byte) : Image :=
  let ident := (imgBodies b 1).headD []
  { gen := imgNum b 8 4
    aggId := imgNum b 18 2 % 2 ^ 14
    keyId := imgNum b 20 4
    len := imgNum b 12 4
    ownTag := leAt ident 0 2
    fleetAggs := leAt ident 8 4
    dies := (imgEntries b 2 16).map readDie
    members := ((imgBodies b 3).map readMembers).flatten
    registers := (imgEntries b 4 16).map fun l => (leAt l 0 4, leAt l 8 8)
    uligo := (imgEntries b 5 16).map fun l => { off := leAt l 0 4 % 2 ^ 16, slots := leAt l 4 2, value := leAt l 8 8 }
    static := (imgEntries b 6 24).map readStatic
    profiles := (imgEntries b 7 32).map leNat
    shedLoad := (imgBodies b 8).map fun l => (leAt l 0 8, l.drop 8)
    traceAuth := (imgEntries b 9 8).map leNat }

/-! ### Validation (R478, R479) -/

/-- The header is as R475 settles it; of SIG_OFF only what the header itself shows, since no section is read before the
signature has passed. -/
def headerGood (b : List Byte) : Bool :=
  let n := imgNum b 16 2
  let sig := imgNum b 44 4
  let len := imgNum b 12 4
  imgNum b 4 2 == 1 && imgNum b 124 4 == crc32c (imgBytes b 0 124) && imgNum b 40 4 == 128 && decide (len ≤ imgMax) &&
    decide (3 ≤ n) && decide (n ≤ 256) && sig % 8 == 0 && decide (128 + 16 * n ≤ sig) && len == sig + 96

/-- The sections (check 6): CRCs, places and types. -/
def sectionsGood (b : List Byte) : Bool :=
  let t := imgSections b
  let sig := imgNum b 44 4
  let count (k : Nat) : Nat := (t.filter fun x => x.type = k).length
  (t.all fun x => decide (1 ≤ x.type) && decide (x.type ≤ 10) && decide (128 + 16 * t.length ≤ x.off) &&
    decide (x.off + x.len ≤ sig)) &&
    !somePair (fun x y => overlaps (x.off, x.len) (y.off, y.len)) t &&
    ([1, 2, 3, 10].all fun k => count k == 1) && count 4 != 0 && ([6, 7, 9].all fun k => decide (count k ≤ 1)) &&
    t.all fun x => x.crc == crc32c (x.bytes b)

/-- A ULIGO entry names an RW or RWS register other than the three that only the push writes (R479). -/
def uligoNames (off : Nat) : Bool :=
  writableAt regMapUlg off && off != ULG_TRC_AUTH_PRIV_OK.off && off != ULG_CFG_ID_UCFG_ID.off &&
    off != ULG_CFG_DIE_FLEET_DIE.off

/-- Registers after the entries of an image have been written in order. -/
def Part.wordsWrite (p : Part) (map : List RegDesc) (l : List (Nat × Nat)) : Part :=
  l.foldl (fun p e => p.wordWrite map e.1 e.2) p

/-- The contents (check 7). The Model region is the one that the image's own entries lay out. -/
def Agg.contentGood (a : Agg) (im : Image) : Bool :=
  let c := (({} : Part).wordsWrite regMapAgg im.registers).staged
  let dies := im.dies.filter fun d => d.fleetDie.isSome
  (im.registers.all fun e => writableAt regMapAgg e.1) && (im.uligo.all fun e => uligoNames e.off) &&
    (im.shedLoad.all fun e => within (regionsOf c (a.outUnder c) 8) e.1 e.2.length) &&
    !somePair (fun x y => x.fleetDie == y.fleetDie || x.uid == y.uid) dies

/-- The check code of an image (R478): 0 valid, else the first check that fails. `k` is the outcome of checks 4 and 5 where
an image has a KEY section and a key slot. -/
def Agg.imageCode (a : Agg) (b : List Byte) (k : SigCheck) : Nat :=
  if imgNum b 0 4 ≠ 0x47584932 then 1
  else if ¬ headerGood b then 2
  else if imgNum b 18 2 % 2 ≠ a.reg CFG_STATUS_TWIN_SEL then 3
  else if 3 < imgNum b 20 4 ∨ k = .key ∨ ¬ (imgSections b).any fun x => x.type == 10 then 4
  else if k = .signature then 5
  else if ¬ sectionsGood b then 6
  else if ¬ a.contentGood (readImage b) then 7
  else 0

/-! ### The loader (R480) -/

/-- Start-up data changed. -/
def Agg.onConf (a : Agg) (f : AggCfg → AggCfg) : Agg := { a with conf := f a.conf }

/-- The bytes of an image slot. -/
def Agg.slotImage (a : Agg) (k : Nat) : List Byte := a.conf.flash.img.get k

/-- The check code of a slot. -/
def cfgCode (k : Nat) : Field := if k = 0 then CFG_IMG_INFO_CODE0 else CFG_IMG_INFO_CODE1

/-- The generation of a slot. -/
def cfgGen (k : Nat) : Field := if k = 0 then CFG_IMG_INFO_GEN0 else CFG_IMG_INFO_GEN1

/-- The event of a slot that fails. -/
def cfgBad (k : Nat) : Field := if k = 0 then CFG_EVENT_SLOT0_BAD else CFG_EVENT_SLOT1_BAD

/-- The loader enters HELD with a REASON (R480, R481). -/
def Agg.loaderHeld (a : Agg) (reason : Nat) : Agg :=
  ((a.put CFG_STATUS_STATE 5).put CFG_STATUS_REASON reason).event CFG_EVENT_HELD

/-- A slot's code is recorded, with its generation once the header has passed. -/
def Agg.slotCode (a : Agg) (k code : Nat) : Agg :=
  let a := a.put (cfgCode k) code
  let a := if code = 1 ∨ code = 2 then a else a.put (cfgGen k) (imgNum (a.slotImage k) 8 4 % 2 ^ 24)
  if code = 0 then a else a.event (cfgBad k)

/-- The valid slot with the later GEN; with equal generations slot 0 (R479). -/
def Agg.slotChosen (a : Agg) : Option Nat :=
  match a.reg CFG_IMG_INFO_CODE0 == 0, a.reg CFG_IMG_INFO_CODE1 == 0 with
  | true, true => some (if laterRound (imgNum (a.slotImage 1) 8 4) (imgNum (a.slotImage 0) 8 4) then 1 else 0)
  | true, false => some 0
  | false, true => some 1
  | false, false => none

/-- VALIDATE_DONE (R478, R479). -/
def execValidateDone (k0 k1 : SigCheck) (s : State) : Host.Outcome State Fault Refusal :=
  .next (s.onAgg fun a =>
    if a.reg CFG_STATUS_STATE = 2 then
      let a := (a.slotCode 0 (a.imageCode (a.slotImage 0) k0)).slotCode 1 (a.imageCode (a.slotImage 1) k1)
      match a.slotChosen with
      | some k => (a.put CFG_STATUS_STATE 3).onConf fun c => { c with tried := [k] }
      | none => a.loaderHeld 2
    else a)

/-- A static entry of the image takes its place in the stream table (R182); none without one. -/
def Agg.staticPut (a : Agg) (e : StaticEnt) : Option Agg :=
  let t : StEntry := {
    uid := e.uid, cls := e.cls, static := true, port := e.port, fleetDie := e.fleetDie, paddock := e.paddock, ring := e.ring }
  match a.stFind e.uid e.cls with
  | some (loc, _) => some (a.stPut loc (some t))
  | none => (a.stFree e.uid e.cls).map fun loc => a.stPut loc (some t)

/-- Every static entry. -/
def Agg.staticsPut (a : Agg) (l : List StaticEnt) : Option Agg := l.foldl (fun a e => a.bind (·.staticPut e)) (some a)

/-- The profile records of the image are staged (R330, R476). -/
def Part.profilesStage (p : Part) (l : List Nat) : Part :=
  let one (c : Store) (i v : Nat) : Store :=
    (List.range 4).foldl (fun c k => c.set (VRF_PROF_DATA_BYTES i k) (v / 2 ^ (64 * k) % 2 ^ 64)) c
  { p with staged := l.zipIdx.foldl (fun c e => one c e.2 e.1) p.staged }

/-- Step 5 of R471: register entries into the staged banks, profiles, identity, and Shed sections placed. -/
def Agg.imageWrite (a : Agg) (im : Image) : Agg :=
  let a : Agg := { a with p := (a.p.wordsWrite regMapAgg im.registers).profilesStage im.profiles, img := im }
  let a := a.put CFG_STATUS_AGG_ID im.aggId
  im.shedLoad.foldl (fun a e => a.shedWrite e.1 e.2) a

/-- Steps 6 and 7 of R471: the copy is live at once, the loader in RUN; every die takes its configured role (R160), die
ports leave OFF, PTP ports listen (R54) and slot ownership begins. -/
def Agg.imageRun (a : Agg) (im : Image) (live : Nat) : Agg :=
  let a := ((a.put CFG_STATUS_STATE 4).put CFG_STATUS_REASON 0).put CFG_IMG_INFO_LIVE live
  let a := ptpSelect a.takeCopy.applyCopy
  im.dies.zipIdx.foldl (fun a d =>
    match d.1.fleetDie with
    | none => a
    | some die =>
      let rings := (im.static.filter fun e => e.fleetDie = die && a.keptOnStandby e.cls).map (·.ring)
      rings.foldl (fun a r => a.ringServe r d.2) (a.holdDie d.2 d.1.port d.1.role)) a

/-- What COMMIT says of an image: the aggregator in RUN, or the breach (R479, R483). -/
def Agg.imageTry (a : Agg) (im : Image) (live : Nat) : Agg ⊕ Breach :=
  let b := a.imageWrite im
  match b.staticsPut im.static with
  | none => .inr (0, rsnSpace)
  | some b =>
    match firstBreach (b.breaches b.p.staged) with
    | some r => .inr r
    | none => .inl (b.imageRun im live)

/-- IMAGE_COMMIT (R479, R480): the chosen slot runs; on refusal every register is restored and the other slot is tried if it
passed, else the loader is HELD. -/
def execImageCommit (s : State) : Host.Outcome State Fault Refusal :=
  .next (s.onAgg fun a =>
    match a.reg CFG_STATUS_STATE, a.conf.tried with
    | 3, k :: t =>
      match a.imageTry (readImage (a.slotImage k)) k with
      | .inl a => a.onConf fun c => { c with tried := [] }
      | .inr b =>
        let a := (a.commitRefuse b).slotCode k 8
        let o := 1 - k
        if t = [] ∧ a.reg (cfgCode o) = 0 then a.onConf fun c => { c with tried := [o, k] }
        else (a.onConf fun c => { c with tried := [] }).loaderHeld 3
    | _, _ => a)

/-! ### Flash operations (R477, R495) -/

/-- An operation of the flash begins. -/
def Agg.flashBegin (a : Agg) (op slot : Nat) (b : List Byte) : Agg :=
  let a := a.onConf fun c => { c with flashOp := some (op, slot, b) }
  ((a.put CFG_FLASH_STATUS_BUSY 1).put CFG_FLASH_STATUS_DONE 0).put CFG_FLASH_STATUS_OK 0

/-- A write of `CFG_FLASH_CTRL` (R495): the live slot is refused; one during an operation is ignored. -/
def Agg.flashCtrl (a : Agg) (op slot len : Nat) : Agg :=
  if ¬ (op = 1 ∨ op = 2) ∨ a.bit CFG_FLASH_STATUS_BUSY then a
  else if a.reg CFG_IMG_INFO_LIVE = slot then a.event CFG_EVENT_PROG_FAIL
  else a.flashBegin op slot (if op = 2 then a.shedRead 0 (min len imgMax) else [])

/-- FLASH_ERASE. -/
def execFlashErase (slot : Fin 2) (s : State) : Host.Outcome State Fault Refusal := .next (s.onAgg fun a => a.flashCtrl 1 slot 0)

/-- FLASH_PROGRAM: the first `len` bytes of the adoption buffer. -/
def execFlashProgram (slot : Fin 2) (len : Nat) (s : State) : Host.Outcome State Fault Refusal :=
  .next (s.onAgg fun a => a.flashCtrl 2 slot len)

/-- The slot after an operation: with a read-back that matches, erased or holding what was programmed; else its former
length holds free values (log entry 7). -/
def Agg.flashResult (a : Agg) (op slot : Nat) (b : List Byte) (ok : Bool) : Agg :=
  let old := a.slotImage slot
  let set (a : Agg) (l : List Byte) : Agg := a.onFlash fun f => { f with img := f.img.set slot l }
  if ok then set a (if op = 1 then [] else b ++ old.drop b.length)
  else
    let (v, p) := a.p.draw
    (set { a with p := p } (leBytes (max old.length b.length) v)).event CFG_EVENT_PROG_FAIL

/-- FLASH_DONE (R495). -/
def execFlashDone (ok : Bool) (s : State) : Host.Outcome State Fault Refusal :=
  .next (s.onAgg fun a =>
    match a.conf.flashOp with
    | none => a
    | some (op, slot, b) =>
      let a := (a.flashResult op slot b ok).onConf fun c => { c with flashOp := none }
      ((a.put CFG_FLASH_STATUS_BUSY 0).put CFG_FLASH_STATUS_DONE 1).put CFG_FLASH_STATUS_OK (if ok then 1 else 0))

/-! ### Adoption (R482) -/

/-- The slot that an adopted image is written to: the one that failed with the lower code, or slot 1 when both failed
equally. -/
def Agg.adoptSlot (a : Agg) : Nat := if a.reg CFG_IMG_INFO_CODE0 < a.reg CFG_IMG_INFO_CODE1 then 0 else 1

/-- Adoption ends in HELD with a code. -/
def Agg.adoptFail (a : Agg) (code : Nat) : Agg := ((a.put CFG_ADOPT_CODE code).put CFG_ADOPT_GO 0).put CFG_STATUS_STATE 5

/-- A write of `CFG_ADOPT` with GO (R480, R482): outside HELD it is ignored but for `ADOPT_REFUSED`, and so is one with LEN
above 31 MiB; else the image passes checks 2 to 7, check 1 acting as check 2, and is applied, and with WRITE it is
programmed (not while another flash operation runs, R495). -/
def Agg.adopt (a : Agg) (write : Bool) (len : Nat) (k : SigCheck) : Agg :=
  if a.reg CFG_STATUS_STATE ≠ 5 ∨ imgMax < len then a.event CFG_EVENT_ADOPT_REFUSED
  else
    let a := ((a.put CFG_ADOPT_GO 1).put CFG_ADOPT_WRITE (if write then 1 else 0)).put CFG_ADOPT_LEN len
    let b := a.shedRead 0 len
    let code := max (a.imageCode b k) (if a.imageCode b k = 0 then 0 else 2)
    if code ≠ 0 then a.adoptFail code
    else
      match a.imageTry (readImage b) 2 with
      | .inr r => ((a.commitRefuse r).adoptFail 8).put CFG_STATUS_REASON 3
      | .inl a =>
        let a := (a.put CFG_ADOPT_CODE 0).put CFG_ADOPT_GO 0
        if write && !a.bit CFG_FLASH_STATUS_BUSY then a.flashBegin 2 a.adoptSlot b else a

/-- ADOPT (R482). -/
def execAdopt (write : Bool) (len : Nat) (k : SigCheck) (s : State) : Host.Outcome State Fault Refusal :=
  .next (s.onAgg fun a => a.adopt write len k)

end Sys2Proof.Machine
end

