-- ==== Sys2Proof/Machine/Startup.lean ====
section
/-! DEFINITION. Reset and start-up (R471 to R474, R503), the SMBus target and the PCIe endpoint (R488, R489), and what the parts
do about temperature (R509). -/

namespace Sys2Proof.Machine

/-! ### Reset (R471, R472, R498, R503) -/

/-- Fields that show the level of a pin, which a reset of the part leaves as it is. -/
def pinFields : List Field :=
  [PWR_STATUS_MAIN_OK, PWR_STATUS_CELL_OK, PWR_STATUS_CELL_MV] ++ (List.range 16).map SLOT_STATUS_EN_SENSE ++
    (List.range 16).map SLOT_STATUS_FLT_SENSE

/-- The part after a reset (R426): every register at its reset value but for those named; a loss of the heartbeat still
shows. -/
def Part.afterReset (p : Part) (keep : List Field) : Part :=
  { regs := keep.foldl (fun r f => r.set f (p.reg f)) [], free := p.free
    col := { monitor := p.col.beatLost, beatLost := p.col.beatLost } }

/-- An image slot whose erasing or programming a reset cuts short holds free values (R477, log entry 7). -/
def Agg.flashCut (a : Agg) : Agg :=
  match a.conf.flashOp with
  | none => a
  | some (_, slot, b) =>
    let (v, p) := a.p.draw
    ({ a with p := p } : Agg).onFlash fun f => { f with
      img := f.img.set slot (leBytes (max (f.img.get slot).length b.length) v) }

/-- The aggregator after `RST_N`: flash and straps stay, everything else is at reset, with a new incarnation from the random
source (R391, log entry 7); the sequence waits for the supplies. -/
def Agg.afterReset (a : Agg) (twinSel ftm supplies : Bool) : Agg :=
  let a := a.flashCut.flushCut
  let (v, p) := (a.p.afterReset pinFields).draw
  let a : Agg := { p := p.put FAB_STATUS_INCARN v, conf := { flash := a.conf.flash, held := !supplies }, sent := a.sent }
  (a.put CFG_STATUS_TWIN_SEL (if twinSel then 1 else 0)).put FLT_STATUS_FTM (if ftm then 1 else 0)

/-- RESET (R471, R498): the straps as sampled, and whether the supplies and `OSC_CLK` are good (R503). -/
def execReset (twinSel ftm supplies : Bool) (s : State) : Host.Outcome State Fault Refusal :=
  .next (s.onAgg fun a => a.afterReset twinSel ftm supplies)

/-- A memory of the Uligo that self-test cannot repair shows in BIST_FAIL and is an uncontained fault (R431, R440). -/
def Ulg.bist (u : Ulg) (fail : Bool) : Ulg :=
  if fail then (u.put ULG_FLT_STATUS_BIST_FAIL 1).collect { source := 0x0A21, cls := 2 } else u

/-- ULIGO_RESET (R472, R513): every register at its reset value, time UNSET, counters at 0; memories are tested and repaired
(R431); the ports, enabled by their reset value, begin to train (R146). -/
def execUligoReset (ftm bistFail : Bool) (s : State) : Host.Outcome State Fault Refusal :=
  .next (s.onUlg fun u =>
    let v : Ulg := { p := u.p.afterReset [], uid := u.uid, sent := u.sent }
    (((v.put ULG_FLT_STATUS_FTM (if ftm then 1 else 0)).bist bistFail).portStart 0).portStart 1)

/-- SUPPLIES_UP (R503): the reset sequence starts. -/
def execSuppliesUp (s : State) : Host.Outcome State Fault Refusal :=
  .next (s.onAgg fun a => a.onConf fun c => { c with held := false })

/-! ### The repair log at a start (R435) -/

/-- What an entry of the repair log says of its unit. -/
def Agg.repairApply (a : Agg) (e : List Byte) : Agg :=
  let unit := leAt e 8 4
  let place := leAt e 12 4
  match leAt e 0 1 with
  | 1 => if unit < 6 then a.onFlt fun x => { x with stackOut := some unit } else a
  | 2 =>
    if unit < 8 then
      let k := place / 512 % 8
      let f := if k < 4 then VRF_ARR_SPARE_LO_SPARE unit k else VRF_ARR_SPARE_HI_SPARE unit (k - 4)
      let n := if bitAt (a.reg f) 15 then 0 else 1
      ((a.put f (2 ^ 15 + place % 512)).put (VRF_ARR_STATUS_SPARES_USED unit)
        (a.reg (VRF_ARR_STATUS_SPARES_USED unit) + n)).put (VRF_ARR_STATUS_MHZ unit) 1850
    else a
  | 3 => if unit < 8 then a.put (VRF_ARR_STATUS_STATE unit) 2 else a
  | 4 =>
    let c := unit / 33
    let core := unit % 33
    if 32 ≤ c ∨ (a.det.lost.get c).contains core then a else a.coreLost c core
  | 5 => if unit < 32 then a.put (FLT_DRV_CLUSTER_STATE unit) 3 else a
  | 6 => a.onFlt fun x => { x with rows := x.rows.upd unit fun n => max n (place / 2 ^ 20 % 16 + 1) }
  | 7 =>
    if unit < 2 then
      let a := a.put (pairField unit) 3
      let o := 1 - unit
      if a.reg (pairField o) = 1 then (a.put (pairField o) 0).put FLT_PAIR_STATUS_ACTIVE o else a
    else a
  | 8 => a.onFlt fun x => { x with aged := if x.aged.contains unit then x.aged else x.aged ++ [unit] }
  | _ => a

/-- The entries of the live sector that are not revoked, in order. -/
def Agg.repairsApply (a : Agg) : Agg :=
  let l := a.rprLive.elim [] fun k => (a.rprSector k).kept
  ((l.foldl Agg.repairApply a).stackShow.rprShow).put FLT_RPR_STATUS_VALID (if a.rprLive.isSome then 1 else 0)

/-- The record of the last flush is read (R456): SEALED or CUT is raised. -/
def Agg.flushRead (a : Agg) : Agg :=
  match a.flushResult with
  | (a, some sealed_) => a.event (if sealed_ then PWR_EVENT_SEALED else PWR_EVENT_CUT)
  | (a, none) => a

/-- DISCOVER_START (R471, R480): with the collector in RUN, the repair log and the flush record are read, and drover cores that
failed their self-test are retired (R429); the loader enters DISCOVER once a control pair is ACTIVE. -/
def execDiscoverStart (failed : List (Fin 32 × Fin 33)) (s : State) : Host.Outcome State Fault Refusal :=
  .next (s.onAgg fun a =>
    if a.reg CFG_STATUS_STATE = 0 ∧ ¬ a.conf.held ∧ ¬ a.safe then
      let b := a.repairsApply
      if b.reg (pairField 0) = 0 ∨ b.reg (pairField 1) = 0 then
        (failed.foldl (fun a e => a.coreRetired e.1 e.2) b).flushRead.put CFG_STATUS_STATE 1
      else a
    else a)

/-- The flash meets R474. -/
def Sfdp.good (d : Sfdp) : Bool := d.valid && decide (512 ≤ d.mbit) && d.erase4k && d.erase64k && d.addr4

/-- SFDP_DONE (R474, R480). -/
def execSfdpDone (d : Sfdp) (s : State) : Host.Outcome State Fault Refusal :=
  .next (s.onAgg fun a =>
    if a.reg CFG_STATUS_STATE = 1 then
      if Sfdp.good d then a.put CFG_STATUS_STATE 2 else a.loaderHeld 1
    else a)

/-! ### SMBus (R489) -/

/-- SMB_STATUS: loader, collector, servo and flush states, the hottest junction in °C (a measurement, log entry 7), and
reserved bytes. -/
def execSmbStatus (s : State) : Host.Outcome State Fault Refusal :=
  .next (s.onAgg fun a =>
    let (t, p) := a.p.draw
    let l := [a.reg CFG_STATUS_STATE, a.fltStateRead, a.p.servo.state, a.reg PWR_STATUS_FLUSH, t % 256]
    ({ a with p := p } : Agg).send (.smbus ((l.map (leBytes 1)).flatten ++ zeros 11)))

/-- SMB_IMAGE: live slot, GEN of the live image, and the codes of both slots. -/
def execSmbImage (s : State) : Host.Outcome State Fault Refusal :=
  .next (s.onAgg fun a =>
    a.send (.smbus (leBytes 1 (a.reg CFG_IMG_INFO_LIVE) ++ leBytes 4 a.img.gen ++
      leBytes 1 (a.reg CFG_IMG_INFO_CODE0) ++ leBytes 1 (a.reg CFG_IMG_INFO_CODE1) ++ zeros 1)))

/-- SMB_FIRST_ERROR: `FLT_FIRST_SRC`, `FLT_FIRST_ADDR` and `FLT_FIRST_TIME`. -/
def execSmbFirstError (s : State) : Host.Outcome State Fault Refusal :=
  .next (s.onAgg fun a =>
    a.send (.smbus (([FLT_FIRST_SRC_SOURCE.off, FLT_FIRST_ADDR_ADDR.off, FLT_FIRST_TIME_NS.off].map fun o =>
      leBytes 8 ((a.regWord o).getD 0)).flatten)))

/-- SMB_ENTER_SAFE: with key 0xA5 as `FLT_CTRL`.ENTER_SAFE; another key is answered NACK. -/
def execSmbEnterSafe (key : Byte) (s : State) : Host.Outcome State Fault Refusal :=
  .next (s.onAgg fun a => if key = 0xA5 then a.toSafe a.safeTarget else a.send .smbusNack)

/-- SMB_RESET: with key 0x5A the aggregator is reset as `RST_N` does, straps as they were sampled; another key is answered
NACK. -/
def execSmbReset (key : Byte) (s : State) : Host.Outcome State Fault Refusal :=
  .next (s.onAgg fun a =>
    if key = 0x5A then a.afterReset (a.bit CFG_STATUS_TWIN_SEL) (a.bit FLT_STATUS_FTM) true else a.send .smbusNack)

/-! ### PCIe (R488) -/

/-- FUNCTION_LEVEL_RESET, or `PERST_N`: the endpoint, its MSI-X state and the aperture base. -/
def execFunctionLevelReset (s : State) : Host.Outcome State Fault Refusal :=
  .next (s.onAgg fun a => (a.put CFG_APERTURE_BASE_4G 0).onConf fun c => { c with msix := [] })

/-- PCIE_UE: fault source 0x0D0A of class contained. -/
def execPcieUe (s : State) : Host.Outcome State Fault Refusal := .next (s.onAgg fun a => a.event CFG_EVENT_PCIE_UE)

/-! ### Temperature (R509) -/

/-- The clock of an array without a thermal limit (R325), MHz. -/
def Agg.arrTop (a : Agg) (x : Nat) : Nat := if a.reg (VRF_ARR_STATUS_SPARES_USED x) = 0 then 1900 else 1850

/-- One step of an array's clock: 100 MHz down to 1,000, or up to its top. -/
def Agg.arrStep (a : Agg) (x : Nat) (down : Bool) : Agg :=
  let mhz := a.reg (VRF_ARR_STATUS_MHZ x)
  a.put (VRF_ARR_STATUS_MHZ x) (if down then max 1000 (mhz - 100) else min (a.arrTop x) (mhz + 100))

/-- THERMAL_CLOCK_STEP: from 105 °C on the arrays of the compute die go down until its hottest junction reads 102 °C or less,
then up again; a step follows the last one by 1 ms. -/
def execThermalClockStep (die : Fin 2) (hottest : Int) (s : State) : Host.Outcome State Fault Refusal :=
  .next (s.onAgg fun a =>
    let cool : Bool := if a.vrf.cooling.get die then decide (102 < hottest) else decide (105 ≤ hottest)
    let a : Agg := match a.vrf.stepNs.get die with
      | some t => { a with p := a.p.until (t + 1000000) }
      | none => a
    let l := (List.range 4).map (4 * die.val + ·)
    let a := l.foldl (fun a x => a.arrStep x cool) a
    let busy : Bool := cool || l.any fun x => a.reg (VRF_ARR_STATUS_MHZ x) != a.arrTop x
    let ns := if busy then some a.p.nowNs else none
    a.onVrf fun v => { v with cooling := v.cooling.set die cool, stepNs := v.stepNs.set die ns })

/-- HBM_THROTTLE (R202): at 95 °C or above the stack's controller counts as throttled; below it, not. -/
def execHbmThrottle (stack : Fin 6) (celsius : Int) (s : State) : Host.Outcome State Fault Refusal :=
  .next (s.onAgg fun a => a.onShed fun x =>
    let rest := x.throttled.filter (· ≠ stack.val)
    { x with throttled := if 95 ≤ celsius then rest ++ [stack.val] else rest })

end Sys2Proof.Machine
end

