-- ==== Sys2Proof/Machine/Successor.lean ====
section
/-! DEFINITION. The successor (R238): what an answer that lists another aggregator's BEGUN operations leads to, kind by kind
(R252, R295, R301, R319, R383, R463, R487); with it the commands that ask and answer (R235 to R237), the mirror ACK (R220)
and the end of a FETCH (R222). What the spec does not say of a rerun stands in log entry 90. -/

namespace Sys2Proof.Machine

/-! ### Kinds -/

/-- The class and REC_TYPE of the record that an operation of a KIND delivers: a verdict or a case (KIND 8 and up, R377), or a
Fleece record. -/
def Agg.rerunRecord (a : Agg) (j : JrnRec) : Nat × Nat :=
  if j.kind = 6 then (a.cfg SE_CFG_SE_CLASS, 0xC)
  else if 8 ≤ j.arg / 2 ^ 64 % 256 then (a.cfg SE_CFG_SE_CLASS, 0xA)
  else (a.cfg DET_RUN_CFG_VERDICT_CLASS, 6)

/-- The former primary's record of an operation is fetched from its mirror partner (R222). -/
def Agg.rerunFetch (a : Agg) (op : Nat) : Agg :=
  let j := a.jrnOfOp op
  let ident := j.arg % 2 ^ 64
  a.fetchAsk (.rerun op) a.twinPartner (j.die.getD noDie) (a.rerunRecord j).1 ident ident

/-- A verdict or case from its record (R292, R377) and the ARG of its delivery (R295). -/
def copiedVerdict (arg op nowNs : Nat) (l : List Byte) : HeldVerdict :=
  let case_ := leAt l 0 1 == 0xA
  { ident := arg % 2 ^ 64, kind := arg / 2 ^ 64 % 256, paddock := arg / 2 ^ 72 % 256, sev := leAt l 21 1
    prime := if case_ then 0 else leAt l 22 1, cleared := !case_ && bitAt (leAt l 2 2) 0
    program := if case_ then 0xFFFF else leAt l 48 2, rule := if case_ then 0 else leAt l 50 2
    causes := if case_ then 0 else leAt l 52 4
    obs := if case_ then leAt l 72 4 else signed 64 (leAt l 64 8)
    ref := if case_ then leAt l 76 4 else signed 64 (leAt l 72 8)
    ntype := if case_ then 5 else 1, seq := arg / 2 ^ 96 % 2 ^ 32, commitNs := nowNs, op := some op, copied := true }

/-- Free bytes in place of a record that no holder has any more (log entry 90). -/
def Agg.freeBytes (a : Agg) : Nat → Agg × List Byte
  | 0 => (a, [])
  | n + 1 =>
    let d := a.p.draw
    let r := Agg.freeBytes { a with p := d.2 } n
    (r.1, leBytes 8 d.1 ++ r.2)

/-- The record of an operation begun again has been fetched, or its FETCH has ended without it: the operation goes on. -/
def Agg.rerunFetched (a : Agg) (op : Nat) : Agg :=
  let j := a.jrnOfOp op
  let want := a.rerunRecord j
  let mine (l : List Byte) : Bool :=
    let d := readDesc l
    d.die == j.die && d.cls == want.1 && d.type == want.2 && d.ident == j.arg % 2 ^ 64 && trailerGood d.data
  let hit := (a.shed.fetched.find? mine).map (·.drop 40)
  let a := a.onShed fun s => { s with fetched := s.fetched.filter fun l => !mine l }
  match j.die with
  | none => a
  | some die =>
    match a.slotOfDie die with
    | none => a
    | some s =>
      if j.kind = 6 then
        match hit with
        | some l => a.onSE s fun d => { d with fleece := d.fleece ++ [{
            caseSeq := j.arg % 2 ^ 64, kind := leAt l 20 1, body := l, op := some op, copied := true }] }
        | none =>
          let d := a.p.draw
          ({ a with p := d.2 } : Agg).jrnEnd op 0x12 (d.1 % 2 ^ 32)
      else
        let w := match hit with
          | some l => (a, l)
          | none => a.freeBytes 16
        let v := copiedVerdict j.arg op w.1.p.nowNs w.2
        if j.kind = 2 then w.1.hurdleOpen s die op v
        else (w.1.onSlot s fun d => { d with held := d.held ++ [v] }).detShow

/-- A contribution of another aggregator (R252): no frame is sent; DONE with what the round's result shows, or ABANDON without
it. -/
def Agg.rerunContrib (a : Agg) (b : BegunOp) (op : Nat) : Agg :=
  match a.tly.results.find? fun r => r.round = b.arg % 2 ^ 32 with
  | some r => a.jrnEnd op 0x11 (r.outcome b.origAgg)
  | none => a.jrnEnd op 0x12 2

/-- The package of a CRC is held: in a copy of the slot, or in the Model region at an address that a slot is configured with
(R319). -/
def Agg.pkgHeld (a : Agg) (m crc : Nat) : Bool :=
  (a.hdg.slot.get m).copies.any (fun c => c.crc == crc) ||
    (List.range 16).any fun k => (a.pkgAt (a.cfg (HDG_SLOT_PKG_ADDR_4K k) * 4096) crc).isSome

/-- A model swap (R319): to a package already current it changes nothing; one that the slot has under way completes with that;
otherwise it runs when its package is held and ACT_TICK has not latched, and is LATE else. The swap under way is the same one
when its ACT_TICK, as its COMMIT gave it, is the same too; a slot busy with another refuses it (R317). -/
def Agg.rerunSwap (a : Agg) (b : BegunOp) (op : Nat) : Agg :=
  let act := b.arg % 2 ^ 64
  let crc := b.arg / 2 ^ 64 % 2 ^ 32
  let m := b.arg / 2 ^ 96 % 16
  let h := a.hdg.slot.get m
  let st := a.hdgState m
  let late : Agg := (a.jrnEnd op 0x12 2).event HDG_EVENT_SWAP_LATE
  if ¬ a.pkgHeld m crc ∨ (act ≠ 0 ∧ a.tickNs act ≤ a.p.nowNs) then late
  else if h.cur.any fun c => c.crc == crc then a.jrnEnd op 0x11 0
  else if (st = 1 ∨ st = 2) ∧ h.crc = crc ∧ h.asked = act then a.onHdg m fun s => { s with again := s.again ++ [op] }
  else if st = 0 ∨ st = 3 then
    let at_ := ((List.range 16).find? fun k => (a.pkgAt (a.cfg (HDG_SLOT_PKG_ADDR_4K k) * 4096) crc).isSome).getD m
    (a.onHdg m fun s => { s with
      prev := st, actTick := act, asked := act, crc := crc, addr := a.cfg (HDG_SLOT_PKG_ADDR_4K at_) * 4096, op := some op
      emptyAt := none }).hdgEnter m 1
  else a.jrnEnd op 0x12 1

/-- An operation whose own BEGIN is written runs again (R238). Taints and clears are delivered again by their commands, and a
tile is opened again by its own, under this BEGIN. -/
def Agg.rerunAct (a : Agg) (b : BegunOp) (op : Nat) : Agg :=
  let onSlotOf (f : Agg → Nat → Nat → Agg) : Agg :=
    match b.die with
    | some die => match a.slotOfDie die with
      | some s => f a s die
      | none => a
    | none => a
  match b.kind with
  | 1 => a.rerunFetch op
  | 2 => a.rerunFetch op
  | 3 => onSlotOf fun a s die => a.epochsAgain s die
  | 4 => onSlotOf fun a s die => a.epochsAgain s die
  | 5 => a.rerunContrib b op
  | 6 => a.rerunFetch op
  | 8 => a.slotAct (b.arg % 256) (b.arg / 256 % 256) op
  | 9 => a.rerunSwap b op
  | 0xA => onSlotOf fun a s die => a.rplNext s die
  | _ => a

/-- A BEGUN operation of a fenced aggregator: BEGIN with REPLAYED and the original, then the operation again; once only, and
once the journal takes it. A push is begun by its own rule (R487). -/
def Agg.rerun (a : Agg) (b : BegunOp) : Agg :=
  if b.kind = 0 ∨ b.kind = 7 ∨ 0xA < b.kind ∨ (a.rerunOf b).isSome ∨ ¬ a.jrnReady then a
  else
    let r := a.jrnBegin b.kind b.die b.arg (some (b.origAgg, b.origOp))
    r.1.rerunAct b r.2

/-- Every operation that is still to be begun again. -/
def Agg.reruns (a : Agg) : Agg := (a.shed.left.filter fun e => e.2).foldl (fun a e => a.rerun e.1) a

/-! ### Answers (R237, R238) -/

/-- The epoch records read back of every die slot that is followed are settled by what has been answered. -/
def Agg.epochsSettle (a : Agg) : Agg :=
  (List.range 16).foldl (fun a s => match a.dieOfSlot s with
    | some die => if a.reg (SE_DIE_STATUS_STATE s) = 0 then a else (a.epochsAgain s die).epochBegins s die
    | none => a) a

/-- The BEGUN operations of a subject, as an answer in MODE 1 lists them, are taken, and those it shows `ended`; those of a
fenced subject are run again. -/
def Agg.successor (a : Agg) (q : JQuery) (result : Nat) (l ended : List BegunOp) : Agg :=
  if q.mode ≠ 1 ∨ result ≠ 0 ∨ q.subject = a.id then a
  else
    let fresh := l.filter fun b => !a.shed.left.any fun e =>
      e.1.origAgg == b.origAgg && e.1.origOp == b.origOp && (e.2 || !q.fence)
    let whole : Bool := q.fence && decide (l.length < q.count)
    let a := a.onShed fun s => { s with
      left := (s.left.filter fun e => !fresh.contains e.1) ++ fresh.map fun b => (b, q.fence)
      ended := s.ended ++ ended.filter fun b => !s.ended.contains b
      leftOf := if whole then q.subject :: s.leftOf.filter (· ≠ q.subject) else s.leftOf }
    let pushes := if q.fence then fresh.filter (·.kind == 7) else []
    (pushes.foldl (fun a b => (b.die.bind a.slotOfDie).elim a fun s => a.pushCause s 5) a.reruns).epochsSettle

/-- JANSWER (R235, R237, R238): a RESULT that R219 reserves is refused (R15). -/
def execJanswer (m : JAnswerMsg) (s : State) : Host.Outcome State Fault Refusal :=
  .next (s.onAgg fun a =>
    if ¬ m.head.taken ∨ 3 < m.result then a.mirReserved
    else
      let a := a.openTake m
      match a.shed.query with
      | some q =>
        if q.qid = m.qid then
          ((a.jqShow q.mode m).onShed fun s => { s with query := none }).successor q m.result
            (m.begins.filter fun b => m.codes.contains b.op) (m.begins.filter fun b => !m.codes.contains b.op)
        else a
      | none => a)

/-- The BEGIN of an operation in a journal that this aggregator holds. -/
def begunOf (l : List JrnRec) (op : Nat) : Option BegunOp :=
  (l.find? fun j => j.op = op && j.type == 0x10).map fun j =>
    { op := op, kind := j.kind, origAgg := j.origAgg, origOp := j.origOp, die := j.die, arg := j.arg }

/-- A write of `SHED_JQ_CTRL` with GO (R240): a COUNT above the register's limit is refused; the aggregator's own ID as
TARGET asks its local journal and copies. -/
def Agg.jqGo (a : Agg) (v : Nat) : Agg :=
  let count := v / 8 % 2 ^ 11
  let q : JQuery := {
    count := count, qid := a.shed.nextQid, mode := v / 4 % 2, sentNs := a.p.nowNs, subject := v / 2 ^ 16 % 2 ^ 14, fence := v / 2 % 2 == 1 }
  let target := v / 2 ^ 32 % 2 ^ 14
  let first := a.reg SHED_JQ_FIRST_OP
  if v % 2 = 0 then a
  else if (if q.mode = 0 then 1024 else 32) < count then
    ((a.put SHED_JQ_STATUS_DONE 1).put SHED_JQ_STATUS_RESULT 3).put SHED_JQ_STATUS_N 0
  else if target = a.id then
    let a := if q.fence then a.fence q.subject else a
    let m := a.jrnAnswer 0 q.mode q.subject first count
    let l := (a.jrnOf q.subject).getD []
    ((a.jqShow q.mode m).onShed fun s => { s with query := none }).successor q m.result
      (if q.mode = 1 then m.codes.filterMap (begunOf l) else [])
      ((l.filter fun j => j.type == 0x10 && 2 ≤ jrnCode l j.op).filterMap fun j => begunOf l j.op)
  else
    let a := (a.put SHED_JQ_STATUS_DONE 0).onShed fun s => { s with
      query := some q, nextQid := (s.nextQid + 1) % 2 ^ 32 }
    a.mirSend target (.jquery {
      src := a.id, qid := q.qid, mode := q.mode, subject := q.subject, firstOp := first, count := count
      fence := q.fence })

/-- JQ_GO (R237, R240). -/
def execJqGo (value : Word) (s : State) : Host.Outcome State Fault Refusal := .next (s.onWrite fun a => a.jqGo value.toNat)

/-! ### The journal opens (R235) -/

/-- What waited for the journal begins: the reruns and the held pushes. -/
def Agg.journalTakes (a : Agg) : Agg := a.reruns.pushesRetry

/-- JOURNAL_OPEN (R235). -/
def execJournalOpen (s : State) : Host.Outcome State Fault Refusal :=
  .next (s.onAgg fun a =>
    if a.openDue then
      match a.shed.covered with
      | some c => ((a.put SHED_JRN_STATUS_OPEN 1).put SHED_JRN_NEXT_OP (max (c + 1) (a.p.nowSec * 2 ^ 24))).journalTakes
      | none => if a.shed.openQuery = none then a.openAsk else a
    else a)

/-! ### MIRROR_ACK, FETCH_END -/

/-- MIRROR_ACK (R220): the mirror cursor advances, and what waited for its BEGIN to be mirrored takes effect (R234). Only the
partner acknowledges (R214). -/
def execMirrorAck (src ring ackSeq : Nat) (h : MirHead) (s : State) : Host.Outcome State Fault Refusal :=
  .next (s.onAgg fun a =>
    if ¬ h.taken then a.mirReserved else if src ≠ a.partner then a else (((a.mirAckTake ring ackSeq).slotsBegun).pushesBegun).journalTakes)

/-- A FETCH has been answered (R205, R222, R238, R285, R378). -/
def Agg.fetchDone (a : Agg) (f : FetchAsk) : Agg :=
  match f.use with
  | .repair r seq => a.repairFetched r seq
  | .drift s => (a.driftAnswer s f.die).restoreJobs s
  | .errors s => a.errorsAnswer s f.die
  | .tiles s => a.tilesAnswer s f.die
  | .rerun op => a.rerunFetched op

/-- FETCH_END (R222). -/
def execFetchEnd (qid _count _firstHeld : Nat) (h : MirHead) (s : State) : Host.Outcome State Fault Refusal :=
  .next (s.onAgg fun a =>
    if ¬ h.taken then a.mirReserved
    else match a.shed.fetches.find? fun f => f.qid = qid with
    | none => a
    | some f =>
      (a.onShed fun x => { x with fetches := x.fetches.filter fun g => g.qid ≠ qid }).fetchDone f)

/-! ### A control pair takes over (R428) -/

/-- A delivery again: what no recipient has acknowledged or let go unanswered is sent once more (R298, R375, R428). -/
def Agg.delivAgain (a : Agg) (op : Nat) : Agg :=
  match a.deliv op with
  | none => a
  | some d => if d.host = 0 then a else
      d.toAggs.zipIdx.foldl (fun a t => if t.1.acked ∨ t.1.gaveUp then a else a.sendTo op t.2) a

/-- A push again (R487): its commands are issued once more, and only their answers count. -/
def Agg.pushAgain (a : Agg) (s op : Nat) : Agg :=
  let q := a.conf.push.get s
  if q.op = some op ∧ ¬ q.waiting then
    let p := a.portOfSlot s
    let a := a.onDie p fun d => { d with
      cmds := d.cmds.map fun c => if c.use.ofPush then { c with use := .plain } else c
      heldCmds := d.heldCmds.filter fun c => !c.use.ofPush }
    (a.pushCmds s).foldl (fun a c => a.cmdIssue p c) a
  else a

/-- A slot power change again, from the state that the slot shows (R463); while new requests are held, the one under way goes
on alone (R464). -/
def Agg.slotAgain (a : Agg) (s opc op : Nat) : Agg :=
  if a.slotsHeld then a
  else
    (a.onCh s fun c => { c with ops := c.ops.filter (· ≠ op), waiting := c.waiting.filter (· ≠ op) }).slotAct s opc op

/-- A tile replay again: an OPEN of the same CAPTURE_SEQ, which the die answers with its state (R362, R383). -/
def Agg.rplAgain (a : Agg) (s op : Nat) : Agg :=
  match (a.seDie s).rpl, (a.seDie s).rplCase with
  | some r, some c =>
    if r.op = op ∧ r.phase ≠ 0 then
      a.rplCommand s 1 0 (openWords c.bytes c.source c.core r.runs (a.cfg SE_RPL_CFG_RUN_US))
        (if r.phase = 1 then .replay s else .poll s)
    else a
  | _, _ => a

/-- The new control pair runs an operation that the own journal holds as BEGUN again, under its OP_SEQ (R428). Contributions
and model swaps belong to hardware that does not pause (log entry 89). -/
def Agg.pairRerun (a : Agg) (op : Nat) : Agg :=
  let j := a.jrnOfOp op
  let slot := j.die.bind a.slotOfDie
  match j.kind with
  | 5 => a
  | 7 => slot.elim a fun s => a.pushAgain s op
  | 8 => a.slotAgain (j.arg % 256) (j.arg / 256 % 256) op
  | 9 => a
  | 0xA => slot.elim a fun s => a.rplAgain s op
  | _ => a.delivAgain op

/-- PAIR_SWITCH (R428): the STANDBY pair becomes ACTIVE and runs every operation that is BEGUN again. -/
def execPairSwitch (s : State) : Host.Outcome State Fault Refusal :=
  .next (s.onAgg fun a =>
    if a.flt.switch then
      let a := a.onFlt fun x => { x with switch := false }
      match [0, 1].find? fun k => a.reg (pairField k) = 1 with
      | some k =>
        let a := ((a.put (pairField k) 0).put FLT_PAIR_STATUS_ACTIVE k).put FLT_EVENT_PAIR_SWITCH 1
        a.shed.begun.foldl Agg.pairRerun (a.count FLT_PAIR_STATUS_SWITCHES)
      | none => a
    else a)

end Sys2Proof.Machine
end

