-- ==== Sys2Proof/Machine/Access.lean ====
section
/-! DEFINITION. Access to the parts: register writes with their effects (R16, R54 to R58, R94, R99, R135, R170, R441, R470,
R493), the READ and WRITE commands of Rycon-D (R153, R154), the Uligo proxy and the Shed aperture (R490 to R492), and the
tick latch (R44). -/

namespace Sys2Proof.Machine

/-! ### Meanings run on one part -/

/-- The Uligo after a meaning that acts on it alone. -/
def Ulg.via (u : Ulg) (f : State → Host.Outcome State Fault Refusal) : Ulg :=
  match f { ulg := u } with
  | .next s => s.ulg
  | .fault _ => u
  | .refused _ => u

/-- The aggregator after a meaning that acts on it alone. -/
def Agg.via (a : Agg) (f : State → Host.Outcome State Fault Refusal) : Agg :=
  match f { agg := a } with
  | .next s => s.agg
  | .fault _ => a
  | .refused _ => a

/-- A change made when a bit of a word is 1. -/
def onBit {α : Type} (w k : Nat) (f : α → α) (x : α) : α := if bitAt w k then f x else x

/-! ### Writes to a Uligo register -/

/-- The effect of a write to a control register of the Uligo; `none` for every other register. -/
def Ulg.controlWrite (u : Ulg) (off w : Nat) : Option Ulg :=
  if off = ULG_PACK_CTRL_FULL_NEXT.off then some (onBit w 0 (fun u => u.via execFullNext) u)
  else if off = ULG_RING_UNFREEZE_CORE.off then
    some (u.via (execRingUnfreeze (Fin.ofNat 8192 (ULG_RING_UNFREEZE_CORE.of w)) (bitAt w 16)))
  else if 0x1400 ≤ off ∧ off < 0x1600 then some (u.via (execOvsSlotWrite (Fin.ofNat 64 ((off - 0x1400) / 8)) (BitVec.ofNat 64 w)))
  else if off = ULG_FT_FORCE_CORE.off then
    some (u.via (execFtForce (Fin.ofNat 8192 (ULG_FT_FORCE_CORE.of w)) (ULG_FT_FORCE_KERNEL.of w) (ULG_FT_FORCE_SEQ_LO.of w)))
  else if off = ULG_FLT_ACK_FSEQ.off then some (u.via (execFltAck .ulg (ULG_FLT_ACK_FSEQ.of w)))
  else if off = ULG_FLT_POP_FSEQ.off then some (u.via (execUlgFltPop (ULG_FLT_POP_FSEQ.of w)))
  else if off = ULG_FLT_CTRL_EXIT.off then
    let u := onBit w 2 (fun u => u.via (execClearFirst .ulg)) u
    some (if bitAt w 1 then u.via (execEnterSafe .ulg) else onBit w 0 (fun u => u.via (execExit .ulg)) u)
  else if off = ULG_FLT_INJECT_SOURCE.off then
    some (onBit w 18 (fun u =>
      u.via (execFltInject .ulg (ULG_FLT_INJECT_SOURCE.of w) (Fin.ofNat 4 (ULG_FLT_INJECT_CLASS.of w)))) u)
  else none

/-- What follows a write of fields: VALID of `ULG_TD_FIRST` clears with both flags (R98); trace settings take effect (R108,
R110). Enabling trace again clears WRAPPED and leaves the ring, its write offset and its fill as they are (log entry
129). -/
def Ulg.afterWrite (u was : Ulg) (off : Nat) : Ulg :=
  if off = ULG_CNT_EVENT_TD_BEAT.off ∧ ¬ u.bit ULG_CNT_EVENT_TD_BEAT ∧ ¬ u.bit ULG_CNT_EVENT_TD_SHADOW then
    u.put ULG_TD_FIRST_VALID 0
  else if off = ULG_TRC_CFG_EN.off ∨ off = ULG_TRC_CORE_EN_EN.off then
    let fs := [ULG_TRC_CFG_EN, ULG_TRC_CFG_MODE, ULG_TRC_CFG_STOP_ON_FULL, ULG_TRC_CFG_SYNC_INTERVAL, ULG_TRC_CORE_EN_EN]
    let u := if fs.any fun f => u.reg f != was.reg f then u.traceConfigChanged else u
    if u.bit ULG_TRC_CFG_EN ∧ ¬ was.bit ULG_TRC_CFG_EN then u.put ULG_TRC_RING_PTR_WRAPPED 0 else u
  else u

/-- A write of a word to a Uligo register (R16). -/
def Ulg.writeReg (u : Ulg) (off w : Nat) : Ulg :=
  match u.controlWrite off w with
  | some u => u
  | none => ({ u with p := u.p.wordWrite regMapUlg off w } : Ulg).afterWrite u off

/-- Where a host-port write to a register that accepts only Rycon-D writes is seen (R58, R99, R135, R170, R441, R470,
R493); `none` for a register that takes both. -/
def Ulg.hostRefused (u : Ulg) (off w : Nat) : Option Ulg :=
  let one (f : Field) : Option Ulg := some (u.event f)
  if [0x130, 0x138, 0x140, 0x150, 0x158].contains off then one ULG_TIME_EVENT_HOST_WRITE
  else if [0x200, 0x208].contains off then one ULG_CNT_EVENT_HOST_WRITE
  else if off = 0x410 then one ULG_TRC_EVENT_HOST_WRITE
  else if [0x500, 0x508, 0x528].contains off ∨ (0x580 ≤ off ∧ off ≤ 0x5F8) then one ULG_FT_EVENT_HOST_WRITE
  else if [0x600, 0x608, 0x610].contains off then one ULG_TILE_EVENT_HOST_WRITE
  else if [0x700, 0x708].contains off then one ULG_EPOCH_EVENT_HOST_WRITE
  else if off = 0x880 then some ((u.event (ULG_LINK_EVENT_HOST_WRITE 0)).event (ULG_LINK_EVENT_HOST_WRITE 1))
  else if off = 0xA10 then some { u with p := u.p.wordWrite regMapUlg off w }
  else if 0xA00 ≤ off ∧ off ≤ 0xA98 ∧ off ≠ 0xA40 ∧ off ≠ 0xA70 then some { u with p := u.p.notify { source := 0x0006 } }
  else if [0xB08, 0xC00, 0xC20].contains off then one ULG_PD_EVENT_HOST_WRITE
  else none

/-- A write by the host register port (R94). -/
def Ulg.hostWrite (u : Ulg) (off w : Nat) : Ulg :=
  let o := off % 65536
  if hostReadBad o then u.event ULG_CNT_EVENT_HR_ERR else (u.hostRefused o w).getD (u.writeReg o w)

/-- HOST_WRITE (R58). -/
def execHostWrite (off : Nat) (value : Word) (_mid : Fin 64) (s : State) : Host.Outcome State Fault Refusal :=
  .next (s.onUlg fun u => u.hostWrite off value.toNat)

/-! ### READ and WRITE (R153, R154) -/

/-- The offsets of a run of registers. -/
def Cmd.offsets (c : Cmd) : List Nat := (List.range c.count).map fun i => (c.addr + 8 * i) % 65536

/-- Some offset of the run is unassigned. -/
def badRun (l : List Nat) : Bool := l.any hostReadBad

/-- READ: the registers of the run in ascending order. -/
def Ulg.readRun (u : Ulg) (l : List Nat) : Ulg × List Nat :=
  l.foldl (fun r o => let (u, w) := r.1.readReg none o; (u, r.2 ++ [w])) (u, [])

/-- WRITE: the words of the run in ascending order. -/
def Ulg.writeRun (u : Ulg) (l data : List Nat) : Ulg :=
  l.zipIdx.foldl (fun u e => u.writeReg e.1 (data.getD e.2 0 % 2 ^ 64)) u

/-- READ (R153): nothing is read when any offset of the run is unassigned. -/
def execRead (x : Fin 2) (c : Cmd) (s : State) : Host.Outcome State Fault Refusal :=
  .next (s.onUlg fun u => u.command x 0x01 c fun u =>
    let l := Cmd.offsets c
    if badRun l then (u, some (1, 0, []))
    else
      let (u, w) := u.readRun l
      (u, some (0, 0, w)))

/-- WRITE (R153): nothing is written when any offset of the run is unassigned. -/
def execWrite (x : Fin 2) (c : Cmd) (s : State) : Host.Outcome State Fault Refusal :=
  .next (s.onUlg fun u => u.command x 0x02 c fun u =>
    let l := Cmd.offsets c
    if badRun l then (u, some (1, 0, [])) else (u.writeRun l c.data, some (0, 0, [])))

/-! ### The Uligo proxy (R492) -/

/-- A proxied command goes to the slot's session, when the slot has one. -/
def Agg.proxyIssue (a : Agg) (slot : Nat) (c : OutCmd) : Agg :=
  let p := a.portOfSlot slot
  if p < 16 ∧ 2 ≤ a.reg (DP_STATUS_SESSION p) then a.cmdIssue p c else a

/-- A read in a proxy window. -/
def Agg.proxyRead (a : Agg) (slot off : Nat) (wide : Bool) : Agg :=
  if ¬ wide ∨ off % 8 ≠ 0 then { a.event CFG_EVENT_APERTURE_VIOL with rdata := 0 }
  else if 0xFFF8 ≤ off then { a with rdata := 0 }
  else
    (a.onConf fun c => { c with proxy := c.proxy ++ [(slot, a.p.nowNs)] }).proxyIssue slot
      { opcode := 1, addr := off, count := 1, use := .proxy slot true }

/-- A write in a proxy window: at 0xFFF8 a COMMIT; `ULG_TRC_AUTH` is refused with REFUSED. -/
def Agg.proxyWrite (a : Agg) (slot off w : Nat) (wide : Bool) : Agg :=
  if a.reg CFG_STATUS_STATE = 5 then a
  else if ¬ wide ∨ off % 8 ≠ 0 then a.event CFG_EVENT_APERTURE_VIOL
  else if off = ULG_TRC_AUTH_PRIV_OK.off then a.proxyShow slot 2 0
  else if 0xFFF8 ≤ off then a.proxyIssue slot { opcode := 4, use := .proxy slot false }
  else a.proxyIssue slot (writeCmd (off, [w]) (.proxy slot false))

/-- PROXY_READ (R492). -/
def execProxyRead (slot : Fin 16) (off : Nat) (wide : Bool) (s : State) : Host.Outcome State Fault Refusal :=
  .next (s.onAgg fun a => a.proxyRead slot off wide)

/-- PROXY_WRITE (R492). -/
def execProxyWrite (slot : Fin 16) (off : Nat) (value : Word) (wide : Bool) (s : State) : Host.Outcome State Fault Refusal :=
  .next (s.onAgg fun a => a.proxyWrite slot off value.toNat wide)

/-- PROXY_COMMIT (R492): a write at 0xFFF8. -/
def execProxyCommit (slot : Fin 16) (s : State) : Host.Outcome State Fault Refusal :=
  .next (s.onAgg fun a => a.proxyWrite slot 0xFFF8 0 true)

/-- The oldest outstanding read of a slot no longer waits: only its STATUS will show. -/
def lateRead (slot : Nat) : List OutCmd → List OutCmd
  | [] => []
  | c :: t => if c.use = .proxy slot true then { c with use := .proxy slot false } :: t else c :: lateRead slot t

/-- PROXY_TMO (R492): a read without a response for 1 ms returns all ones. -/
def execProxyTmo (slot : Fin 16) (s : State) : Host.Outcome State Fault Refusal :=
  .next (s.onAgg fun a =>
    match a.conf.proxy.find? fun e => e.1 = slot.val with
    | none => a
    | some e =>
      let a : Agg := { a with p := a.p.until (e.2 + 1000000), rdata := 2 ^ 64 - 1 }
      let a := a.onConf fun c => { c with proxy := c.proxy.erase e }
      let a := a.onDie (a.portOfSlot slot) fun d =>
        if d.cmds.any fun c => c.use == .proxy slot true then { d with cmds := lateRead slot d.cmds }
        else { d with heldCmds := lateRead slot d.heldCmds }
      a.event CFG_EVENT_PROXY_TMO)

/-! ### The Shed aperture (R490) -/

/-- APERTURE_WRITE (R490): in RUN only into the Model region, in HELD only into the adoption buffer, the first 32 MiB of the
Shed (R481). -/
def execApertureWrite (off : Nat) (bytes : List Byte) (s : State) : Host.Outcome State Fault Refusal :=
  .next (s.onAgg fun a =>
    let addr := a.reg CFG_APERTURE_BASE_4G * 2 ^ 32 + off % 2 ^ 32
    let ok : Bool :=
      match a.reg CFG_STATUS_STATE with
      | 4 => a.inRegion 8 addr bytes.length
      | 5 => decide (addr + bytes.length ≤ 32 * 2 ^ 20)
      | _ => false
    if ok then a.shedWrite addr bytes else a.event CFG_EVENT_APERTURE_VIOL)

/-! ### Writes to an aggregator register -/

/-- A command of the slot named in bits 3 to 0 of a word, by the OP in bits 6 to 4. -/
def slotOp (w : Nat) (a : Agg) (ops : List (Nat × (Fin 16 → State → Host.Outcome State Fault Refusal))) : Agg :=
  match assocGet ops (w / 16 % 8) with
  | some f => a.via (f (Fin.ofNat 16 (w % 16)))
  | none => a

/-- A write of `CFG_ADOPT` (R482): with GO it starts adoption, the outcome of checks 4 and 5 being a free value here (log
entry 7); without GO its fields take the word. -/
def Agg.adoptWrite (a : Agg) (w : Nat) : Agg :=
  let write := bitAt w 1
  let len := CFG_ADOPT_LEN.of w
  if bitAt w 0 then
    let (v, p) := a.p.draw
    let k : SigCheck := match v % 3 with | 0 => .good | 1 => .key | _ => .signature
    ({ a with p := p } : Agg).adopt write len k
  else (a.put CFG_ADOPT_WRITE (if write then 1 else 0)).put CFG_ADOPT_LEN len

/-- The effect of a write to a control register of the aggregator; `none` for every other register. -/
def Agg.controlWrite (a : Agg) (off w : Nat) : Option Agg :=
  if off = CFG_COMMIT_GO.off then some (onBit w 0 Agg.commit a)
  else if off = CFG_ADOPT_GO.off then some (a.adoptWrite w)
  else if off = CFG_FLASH_CTRL_OP.off then
    some (a.flashCtrl (CFG_FLASH_CTRL_OP.of w) (CFG_FLASH_CTRL_SLOT.of w) (CFG_FLASH_CTRL_LEN.of w))
  else if off = CFG_UPUSH_SLOT.off then some (a.pushCause (CFG_UPUSH_SLOT.of w) 6)
  else if 0x20028 ≤ off ∧ off < 0x20428 ∧ off % 64 = 0x28 then
    let p : Fin 16 := Fin.ofNat 16 ((off - 0x20028) / 64)
    some (onBit w 1 (fun a => a.claimPort p) (onBit w 0 (fun a => a.releasePort p) a))
  else if off = ING_ST_CMD_OP.off then
    some (match w % 8 with
      | 1 => a.stReadLoc (ING_ST_CMD_LOC.of w)
      | 2 => a.stLookupCmd
      | 3 => a.stInsert
      | 4 => a.stDelete
      | _ => a)
  else if off = SHED_JQ_CTRL_GO.off then some (onBit w 0 (fun a => a.jqGo w) a)
  else if off = SHED_DZ_CTRL_GO.off then some (onBit w 0 Agg.dzGo a)
  else if off = DET_NQ_HEAD_INDEX.off then some (a.nqHead w)
  else if off = DET_HURDLE_CTRL_SLOT.off then
    some (slotOp w a [(1, execHurdleAccept), (2, execHurdleDecline), (3, execHurdleLift)])
  else if 0x80120 ≤ off ∧ off < 0x80320 ∧ off % 64 = 0x20 then
    let x : Fin 8 := Fin.ofNat 8 ((off - 0x80120) / 64)
    some (onBit w 2 (fun a => a.via (execSelftest x)) (onBit w 1 (fun a => a.via (execRetest x))
      (onBit w 0 (fun a => a.via (execRetire x)) a)))
  else if off = SE_DIE_CTRL_SLOT.off then some (slotOp w a [(1, execSeLift), (2, execSeCloseCase)])
  else if off = FLT_ACK_FSEQ.off then some (a.via (execFltAck .agg w))
  else if off = FLT_CTRL_EXIT.off then
    let a := onBit w 2 (fun a => a.via (execClearFirst .agg)) a
    some (if bitAt w 1 then a.via (execEnterSafe .agg) else onBit w 0 (fun a => a.via (execExit .agg)) a)
  else if off = FLT_INJECT_SOURCE.off then
    some (onBit w 18 (fun a =>
      a.via (execFltInject .agg (FLT_INJECT_SOURCE.of w) (Fin.ofNat 4 (FLT_INJECT_CLASS.of w)))) a)
  else if off = FLT_RPR_CTRL_ESEQ.off then some (onBit w 32 (fun a => a.via (execRevoke (FLT_RPR_CTRL_ESEQ.of w))) a)
  else if off = PWR_CTRL_CELL_TEST.off then
    some (onBit w 0 (fun a =>
      let (v, p) := a.p.draw
      ({ a with p := p } : Agg).via (execCellTest v)) a)
  else if off = PWR_DOM_CTRL_DOMAIN.off then some (a.via (execDomainRequest (BitVec.ofNat 64 w)))
  else if off = SLOT_CTRL_SLOT.off then some (slotOp w a [(1, execSlotOn), (2, execSlotOff), (3, execSlotClear)])
  else none

/-- What follows a write of fields: VALID of a first-error register clears with its flags (R199, R240), clearing
ROLE_CONFLICT may make the aggregator the slot's owner (R458), and notices that wait are written once the ring is enabled or
larger (R296). -/
def Agg.afterWrite (a : Agg) (off : Nat) : Agg :=
  if off = ING_EVENT_VIOL.off ∧ ¬ [ING_EVENT_UID_UNBOUND, ING_EVENT_UID_FOREIGN, ING_EVENT_UID_DUP, ING_EVENT_STATIC_MISMATCH,
      ING_EVENT_MISBOUND].any a.bit then a.put ING_UID_TRAP_INFO_VALID 0
  else if off = SHED_EVENT_UE.off ∧ ¬ a.bit SHED_EVENT_CE_HIGH ∧ ¬ a.bit SHED_EVENT_UE then a.put SHED_ECC_FIRST_VALID 0
  else if off = DET_NQ_CFG_EN.off then (a.nqDrain (a.det.wait.length + 1)).detShow
  else if 0x20030 ≤ off ∧ off < 0x20430 ∧ off % 64 = 0x30 then a.ownPort ((off - 0x20030) / 64)
  else a

/-- The word that `DET_NQ_CFG` takes: a SIZE_LOG2 outside 6 to 16 is ignored (R304). -/
def Agg.nqWord (a : Agg) (w : Nat) : Nat :=
  let n := DET_NQ_CFG_SIZE_LOG2.of w
  if 6 ≤ n ∧ n ≤ 16 then w else w + 2 * a.reg DET_NQ_CFG_SIZE_LOG2 - 2 * n

/-- In HELD writes go to the configuration and fault windows only (R481). -/
def Agg.writeOpen (a : Agg) (off : Nat) : Bool := a.reg CFG_STATUS_STATE != 5 || off / 65536 == 0 || off / 65536 == 0xB

/-- A write of a word at an offset of BAR0 (R16, R491). -/
def Agg.writeReg (a : Agg) (off w : Nat) : Agg :=
  if ¬ inWindow off then a.event CFG_EVENT_APERTURE_VIOL
  else if ¬ a.writeOpen off then a
  else if 0x800000 ≤ off then a.proxyWrite (off / 65536 % 16) (off % 65536) w true
  else
    match msixWord off, a.controlWrite off w with
    | some k, _ => a.onConf fun c => { c with msix := c.msix.set k w }
    | none, some a => a
    | none, none =>
      let w := if off = DET_NQ_CFG_EN.off then a.nqWord w else w
      ({ a with p := a.p.wordWrite regMapAgg off w } : Agg).afterWrite off

/-- REGISTER_WRITE (R16): to the aggregator through BAR0, to the Uligo through its host register port or Rycon-D. -/
def execRegisterWrite (part : PartSel) (path : WritePath) (off : Nat) (value : Word) (s : State) :
    Host.Outcome State Fault Refusal :=
  .next (s.onPart part
    (fun a => a.writeReg off value.toNat)
    (fun u =>
      match path with
      | .hostPort _ => u.hostWrite off value.toNat
      | .ryconD _ => if hostReadBad off then u else u.writeReg (off % 65536) value.toNat
      | .bar0 => if hostReadBad off then u else u.writeReg (off % 65536) value.toNat))

/-! ### The tick latch (R44) -/

/-- A copy whose boundary has been latched is live before anything later happens (R483). -/
def Agg.settleCopy (a : Agg) : Agg := if a.p.copy.isSome ∧ a.p.copyDue then a.applyCopy else a

/-- The same at the Uligo. -/
def Ulg.settleCopy (u : Ulg) : Ulg := if u.p.copy.isSome ∧ u.p.copyDue then u.applyCopy else u

/-- TICK_LATCH (R44): at the next tick instant the counters, statistics and records of the interval are latched; `qpEdges`
are the queue-probe clock edges of the interval by bus (R69). Without time there is no tick. -/
def execTickLatch (part : PartSel) (qpEdges : List Nat) (s : State) : Host.Outcome State Fault Refusal :=
  .next (s.onPart part
    (fun a =>
      let a := a.settleCopy
      if a.p.timed then
        let a : Agg := { a with p := a.p.latchTick }
        ((a.fabLatch a.p.lastTick a.p.tick.lastUs).slotLatch a.p.lastTick a.p.tick.lastUs).vrfUrgent
      else a)
    (fun u =>
      let u := u.settleCopy
      if u.p.timed then (({ u with p := u.p.latchTick } : Ulg).latchCounting qpEdges).latchTrace else u))

end Sys2Proof.Machine
end

