-- ==== Sys2Proof/Machine/Dispatch.lean ====
section
/-! DEFINITION. The dispatch: one arm per command, each one call of its meaning. -/

namespace Sys2Proof.Machine

/-- What command `i` does to everything but the queue. -/
def exec (i : Instr) (s : State) : Host.Outcome State Fault Refusal :=
  match i with
  | .tickLatch part qpEdges => Sys2Proof.Machine.execTickLatch part qpEdges s
  | .islandMissing island => Sys2Proof.Machine.execIslandMissing island s
  | .tickActivation part => Sys2Proof.Machine.execTickActivation part s
  | .epochActivation => Sys2Proof.Machine.execEpochActivation s
  | .epochBoundary => Sys2Proof.Machine.execEpochBoundary s
  | .ptpSync port m => Sys2Proof.Machine.execPtpSync port m s
  | .followUp port m => Sys2Proof.Machine.execFollowUp port m s
  | .delayResp port m => Sys2Proof.Machine.execDelayResp port m s
  | .announce port m a => Sys2Proof.Machine.execAnnounce port m a s
  | .announceReceiptTimeout port => Sys2Proof.Machine.execAnnounceReceiptTimeout port s
  | .delayReq port => Sys2Proof.Machine.execDelayReq port s
  | .ptpMessageDropped port why rx => Sys2Proof.Machine.execPtpMessageDropped port why rx s
  | .esmc port ql rx => Sys2Proof.Machine.execEsmc port ql rx s
  | .esmcTransmit => Sys2Proof.Machine.execEsmcTransmit s
  | .holdLimit part => Sys2Proof.Machine.execHoldLimit part s
  | .twSyncSend p => Sys2Proof.Machine.execTwSyncSend p s
  | .twSync x w => Sys2Proof.Machine.execTwSync x w s
  | .twFull x w => Sys2Proof.Machine.execTwFull x w s
  | .twEcho p w => Sys2Proof.Machine.execTwEcho p w s
  | .coastExpiry => Sys2Proof.Machine.execCoastExpiry s
  | .scheduledLaunch port => Sys2Proof.Machine.execScheduledLaunch port s
  | .timeSecRead => Sys2Proof.Machine.execTimeSecRead s
  | .ulgTimeSecRead => Sys2Proof.Machine.execUlgTimeSecRead s
  | .hostWrite off value mid => Sys2Proof.Machine.execHostWrite off value mid s
  | .pathChange port ptype spinePort changeNs => Sys2Proof.Machine.execPathChange port ptype spinePort changeNs s
  | .countBeat b => Sys2Proof.Machine.execCountBeat b s
  | .sampleBeat b => Sys2Proof.Machine.execSampleBeat b s
  | .ringBeat b => Sys2Proof.Machine.execRingBeat b s
  | .reservedKindBeat b => Sys2Proof.Machine.execReservedKindBeat b s
  | .ovsRequestTimeout core => Sys2Proof.Machine.execOvsRequestTimeout core s
  | .uncoreBeat b => Sys2Proof.Machine.execUncoreBeat b s
  | .queueProbeBeat b => Sys2Proof.Machine.execQueueProbeBeat b s
  | .commandTagBeat b => Sys2Proof.Machine.execCommandTagBeat b s
  | .hang core => Sys2Proof.Machine.execHang core s
  | .packStart parity => Sys2Proof.Machine.execPackStart parity s
  | .recordClose => Sys2Proof.Machine.execRecordClose s
  | .ringUnfreeze core all => Sys2Proof.Machine.execRingUnfreeze core all s
  | .fullNext => Sys2Proof.Machine.execFullNext s
  | .ovsSlotWrite slot value => Sys2Proof.Machine.execOvsSlotWrite slot value s
  | .ovsPop mid => Sys2Proof.Machine.execOvsPop mid s
  | .rcRead part off mid => Sys2Proof.Machine.execRcRead part off mid s
  | .traceBeat b => Sys2Proof.Machine.execTraceBeat b s
  | .traceOverflowRecover core => Sys2Proof.Machine.execTraceOverflowRecover core s
  | .authExpired => Sys2Proof.Machine.execAuthExpired s
  | .trcRingDataRead => Sys2Proof.Machine.execTrcRingDataRead s
  | .ftCoreDue core => Sys2Proof.Machine.execFtCoreDue core s
  | .yieldBeat b => Sys2Proof.Machine.execYieldBeat b s
  | .sigLo b => Sys2Proof.Machine.execSigLo b s
  | .sigHi b => Sys2Proof.Machine.execSigHi b s
  | .ftSigTimeout core => Sys2Proof.Machine.execFtSigTimeout core s
  | .ftDeferred core => Sys2Proof.Machine.execFtDeferred core s
  | .pairWaitExpiry seq => Sys2Proof.Machine.execPairWaitExpiry seq s
  | .ftForce core kernel seqLo => Sys2Proof.Machine.execFtForce core kernel seqLo s
  | .cmdBeat b => Sys2Proof.Machine.execCmdBeat b s
  | .tileDataBeat kind b => Sys2Proof.Machine.execTileDataBeat kind b s
  | .endBeat b => Sys2Proof.Machine.execEndBeat b s
  | .tileTimeout tap => Sys2Proof.Machine.execTileTimeout tap s
  | .tileForce mask => Sys2Proof.Machine.execTileForce mask s
  | .captureBufferUe t => Sys2Proof.Machine.execCaptureBufferUe t s
  | .trainingDone e lanes => Sys2Proof.Machine.execTrainingDone e lanes s
  | .trainLimit e => Sys2Proof.Machine.execTrainLimit e s
  | .alignTimeout e => Sys2Proof.Machine.execAlignTimeout e s
  | .alignmentLockLost e => Sys2Proof.Machine.execAlignmentLockLost e s
  | .retryTimeout e => Sys2Proof.Machine.execRetryTimeout e s
  | .reupHold e => Sys2Proof.Machine.execReupHold e s
  | .dataFlit e f => Sys2Proof.Machine.execDataFlit e f s
  | .idleFlit e f => Sys2Proof.Machine.execIdleFlit e f s
  | .violDown e => Sys2Proof.Machine.execViolDown e s
  | .replayTimeout e => Sys2Proof.Machine.execReplayTimeout e s
  | .flitSend e => Sys2Proof.Machine.execFlitSend e s
  | .helloSend p => Sys2Proof.Machine.execHelloSend p s
  | .hello x resume reservedSet nonce => Sys2Proof.Machine.execHello x resume reservedSet nonce s
  | .helloAck p a => Sys2Proof.Machine.execHelloAck p a s
  | .read x c => Sys2Proof.Machine.execRead x c s
  | .write x c => Sys2Proof.Machine.execWrite x c s
  | .commit x c => Sys2Proof.Machine.execCommit x c s
  | .sessionStatus x c => Sys2Proof.Machine.execSessionStatus x c s
  | .nop x c => Sys2Proof.Machine.execNop x c s
  | .replayOpen x c => Sys2Proof.Machine.execReplayOpen x c s
  | .replayLoad x c => Sys2Proof.Machine.execReplayLoad x c s
  | .replayStart x c => Sys2Proof.Machine.execReplayStart x c s
  | .replayStatus x c => Sys2Proof.Machine.execReplayStatus x c s
  | .replayClose x c => Sys2Proof.Machine.execReplayClose x c s
  | .domain x c => Sys2Proof.Machine.execDomain x c s
  | .domainQuery x c => Sys2Proof.Machine.execDomainQuery x c s
  | .response p r => Sys2Proof.Machine.execResponse p r s
  | .release p => Sys2Proof.Machine.execRelease p s
  | .claim p => Sys2Proof.Machine.execClaim p s
  | .streamTimeout p => Sys2Proof.Machine.execStreamTimeout p s
  | .recordCommit p stream => Sys2Proof.Machine.execRecordCommit p stream s
  | .sweepVisit => Sys2Proof.Machine.execSweepVisit s
  | .readLoc loc => Sys2Proof.Machine.execReadLoc loc s
  | .lookup => Sys2Proof.Machine.execLookup s
  | .insertStatic => Sys2Proof.Machine.execInsertStatic s
  | .delete => Sys2Proof.Machine.execDelete s
  | .ringReleased ring => Sys2Proof.Machine.execRingReleased ring s
  | .shedUe addr => Sys2Proof.Machine.execShedUe addr s
  | .shedRepaired => Sys2Proof.Machine.execShedRepaired s
  | .scrub errors reports => Sys2Proof.Machine.execScrub errors reports s
  | .mirrorHelloSend => Sys2Proof.Machine.execMirrorHelloSend s
  | .mirrorHello src tag port msess reset h => Sys2Proof.Machine.execMirrorHello src tag port msess reset h s
  | .mirrorHelloAck src tag status h => Sys2Proof.Machine.execMirrorHelloAck src tag status h s
  | .mirrorData m => Sys2Proof.Machine.execMirrorData m s
  | .mirrorAck src ring ackSeq h => Sys2Proof.Machine.execMirrorAck src ring ackSeq h s
  | .mirrorResend ring => Sys2Proof.Machine.execMirrorResend ring s
  | .mirrorStall => Sys2Proof.Machine.execMirrorStall s
  | .stalled => Sys2Proof.Machine.execStalled s
  | .mirrorRateWindow => Sys2Proof.Machine.execMirrorRateWindow s
  | .jquery q => Sys2Proof.Machine.execJquery q s
  | .janswer a => Sys2Proof.Machine.execJanswer a s
  | .jqueryTimeout => Sys2Proof.Machine.execJqueryTimeout s
  | .journalOpen => Sys2Proof.Machine.execJournalOpen s
  | .jqGo value => Sys2Proof.Machine.execJqGo value s
  | .jqNoAnswer => Sys2Proof.Machine.execJqNoAnswer s
  | .fetch f => Sys2Proof.Machine.execFetch f s
  | .fetchEnd qid count firstHeld h => Sys2Proof.Machine.execFetchEnd qid count firstHeld h s
  | .segmentAge ring => Sys2Proof.Machine.execSegmentAge ring s
  | .segmentWritten ring => Sys2Proof.Machine.execSegmentWritten ring s
  | .dzGo => Sys2Proof.Machine.execDzGo s
  | .dzDone ecc => Sys2Proof.Machine.execDzDone ecc s
  | .obsClose round => Sys2Proof.Machine.execObsClose round s
  | .cover f mask => Sys2Proof.Machine.execCover f mask s
  | .coverLate round => Sys2Proof.Machine.execCoverLate round s
  | .launchRequest port launchNs frames => Sys2Proof.Machine.execLaunchRequest port launchNs frames s
  | .countResult f => Sys2Proof.Machine.execCountResult f s
  | .result f => Sys2Proof.Machine.execResult f s
  | .resultDeadline round => Sys2Proof.Machine.execResultDeadline round s
  | .attemptStart round => Sys2Proof.Machine.execAttemptStart round s
  | .chunk f => Sys2Proof.Machine.execChunk f s
  | .stepDeadline round => Sys2Proof.Machine.execStepDeadline round s
  | .skip n => Sys2Proof.Machine.execSkip n s
  | .join n => Sys2Proof.Machine.execJoin n s
  | .roundFailed round => Sys2Proof.Machine.execRoundFailed round s
  | .tallyActivation => Sys2Proof.Machine.execTallyActivation s
  | .tickRunStart slot => Sys2Proof.Machine.execTickRunStart slot s
  | .roundRunStart slot => Sys2Proof.Machine.execRoundRunStart slot s
  | .runEnd slot => Sys2Proof.Machine.execRunEnd slot s
  | .overrun slot => Sys2Proof.Machine.execOverrun slot s
  | .droverCoreFault slot core => Sys2Proof.Machine.execDroverCoreFault slot core s
  | .runSkip slot => Sys2Proof.Machine.execRunSkip slot s
  | .opEnd slot o => Sys2Proof.Machine.execOpEnd slot o s
  | .opLdi slot o => Sys2Proof.Machine.execOpLdi slot o s
  | .opLdp slot o => Sys2Proof.Machine.execOpLdp slot o s
  | .opFeat slot o => Sys2Proof.Machine.execOpFeat slot o s
  | .opAdd slot o => Sys2Proof.Machine.execOpAdd slot o s
  | .opSub slot o => Sys2Proof.Machine.execOpSub slot o s
  | .opMul slot o => Sys2Proof.Machine.execOpMul slot o s
  | .opDiv slot o => Sys2Proof.Machine.execOpDiv slot o s
  | .opShr slot o => Sys2Proof.Machine.execOpShr slot o s
  | .opMin slot o => Sys2Proof.Machine.execOpMin slot o s
  | .opMax slot o => Sys2Proof.Machine.execOpMax slot o s
  | .opAbs slot o => Sys2Proof.Machine.execOpAbs slot o s
  | .opClt slot o => Sys2Proof.Machine.execOpClt slot o s
  | .opSel slot o => Sys2Proof.Machine.execOpSel slot o s
  | .opSkipz slot o => Sys2Proof.Machine.execOpSkipz slot o s
  | .opLds slot o => Sys2Proof.Machine.execOpLds slot o s
  | .opSts slot o => Sys2Proof.Machine.execOpSts slot o s
  | .opEwma slot o => Sys2Proof.Machine.execOpEwma slot o s
  | .opCusum slot o => Sys2Proof.Machine.execOpCusum slot o s
  | .opAcc slot o => Sys2Proof.Machine.execOpAcc slot o s
  | .opLda slot o => Sys2Proof.Machine.execOpLda slot o s
  | .opEachcore slot o => Sys2Proof.Machine.execOpEachcore slot o s
  | .opBrank slot o => Sys2Proof.Machine.execOpBrank slot o s
  | .opBquant slot o => Sys2Proof.Machine.execOpBquant slot o s
  | .opBmom slot o => Sys2Proof.Machine.execOpBmom slot o s
  | .opNbr slot o => Sys2Proof.Machine.execOpNbr slot o s
  | .opPost slot o => Sys2Proof.Machine.execOpPost slot o s
  | .opPred slot o => Sys2Proof.Machine.execOpPred slot o s
  | .opVec slot o => Sys2Proof.Machine.execOpVec slot o s
  | .opHedge slot o => Sys2Proof.Machine.execOpHedge slot o s
  | .opCause slot o => Sys2Proof.Machine.execOpCause slot o s
  | .opEmit slot o => Sys2Proof.Machine.execOpEmit slot o s
  | .verdictDelivery slot => Sys2Proof.Machine.execVerdictDelivery slot s
  | .evidWait slot => Sys2Proof.Machine.execEvidWait slot s
  | .noticeInterrupt => Sys2Proof.Machine.execNoticeInterrupt s
  | .nqHeadWrite value => Sys2Proof.Machine.execNqHeadWrite value s
  | .noticeResend op sub => Sys2Proof.Machine.execNoticeResend op sub s
  | .hurdleAccept slot => Sys2Proof.Machine.execHurdleAccept slot s
  | .hurdleDecline slot => Sys2Proof.Machine.execHurdleDecline slot s
  | .hurdleLift slot => Sys2Proof.Machine.execHurdleLift slot s
  | .hurdleUnanswered slot => Sys2Proof.Machine.execHurdleUnanswered slot s
  | .restoreCold slot => Sys2Proof.Machine.execRestoreCold slot s
  | .hedgeScore corrected => Sys2Proof.Machine.execHedgeScore corrected s
  | .modelLoaded m => Sys2Proof.Machine.execModelLoaded m s
  | .modelActivate m => Sys2Proof.Machine.execModelActivate m s
  | .retainEnd m => Sys2Proof.Machine.execRetainEnd m s
  | .sramUe m => Sys2Proof.Machine.execSramUe m s
  | .reloaded m => Sys2Proof.Machine.execReloaded m s
  | .passStart a => Sys2Proof.Machine.execPassStart a s
  | .passEnd a f => Sys2Proof.Machine.execPassEnd a f s
  | .jobAging job => Sys2Proof.Machine.execJobAging job s
  | .operandUe a corrected => Sys2Proof.Machine.execOperandUe a corrected s
  | .selfTestDue a => Sys2Proof.Machine.execSelfTestDue a s
  | .retire a => Sys2Proof.Machine.execRetire a s
  | .retest a => Sys2Proof.Machine.execRetest a s
  | .selftest a => Sys2Proof.Machine.execSelftest a s
  | .prevTableRelease => Sys2Proof.Machine.execPrevTableRelease s
  | .tileCheckDispatch slot => Sys2Proof.Machine.execTileCheckDispatch slot s
  | .replayAutoOpen slot => Sys2Proof.Machine.execReplayAutoOpen slot s
  | .replayPoll slot status => Sys2Proof.Machine.execReplayPoll slot status s
  | .rplExpired slot => Sys2Proof.Machine.execRplExpired slot s
  | .replayRunTimeout => Sys2Proof.Machine.execReplayRunTimeout s
  | .epochDecision slot => Sys2Proof.Machine.execEpochDecision slot s
  | .epochHold slot => Sys2Proof.Machine.execEpochHold slot s
  | .taintDelivery slot => Sys2Proof.Machine.execTaintDelivery slot s
  | .clearDelivery slot => Sys2Proof.Machine.execClearDelivery slot s
  | .needTaint slot recipient dseq => Sys2Proof.Machine.execNeedTaint slot recipient dseq s
  | .fleeceExport slot => Sys2Proof.Machine.execFleeceExport slot s
  | .fleeceResend slot => Sys2Proof.Machine.execFleeceResend slot s
  | .seLift slot => Sys2Proof.Machine.execSeLift slot s
  | .seCloseCase slot => Sys2Proof.Machine.execSeCloseCase slot s
  | .seRestoreTimeout slot => Sys2Proof.Machine.execSeRestoreTimeout slot s
  | .ryconFPacket d k => Sys2Proof.Machine.execRyconFPacket d k s
  | .noticeReceived n => Sys2Proof.Machine.execNoticeReceived n s
  | .transportAck src cls incarn psns => Sys2Proof.Machine.execTransportAck src cls incarn psns s
  | .retransmit port psn cls dst => Sys2Proof.Machine.execRetransmit port psn cls dst s
  | .ackSend src cls => Sys2Proof.Machine.execAckSend src cls s
  | .neighborSolicitation port target source rx => Sys2Proof.Machine.execNeighborSolicitation port target source rx s
  | .echoRequest port source ident seq data rx => Sys2Proof.Machine.execEchoRequest port source ident seq data rx s
  | .packetEnqueue o => Sys2Proof.Machine.execPacketEnqueue o s
  | .frameStart port => Sys2Proof.Machine.execFrameStart port s
  | .shaperRefill => Sys2Proof.Machine.execShaperRefill s
  | .fabricPortDown port lanes => Sys2Proof.Machine.execFabricPortDown port lanes s
  | .faultOccurrence part r => Sys2Proof.Machine.execFaultOccurrence part r s
  | .hfltAssert n level cycles => Sys2Proof.Machine.execHfltAssert n level cycles s
  | .sheepdog part => Sys2Proof.Machine.execSheepdog part s
  | .quiesceTimeout dom => Sys2Proof.Machine.execQuiesceTimeout dom s
  | .exitStart part => Sys2Proof.Machine.execExitStart part s
  | .safeExit part => Sys2Proof.Machine.execSafeExit part s
  | .heartbeatLoss part => Sys2Proof.Machine.execHeartbeatLoss part s
  | .ceRateHourEnd part => Sys2Proof.Machine.execCeRateHourEnd part s
  | .fltAck part fseq => Sys2Proof.Machine.execFltAck part fseq s
  | .exit part => Sys2Proof.Machine.execExit part s
  | .enterSafe part => Sys2Proof.Machine.execEnterSafe part s
  | .clearFirst part => Sys2Proof.Machine.execClearFirst part s
  | .fltInject part source cls => Sys2Proof.Machine.execFltInject part source cls s
  | .fltPoll slot => Sys2Proof.Machine.execFltPoll slot s
  | .ulgFltPop fseq => Sys2Proof.Machine.execUlgFltPop fseq s
  | .lockstepMismatch pair addr => Sys2Proof.Machine.execLockstepMismatch pair addr s
  | .pairSwitch => Sys2Proof.Machine.execPairSwitch s
  | .pairSelfTestDone pair pass => Sys2Proof.Machine.execPairSelfTestDone pair pass s
  | .rowBad owner inst row hour => Sys2Proof.Machine.execRowBad owner inst row hour s
  | .repairLogAppend readBack => Sys2Proof.Machine.execRepairLogAppend readBack s
  | .agingCheck part m => Sys2Proof.Machine.execAgingCheck part m s
  | .revoke eseq => Sys2Proof.Machine.execRevoke eseq s
  | .domainRequest value => Sys2Proof.Machine.execDomainRequest value s
  | .quiesceAccept part d => Sys2Proof.Machine.execQuiesceAccept part d s
  | .quiesceDeny part d => Sys2Proof.Machine.execQuiesceDeny part d s
  | .domainTransitionComplete part d => Sys2Proof.Machine.execDomainTransitionComplete part d s
  | .pdReq grp tgt => Sys2Proof.Machine.execPdReq grp tgt s
  | .pdReqRelease => Sys2Proof.Machine.execPdReqRelease s
  | .pfail => Sys2Proof.Machine.execPfail s
  | .mainReturn => Sys2Proof.Machine.execMainReturn s
  | .arm cellMv cellOk => Sys2Proof.Machine.execArm cellMv cellOk s
  | .tailFlushed => Sys2Proof.Machine.execTailFlushed s
  | .flushLimit => Sys2Proof.Machine.execFlushLimit s
  | .sealed => Sys2Proof.Machine.execSealed s
  | .cut cellMv => Sys2Proof.Machine.execCut cellMv s
  | .cellTest dropMv => Sys2Proof.Machine.execCellTest dropMv s
  | .slotOn slot => Sys2Proof.Machine.execSlotOn slot s
  | .slotOff slot => Sys2Proof.Machine.execSlotOff slot s
  | .slotClear slot => Sys2Proof.Machine.execSlotClear slot s
  | .slotSample slot code en fltN => Sys2Proof.Machine.execSlotSample slot code en fltN s
  | .slotFlt slot => Sys2Proof.Machine.execSlotFlt slot s
  | .rampEnd slot => Sys2Proof.Machine.execRampEnd slot s
  | .backoffEnd slot => Sys2Proof.Machine.execBackoffEnd slot s
  | .drainTimeout slot => Sys2Proof.Machine.execDrainTimeout slot s
  | .reset twinSel ftm supplies => Sys2Proof.Machine.execReset twinSel ftm supplies s
  | .uligoReset ftm bistFail => Sys2Proof.Machine.execUligoReset ftm bistFail s
  | .sfdpDone d => Sys2Proof.Machine.execSfdpDone d s
  | .validateDone k0 k1 => Sys2Proof.Machine.execValidateDone k0 k1 s
  | .imageCommit => Sys2Proof.Machine.execImageCommit s
  | .cfgCommit => Sys2Proof.Machine.execCfgCommit s
  | .commitApply part => Sys2Proof.Machine.execCommitApply part s
  | .adopt write len k => Sys2Proof.Machine.execAdopt write len k s
  | .flashErase slot => Sys2Proof.Machine.execFlashErase slot s
  | .flashProgram slot len => Sys2Proof.Machine.execFlashProgram slot len s
  | .flashDone ok => Sys2Proof.Machine.execFlashDone ok s
  | .upush slot => Sys2Proof.Machine.execUpush slot s
  | .push slot cause => Sys2Proof.Machine.execPush slot cause s
  | .smbStatus => Sys2Proof.Machine.execSmbStatus s
  | .smbImage => Sys2Proof.Machine.execSmbImage s
  | .smbFirstError => Sys2Proof.Machine.execSmbFirstError s
  | .smbEnterSafe key => Sys2Proof.Machine.execSmbEnterSafe key s
  | .smbReset key => Sys2Proof.Machine.execSmbReset key s
  | .functionLevelReset => Sys2Proof.Machine.execFunctionLevelReset s
  | .proxyRead slot off wide => Sys2Proof.Machine.execProxyRead slot off wide s
  | .proxyWrite slot off value wide => Sys2Proof.Machine.execProxyWrite slot off value wide s
  | .proxyCommit slot => Sys2Proof.Machine.execProxyCommit slot s
  | .proxyTmo slot => Sys2Proof.Machine.execProxyTmo slot s
  | .apertureWrite off bytes => Sys2Proof.Machine.execApertureWrite off bytes s
  | .rplDataRead => Sys2Proof.Machine.execRplDataRead s
  | .registerWrite part path off value => Sys2Proof.Machine.execRegisterWrite part path off value s
  | .hbmTrainingLoss stack => Sys2Proof.Machine.execHbmTrainingLoss stack s
  | .thermalClockStep die hottest => Sys2Proof.Machine.execThermalClockStep die hottest s
  | .hbmThrottle stack celsius => Sys2Proof.Machine.execHbmThrottle stack celsius s
  | .ftRetestExpired slot => Sys2Proof.Machine.execFtRetestExpired slot s
  | .hfltRelease n level cycles => Sys2Proof.Machine.execHfltRelease n level cycles s
  | .disarm cellMv cellOk => Sys2Proof.Machine.execDisarm cellMv cellOk s
  | .pcieUe => Sys2Proof.Machine.execPcieUe s
  | .fabricPortUp port lanes => Sys2Proof.Machine.execFabricPortUp port lanes s
  | .eeecLocked => Sys2Proof.Machine.execEeecLocked s
  | .hostPortBadAccess off write mid => Sys2Proof.Machine.execHostPortBadAccess off write mid s
  | .bar0UnmappedAccess off write => Sys2Proof.Machine.execBar0UnmappedAccess off write s
  | .discoverStart failed => Sys2Proof.Machine.execDiscoverStart failed s
  | .suppliesUp => Sys2Proof.Machine.execSuppliesUp s

end Sys2Proof.Machine
end

