-- ==== Sys2Proof/Machine/Step.lean ====
section
/-! DEFINITION. The step: the command at the front of the queue runs on the state with the rest of the queue; on an
empty queue both parts' time advances (log entry 2). -/

namespace Sys2Proof.Machine

/-- One nanosecond of the local clock passes: fleet time runs at the corrected rate (R22, R38). -/
def Part.idle (p : Part) : Part := { p with now := ((p.now : Int) + 2 ^ 56 + p.servo.rate * 2 ^ 16).toNat }

/-- The machine with no command waiting. -/
def State.idle (s : State) : State :=
  { s with agg := { s.agg with p := s.agg.p.idle }, ulg := { s.ulg with p := s.ulg.p.idle } }

/-- One step. -/
def step (s : State) : Host.Outcome State Fault Refusal :=
  match s.pending with
  | [] => .next s.idle
  | c :: rest => exec c { s with pending := rest }

/-- The state with a command put at the front of its queue. -/
def State.withFront (s : State) (c : Instr) : State := { s with pending := c :: s.pending }

/-- The command that a word spells by the table's bits in front of the queue; the table gives no row bits, so no word
spells one (log entry 3). -/
def State.withFetchWord (s : State) (nbits w : Nat) : State :=
  match decodeTableWord nbits w with
  | some c => s.withFront c
  | none => s

end Sys2Proof.Machine
end

