-- ==== Sys2Proof/WellFormed.lean ====
section
/-! DEFINITION. Well-formed commands: every operand fits the field that the spec's layout tables give it. A command that
is not well formed cannot arise on the wires or in a register write; the machine is total on it all the same (log
entry 27). -/

namespace Sys2Proof

/-- A number fits in `w` bits. -/
def fits (w n : Nat) : Bool := decide (n < 2 ^ w)

/-- An integer fits in `w` bits in two's complement. -/
def fitsInt (w : Nat) (n : Int) : Bool := decide (-(2 ^ (w - 1)) ≤ n ∧ n < 2 ^ (w - 1))

/-- A fabric port (R386). -/
def portOk (p : Nat) : Bool := decide (p < 12)

/-- An aggregator ID: 14 bits (R254, R391). -/
def aggOk (n : Nat) : Bool := fits 14 n

/-- A FLEET_DIE: 17 bits (R219, R297). -/
def dieOk (n : Nat) : Bool := fits 17 n

/-- A frame of at most 9,216 bytes, and a fill of the 4 MiB receive buffer (R388, R407). -/
def RxInfo.wf (r : RxInfo) : Bool := decide (r.bytes ≤ 9216) && decide (r.rxKib ≤ 4096)

/-- The fields of a PTP message (R27). -/
def PtpMsg.wf (m : PtpMsg) : Bool :=
  fits 8 m.domain && fits 12 m.sdoId && fits 16 m.seqId && decide (0 ≤ m.stamp) && fitsInt 64 m.correction &&
    fitsInt 8 m.logInterval && m.rx.wf

/-- The fields of an Announce data set (R27, R30). -/
def AnnounceData.wf (a : AnnounceData) : Bool :=
  fits 8 a.priority1 && fits 8 a.clockClass && fits 8 a.accuracy && fits 16 a.variance && fits 8 a.priority2 &&
    fits 64 a.grandmaster && fits 16 a.stepsRemoved && fits 64 a.sender && fits 16 a.senderPort

/-- The fields of a time word (R34); `full` is TW_FULL, whose time is SEC, NS and FRAC. -/
def TimeWord.wf (full : Bool) (w : TimeWord) : Bool :=
  fits 8 w.seq && fits 4 w.srcErrNs && fits 8 w.echoSeq && fitsInt 32 w.dUp &&
    (if full then decide (w.depart < 2 ^ 48 * 1000000000 * 65536) else fits 64 w.depart)

/-- The fields of a HELLO_ACK (R141). -/
def HelloAck.wf (a : HelloAck) : Bool := fits 64 a.dieUid && fits 32 a.prevNext && fits 16 a.sessTag

/-- A control slot (R34, R141): fields that a message reserves are 0, and `other` has a reserved TYPE. -/
def CtrlSlot.wf : CtrlSlot → Bool
  | .empty => true
  | .timeSync w => w.wf false
  | .timeEcho w => w.wf false && w.echoSeq == 0 && w.dUp == 0
  | .timeFull w => w.wf true && w.echoSeq == 0 && w.dUp == 0
  | .hello _ _ nonce => fits 64 nonce
  | .helloAck a => a.wf
  | .other t => fits 8 t && !([0, 1, 2, 3, 0x10, 0x11].contains t)

/-- The fields of a flit (R138): its payload has the bytes that PLEN says, at most the 228 of the field. -/
def Flit.wf (f : Flit) : Bool :=
  fits 8 f.fseq && fits 8 f.ackSeq && fits 16 f.sessTag && fits 8 f.plen &&
    decide (f.payload.length = min 228 f.plen) && f.ctrl.wf && decide (f.fifoLeft ≤ 1024) && f.ftypeOther.all fun t => fits 8 t && !([1, 2].contains t)

/-- The fields of a command (R152): a command never spans flits. -/
def Cmd.wf (c : Cmd) : Bool :=
  fits 32 c.seq && fits 8 c.count && fits 32 c.addr && fits 32 c.arg && c.data.all (fits 64) &&
    decide (16 + 8 * c.data.length ≤ 228)

/-- The fields of a response (R152). -/
def Resp.wf (r : Resp) : Bool :=
  fits 8 r.opcode && fits 8 r.status && fits 32 r.seq && fits 32 r.arg && r.data.all (fits 64) &&
    decide (16 + 8 * r.data.length ≤ 228)

/-- The header of a mirror message (R218): a reserved MTYPE is none of the eight that R218 names. -/
def MirHead.wf (h : MirHead) : Bool :=
  fits 8 h.version && h.typeOther.all fun t => fits 8 t && !(decide (0x30 ≤ t) && decide (t ≤ 0x37))

/-- The fields of a mirror DATA message (R218, R219): its bytes go with the header into the largest payload (R391). -/
def MirrorPart.wf (m : MirrorPart) : Bool :=
  aggOk m.src && fits 16 m.ring && fits 32 m.ringSeq && fits 32 m.offset && fits 32 m.total && m.head.wf &&
    decide (32 + m.bytes.length ≤ 8192)

/-- The fields of a JQUERY (R219). -/
def JQueryMsg.wf (q : JQueryMsg) : Bool :=
  aggOk q.src && fits 32 q.qid && fits 8 q.mode && fits 16 q.subject && fits 64 q.firstOp && fits 32 q.count &&
    q.head.wf

/-- The fields of a JANSWER (R219): two-bit codes or 64-bit operation numbers. -/
def JAnswerMsg.wf (m : JAnswerMsg) : Bool :=
  fits 32 m.qid && fits 8 m.result && fits 64 m.heldFrom && fits 64 m.coveredTo && m.head.wf &&
    (if m.mode = 0 then m.codes.all (fits 2) else m.codes.all (fits 64))

/-- The fields of a FETCH (R219). -/
def FetchMsg.wf (f : FetchMsg) : Bool :=
  aggOk f.src && fits 32 f.qid && (dieOk f.fleetDie || f.fleetDie == 2 ^ 31) && fits 8 f.cls && fits 64 f.firstIdent &&
    fits 64 f.lastIdent && f.head.wf

/-- The fields of a tally block (R243): at most 128 buckets. -/
def Block.wf (b : Block) : Bool :=
  fits 16 b.key && fits 8 b.oct && fits 32 b.n && fits 64 b.sum && fits 64 b.sumSq && fits 64 b.maxKey &&
    fits 64 b.minKey && fits 32 b.zeroN && fits 32 b.underN && fits 32 b.overN && decide (b.buckets.length ≤ 128) &&
    b.buckets.all (fits 32)

/-- The fields of a reduction frame (R254); its header and blocks take at most 8,168 bytes. -/
def RedFrame.wf (f : RedFrame) : Bool :=
  fits 32 f.round && fits 8 f.attempt && aggOk f.src && fits 16 f.group && fits 32 f.members && fits 32 f.dies &&
    fits 64 f.memberHash && fits 64 f.keyset && fits 64 f.closeNs && fits 32 f.setDigest && fits 16 f.actFor &&
    fits 16 f.nkeys && f.blocks.all Block.wf && decide (56 + (if f.compact then 312 else 576) * f.blocks.length ≤ 8168)

/-- The fields of a SKIP or JOIN (R254, R261, R262). -/
def RingNote.wf (n : RingNote) : Bool :=
  n.head.wf && n.head.blocks.isEmpty && fits 16 n.member && fits 64 n.sendNs && fits 32 n.fromRound

/-- The fields of an operation (R277): IMM is a signed 32-bit number. -/
def Op.wf (o : Op) : Bool := fitsInt 32 o.imm

/-- The fields of a Rycon-F packet (R391). -/
def Packet.wf (k : Packet) : Bool :=
  fits 8 k.rclass && fits 8 k.msgType && aggOk k.src && aggOk k.dst && fits 32 k.psn && fits 32 k.incarn &&
    fits 16 k.plen && fits 6 k.paddock && fits 8 k.ackClass && fits 128 k.srcAddr && fits 128 k.dstAddr && fits 16 k.udpPort &&
    k.rx.wf

/-- The fields of a notice (R297, R374). -/
def NoticeMsg.wf (n : NoticeMsg) : Bool :=
  fits 8 n.ntype && aggOk n.src && fits 32 n.psn && aggOk n.origAgg && fits 64 n.origOp && dieOk n.fleetDie && fits 8 n.kind &&
    fits 64 n.dseq && fits 32 n.epochFirst && fits 32 n.epochLast && fits 64 n.lastTaint && fits 16 n.flags &&
    fits 16 n.core && fits 8 n.severity && fits 6 n.paddock

/-- A packet for an egress queue (R391): of a class and message type that an aggregator sends, with a payload of 8 to 8,192
bytes, a multiple of 8. -/
def OutPacket.wf (o : OutPacket) : Bool :=
  portOk o.port && fits 6 o.paddock && aggOk o.dst &&
    (if o.rclass = 3 then decide (1 ≤ o.msgType) && decide (o.msgType ≤ 4)
      else (o.rclass == 1 || o.rclass == 2 || o.rclass == 5) && o.msgType == 0) &&
    decide (8 ≤ o.payload.length) && decide (o.payload.length ≤ 8192) && o.payload.length % 8 == 0

/-- The fields of an occurrence (R412, R417). -/
def HwOccurrence.wf (h : HwOccurrence) : Bool :=
  fits 16 h.source && fits 64 h.addr && fits 16 h.master && fits 8 h.access && fits 32 h.detail

/-- The fields of what a collector is told. -/
def FaultReport.wf : FaultReport → Bool
  | .hardware h => h.wf
  | .released source => fits 16 source
  | .notified | .captureParity | .copyUpset _ _ => true

/-- A fabric port trains on lanes among which a whole group of four is (R388). -/
def lanesOk (l : BitVec 8) : Bool := l &&& 0x0F == 0x0F || l &&& 0xF0 == 0xF0

/-- Every operand of the command fits the field that carries it. -/
def Instr.wf : Instr → Bool
  | .islandMissing island => fits 8 island
  | .ptpSync _ m | .followUp _ m | .delayResp _ m => m.wf
  | .announce _ m a => m.wf && a.wf
  | .esmc _ ql rx => fits 8 ql && rx.wf
  | .ptpMessageDropped _ _ rx => rx.wf
  | .pathChange _ ptype spinePort changeNs => fits 8 ptype && fits 32 spinePort && fits 64 changeNs
  | .neighborSolicitation _ target source rx => fits 128 target && fits 128 source && rx.wf
  | .echoRequest _ source ident seq data rx =>
    fits 128 source && fits 16 ident && fits 16 seq && decide (data.length ≤ 9150) && rx.wf
  | .twSync _ w | .twEcho _ w => w.wf false
  | .twFull _ w => w.wf true
  | .hostWrite off _ _ | .rcRead .ulg off _ | .hostPortBadAccess off _ _ | .registerWrite .ulg _ off _ => fits 16 off
  | .rcRead .agg off _ | .registerWrite .agg _ off _ => fits 20 off
  | .bar0UnmappedAccess off _ => fits 20 off
  | .apertureWrite off _ => fits 32 off
  | .dataFlit _ f | .idleFlit _ f => f.wf
  | .hello _ _ _ nonce => fits 64 nonce
  | .helloAck _ a => a.wf
  | .read _ c | .write _ c | .commit _ c | .sessionStatus _ c | .nop _ c | .replayOpen _ c | .replayLoad _ c
  | .replayStart _ c | .replayStatus _ c | .replayClose _ c | .domain _ c | .domainQuery _ c => c.wf
  | .response _ r => r.wf
  | .mirrorHello src tag port msess _ h => aggOk src && fits 16 tag && portOk port && fits 32 msess && h.wf
  | .mirrorHelloAck src tag status h => aggOk src && fits 16 tag && fits 8 status && h.wf
  | .mirrorData m => m.wf
  | .mirrorAck src ring ackSeq h => aggOk src && fits 16 ring && fits 32 ackSeq && h.wf
  | .scrub errors _ => decide (errors ≤ 72)
  | .jquery q => q.wf
  | .janswer m => m.wf
  | .fetch f => f.wf
  | .fetchEnd qid count firstHeld h => fits 32 qid && fits 32 count && fits 64 firstHeld && h.wf
  | .cover f _ => f.wf && f.blocks.isEmpty
  | .obsClose round | .coverLate round | .resultDeadline round | .attemptStart round | .stepDeadline round
  | .roundFailed round => fits 32 round
  | .launchRequest _ _ frames => frames.all fun o => o.wf && o.rclass == 2
  | .countResult f | .result f | .chunk f => f.wf
  | .skip n | .join n => n.wf
  | .opEnd _ o | .opLdi _ o | .opLdp _ o | .opFeat _ o | .opAdd _ o | .opSub _ o | .opMul _ o | .opDiv _ o
  | .opShr _ o | .opMin _ o | .opMax _ o | .opAbs _ o | .opClt _ o | .opSel _ o | .opSkipz _ o | .opLds _ o
  | .opSts _ o | .opEwma _ o | .opCusum _ o | .opAcc _ o | .opLda _ o | .opEachcore _ o | .opBrank _ o
  | .opBquant _ o | .opBmom _ o | .opNbr _ o | .opPost _ o | .opPred _ o | .opVec _ o | .opHedge _ o | .opCause _ o
  | .opEmit _ o => o.wf
  | .noticeReceived n => n.wf
  | .needTaint _ recipient dseq => aggOk recipient && fits 64 dseq
  | .ryconFPacket _ k => k.wf
  | .transportAck src cls incarn psns =>
    aggOk src && fits 8 cls && fits 32 incarn && decide (psns.length ≤ 16) && psns.all (fits 32)
  | .retransmit _ psn cls dst => fits 32 psn && fits 8 cls && aggOk dst
  | .ackSend src cls => aggOk src && fits 8 cls
  | .packetEnqueue o => o.wf
  | .fabricPortUp _ lanes => lanesOk lanes
  | .faultOccurrence _ r => r.wf
  | .fltAck .agg fseq => fits 64 fseq
  | .fltAck .ulg fseq | .ulgFltPop fseq | .revoke fseq => fits 32 fseq
  | .fltInject _ source _ => fits 16 source
  | .lockstepMismatch _ addr => fits 64 addr
  | .arm cellMv _ | .disarm cellMv _ | .cut cellMv | .cellTest cellMv => fits 16 cellMv
  | .slotSample _ code _ _ => fits 12 code
  | .proxyRead _ off _ | .proxyWrite _ off _ _ => fits 16 off
  | .ftForce _ kernel seqLo => fits 8 kernel && fits 32 seqLo
  | .adopt _ len _ | .flashProgram _ len => fits 32 len
  | .quiesceTimeout (some d) | .quiesceAccept _ d | .quiesceDeny _ d | .domainTransitionComplete _ d => fits 8 d
  | .replayPoll _ status => status.all (fits 64)
  | .tickLatch _ _ | .tickActivation _ | .epochActivation | .epochBoundary | .announceReceiptTimeout _ | .delayReq _
  | .esmcTransmit | .holdLimit _ | .twSyncSend _ | .coastExpiry | .scheduledLaunch _
  | .timeSecRead | .ulgTimeSecRead | .countBeat _ | .sampleBeat _ | .ringBeat _
  | .reservedKindBeat _ | .ovsRequestTimeout _ | .uncoreBeat _ | .queueProbeBeat _ | .commandTagBeat _ | .hang _
  | .packStart _ | .recordClose | .ringUnfreeze _ _ | .fullNext | .ovsSlotWrite _ _ | .ovsPop _ | .traceBeat _
  | .traceOverflowRecover _ | .authExpired | .trcRingDataRead | .ftCoreDue _ | .yieldBeat _ | .sigLo _ | .sigHi _
  | .ftSigTimeout _ | .ftDeferred _ | .pairWaitExpiry _ | .cmdBeat _ | .tileDataBeat _ _ | .endBeat _
  | .tileTimeout _ | .tileForce _ | .captureBufferUe _ | .trainingDone _ _ | .trainLimit _ | .alignTimeout _
  | .alignmentLockLost _ | .retryTimeout _ | .reupHold _ | .violDown _ | .replayTimeout _ | .flitSend _
  | .helloSend _ | .release _ | .claim _ | .streamTimeout _ | .recordCommit _ _ | .sweepVisit | .readLoc _ | .lookup
  | .insertStatic | .delete | .ringReleased _ | .shedUe _ | .shedRepaired | .mirrorHelloSend
  | .mirrorResend _ | .mirrorStall | .stalled | .mirrorRateWindow | .jqueryTimeout | .journalOpen | .jqGo _
  | .jqNoAnswer | .segmentAge _ | .segmentWritten _ | .dzGo | .dzDone _ | .tallyActivation | .tickRunStart _
  | .roundRunStart _ | .runEnd _ | .overrun _ | .droverCoreFault _ _ | .runSkip _ | .verdictDelivery _ | .evidWait _
  | .noticeInterrupt | .nqHeadWrite _ | .noticeResend _ _ | .hurdleAccept _ | .hurdleDecline _ | .hurdleLift _
  | .hurdleUnanswered _ | .restoreCold _ | .hedgeScore _ | .modelLoaded _ | .modelActivate _ | .retainEnd _
  | .sramUe _ | .reloaded _ | .passStart _ | .passEnd _ _ | .jobAging _ | .operandUe _ _ | .selfTestDue _
  | .retire _ | .retest _ | .selftest _ | .prevTableRelease | .tileCheckDispatch _ | .replayAutoOpen _
  | .rplExpired _ | .replayRunTimeout | .epochDecision _ | .epochHold _ | .taintDelivery _ | .clearDelivery _
  | .fleeceExport _ | .fleeceResend _ | .seLift _ | .seCloseCase _ | .seRestoreTimeout _ | .frameStart _ | .shaperRefill | .fabricPortDown _ _ | .hfltAssert _ _ _ | .sheepdog _
  | .quiesceTimeout none | .exitStart _ | .safeExit _ | .heartbeatLoss _ | .ceRateHourEnd _ | .exit _ | .enterSafe _
  | .clearFirst _ | .pairSwitch | .pairSelfTestDone _ _ | .rowBad _ _ _ _ | .repairLogAppend _ | .agingCheck _ _
  | .domainRequest _ | .pdReq _ _ | .pdReqRelease | .pfail | .mainReturn | .tailFlushed | .flushLimit | .sealed
  | .slotOn _ | .slotOff _ | .slotClear _ | .slotFlt _ | .rampEnd _ | .backoffEnd _ | .drainTimeout _ | .reset _ _ _
  | .uligoReset _ _ | .sfdpDone _ | .validateDone _ _ | .imageCommit | .cfgCommit | .commitApply _ | .flashErase _
  | .flashDone _ | .upush _ | .push _ _ | .smbStatus | .smbImage | .smbFirstError | .smbEnterSafe _ | .smbReset _
  | .functionLevelReset | .proxyCommit _ | .proxyTmo _ | .rplDataRead | .hbmTrainingLoss _ | .thermalClockStep _ _
  | .hbmThrottle _ _ | .ftRetestExpired _ | .hfltRelease _ _ _ | .pcieUe | .eeecLocked | .discoverStart _ | .suppliesUp
  | .fltPoll _ => true

end Sys2Proof
end

