-- ==== Sys2Proof/Safety.lean ====
section
/-! DEFINITION. The terms in which the statements speak: what a command may change, and what a run may rely on. -/

namespace Sys2Proof.Machine

/-! ### What a command may change -/

/-- Every field whose key is not one of the listed fields' reads as before. -/
def Store.onlyAt (r q : Store) (fs : List Field) : Prop :=
  ∀ f : Field, (∀ g ∈ fs, f.key ≠ g.key) → q.get f = r.get f

/-- Of a part, nothing changed but the listed unstaged registers. -/
def Part.onlyRegs (p q : Part) (fs : List Field) : Prop := q = { p with regs := q.regs } ∧ p.regs.onlyAt q.regs fs

/-- Of a part, nothing changed but the listed unstaged registers and the time, which did not go back (R22). -/
def Part.onlyTime (p q : Part) (fs : List Field) : Prop :=
  q = { p with regs := q.regs, now := q.now } ∧ p.now ≤ q.now ∧ p.regs.onlyAt q.regs fs

/-- As `onlyTime`; and the fault collector was notified of occurrences of the listed sources, in this order (R412). -/
def Part.onlyEvents (p q : Part) (fs : List Field) (srcs : List Nat) : Prop :=
  q = { p with regs := q.regs, now := q.now, col := { p.col with notified := q.col.notified } } ∧ p.now ≤ q.now ∧
    p.regs.onlyAt q.regs fs ∧ ∃ l : List Occ, q.col.notified = p.col.notified ++ l ∧ l.map (·.source) = srcs

/-! ### The two ends of a die link -/

/-- The register fields of a link end. -/
def endRegs : LinkEnd → LinkRegs
  | .agg p => aggLinkRegs p
  | .ulg x => ulgLinkRegs x

/-- The part that a link end belongs to. -/
def State.endPart (s : State) : LinkEnd → Part
  | .agg _ => s.agg.p
  | .ulg _ => s.ulg.p

/-- What a link end holds. -/
def State.endPort (s : State) : LinkEnd → LinkPort
  | .agg p => (s.agg.die.get p).l
  | .ulg x => (s.ulg.link.port.get x).l

/-- The messages that the part of a link end has sent. -/
def State.endSent (s : State) : LinkEnd → List Sent
  | .agg _ => s.agg.sent
  | .ulg _ => s.ulg.sent

/-- A register field of a link end. -/
def State.endReg (s : State) (e : LinkEnd) (f : LinkRegs → Field) : Nat := (s.endPart e).reg (f (endRegs e))

/-- A link end is enabled (R146). -/
def State.endEnabled (s : State) : LinkEnd → Bool
  | .agg p => s.agg.portEnabled p
  | .ulg x => s.ulg.portEnabled x

/-- Nothing but the part of the link end changed. -/
def State.endOnly (s t : State) : LinkEnd → Prop
  | .agg _ => t = { s with agg := t.agg }
  | .ulg _ => t = { s with ulg := t.ulg }

/-- The link end is an aggregator's. -/
def endIsAgg : LinkEnd → Bool
  | .agg _ => true
  | .ulg _ => false

/-- The training limit of a link end, ms (R146, R172). -/
def State.endTrainMs (s : State) : LinkEnd → Nat
  | .agg p => s.agg.cfg (DP_CFG_TRAIN_LIMIT_MS p)
  | .ulg _ => 200

/-- A COMMIT has disabled the port of the link end, and it waits to send its responses (R170). -/
def State.endClosing (s : State) : LinkEnd → Bool
  | .agg _ => false
  | .ulg x => (s.ulg.link.port.get x).closing

/-- The link end went DOWN (R146): nothing is in flight, and an ACTIVE session is SUSPENDED (R150). -/
def State.endDown (s t : State) (e : LinkEnd) : Prop :=
  s.endOnly t e ∧ t.endReg e (·.state) = 5 ∧ t.endReg e (·.evDown) = 1 ∧ t.endReg e (·.lanes) = 0 ∧
    t.endReg e (·.pair) = 0 ∧ (t.endPort e).unacked = [] ∧ (t.endPort e).slots = [] ∧ (t.endPort e).lockHeld = false ∧
    (t.endPort e).downAt = (t.endPart e).nowNs ∧ (s.endReg e (·.session) = 2 → t.endReg e (·.session) = 3)

/-- Between `s` and `t` the link end sent one flit. -/
def State.endSends (s t : State) (e : LinkEnd) (data : Bool) (f : Flit) : Prop :=
  s.endOnly t e ∧ t.endSent e = .flit e data f :: s.endSent e

/-- A power-domain command that takes the PHY of a Uligo's port out of ON is under way (R146, R446). -/
def Ulg.phyLeaves (u : Ulg) (x : Fin 2) : Bool := (u.pwr.dom.get (0x14 + (x : Nat))).running.any fun r => r.tgt ≠ 0

/-- The control slot number `i` of the flits that leave now: the message that waits, stamped as it leaves (R35, R141). -/
def State.endSlot (s : State) (e : LinkEnd) (i : Nat) : CtrlSlot :=
  ((s.endPort e).slots.getD i .empty).stamped (s.endPart e).nowQ

/-! ### A beat dropped for its parity -/

/-- Between `s` and `t` a beat of the event bus was dropped whole for its parity (R65): no counter, request, sample FIFO or
ring but that of its core changed, the core is marked, and EV_PARITY is set. -/
def State.parityDrop (s t : State) (b : EvBeat) : Prop :=
  t = { s with ulg := { s.ulg with p := t.ulg.p, cnt := t.ulg.cnt } } ∧
    t.ulg.cnt.counters = s.ulg.cnt.counters ∧ t.ulg.cnt.request = s.ulg.cnt.request ∧ t.ulg.cnt.fifo = s.ulg.cnt.fifo ∧
    (∀ k : Nat, k ≠ 64 * (b.cluster : Nat) + b.core → t.ulg.cnt.rings.get k = s.ulg.cnt.rings.get k) ∧
    bitAt (t.ulg.cnt.cur.mask.get b.cluster) b.core = true ∧ t.ulg.reg ULG_CNT_EVENT_EV_PARITY = 1 ∧
    s.ulg.p.onlyEvents t.ulg.p [ULG_CNT_EVENT_EV_PARITY, ULG_CNT_ERR_COUNT_PARITY] [0x0202]

/-! ### Field tests -/

/-- The core of a YIELD is scheduled for a test (R116): the beat is whole, nothing keeps the sequencer from testing, no
replay, arbitration or forced test comes first, and the core is due. -/
def Ulg.mayYield (u : Ulg) (b : FtBeat) : Prop :=
  let k := 64 * (b.cluster : Nat) + b.core
  let c := u.ft.core.get k
  b.opReserved = false ∧ b.par = ftParity 0 b ∧ u.domainOn domFieldTest = true ∧ u.p.timed = true ∧ u.safe = false ∧
    u.corePresent k = true ∧ u.cfgOn ULG_FT_CFG_EN = true ∧
    (u.reg ULG_RPL_STATUS_STATE = 2 → u.reg ULG_RPL_STATUS_CORE ≠ k) ∧
    (∀ i ∈ u.ft.inst, i.awaitsArbiter = true → i.coreA / 64 = b.cluster ∨ i.coreB.getD i.coreA / 64 = b.cluster) ∧
    (∀ f, u.ft.force = some f → f.1 ≠ k) ∧ (c.state = 1 ∨ c.state = 2) ∧ c.done = false ∧ c.run = none

/-! ### Commands of a die link -/

/-- The command is the next of the session of port `x` (R155), and its COUNT is allowed (R152). -/
def Ulg.inTurn (u : Ulg) (x : Fin 2) (c : Cmd) : Prop :=
  u.reg (ULG_LINK_STATUS_SESSION x) = 2 ∧ c.seq = (u.link.port.get x).next ∧ c.seq < 2 ^ 32 ∧ c.count ≤ 16

/-- Between `u` and `v` one command of port `x` ran and was answered: NEXT advanced, the response waits for the link, and the
cache holds it and every earlier one of the 64 sequences before NEXT (R155). -/
def Ulg.answers (u v : Ulg) (x : Fin 2) (r : Resp) : Prop :=
  (v.link.port.get x).next = ((u.link.port.get x).next + 1) % 2 ^ 32 ∧
    (v.link.port.get x).respQ = (u.link.port.get x).respQ ++ [r] ∧
    (v.link.port.get x).cache = (r :: (u.link.port.get x).cache).filter (fun q => seqInWindow (v.link.port.get x).next q.seq)

/-- The command is one of the last 64 of the ACTIVE session of port `x`, whose cached response is `r` (R155). -/
def Ulg.repeats (u : Ulg) (x : Fin 2) (c : Cmd) (r : Resp) : Prop :=
  u.reg (ULG_LINK_STATUS_SESSION x) = 2 ∧ (u.link.port.get x).cache.find? (fun r => r.seq = c.seq) = some r ∧
    2 ^ 32 - 64 ≤ (c.seq + 2 ^ 32 - (u.link.port.get x).next % 2 ^ 32) % 2 ^ 32

/-- Between `s` and `t` a repeated command was answered with DUP and did not run (R155). -/
def State.answersAgain (s t : State) (x : Fin 2) (r : Resp) : Prop :=
  t = { s with ulg := { s.ulg with link := t.ulg.link } } ∧
    (t.ulg.link.port.get x).respQ = (s.ulg.link.port.get x).respQ ++ [{ r with dup := true }] ∧
    (t.ulg.link.port.get x).next = (s.ulg.link.port.get x).next

/-! ### Mirror messages -/

/-- The MIRROR packet of a mirror or journal message to an aggregator, under a session number (R218, R390, R392). -/
def Agg.mirPacket (a : Agg) (dst : Nat) (m : MirMsg) (msess : Nat) (pad : Nat := 0) : OutPacket :=
  { rclass := 1, dst := dst, paddock := pad, payload := m.bytes a.id dst msess }

/-! ### Frames of the fabric -/

/-- The meters of a port accept an arriving frame (R407). -/
def Agg.accepts (a : Agg) (p group : Nat) (rx : RxInfo) : Bool := (a.police p group rx).2

/-- The aggregator once an arriving frame has been policed (R407). -/
def Agg.policed (a : Agg) (p group : Nat) (rx : RxInfo) : Agg := (a.police p group rx).1

/-- From `a` to `b` a frame took its place at the end of its queue on a port (R396, R400). -/
def Agg.queued (a b : Agg) (p : Nat) (f : EgressFrame) : Prop :=
  ∃ k : FabPkt, k.f = f ∧ k.bytes = a.lengthOf f ∧ k.tx = 0 ∧
    b.fab.queue.get (fabKey p f.queue) = a.fab.queue.get (fabKey p f.queue) ++ [k]

/-- From `a` to `b` a frame was offered (R396, R400, R401): it took its place on the port chosen for it; or its requester
keeps it, where that port's queue was full, and a Rycon-F packet also where no port of its set was up. -/
def Agg.offered (a b : Agg) (f : EgressFrame) : Prop :=
  (∀ p, a.judgeOffer f = .placed p → a.queued b p f ∧ b.fab.wait = a.fab.wait) ∧
    (∀ p, a.judgeOffer f = .full p → b.fab.wait = a.fab.wait ++ [f] ∧ b.fab.queue = a.fab.queue) ∧
    (∀ o, f = .rycon o → a.judgeOffer f = .down → b.fab.wait = a.fab.wait ++ [f] ∧ b.fab.queue = a.fab.queue) ∧
    (a.judgeOffer f = .safe ∨ a.judgeOffer f = .tooLong ∨ a.judgeOffer f = .down ∧ (∀ o, f ≠ .rycon o) →
      b.fab.queue = a.fab.queue ∧ b.fab.wait = a.fab.wait)

/-- The registers that an offer may change: the depths of the queues, and how offers end (R400, R403, R408). -/
def offerRegs : List Field :=
  [FAB_ERR_COUNT_TOO_LONG, FAB_EVENT_TOO_LONG, FAB_EVENT_QUEUE_FULL] ++
    (List.range 12).flatMap fun p => (List.range 8).map (FAB_Q_STATUS_DEPTH p)

/-- As `Part.onlyTime`, but for what the offers of frames change besides: their registers, and the occurrences notified. -/
def Part.onlyOffers (p q : Part) (fs : List Field) : Prop :=
  q = { p with regs := q.regs, now := q.now, col := { p.col with notified := q.col.notified } } ∧ p.now ≤ q.now ∧
    p.regs.onlyAt q.regs (fs ++ offerRegs)

/-- From `a` to `b` these frames were offered to the egress queues, one after the other (R396, R400), and nothing else of the
fabric changed. -/
def Agg.offeredAll (a b : Agg) (l : List EgressFrame) : Prop := b.fab = (l.foldl Agg.offer a).fab

/-- In `b` a packet that was offered in `a`, or after it with the same ports up, has its place in a queue, or its requester
keeps it: neither safe state nor the calendars refuse it (R396, R400, R403). -/
def Agg.handed (a b : Agg) (o : OutPacket) : Prop :=
  a.safe = false → (a.placeable (.rycon o) ≠ [] ∨ (a.portSet (.rycon o)).any a.fabUp = false) →
    (∃ p k, k ∈ b.fab.queue.get (fabKey p o.queue) ∧ k.f = .rycon o) ∨ .rycon o ∈ b.fab.wait

/-- Between `a` and `b` these packets left a port in this order, each starting now (R391, R404). -/
def Agg.launched (a b : Agg) (p : Nat) (os : List OutPacket) : Prop :=
  ∃ ks : List FabPkt, ks.map (·.f) = os.map .rycon ∧ (∀ k ∈ ks, k.tx = 0 ∧ k.enqNs = b.p.nowNs) ∧
    b.sent = (ks.map fun k => Sent.frame p k (a.ryconWire p k.o.queue k.o k.psn k.enqNs 0)).reverse ++ a.sent

/-- A frame of RTYPE `t` to the spine's reduction service (R253, R254). -/
def spinePacket (t : Nat) (f : RedFrame) : OutPacket := { rclass := 2, spine := true, payload := f.bytes t }

/-- A reduction frame to every other member of the ring, over the fleet notice path (R261, R262, R397). -/
def Agg.toRing (a b : Agg) (frame : List Byte) : Prop :=
  ∀ m < a.tly.set.aggs, m ≠ a.id → a.handed b { rclass := 3, msgType := 2, dst := m, payload := frame }

/-- The aggregator at the instant of `b`, everything else being as in `a`. -/
def Agg.atTimeOf (a b : Agg) : Agg := { a with p := { a.p with now := b.p.now } }

/-! ### A rule program's run -/

/-- The run of a die slot that executes the operation `o` of opcode `opc` now (R271, R276, R454). -/
def Agg.executes (a : Agg) (slot opc : Nat) (o : Op) (r : Run) : Prop :=
  (a.dieDet slot).run = some r ∧ r.at_ opc o = true ∧ a.inBudget slot r = true ∧ a.gasp = false

/-- A run after an operation of `cost` cycles has changed it to `r`: the cycles are charged and the next operation follows
(R277, R279). -/
def Agg.goesOn (a : Agg) (slot : Nat) (r : Run) (cost : Nat) : Run :=
  (r.charge cost).step 1 (a.runCores slot r) r.missing

/-- Of the machine, only the run of a die slot changed. -/
def State.withRun (s : State) (slot : Nat) (r : Run) : State :=
  s.onAgg fun a => a.onSlot slot fun d => { d with run := some r }

/-- An operation of `cost` cycles changed the run of a die slot to `r`, and nothing else changed. -/
def State.ran (s : State) (slot : Nat) (r : Run) (cost : Nat) : State := s.withRun slot (s.agg.goesOn slot r cost)

/-- One more free value of the aggregator has been used (log entry 7). -/
def State.drewAgg (s : State) : State :=
  { s with agg := { s.agg with p := { s.agg.p with free := s.agg.p.free + 1 } } }

/-! ### The fault collectors -/

/-- The aggregator once its collector has read its configuration and pending list by majority (R425). -/
def Agg.voted (a : Agg) : Agg := { a with p := a.p.vote }

/-- The Uligo once its collector has read its configuration and pending list by majority (R425). -/
def Ulg.voted (u : Ulg) : Ulg := { u with p := u.p.vote }

/-- From `c` to `d` the collector used its configuration and pending list (R425): one upset copy of either is rewritten, with
source 0x0000, and once more of one are upset only floor classes count, with source 0x0001. -/
def Collector.votes (c d : Collector) : Prop :=
  (c.cfgBad.length = 1 ∨ c.pendBad.length = 1 → ∃ o ∈ d.notified, o.source = 0x0000) ∧
    (c.cfgBad.length = 1 → d.cfgBad = []) ∧ (c.pendBad.length = 1 → d.pendBad = []) ∧
    (2 ≤ c.cfgBad.length ∨ 2 ≤ c.pendBad.length → d.floorOnly = true ∧
      (c.floorOnly = false → ∃ o ∈ d.notified, o.source = 0x0001)) ∧
    (c.cfgBad = [] → c.pendBad = [] → d.notified = c.notified ∧ d.floorOnly = c.floorOnly)

/-! ### The journal -/

/-- The operation `op` is complete, with an outcome (R234). -/
def Agg.ended (b : Agg) (op outcome : Nat) : Prop :=
  op ∉ b.shed.begun ∧ ∃ j ∈ b.shed.journal, j.op = op ∧ j.type = 0x11 ∧ j.outcome = outcome

/-- From `a` to `b` the operation that NEXT_OP named was begun with its BEGIN written (R234). -/
def Agg.began (a b : Agg) (kind : Nat) (die : Option Nat) (arg : Nat) : Prop :=
  b.reg SHED_JRN_NEXT_OP = (a.reg SHED_JRN_NEXT_OP + 1) % 2 ^ 64 ∧
    ∃ j ∈ b.shed.journal, j.op = a.reg SHED_JRN_NEXT_OP ∧ j.type = 0x10 ∧ j.kind = kind ∧ j.die = die ∧ j.arg = arg

/-- From `a` to `b` a NOTICE packet was taken by its consumer: it no longer waits, and its acknowledgement is pending
(R394). -/
def Agg.noticeAcked (a b : Agg) (h : HeldNotice) : Prop :=
  b.fab.held = a.fab.held.erase h ∧
    ∃ k ∈ b.fab.acks, k.src = h.src ∧ k.cls = 3 ∧ k.incarn = h.incarn ∧ k.port = h.port ∧ h.psn ∈ k.psns

/-- From `a` to `b` the operation of a Hurdle was answered with an outcome (R300): its DONE is written, and its delivery goes on
only to the recipients that have neither acknowledged nor gone unanswered (R298). -/
def Agg.hurdleAnswered (a b : Agg) (op outcome : Nat) : Prop :=
  (op ∈ a.shed.begun → a.jrnFind op ≠ none → a.shed.fenceOp ≤ op → a.gasp = false → b.ended op outcome) ∧
    (∀ x ∈ b.det.deliv, x.op = op → x.answered = true ∧ ∃ y ∈ x.toAggs, y.acked = false ∧ y.gaveUp = false) ∧
    ∀ x ∈ a.det.deliv, x.op = op → (∃ y ∈ x.toAggs, y.acked = false ∧ y.gaveUp = false) →
      { x with answered := true } ∈ b.det.deliv

/-! ### Commands to a Uligo -/

/-- From `a` to `b` a command for the Uligo at port `p` joined the port's queue (R157, R166): it waits for the push that
FULL_REQ calls for, takes the session's next sequence, or is held while 64 lack a response. -/
def Agg.proxied (a b : Agg) (p : Nat) (c : OutCmd) : Prop :=
  ((a.die.get p).mustPush = true → b.die.get p = { a.die.get p with again := (a.die.get p).again ++ [c] }) ∧
    ((a.die.get p).mustPush = false → (a.die.get p).cmds.length < 64 →
      (b.die.get p).cmds = (a.die.get p).cmds ++ [{ c with seq := a.reg (DP_CMD_STATUS_NEXT_SEQ p), sent := false }] ∧
      b.reg (DP_CMD_STATUS_NEXT_SEQ p) = (a.reg (DP_CMD_STATUS_NEXT_SEQ p) + 1) % 2 ^ 32) ∧
    ((a.die.get p).mustPush = false → 64 ≤ (a.die.get p).cmds.length →
      (b.die.get p).heldCmds = (a.die.get p).heldCmds ++ [c] ∧ (b.die.get p).cmds = (a.die.get p).cmds)

/-- The push of a slot that began between `a` and `b` (R486, R487): BEGIN is written with its cause, and its commands go to
the die, the identity first, once that has been mirrored. -/
def Agg.pushBegan (a b : Agg) (slot cause : Nat) : Prop :=
  a.began b 7 (a.dieOfSlot slot) (a.ucfgId slot + 2 ^ 32 * slot + 2 ^ 40 * cause) ∧
    b.conf.push.get slot = { a.conf.push.get slot with
      running := true, cause := cause, op := some (a.reg SHED_JRN_NEXT_OP)
      waiting := !b.beginMirrored (a.reg SHED_JRN_NEXT_OP) } ∧
    bitAt (b.reg CFG_UCFG_STATUS_BUSY) slot = true ∧
    (b.beginMirrored (a.reg SHED_JRN_NEXT_OP) = false → b.die = a.die) ∧
    (b.beginMirrored (a.reg SHED_JRN_NEXT_OP) = true → (a.die.get (a.portOfSlot slot)).cmds.length < 64 →
      ∃ c rest, (b.die.get (a.portOfSlot slot)).cmds = (a.die.get (a.portOfSlot slot)).cmds ++ c :: rest ∧
        c.opcode = 2 ∧ c.addr = ULG_CFG_DIE_FLEET_DIE.off ∧ c.data = [(a.dieOfSlot slot).getD 0 + 2 ^ 17])

/-! ### The loader -/

/-- The aggregator as adoption begins: `CFG_ADOPT` shows what was written (R482). -/
def Agg.adopting (a : Agg) (write : Bool) (len : Nat) : Agg :=
  ((a.put CFG_ADOPT_GO 1).put CFG_ADOPT_WRITE (if write then 1 else 0)).put CFG_ADOPT_LEN len

/-! ### Slots -/

/-- Between `a` and `b` the changes of a slot that were in progress completed with an outcome (R463): those begun and not
fenced that the journal knows. -/
def Agg.slotEnded (a b : Agg) (slot outcome : Nat) : Prop :=
  (b.slotCh slot).ops = [] ∧ ∀ o ∈ (a.slotCh slot).ops, o ∈ a.shed.begun → a.jrnFind o ≠ none → a.shed.fenceOp ≤ o →
    a.gasp = false → b.ended o outcome

/-- The slot's switch was opened on the way from `a` to `b` (R459). -/
def Agg.slotOpened (a b : Agg) (slot st : Nat) : Prop :=
  b.slotSt slot = st ∧ b.reg (SLOT_STATUS_EN_SENSE slot) = 0 ∧ b.reg (SLOT_STATUS_REF_NOW slot) = 0 ∧
    Sent.slotEn slot false ∈ b.sent ∧ (b.slotCh slot).over_ = 0 ∧ (b.slotCh slot).ok = 0 ∧
    (b.slotCh slot).atNs = b.p.nowNs

/-- A trip took the slot from RAMP or ON to BACKOFF or FAULTED between `a` and `b` (R460, R462). -/
def Agg.slotTripped (a b : Agg) (slot cause : Nat) : Prop :=
  b.reg (SLOT_STATUS_LAST_CAUSE slot) = cause ∧
    b.reg (SLOT_STATUS_TRIPS slot) = min (a.reg (SLOT_STATUS_TRIPS slot) + 1) 3 ∧
    (a.reg (SLOT_STATUS_TRIPS slot) < a.cfg SLOT_CFG_RETRY_MAX → a.slotOpened b slot 4 ∧
      (b.slotCh slot).ops = (a.slotCh slot).ops) ∧
    (a.cfg SLOT_CFG_RETRY_MAX ≤ a.reg (SLOT_STATUS_TRIPS slot) → a.slotOpened b slot 5 ∧ a.slotEnded b slot 3 ∧
      b.reg PWR_EVENT_SLOT_FAULTED = 1)

/-- Between `a` and `b` at most spare rows that were due in memory loaded anew were mapped (R431). -/
def Agg.mapped (a b : Agg) : Prop :=
  (∃ due l, b.flt = { a.flt with rowsDue := due } ∧ due ⊆ a.flt.rowsDue ∧ b.rprQueue = a.rprQueue ++ l ∧
    ∀ e ∈ l, e.etype = 6) ∧ (a.flt.rowsDue = [] → b.flt = a.flt ∧ b.rprQueue = a.rprQueue)

/-! ### Arrays of the Verifier -/

/-- Some array may take every waiting job (R347). -/
def Agg.allPlaced (a : Agg) : Prop := ∀ k ∈ a.vrf.jobs, ∃ y, y < 8 ∧ a.eligible k y = true

/-- The job runs as a pass once an array takes it: a tile does where its profile is valid and supports it (R335, R336). -/
def Agg.computes (a : Agg) (j : VJob) : Prop :=
  match j.work with
  | .tile tag => ∃ c, (a.vrf.checks.find? fun c => c.tag = tag) = some c ∧
      (parseProfile (a.profileFor (descProfile (tileDesc c.bytes)) c.endNs).1).valid = true ∧
      tileUnsupported (parseProfile (a.profileFor (descProfile (tileDesc c.bytes)) c.endNs).1) (tileDesc c.bytes) = false
  | _ => True

/-- From `a` to `b`, array `x` has taken the job `j` as a pass, with the queued predictor jobs of the same package and tick
(R344, R347): they have left the queue, and the array's other passes are `drain`. -/
def Agg.took (a b : Agg) (x : Nat) (j : VJob) (drain : List Pass) : Prop :=
  ∃ p : Pass, b.vrf.arr.get x = { a.vrf.arr.get x with job := some p, drain := drain } ∧ p.job = j ∧
    p.startNs = b.p.nowNs ∧
    (∀ k, k ∈ p.more ↔ k ∈ a.vrf.jobs ∧ k.id ≠ j.id ∧ a.eligible k x = true ∧
      ∃ u v tick l, j.work = .predict u tick l ∧ k.work = .predict v tick l) ∧
    (∀ k, k ∈ b.vrf.jobs ↔ k ∈ a.vrf.jobs ∧ k.id ≠ j.id ∧ ∀ q ∈ p.more, k.id ≠ q.id) ∧
    ∀ y, y ≠ x → b.vrf.arr.get y = a.vrf.arr.get y

/-- The jobs `new` joined the queue of the Verifier, and a self-test began on their arrays: number, seed, target and kind are
those given (R349, R352). -/
def Agg.tested (a b : Agg) (x : Nat) (arrays : List Nat) (kind : Nat) : Prop :=
  b.vrf.arr = a.vrf.arr ∧ b.reg VRF_STATUS_ST_COUNT = (a.reg VRF_STATUS_ST_COUNT + 1) % 2 ^ 32 ∧
    (∃ q, b.vrf.tests = a.vrf.tests ++ [q] ∧ q.id = a.vrf.nextTest ∧ q.num = a.reg VRF_STATUS_ST_COUNT ∧
      q.seed = a.cfg VRF_ST_SEED_SEED ∧ q.target = x ∧ q.arrays = arrays ∧ q.results = [] ∧ q.beganNs = none ∧
      q.kind = kind) ∧
    ∃ new, b.vrf.jobs = a.vrf.jobs ++ new ∧ (new.map fun j => (j.work, j.cls, j.mask)) =
      arrays.map fun y => (VWork.selfTest a.vrf.nextTest, 0, 255 - 2 ^ y)

/-- The machine after `n` steps, or the first step that answers no next state. -/
def State.steps : Nat → State → Host.Outcome State Fault Refusal
  | 0, s => .next s
  | n + 1, s =>
    match step s with
    | .next t => t.steps n
    | .fault f => .fault f
    | .refused r => .refused r

/-! ### Which part a command concerns -/

/-- The part whose state a command may change: `none` for TW_SYNC, whose disagreement is reported at once at the
aggregator (R36). -/
def PartSel.ofEnd : LinkEnd → PartSel
  | .agg _ => .agg
  | .ulg _ => .ulg

end Sys2Proof.Machine

namespace Sys2Proof

open Machine in
/-- The one part that a command may change and read, `none` for TW_SYNC, the one command that concerns both (R36). -/
def Instr.part : Instr → Option PartSel
  | .twSync _ _ => none
  | .tickLatch p _ | .tickActivation p | .holdLimit p | .rcRead p _ _ | .faultOccurrence p _ | .sheepdog p | .exitStart p
  | .safeExit p | .heartbeatLoss p | .ceRateHourEnd p | .fltAck p _ | .exit p | .enterSafe p | .clearFirst p
  | .fltInject p _ _ | .agingCheck p _ | .quiesceAccept p _ | .quiesceDeny p _ | .domainTransitionComplete p _
  | .commitApply p | .registerWrite p _ _ _ => some p
  | .trainingDone e _ | .trainLimit e | .alignTimeout e | .alignmentLockLost e | .retryTimeout e | .reupHold e
  | .dataFlit e _ | .idleFlit e _ | .violDown e | .replayTimeout e | .flitSend e => some (PartSel.ofEnd e)
  | .islandMissing _ | .epochActivation | .epochBoundary | .twFull _ _ | .coastExpiry | .ulgTimeSecRead | .hostWrite _ _ _
  | .countBeat _ | .sampleBeat _ | .ringBeat _ | .reservedKindBeat _ | .ovsRequestTimeout _ | .uncoreBeat _
  | .queueProbeBeat _ | .commandTagBeat _ | .hang _ | .packStart _ | .recordClose | .ringUnfreeze _ _ | .fullNext
  | .ovsSlotWrite _ _ | .ovsPop _ | .traceBeat _ | .traceOverflowRecover _ | .authExpired | .trcRingDataRead | .ftCoreDue _
  | .yieldBeat _ | .sigLo _ | .sigHi _ | .ftSigTimeout _ | .ftDeferred _ | .pairWaitExpiry _ | .ftForce _ _ _ | .cmdBeat _
  | .tileDataBeat _ _ | .endBeat _ | .tileTimeout _ | .tileForce _ | .captureBufferUe _ | .hello _ _ _ _ | .read _ _
  | .write _ _ | .commit _ _ | .sessionStatus _ _ | .nop _ _ | .replayOpen _ _ | .replayLoad _ _ | .replayStart _ _
  | .replayStatus _ _ | .replayClose _ _ | .domain _ _ | .domainQuery _ _ | .replayRunTimeout | .hfltAssert _ _ _
  | .ulgFltPop _ | .pdReq _ _ | .pdReqRelease | .uligoReset _ _ | .rplDataRead | .hfltRelease _ _ _
  | .hostPortBadAccess _ _ _ => some .ulg
  | .ptpSync _ _ | .followUp _ _ | .delayResp _ _ | .announce _ _ _ | .announceReceiptTimeout _ | .delayReq _
  | .ptpMessageDropped _ _ _ | .esmc _ _ _ | .esmcTransmit | .twSyncSend _ | .twEcho _ _ | .scheduledLaunch _
  | .timeSecRead | .pathChange _ _ _ _ | .helloSend _ | .helloAck _ _ | .response _ _ | .release _ | .claim _
  | .streamTimeout _ | .recordCommit _ _ | .sweepVisit | .readLoc _ | .lookup | .insertStatic | .delete
  | .ringReleased _ | .shedUe _ | .shedRepaired | .scrub _ _ | .mirrorHelloSend | .mirrorHello _ _ _ _ _ _
  | .mirrorHelloAck _ _ _ _ | .mirrorData _ | .mirrorAck _ _ _ _ | .mirrorResend _ | .mirrorStall | .stalled
  | .mirrorRateWindow | .jquery _ | .janswer _ | .jqueryTimeout | .journalOpen | .jqGo _ | .jqNoAnswer | .fetch _
  | .fetchEnd _ _ _ _ | .segmentAge _ | .segmentWritten _ | .dzGo | .dzDone _ | .obsClose _ | .cover _ _
  | .coverLate _ | .launchRequest _ _ _ | .countResult _ | .result _ | .resultDeadline _ | .attemptStart _
  | .chunk _ | .stepDeadline _ | .skip _ | .join _ | .roundFailed _ | .tallyActivation | .tickRunStart _
  | .roundRunStart _ | .runEnd _ | .overrun _ | .droverCoreFault _ _ | .runSkip _ | .opEnd _ _ | .opLdi _ _
  | .opLdp _ _ | .opFeat _ _ | .opAdd _ _ | .opSub _ _ | .opMul _ _ | .opDiv _ _ | .opShr _ _ | .opMin _ _
  | .opMax _ _ | .opAbs _ _ | .opClt _ _ | .opSel _ _ | .opSkipz _ _ | .opLds _ _ | .opSts _ _ | .opEwma _ _
  | .opCusum _ _ | .opAcc _ _ | .opLda _ _ | .opEachcore _ _ | .opBrank _ _ | .opBquant _ _ | .opBmom _ _
  | .opNbr _ _ | .opPost _ _ | .opPred _ _ | .opVec _ _ | .opHedge _ _ | .opCause _ _ | .opEmit _ _
  | .verdictDelivery _ | .evidWait _ | .noticeInterrupt | .nqHeadWrite _ | .noticeResend _ _ | .hurdleAccept _
  | .hurdleDecline _ | .hurdleLift _ | .hurdleUnanswered _ | .restoreCold _ | .hedgeScore _ | .modelLoaded _
  | .modelActivate _ | .retainEnd _ | .sramUe _ | .reloaded _ | .passStart _ | .passEnd _ _ | .jobAging _
  | .operandUe _ _ | .selfTestDue _ | .retire _ | .retest _ | .selftest _ | .prevTableRelease | .tileCheckDispatch _
  | .replayAutoOpen _ | .replayPoll _ _ | .rplExpired _ | .epochDecision _ | .epochHold _ | .taintDelivery _
  | .clearDelivery _ | .needTaint _ _ _ | .fleeceExport _ | .fleeceResend _ | .seLift _ | .seCloseCase _
  | .seRestoreTimeout _ | .ryconFPacket _ _ | .noticeReceived _ | .transportAck _ _ _ _ | .retransmit _ _ _ _
  | .ackSend _ _ | .neighborSolicitation _ _ _ _ | .echoRequest _ _ _ _ _ _ | .packetEnqueue _ | .frameStart _ | .shaperRefill
  | .fabricPortDown _ _ | .quiesceTimeout _ | .fltPoll _ | .lockstepMismatch _ _ | .pairSwitch
  | .pairSelfTestDone _ _ | .rowBad _ _ _ _ | .repairLogAppend _ | .revoke _ | .domainRequest _ | .pfail | .mainReturn
  | .arm _ _ | .tailFlushed | .flushLimit | .sealed | .cut _ | .cellTest _ | .slotOn _ | .slotOff _ | .slotClear _
  | .slotSample _ _ _ _ | .slotFlt _ | .rampEnd _ | .backoffEnd _ | .drainTimeout _ | .reset _ _ _ | .sfdpDone _
  | .validateDone _ _ | .imageCommit | .cfgCommit | .adopt _ _ _ | .flashErase _ | .flashProgram _ _ | .flashDone _
  | .upush _ | .push _ _ | .smbStatus | .smbImage | .smbFirstError | .smbEnterSafe _ | .smbReset _
  | .functionLevelReset | .proxyRead _ _ _ | .proxyWrite _ _ _ _ | .proxyCommit _ | .proxyTmo _ | .apertureWrite _ _
  | .hbmTrainingLoss _ | .thermalClockStep _ _ | .hbmThrottle _ _ | .ftRetestExpired _ | .disarm _ _ | .pcieUe
  | .fabricPortUp _ _ | .eeecLocked | .bar0UnmappedAccess _ _ | .discoverStart _ | .suppliesUp => some .agg

end Sys2Proof
end

