-- ==== Sys2Proof/Certificates/Slice0/Obligations.lean ====
section
/-! DEFINITION. The statements for the provers. A completion statement says for which states a command has its own
effect, that the machine answers a next state there, what that state holds and what it leaves alone. -/

open Sys2Proof Sys2Proof.Machine

/-! ### Fleet time (01) -/

/-- R55: TIME_SEC_READ and ULG_TIME_SEC_READ capture the seconds, nanoseconds and fraction of one instant, and change
nothing else. -/
def Obligations.TimeReadCapturesOneInstant : Prop := ∀ s : State,
  (∃ t, exec .timeSecRead s = .next t ∧
    t = { s with agg := { s.agg with p := t.agg.p, rdata := s.agg.p.nowSec % 2 ^ 48 } } ∧
    t.agg.reg TIME_SUBSEC_NS = s.agg.p.nowNs % 10 ^ 9 ∧ t.agg.reg TIME_SUBSEC_FRAC = s.agg.p.nowQ % 2 ^ 16 ∧
    s.agg.p.onlyRegs t.agg.p [TIME_SUBSEC_NS, TIME_SUBSEC_FRAC]) ∧
  (∃ t, exec .ulgTimeSecRead s = .next t ∧
    t = { s with ulg := { s.ulg with p := t.ulg.p, rdata := s.ulg.p.nowSec % 2 ^ 48, rerr := false } } ∧
    t.ulg.reg ULG_TIME_SUBSEC_NS = s.ulg.p.nowNs % 10 ^ 9 ∧ t.ulg.reg ULG_TIME_SUBSEC_FRAC = s.ulg.p.nowQ % 2 ^ 16 ∧
    s.ulg.p.onlyRegs t.ulg.p [ULG_TIME_SUBSEC_NS, ULG_TIME_SUBSEC_FRAC])

/-- PTP messages of the configured domain on an enabled port (R27 to R31, R407): policed by the meter of group TIME, a SYNC and
its FOLLOW_UP complete an exchange whose offset is t2 − t1 − delay, DELAY_RESP gives the delay, DELAY_REQ takes its place in
queue TIME, ANNOUNCE and its timeout set the port's master, and a dropped message is counted. The Uligo and the queue are
left alone. Where the spec is open, the clauses rest on the model's reading (log entries 4 and 9). -/
def Obligations.PtpMessagesHaveTheirEffect : Prop := ∀ (s : State) (port : Fin 12) (m : PtpMsg) (d : AnnounceData),
  (s.agg.accepts port 0 m.rx = true →
    (ptpEnabled s.agg port = true → ptpOurs s.agg m = true → -7 ≤ m.logInterval → m.logInterval ≤ -3 →
      (s.agg.time.ptp.get port).master.isSome = true →
      (m.twoStep = false → ∃ t, exec (.ptpSync port m) s = .next t ∧ t.ulg = s.ulg ∧ t.pending = s.pending ∧
        (t.agg.time.ptp.get port).offset =
          some (ptpIngress s.agg port - m.correction - m.stamp - (s.agg.time.ptp.get port).delay) ∧
        ∀ q : Nat, q ≠ port → t.agg.time.ptp.get q = s.agg.time.ptp.get q) ∧
      (m.twoStep = true → ∃ t, exec (.ptpSync port m) s = .next t ∧
        t = { s with agg := { s.agg.policed port 0 m.rx with time := t.agg.time } } ∧
        (t.agg.time.ptp.get port).twoStep = some (m.seqId, ptpIngress s.agg port - m.correction, 0))) ∧
    (∀ t2 x, ptpEnabled s.agg port = true → ptpOurs s.agg m = true →
      (s.agg.time.ptp.get port).twoStep = some (m.seqId, t2, x) →
      ∃ t, exec (.followUp port m) s = .next t ∧ t.ulg = s.ulg ∧ t.pending = s.pending ∧
        (t.agg.time.ptp.get port).offset = some (t2 - m.correction - m.stamp - (s.agg.time.ptp.get port).delay) ∧
        (t.agg.time.ptp.get port).twoStep = none) ∧
    (∀ t3 t1 t2, ptpEnabled s.agg port = true → ptpOurs s.agg m = true → m.mine = true →
      (s.agg.time.ptp.get port).req = some (m.seqId, t3) → (s.agg.time.ptp.get port).sync = some (t1, t2) →
      ∃ t, exec (.delayResp port m) s = .next t ∧
        t = { s with agg := { s.agg.policed port 0 m.rx with time := t.agg.time } } ∧
        (t.agg.time.ptp.get port).delay = ((t2 - t1) + (m.stamp - m.correction - t3)) / 2 ∧
        (t.agg.time.ptp.get port).req = none ∧ (t.agg.time.ptp.get port).measured = true) ∧
    (ptpEnabled s.agg port = true → ptpOurs s.agg m = true → ∃ t, exec (.announce port m d) s = .next t ∧
      t = { s with agg := { s.agg.policed port 0 m.rx with p := t.agg.p, time := t.agg.time } } ∧
      (t.agg.time.ptp.get port).master = some d)) ∧
  (s.agg.accepts port 0 m.rx = false → ∀ c, c ∈ [Instr.ptpSync port m, .followUp port m, .delayResp port m, .announce port m d] →
    exec c s = .next { s with agg := s.agg.policed port 0 m.rx }) ∧
  (ptpEnabled s.agg port = true → s.agg.safe = false → ∃ t, exec (.delayReq port) s = .next t ∧
    t = { s with agg := { s.agg with p := t.agg.p, time := t.agg.time, fab := t.agg.fab } } ∧
    s.agg.offered t.agg (.delayReq port (s.agg.time.ptp.get port).nextReq) ∧
    t.agg.time.ptp.get port =
      { s.agg.time.ptp.get port with nextReq := ((s.agg.time.ptp.get port).nextReq + 1) % 65536 }) ∧
  (∃ t, exec (.announceReceiptTimeout port) s = .next t ∧
    t = { s with agg := { s.agg with p := t.agg.p, time := t.agg.time } } ∧
    (t.agg.time.ptp.get port).master = none ∧ (t.agg.time.ptp.get port).offset = none) ∧
  (∀ why rx, s.agg.accepts port 0 rx = true → ∃ t, exec (.ptpMessageDropped port why rx) s = .next t ∧
    t = { s with agg := { s.agg.policed port 0 rx with p := t.agg.p } } ∧
    t.agg.reg TIME_ERR_COUNT_DROP = min (s.agg.reg TIME_ERR_COUNT_DROP + 1) (2 ^ 32 - 1) ∧
    (if why = .malformed then (s.agg.policed port 0 rx).p.onlyEvents t.agg.p [TIME_ERR_COUNT_DROP, TIME_EVENT_PTP_BAD] [0x0106]
     else (s.agg.policed port 0 rx).p.onlyRegs t.agg.p [TIME_ERR_COUNT_DROP]))

/-- The frequency source (R32, R33), the HOLDOVER limit (R42) and the spine's path change (R43, R398). Which port ESMC
selects rests on the codes' rank, a free value (log entry 14); without a usable code there is no source. QL-DNU is offered on
every port. Where the spec is open, the clauses rest on the model's reading (log entries 4 and 14). -/
def Obligations.FrequencyAndHoldover : Prop := ∀ (s : State) (port : Fin 12) (ql : Nat) (rx : RxInfo),
  (s.agg.accepts port 0 rx = true → ∃ t, exec (.esmc port ql rx) s = .next t ∧
    t = { s with agg := { s.agg.policed port 0 rx with p := t.agg.p, time := t.agg.time } } ∧
    t.agg.time.ql.get port = ql ∧
    t.agg.reg SYNCE_STATUS_SRC_PORT = ((esmcBest { s.agg with time := t.agg.time }).getD 15) % 16) ∧
  (∃ t, exec .esmcTransmit s = .next t ∧ t = { s with agg := { s.agg with p := t.agg.p, fab := t.agg.fab } } ∧
    ∀ q : Nat, q < 12 → s.agg.judgeOffer (.esmc q) = .placed q → s.agg.queued t.agg q (.esmc q)) ∧
  (s.agg.safe = true → exec .esmcTransmit s = .next s) ∧
  (s.agg.reg SYNCE_STATUS_SRC_PORT ≠ 15 → ∃ t, exec .eeecLocked s = .next t ∧
    t = { s with agg := { s.agg with p := t.agg.p } } ∧ s.agg.p.onlyRegs t.agg.p [SYNCE_STATUS_STATE] ∧
    t.agg.reg SYNCE_STATUS_STATE = 1) ∧
  (s.agg.p.servo.state = 4 → ∃ t, exec (.holdLimit .agg) s = .next t ∧ t = { s with agg := { s.agg with p := t.agg.p } } ∧
    s.agg.p.onlyEvents t.agg.p [TIME_EVENT_HOLD_LIMIT] [0x0104] ∧ t.agg.reg TIME_EVENT_HOLD_LIMIT = 1) ∧
  (s.ulg.p.servo.state = 4 → ∃ t, exec (.holdLimit .ulg) s = .next t ∧ t = { s with ulg := { s.ulg with p := t.ulg.p } } ∧
    s.ulg.p.onlyEvents t.ulg.p [ULG_TIME_EVENT_HOLD_LIMIT] [0x010C] ∧ t.ulg.reg ULG_TIME_EVENT_HOLD_LIMIT = 1) ∧
  (∀ sp ns, s.agg.reg (PTP_PORT_STATE_ST port) = 3 → s.agg.p.servo.state = 2 →
    ∃ t, exec (.pathChange port 1 sp ns) s = .next t ∧ t = { s with agg := { s.agg with p := t.agg.p } } ∧
      t.agg.p.servo.state = 4 ∧ t.agg.reg FAB_EVENT_PATH_NOTICE = 1) ∧
  (∀ sp ns, s.agg.reg (PTP_PORT_STATE_ST port) = 4 →
    ∃ t, exec (.pathChange port 1 sp ns) s = .next t ∧
      t = { s with agg := { s.agg with p := t.agg.p, time := t.agg.time } } ∧
      (t.agg.time.ptp.get port).offset = none ∧ t.agg.reg FAB_EVENT_PATH_NOTICE = 1) ∧
  (∀ sp ns, s.agg.reg (PTP_PORT_STATE_ST port) ≠ 3 → s.agg.reg (PTP_PORT_STATE_ST port) ≠ 4 →
    ∃ t, exec (.pathChange port 1 sp ns) s = .next t ∧
      t = { s with agg := { s.agg with p := t.agg.p, fab := { s.agg.fab with pathOther := s.agg.fab.pathOther + 1 } } } ∧
      s.agg.p.onlyEvents t.agg.p [FAB_EVENT_PATH_NOTICE] [(evSource evBlockAgg FAB_EVENT_PATH_NOTICE).getD 0]) ∧
  (∀ pt sp ns, pt ≠ 1 → ∃ t, exec (.pathChange port pt sp ns) s = .next t ∧
    t = { s with agg := { s.agg with p := t.agg.p } } ∧
    s.agg.p.onlyEvents t.agg.p [FAB_ERR_COUNT_VIOL, FAB_EVENT_VIOL] [(evSource evBlockAgg FAB_EVENT_VIOL).getD 0])

/-- Time words (R35 to R39): in UP and RETRY the aggregator sends one with its own SEQ every TW_INTERVAL, every 1,024th a TW_FULL; the
Uligo answers each with an echo of the same SEQ and keeps its times, the echo's stamps give D_UP, a completed exchange gives
the port its offset, TW_FULL sets an unset clock, and a source that falls silent is left. A word of a reserved TYPE is
refused. Where the spec is open, the clauses rest on the model's reading (log entries 4 and 15). -/
def Obligations.TimeWordsHaveTheirEffect : Prop := ∀ (s : State) (p : Fin 16) (x : Fin 2) (w : TimeWord),
  (s.agg.p.servo.state < 2 ∨ s.agg.reg (DP_STATUS_STATE p) ≠ 3 ∧ s.agg.reg (DP_STATUS_STATE p) ≠ 4 →
    exec (.twSyncSend p) s = .next s) ∧
  (∀ a, a = s.agg.twDue p → 2 ≤ s.agg.p.servo.state →
    s.agg.reg (DP_STATUS_STATE p) = 3 ∨ s.agg.reg (DP_STATUS_STATE p) = 4 → ∃ t,
    exec (.twSyncSend p) s = .next t ∧
    t = { s with agg := { s.agg with p := t.agg.p, time := t.agg.time, die := t.agg.die, sent := t.agg.sent } } ∧
    t.agg.p = { s.agg.p with now := t.agg.p.now } ∧ s.agg.p.now ≤ t.agg.p.now ∧
    (∀ ns, (s.agg.time.tw.get p).lastNs = some ns → ns ≤ s.agg.p.nowNs →
      ns + 1000 * 2 ^ s.agg.cfg PTP_CFG_TW_INTERVAL ≤ t.agg.p.nowNs) ∧
    ((s.agg.time.tw.get p).lastNs = none → t.agg.p.now = s.agg.p.now) ∧
    (t.agg.time.tw.get p).seq = ((s.agg.time.tw.get p).seq + 1) % 256 ∧
    (t.agg.time.tw.get p).lastNs = some t.agg.p.nowNs ∧
    ∃ v, t.agg.sent = .timeWord p ((s.agg.time.tw.get p).count % 1024 == 1023) v :: s.agg.sent ∧
      t.agg.die = (s.agg.slotOut p
        (if (s.agg.time.tw.get p).count % 1024 = 1023 then .timeFull v else .timeSync v)).die ∧
      v.seq = (s.agg.time.tw.get p).seq ∧ v.srcErrNs = a.errNs ∧ v.srcDegraded = (s.agg.p.servo.state != 2) ∧
      (if (s.agg.time.tw.get p).count % 1024 = 1023 then v.depart = t.agg.p.nowQ
        else v.depart = departOf t.agg.p.nowQ)) ∧
  (∃ t, exec (.twEcho p w) s = .next t ∧ t = { s with agg := { s.agg with time := t.agg.time } } ∧
    (t.agg.time.tw.get p).dUp = (let d : Int := s.agg.p.nowQ - extendNear 64 (w.depart % 2 ^ 64) s.agg.p.nowQ
      let c := clampInt (-(2 ^ 31)) (2 ^ 31 - 1) d
      some (w.seq, c, decide (d ≠ c)))) ∧
  (w.reservedSet = true →
    (∃ t, exec (.twSync x w) s = .next t ∧ t = { s with ulg := { s.ulg with p := t.ulg.p } } ∧
      t.ulg.reg ULG_TIME_EVENT_TW_BAD = 1) ∧
    (∃ t, exec (.twFull x w) s = .next t ∧ t = { s with ulg := { s.ulg with p := t.ulg.p } } ∧
      t.ulg.reg ULG_TIME_EVENT_TW_BAD = 1)) ∧
  (w.reservedSet = false → s.ulg.p.servo.state = 0 → ∃ t, exec (.twSync x w) s = .next t ∧
    t = { s with ulg := { s.ulg with
      link := (s.ulg.slotOut x (.timeEcho { seq := w.seq, depart := departOf s.ulg.p.nowQ })).link
      sent := .twEcho x { seq := w.seq, depart := departOf s.ulg.p.nowQ } :: s.ulg.sent } }) ∧
  (w.reservedSet = false → s.ulg.p.servo.state ≠ 0 → w.echoValid = false ∨ w.dUpSat = true → ∃ t,
    exec (.twSync x w) s = .next t ∧
    t = { s with ulg := { s.ulg with
      time := t.ulg.time, sent := t.ulg.sent
      link := (s.ulg.slotOut x (.timeEcho { seq := w.seq, depart := departOf s.ulg.p.nowQ })).link } } ∧
    t.ulg.sent = .twEcho x { seq := w.seq, depart := departOf s.ulg.p.nowQ } :: s.ulg.sent ∧
    (t.ulg.time.port.get x).lastAt = some s.ulg.p.now ∧ (t.ulg.time.port.get x).srcErr = w.srcErrNs ∧
    (t.ulg.time.port.get x).words.head? =
      some (w.seq, (extendNear 64 (w.depart % 2 ^ 64) s.ulg.p.nowQ : Int), (s.ulg.p.nowQ : Int))) ∧
  (∀ (t1 t2 off : Int), w.reservedSet = false → s.ulg.p.servo.state ≠ 0 → w.echoValid = true → w.dUpSat = false →
    w.echoSeq ≠ w.seq → (s.ulg.time.port.get x).words.find? (fun e => e.1 = w.echoSeq) = some (w.echoSeq, t1, t2) →
    off = ((t2 - t1) - w.dUp - ulgAsym s.ulg x) / 2 → ∃ t, exec (.twSync x w) s = .next t ∧
    t.pending = s.pending ∧ (t.ulg.time.port.get x).offset = off ∧ (t.ulg.time.port.get x).srcErr = w.srcErrNs ∧
    (t.ulg.time.port.get x).degraded = w.srcDegraded ∧
    t.ulg.p.regs.getInt (if x = 0 then ULG_PORT_OFFSET_OFF_A else ULG_PORT_OFFSET_OFF_B) =
      clampInt (-(2 ^ 31)) (2 ^ 31 - 1) off) ∧
  (w.reservedSet = false → s.ulg.p.servo.state = 0 → ∃ t, exec (.twFull x w) s = .next t ∧
    t.agg = s.agg ∧ t.pending = s.pending ∧ t.ulg.p.now = w.depart * 2 ^ 40 ∧ t.ulg.p.servo.state = 1 ∧
    t.ulg.p.regs = s.ulg.p.regs ∧ t.ulg.time.src = some (s.ulg.cfg ULG_TIME_CFG_SRC_PREF) ∧
    t.ulg.sent = .twEcho x { seq := w.seq, depart := departOf s.ulg.p.nowQ } :: s.ulg.sent) ∧
  (w.reservedSet = false → s.ulg.p.servo.state ≠ 0 → ∃ t, exec (.twFull x w) s = .next t ∧
    t.agg = s.agg ∧ t.pending = s.pending ∧ t.ulg.p = s.ulg.p ∧
    (t.ulg.time.port.get x).words.head? = some (w.seq, (w.depart : Int), (s.ulg.p.nowQ : Int)) ∧
    t.ulg.sent = .twEcho x { seq := w.seq, depart := departOf s.ulg.p.nowQ } :: s.ulg.sent) ∧
  (s.ulg.time.src = none → exec .coastExpiry s = .next s) ∧
  (∀ y n, s.ulg.time.src = some y →
    n = (match (s.ulg.time.port.get y).lastAt with
      | some at_ => max s.ulg.p.now (at_ + s.ulg.cfg ULG_TIME_CFG_COAST_US * 1000 * 2 ^ 56)
      | none => s.ulg.p.now) →
    (portFresh { s.ulg with p := { s.ulg.p with now := n } } (1 - y) = true → ∃ t, exec .coastExpiry s = .next t ∧
      t.agg = s.agg ∧ t.pending = s.pending ∧ t.ulg.p.now = n ∧ t.ulg.time.src = some (1 - y) ∧
      t.ulg.reg ULG_TIME_EVENT_SRC_SWITCH = 1 ∧ t.ulg.sent = s.ulg.sent) ∧
    (portFresh { s.ulg with p := { s.ulg.p with now := n } } (1 - y) = false → ∃ t, exec .coastExpiry s = .next t ∧
      t.agg = s.agg ∧ t.pending = s.pending ∧ t.ulg.time.src = none ∧ t.ulg.time.heldSrc = some y ∧
      t.ulg.sent = s.ulg.sent ∧
      (s.ulg.p.servo.state = 1 → t.ulg.p.servo.state = 0 ∧ t.ulg.p.now = 0) ∧
      (s.ulg.p.servo.state = 2 ∨ s.ulg.p.servo.state = 3 → t.ulg.p.servo.state = 4 ∧ t.ulg.p.now = n)))

/-- Ticks and epochs (R23, R44, R46, R50, R130 to R132): a tick latches at the next multiple of the period, which time has
then reached; the Uligo's shadows take the counters there; a missing island is recorded, a waiting tick or epoch setting
takes over at its instant, and the epoch outputs follow the epoch. Where the spec is open, the clauses rest on the model's
reading (log entries 4, 16 and 33). -/
def Obligations.TicksAndEpochsAdvance : Prop := ∀ s : State,
  (∀ e, s.agg.p.timed = true → (s.agg.p.copy.isSome = true → s.agg.p.copyDue = false) → ∃ t ns k, exec (.tickLatch .agg e) s = .next t ∧
    t = { s with agg := t.agg } ∧ t.agg.p.tick.lastNs = some ns ∧ ns = k * (s.agg.p.tick.us * 1000) ∧
    (0 < s.agg.p.tick.us → s.agg.p.tick.lastNs.getD s.agg.p.nowNs < ns ∧
      ns ≤ s.agg.p.tick.lastNs.getD s.agg.p.nowNs + s.agg.p.tick.us * 1000) ∧
    t.agg.p.now = max s.agg.p.now (ns * 2 ^ 56) ∧ t.agg.p.tick.lastUs = s.agg.p.tick.us ∧
    t.agg.p.tick.lastTicks = s.agg.p.tick.ticks ∧ t.agg.p.live = s.agg.p.live ∧ t.agg.p.staged = s.agg.p.staged) ∧
  (∀ e, s.ulg.p.timed = true → (s.ulg.p.copy.isSome = true → s.ulg.p.copyDue = false) → ∃ t ns k, exec (.tickLatch .ulg e) s = .next t ∧
    t = { s with ulg := t.ulg } ∧ t.ulg.p.tick.lastNs = some ns ∧ ns = k * (s.ulg.p.tick.us * 1000) ∧
    (0 < s.ulg.p.tick.us → s.ulg.p.tick.lastNs.getD s.ulg.p.nowNs < ns ∧
      ns ≤ s.ulg.p.tick.lastNs.getD s.ulg.p.nowNs + s.ulg.p.tick.us * 1000) ∧
    t.ulg.p.now = max s.ulg.p.now (ns * 2 ^ 56) ∧ t.ulg.p.tick.lastUs = s.ulg.p.tick.us ∧
    t.ulg.cnt.counters = s.ulg.cnt.counters ∧ t.ulg.cnt.shadow = s.ulg.cnt.counters ∧
    t.ulg.cnt.prev = s.ulg.cnt.shadow) ∧
  (∀ island, ∃ t, exec (.islandMissing island) s = .next t ∧ t = { s with ulg := { s.ulg with p := t.ulg.p } } ∧
    t.ulg.p.tick = { s.ulg.p.tick with missing := s.ulg.p.tick.missing ++ [island] } ∧
    t.ulg.reg ULG_TIME_EVENT_ISLAND_MISSING = 1 ∧ s.ulg.p.regs.onlyAt t.ulg.p.regs [ULG_TIME_EVENT_ISLAND_MISSING]) ∧
  (∀ us n act, s.agg.p.tick.wait = some (us, n, act) → act ≤ s.agg.p.nowNs → s.agg.p.tick.lastNs.all (act ≤ ·) = true →
    ∃ t, exec (.tickActivation .agg) s = .next t ∧
    t = { s with agg := { s.agg with p := { s.agg.p with tick := t.agg.p.tick } } } ∧
    t.agg.p.tick = { s.agg.p.tick with us := us, ticks := n, wait := none }) ∧
  (∀ us n act, s.ulg.p.tick.wait = some (us, n, act) → act ≤ s.ulg.p.nowNs → s.ulg.p.tick.lastNs.all (act ≤ ·) = true →
    ∃ t, exec (.tickActivation .ulg) s = .next t ∧
    t = { s with ulg := { s.ulg with p := { s.ulg.p with tick := t.ulg.p.tick } } } ∧
    t.ulg.p.tick = { s.ulg.p.tick with us := us, ticks := n, wait := none }) ∧
  (s.ulg.p.timed = true → ∃ t ns k, exec .epochBoundary s = .next t ∧
    t = { s with ulg := { s.ulg with p := t.ulg.p, ep := t.ulg.ep, sent := t.ulg.sent } } ∧
    t.ulg.ep.lastNs = some ns ∧ ns = k * (s.ulg.ep.ms * 1000000) ∧
    (0 < s.ulg.ep.ms → s.ulg.ep.lastNs.getD s.ulg.p.nowNs < ns ∧
      ns ≤ s.ulg.ep.lastNs.getD s.ulg.p.nowNs + s.ulg.ep.ms * 1000000) ∧
    t.ulg.p = { s.ulg.p with now := max s.ulg.p.now (ns * 2 ^ 56) } ∧
    t.ulg.ep.outEpoch = epochOf t.ulg.p.nowNs s.ulg.ep.ms ∧
    (t.ulg.ep.outEpoch ≠ s.ulg.ep.outEpoch →
      t.ulg.ep.outValid = true ∧ t.ulg.ep.outPar = parityOf 32 t.ulg.ep.outEpoch ∧
        t.ulg.sent = .epochStamp t.ulg.ep.outEpoch :: s.ulg.sent)) ∧
  (∀ ms act, s.ulg.p.timed = true → s.ulg.ep.wait = some (ms, act) → act ≤ s.ulg.p.nowNs →
    ∃ t, exec .epochActivation s = .next t ∧
      t = { s with ulg := { s.ulg with ep := t.ulg.ep, sent := t.ulg.sent } } ∧ t.ulg.ep.ms = ms ∧ t.ulg.ep.wait = none ∧
      t.ulg.ep.outEpoch = epochOf s.ulg.p.nowNs ms)

/-- R58: a write from the host register port to a time register has no effect but HOST_WRITE, and a Rycon-D write stages
its fields. A host-port write to a register that takes one writes its fields and no other (R16, R94), and one to a slot of
overflow sampling is an OVS_SLOT_WRITE (R75). -/
def Obligations.HostPortCannotMoveTime : Prop := ∀ (s : State) (off : Nat) (v : Word) (mid : Fin 64) (x : Fin 2),
  (off ∈ [0x130, 0x138, 0x140, 0x150, 0x158] →
    (∃ t, exec (.hostWrite off v mid) s = .next t ∧
      t = { s with ulg := { s.ulg with p := t.ulg.p } } ∧ t.ulg.reg ULG_TIME_EVENT_HOST_WRITE = 1 ∧
      s.ulg.p.onlyEvents t.ulg.p [ULG_TIME_EVENT_HOST_WRITE] [0x0108]) ∧
    (∃ t, exec (.registerWrite .ulg (.ryconD x) off v) s = .next t ∧
      t = { s with ulg := { s.ulg with p := { s.ulg.p with staged := t.ulg.p.staged } } } ∧
      ∀ f ∈ [ULG_TIME_CFG_KP_SHIFT, ULG_TIME_CFG_KI_SHIFT, ULG_TIME_CFG_LOCK_NS, ULG_TIME_CFG_STEP_NS,
          ULG_TIME_CFG_SLEW_PPB, ULG_TIME_CFG_SRC_PREF, ULG_TIME_CFG_DISAGREE_NS, ULG_TIME_CFG_COAST_US,
          ULG_TICK_CFG_TICK_US, ULG_TICK_CFG_ROUND_TICKS, ULG_TICK_ACT_SEC_ACT_SEC, ULG_PORT_ASYM_ASYM_A,
          ULG_PORT_ASYM_ASYM_B, ULG_TIME_CFG2_LARGE_US, ULG_TIME_CFG2_HOLD_LIMIT_S],
        t.ulg.p.staged.get f = if f.off = off then v.toNat / 2 ^ f.lsb % 2 ^ f.width else s.ulg.p.staged.get f)) ∧
  (off ∈ [0x238, 0x240, 0x250, 0x260, 0x298, 0x418, 0x430, 0x540, 0x908, 0xA40, 0xA70, 0xC10] →
    ∃ t, exec (.hostWrite off v mid) s = .next t ∧ t = { s with ulg := { s.ulg with p := { s.ulg.p with regs := t.ulg.p.regs } } } ∧
      s.ulg.p.regs.onlyAt t.ulg.p.regs [ULG_CNT_IRQ_CORE, ULG_CNT_IRQ_EN, ULG_SHADOW_SEL_INDEX, ULG_LIVE_SEL_INDEX,
        ULG_RING_SEL_CORE, ULG_OVS_PEEK_SEL_CORE, ULG_TRC_SEL_CORE, ULG_TRC_RING_SEL_OFFSET, ULG_FT_CORE_SEL_CORE,
        ULG_RPL_SEL_OFFSET, ULG_HFLT_SEL_INDEX, ULG_FLT_SRC_SEL_SOURCE, ULG_CFG_LSEL_OFFSET] ∧
      ∀ f ∈ [ULG_CNT_IRQ_CORE, ULG_CNT_IRQ_EN, ULG_SHADOW_SEL_INDEX, ULG_LIVE_SEL_INDEX, ULG_RING_SEL_CORE,
          ULG_OVS_PEEK_SEL_CORE, ULG_TRC_SEL_CORE, ULG_TRC_RING_SEL_OFFSET, ULG_FT_CORE_SEL_CORE, ULG_RPL_SEL_OFFSET,
          ULG_HFLT_SEL_INDEX, ULG_FLT_SRC_SEL_SOURCE, ULG_CFG_LSEL_OFFSET],
        t.ulg.reg f = if f.off = off then v.toNat / 2 ^ f.lsb % 2 ^ f.width else s.ulg.reg f) ∧
  (∀ slot : Fin 64, exec (.hostWrite (0x1400 + 8 * (slot : Nat)) v mid) s = exec (.ovsSlotWrite slot v) s)

/-! ### Counting (02) -/

/-- R63, R71, R64: a COUNT beat that is taken adds its eight bytes to the eight counters of its core, mod 2^48, and changes
no other counter; an uncore beat does so for its group (R67). The latched values stay. -/
def Obligations.CountBeatsAddExactly : Prop := ∀ s : State,
  (∀ b : EvBeat, s.ulg.domainOn ((b.cluster : Nat) / 8) = true → (b.cluster : Nat) < s.ulg.cfg ULG_CNT_CFG_CLUSTERS →
    b.full = false → beatParityBad b.data b.par = false → ∃ t, exec (.countBeat b) s = .next t ∧ t = { s with ulg := t.ulg } ∧
      (∀ e < 8, t.ulg.cnt.counters.get (8 * (64 * (b.cluster : Nat) + b.core) + e) =
        (s.ulg.cnt.counters.get (8 * (64 * (b.cluster : Nat) + b.core) + e) + beatByte b.data e) % 2 ^ 48) ∧
      (∀ i, (i < 8 * (64 * (b.cluster : Nat) + b.core) ∨ 8 * (64 * (b.cluster : Nat) + b.core) + 8 ≤ i) →
        t.ulg.cnt.counters.get i = s.ulg.cnt.counters.get i) ∧
      t.ulg.cnt.shadow = s.ulg.cnt.shadow ∧ t.ulg.cnt.prev = s.ulg.cnt.prev) ∧
  (∀ b : UevBeat, s.ulg.domainOn domUncore = true → (b.bus : Nat) < s.ulg.cfg ULG_CNT_CFG_UNCORE_BUSES →
    b.full = false → beatParityBad b.data b.par = false → ∃ t, exec (.uncoreBeat b) s = .next t ∧
      t = { s with ulg := { s.ulg with cnt := { s.ulg.cnt with counters := t.ulg.cnt.counters } } } ∧
      (∀ e < 8, t.ulg.cnt.counters.get (65536 + 256 * (b.bus : Nat) + 8 * (b.grp : Nat) + e) =
        (s.ulg.cnt.counters.get (65536 + 256 * (b.bus : Nat) + 8 * (b.grp : Nat) + e) + beatByte b.data e) % 2 ^ 48) ∧
      (∀ i, (i < 65536 + 256 * (b.bus : Nat) + 8 * (b.grp : Nat) ∨
          65536 + 256 * (b.bus : Nat) + 8 * (b.grp : Nat) + 8 ≤ i) →
        t.ulg.cnt.counters.get i = s.ulg.cnt.counters.get i))

/-- R65, R60: a beat with a parity error is dropped whole, whatever its kind: no counter, request, sample FIFO or ring but
the marked core's changes; EV_PARITY is set and counted. -/
def Obligations.ParityDropsTheWholeBeat : Prop := ∀ (s : State) (b : EvBeat),
  s.ulg.domainOn ((b.cluster : Nat) / 8) = true → (b.cluster : Nat) < s.ulg.cfg ULG_CNT_CFG_CLUSTERS →
  b.full = false → beatParityBad b.data b.par = true →
  (∃ t, exec (.countBeat b) s = .next t ∧ s.parityDrop t b) ∧ (∃ t, exec (.sampleBeat b) s = .next t ∧ s.parityDrop t b) ∧
  (∃ t, exec (.ringBeat b) s = .next t ∧ s.parityDrop t b) ∧ (∃ t, exec (.reservedKindBeat b) s = .next t ∧ s.parityDrop t b)

/-- Samples, rings and the other inputs (R66, R68 to R70, R75 to R82): what each command of them does when it is
taken. Where the spec is open, the clauses rest on the model's reading (log entries 31 and 32). -/
def Obligations.CountingInputsHaveTheirEffect : Prop := ∀ s : State,
  (∀ (b : EvBeat) (slot stamp : Nat), s.ulg.dropEvBeat b 1 = none →
    s.ulg.cnt.request.get (64 * (b.cluster : Nat) + b.core) = some (slot, stamp) →
    (s.ulg.cnt.fifo.get (s.ulg.reg (ULG_OVS_SLOT_CTRL_CORE slot))).length < 16 → ∃ t, exec (.sampleBeat b) s = .next t ∧
      t = { s with ulg := { s.ulg with cnt := t.ulg.cnt } } ∧
      t.ulg.cnt.request.get (64 * (b.cluster : Nat) + b.core) = none ∧
      t.ulg.cnt.fifo.get (s.ulg.reg (ULG_OVS_SLOT_CTRL_CORE slot)) =
        s.ulg.cnt.fifo.get (s.ulg.reg (ULG_OVS_SLOT_CTRL_CORE slot)) ++
          [⟨slot, s.ulg.reg (ULG_OVS_SLOT_CTRL_CORE slot), 64 * (b.cluster : Nat) + b.core, stamp, b.data.toNat⟩]) ∧
  (∀ b : EvBeat, s.ulg.dropEvBeat b 2 = none → 0 < beatByte b.data 0 → beatByte b.data 0 < 0x80 →
    (s.ulg.cnt.rings.get (64 * (b.cluster : Nat) + b.core)).frozen = false → ∃ t, exec (.ringBeat b) s = .next t ∧
      t = { s with ulg := { s.ulg with cnt := { s.ulg.cnt with rings := t.ulg.cnt.rings } } } ∧
      (t.ulg.cnt.rings.get (64 * (b.cluster : Nat) + b.core)).entries =
        ((s.ulg.p.stamp32, beatByte b.data 0, b.data.toNat / 2 ^ 8 % 2 ^ 24) ::
          (s.ulg.cnt.rings.get (64 * (b.cluster : Nat) + b.core)).entries).take 64 ∧
      ∀ k : Nat, k ≠ 64 * (b.cluster : Nat) + b.core → t.ulg.cnt.rings.get k = s.ulg.cnt.rings.get k) ∧
  (∀ b : EvBeat, s.ulg.dropEvBeat b 3 = none → ∃ t, exec (.reservedKindBeat b) s = .next t ∧
    t = { s with ulg := { s.ulg with p := t.ulg.p } } ∧ t.ulg.reg ULG_CNT_EVENT_BUS_VIOL = 1 ∧
    s.ulg.p.onlyEvents t.ulg.p [ULG_CNT_EVENT_BUS_VIOL] [0x0208]) ∧
  (∀ core : Fin 8192, (s.ulg.cnt.request.get core).isSome = true → ∃ t, exec (.ovsRequestTimeout core) s = .next t ∧
    t = { s with ulg := { s.ulg with p := t.ulg.p, cnt := t.ulg.cnt } } ∧ t.ulg.cnt.request.get core = none ∧
    t.ulg.reg ULG_CNT_EVENT_OVS_LOST = 1 ∧
    s.ulg.p.onlyEvents t.ulg.p [ULG_CNT_EVENT_OVS_LOST, ULG_CNT_ERR_COUNT_LOST] [0x0205]) ∧
  (∀ b : QpBeat, s.ulg.domainOn domUncore = true → b.full = false → 16 * (b.bus : Nat) + b.id < s.ulg.cfg ULG_CNT_CFG_QUEUES →
    b.par = qpParity b → ∃ t, exec (.queueProbeBeat b) s = .next t ∧
      t = { s with ulg := { s.ulg with p := t.ulg.p, cnt := t.ulg.cnt } } ∧
      t.ulg.cnt.depth.get (16 * (b.bus : Nat) + b.id) = b.depth.toNat ∧
      (t.ulg.cnt.cur.queues.get (16 * (b.bus : Nat) + b.id)).pushes =
        (s.ulg.cnt.cur.queues.get (16 * (b.bus : Nat) + b.id)).pushes + (if b.push then 1 else 0) ∧
      (t.ulg.cnt.cur.queues.get (16 * (b.bus : Nat) + b.id)).pops =
        (s.ulg.cnt.cur.queues.get (16 * (b.bus : Nat) + b.id)).pops + (if b.pop then 1 else 0)) ∧
  (∀ b : CtBeat, b.full = false → b.par = ctParity b → b.all = false → (b.cluster : Nat) < s.ulg.cfg ULG_CNT_CFG_CLUSTERS →
    ∃ t, exec (.commandTagBeat b) s = .next t ∧
      t = { s with ulg := { s.ulg with cnt := { s.ulg.cnt with cur := { s.ulg.cnt.cur with tags := t.ulg.cnt.cur.tags } } } } ∧
      t.ulg.cnt.cur.tags.get b.cluster = (s.ulg.cnt.cur.tags.get b.cluster).beat b.layer.toNat b.op.toNat ∧
      ∀ k : Nat, k ≠ b.cluster → t.ulg.cnt.cur.tags.get k = s.ulg.cnt.cur.tags.get k)

/-- Rings, records and registers (R16, R74, R78, R80 to R82, R87, R91, R92, R94, R158, R491): hangs freeze, UNFREEZE thaws,
packing takes the latch due, closing hands a record over, and a read returns the register's word and clears its RC
fields. Where the spec is open, the clauses rest on the model's reading (log entries 30, 32, 97 and 116). -/
def Obligations.RingsRecordsAndReads : Prop := ∀ s : State,
  (∀ core : Fin 8192, 0 < s.ulg.cfg ULG_CNT_CFG_HANG_TICKS →
    s.ulg.cfg ULG_CNT_CFG_HANG_TICKS ≤ (s.ulg.cnt.rings.get core).hangTicks → (s.ulg.cnt.rings.get core).hung = false →
    ∃ t, exec (.hang core) s = .next t ∧
      t = { s with ulg := { s.ulg with p := t.ulg.p, cnt := { s.ulg.cnt with rings := t.ulg.cnt.rings } } } ∧
      (t.ulg.cnt.rings.get core).frozen = true ∧ (t.ulg.cnt.rings.get core).entries = (s.ulg.cnt.rings.get core).entries ∧
      (∀ k : Nat, k ≠ core → t.ulg.cnt.rings.get k = s.ulg.cnt.rings.get k) ∧
      s.ulg.p.onlyEvents t.ulg.p [ULG_CNT_EVENT_HANG] [0x0204] ∧ t.ulg.reg ULG_CNT_EVENT_HANG = 1) ∧
  (∀ core : Fin 8192, (s.ulg.cnt.rings.get core).frozen = true → ∃ t, exec (.ringUnfreeze core false) s = .next t ∧
    t = { s with ulg := { s.ulg with cnt := { s.ulg.cnt with rings := t.ulg.cnt.rings } } } ∧
    (t.ulg.cnt.rings.get core).frozen = false ∧ (t.ulg.cnt.rings.get core).entries =
      ((s.ulg.p.stamp32, 0x83, (s.ulg.cnt.rings.get core).refused % 2 ^ 24) :: (s.ulg.cnt.rings.get core).entries).take 64 ∧
    ∀ k : Nat, k ≠ core → t.ulg.cnt.rings.get k = s.ulg.cnt.rings.get k) ∧
  (∀ core : Fin 8192, ∃ t, exec (.ringUnfreeze core true) s = .next t ∧
    t = { s with ulg := { s.ulg with cnt := { s.ulg.cnt with rings := t.ulg.cnt.rings } } } ∧
    ∀ k : Nat, (t.ulg.cnt.rings.get k).frozen = false ∧ (t.ulg.cnt.rings.get k).entries =
      if (s.ulg.cnt.rings.get k).frozen then ((s.ulg.p.stamp32, 0x83, (s.ulg.cnt.rings.get k).refused % 2 ^ 24) ::
        (s.ulg.cnt.rings.get k).entries).take 64 else (s.ulg.cnt.rings.get k).entries) ∧
  (∃ t, exec .fullNext s = .next t ∧ t = { s with ulg := { s.ulg with p := t.ulg.p } } ∧
    s.ulg.p.onlyRegs t.ulg.p [ULG_PACK_CTRL_FULL_NEXT] ∧ t.ulg.reg ULG_PACK_CTRL_FULL_NEXT = 1) ∧
  (∀ (slot : Fin 64) (v : Word), ∃ t, exec (.ovsSlotWrite slot v) s = .next t ∧
    t = { s with ulg := { s.ulg with p := t.ulg.p, cnt := { s.ulg.cnt with remainder := t.ulg.cnt.remainder } } } ∧
    t.ulg.cnt.remainder.get slot = 0 ∧ (∀ k : Nat, k ≠ slot → t.ulg.cnt.remainder.get k = s.ulg.cnt.remainder.get k) ∧
    t.ulg.reg (ULG_OVS_SLOT_COUNTER slot) = v.toNat % 2 ^ 16 ∧
    t.ulg.reg (ULG_OVS_SLOT_EN slot) = v.toNat / 2 ^ 16 % 2 ∧
    t.ulg.reg (ULG_OVS_SLOT_CTRL_CORE slot) = v.toNat / 2 ^ 17 % 2 ^ 6 ∧
    t.ulg.reg (ULG_OVS_SLOT_PERIOD slot) = v.toNat / 2 ^ 23 % 2 ^ 32 ∧
    s.ulg.p.onlyRegs t.ulg.p [ULG_OVS_SLOT_COUNTER slot, ULG_OVS_SLOT_EN slot, ULG_OVS_SLOT_CTRL_CORE slot,
      ULG_OVS_SLOT_PERIOD slot]) ∧
  (∀ (mid : Fin 64) e rest, s.ulg.cnt.fifo.get mid = e :: rest → ∃ t, exec (.ovsPop mid) s = .next t ∧
    t = { s with ulg := { s.ulg with cnt := { s.ulg.cnt with fifo := t.ulg.cnt.fifo, popped := t.ulg.cnt.popped }
                                     rdata := ovsPopWord e, rerr := false } } ∧
    t.ulg.cnt.fifo.get mid = rest ∧ t.ulg.cnt.popped.get mid = e.data ∧
    ∀ k : Nat, k ≠ mid → t.ulg.cnt.fifo.get k = s.ulg.cnt.fifo.get k ∧ t.ulg.cnt.popped.get k = s.ulg.cnt.popped.get k) ∧
  (∀ l buf e, s.ulg.cnt.due = some l → s.ulg.cnt.pack = none → s.ulg.freeBuffer = some buf →
    ∃ t j, exec (.packStart e) s = .next t ∧ t = { s with ulg := { s.ulg with p := t.ulg.p, cnt := t.ulg.cnt } } ∧
      t.ulg.cnt.pack = some j ∧ j.buf = buf ∧ j.l.tick = l.tick ∧ j.missing = s.ulg.missingFor l ∧
      j.first = !s.ulg.cnt.firstDone ∧
      (j.full = true ↔ s.ulg.cnt.firstDone = false ∨ s.ulg.bit ULG_PACK_CTRL_FULL_NEXT = true ∨ l.full = true) ∧
      t.ulg.cnt.due = none ∧ t.ulg.cnt.firstDone = true ∧ t.ulg.cnt.counters = s.ulg.cnt.counters ∧
      t.ulg.cnt.shadow = s.ulg.cnt.shadow ∧ t.ulg.cnt.prev = s.ulg.cnt.prev ∧ t.ulg.reg ULG_CNT_STATUS_PACKING = 1) ∧
  (∀ j, s.ulg.cnt.pack = some j → ∃ t, exec .recordClose s = .next t ∧
    t = { s with ulg := { s.ulg with p := t.ulg.p, cnt := { s.ulg.cnt with pack := none }, ft := t.ulg.ft, link := t.ulg.link } } ∧
    t.ulg.reg ULG_CNT_STATUS_LAST_LEN = (s.ulg.sampleRecord j false j.sections).length % 2 ^ ULG_CNT_STATUS_LAST_LEN.width ∧
    t.ulg.reg ULG_CNT_STATUS_PACKING = 0 ∧
    (s.ulg.livePorts = [] → bitAt (t.ulg.reg ULG_CNT_STATUS_BUF_BUSY) j.buf = false) ∧
    (s.ulg.livePorts ≠ [] → ∃ r ∈ t.ulg.link.recs, r.bytes = s.ulg.sampleRecord j false j.sections ∧ r.stream = 1 ∧
      r.ports = s.ulg.livePorts ∧ r.buf = some j.buf)) ∧
  (∀ (off : Nat) (mid : Fin 64), off ≠ 0x10000 → ∃ t, exec (.rcRead .agg off mid) s = .next t ∧
    t = { s with agg := { s.agg with p := t.agg.p, rdata := (s.agg.regWord off).getD 0 } } ∧
    s.agg.p.onlyRegs t.agg.p ((s.agg.p.fieldsOf regMapAgg off).filter fun f => f.acc = .rc) ∧
    ∀ f ∈ s.agg.p.fieldsOf regMapAgg off, f.acc = .rc → t.agg.reg f = 0) ∧
  (∀ (off : Nat) (mid : Fin 64), hostReadBad (off % 65536) = false →
    off % 65536 ∉ [0x100, 0x258, 0x280, 0x438, 0x910] → ∃ t, exec (.rcRead .ulg off mid) s = .next t ∧
    t = { s with ulg := { s.ulg with
      p := t.ulg.p, rdata := (s.ulg.regWord (some mid) (off % 65536)).getD 0, rerr := false } } ∧
    s.ulg.p.onlyRegs t.ulg.p ((s.ulg.p.fieldsOf regMapUlg (off % 65536)).filter fun f => f.acc = .rc) ∧
    ∀ f ∈ s.ulg.p.fieldsOf regMapUlg (off % 65536), f.acc = .rc → t.ulg.reg f = 0) ∧
  (∀ (off : Nat) (w : Bool) (mid : Fin 64), hostReadBad off = true → ∃ t, exec (.hostPortBadAccess off w mid) s = .next t ∧
    t = { s with ulg := { s.ulg with p := t.ulg.p, rdata := if w then s.ulg.rdata else 0, rerr := if w then s.ulg.rerr else true } } ∧
    s.ulg.p.onlyEvents t.ulg.p [ULG_CNT_EVENT_HR_ERR] [0x0209] ∧ t.ulg.reg ULG_CNT_EVENT_HR_ERR = 1) ∧
  (∀ (off : Nat) (w : Bool), inWindow off = false → ∃ t, exec (.bar0UnmappedAccess off w) s = .next t ∧
    t = { s with agg := { s.agg with p := t.agg.p, rdata := if w then s.agg.rdata else 0 } } ∧
    t.agg.reg CFG_EVENT_APERTURE_VIOL = 1 ∧ s.agg.p.onlyEvents t.agg.p [CFG_EVENT_APERTURE_VIOL] [0x0D08])

/-! ### Trace, field test, tiles (03) -/

/-- Control-core trace (R105, R107, R109, R110): an indirect transfer that passes the filters writes its word at the
ring's offset, conditional outcomes collect in the core's COND word, a full FIFO drops the beat, an overflow that ends leaves a GAP and counts
what was lost, an authorisation that runs out is noted once, and a read of the ring advances the selection. Where the
spec is open, the clauses rest on the model's reading (log entry 34). -/
def Obligations.TraceHasItsEffect : Prop := ∀ s : State,
  (∀ b : TraceBeat, s.ulg.domainOn 0x11 = true → (s.ulg.trc.core.get b.core).fifoFull b = true →
    ∃ t, exec (.traceBeat b) s = .next t ∧ t = { s with ulg := { s.ulg with trc := t.ulg.trc } } ∧
      t.ulg.trc = { s.ulg.trc with core := t.ulg.trc.core } ∧ (t.ulg.trc.core.get b.core).overflowing = true ∧
      (t.ulg.trc.core.get b.core).dropped = (s.ulg.trc.core.get b.core).dropped + 1) ∧
  (∀ b : TraceBeat, s.ulg.domainOn 0x11 = true → (s.ulg.trc.core.get b.core).overflowing = false →
    (s.ulg.trc.core.get b.core).fifoFull b = false → b.par = traceParity b → traceViolation b = false → s.ulg.trcEnabled b.core = true → s.ulg.privPasses b.priv = true →
    s.ulg.addressPasses b.core b.pc.toNat = true → (∀ k < 8, s.ulg.reg (ULG_TRC_CMP_EN b.core k) = 0) →
    (s.ulg.trc.core.get b.core).syncDue = 0 → s.ulg.reg ULG_TRC_CFG_SYNC_INTERVAL = 0 →
    s.ulg.reg ULG_TRC_CFG_MODE = 0 → s.ulg.reg ULG_TRC_CFG_STOP_ON_FULL = 0 → (s.ulg.trc.core.get b.core).nbits = 0 →
    (b.kind = 1 → ∃ t, exec (.traceBeat b) s = .next t ∧
      t = { s with ulg := { s.ulg with p := t.ulg.p, trc := t.ulg.trc } } ∧
      t.ulg.trc.ring.get (s.ulg.reg ULG_TRC_RING_PTR_OFFSET) = 2 + (b.core : Nat) * 2 ^ 4 + b.target.toNat * 2 ^ 16 ∧
      (∀ i, i ≠ s.ulg.reg ULG_TRC_RING_PTR_OFFSET → t.ulg.trc.ring.get i = s.ulg.trc.ring.get i) ∧
      t.ulg.reg ULG_TRC_RING_PTR_OFFSET = (s.ulg.reg ULG_TRC_RING_PTR_OFFSET + 1) % 131072 ∧
      s.ulg.p.onlyRegs t.ulg.p [ULG_TRC_RING_PTR_OFFSET, ULG_TRC_RING_PTR_WRAPPED]) ∧
    (b.kind = 0 → ∃ t, exec (.traceBeat b) s = .next t ∧ t = { s with ulg := { s.ulg with trc := t.ulg.trc } } ∧
      (t.ulg.trc.core.get b.core).nbits = b.ncond ∧ t.ulg.trc.ring = s.ulg.trc.ring)) ∧
  (∀ core : Fin 64, (s.ulg.trc.core.get core).overflowing = true → s.ulg.reg ULG_TRC_CFG_MODE = 0 →
    ∃ t, exec (.traceOverflowRecover core) s = .next t ∧
      t = { s with ulg := { s.ulg with p := t.ulg.p, trc := t.ulg.trc } } ∧
      (t.ulg.trc.core.get core).overflowing = false ∧ (t.ulg.trc.core.get core).dropped = 0 ∧
      (t.ulg.trc.core.get core).syncDue = 2 ∧ t.ulg.reg ULG_TRC_EVENT_OVERFLOW = 1 ∧
      t.ulg.reg ULG_TRC_LOST_BEATS = min (s.ulg.reg ULG_TRC_LOST_BEATS + (s.ulg.trc.core.get core).dropped) (2 ^ 32 - 1)) ∧
  (s.ulg.cfg ULG_TRC_AUTH_EXPIRY < s.ulg.reg ULG_TICK_NOW_TICK % 2 ^ 48 → s.ulg.trc.expired = false →
    (s.ulg.cfgOn ULG_TRC_AUTH_PRIV_OK = true ∨ s.ulg.cfgOn ULG_TRC_AUTH_SECURE_OK = true) →
    ∃ t, exec .authExpired s = .next t ∧
      t = { s with ulg := { s.ulg with p := t.ulg.p, trc := { s.ulg.trc with expired := true } } } ∧
      s.ulg.p.onlyEvents t.ulg.p [ULG_TRC_EVENT_AUTH_EXPIRED] [0x0303]) ∧
  (∃ t, exec .trcRingDataRead s = .next t ∧
    t = { s with ulg := { s.ulg with
      p := t.ulg.p, rdata := s.ulg.trc.ring.get (s.ulg.reg ULG_TRC_RING_SEL_OFFSET), rerr := false } } ∧
    s.ulg.p.onlyRegs t.ulg.p [ULG_TRC_RING_SEL_OFFSET] ∧
    t.ulg.reg ULG_TRC_RING_SEL_OFFSET = (s.ulg.reg ULG_TRC_RING_SEL_OFFSET + 1) % 2 ^ ULG_TRC_RING_SEL_OFFSET.width)

/-- The field-test schedule (R115 to R117, R120): a core falls due, a YIELD of a due core opens the next instance and
is granted its kernel or joins one that holds the result of a core of another cluster, a core still due at its deadline is
deferred and reported, and FT_FORCE waits for its core.
Where the spec is open, the clauses rest on the model's reading (log entries 4 and 18). -/
def Obligations.FieldTestSchedule : Prop := ∀ s : State,
  (∀ core : Fin 8192, s.ulg.cfgOn ULG_FT_CFG_EN = true → (core : Nat) < 64 * s.ulg.cfg ULG_CNT_CFG_CLUSTERS →
    s.ulg.p.timed = true → s.ulg.domainOn 0x12 = true → ∃ t, exec (.ftCoreDue core) s = .next t ∧
      t = { s with ulg := { s.ulg with p := { s.ulg.p with now := t.ulg.p.now }, ft := t.ulg.ft } } ∧
      s.ulg.p.now ≤ t.ulg.p.now ∧ (t.ulg.ft.core.get core).state = 1 ∧ (t.ulg.ft.core.get core).done = false ∧
      t.ulg.ft.inst = s.ulg.ft.inst ∧ ∀ k : Nat, k ≠ core → t.ulg.ft.core.get k = s.ulg.ft.core.get k) ∧
  (∀ b : FtBeat, s.ulg.mayYield b → s.ulg.kernels ≠ [] → s.ulg.ft.inst.length < 64 →
    (∀ i ∈ s.ulg.ft.inst, i.oneResult = true → i.coreA / 64 = b.cluster) →
    (s.ulg.kernels.getD (s.ulg.reg ULG_FT_SEQ_SEQ % s.ulg.kernels.length) (0, 0)).2 ≤ b.data.toNat % 65536 →
    ∃ t i, exec (.yieldBeat b) s = .next t ∧
      t = { s with ulg := { s.ulg with p := t.ulg.p, ft := t.ulg.ft, cnt := t.ulg.cnt, sent := t.ulg.sent } } ∧
      t.ulg.sent = .ftGrant (64 * (b.cluster : Nat) + b.core) i.kernel (s.ulg.cfg ULG_FT_SEED_SEED ^^^ s.ulg.uid) i.seq ::
        s.ulg.sent ∧
      s.ulg.p.onlyRegs t.ulg.p [ULG_FT_SEQ_SEQ] ∧ t.ulg.reg ULG_FT_SEQ_SEQ = (s.ulg.reg ULG_FT_SEQ_SEQ + 1) % 2 ^ 64 ∧
      t.ulg.ft.inst = s.ulg.ft.inst ++ [i] ∧ i.coreA = 64 * (b.cluster : Nat) + b.core ∧ i.seq = s.ulg.reg ULG_FT_SEQ_SEQ ∧
      (i.kernel, i.maxUs) = s.ulg.kernels.getD (s.ulg.reg ULG_FT_SEQ_SEQ % s.ulg.kernels.length) (0, 0) ∧
      (t.ulg.ft.core.get (64 * (b.cluster : Nat) + b.core)).run = some i.id ∧
      (t.ulg.ft.core.get (64 * (b.cluster : Nat) + b.core)).done = true) ∧
  (∀ (b : FtBeat) (i : FtInst), s.ulg.mayYield b →
    s.ulg.ft.inst.find? (fun i => i.oneResult && i.coreA / 64 != (b.cluster : Nat)) = some i →
    i.maxUs ≤ b.data.toNat % 65536 → ∃ t, exec (.yieldBeat b) s = .next t ∧
      t = { s with ulg := { s.ulg with ft := t.ulg.ft, cnt := t.ulg.cnt, sent := t.ulg.sent } } ∧
      t.ulg.sent = .ftGrant (64 * (b.cluster : Nat) + b.core) i.kernel (s.ulg.cfg ULG_FT_SEED_SEED ^^^ s.ulg.uid) i.seq ::
        s.ulg.sent ∧
      t.ulg.ft.inst = s.ulg.ft.inst.map (fun j =>
        if j.id = i.id then { j with coreB := some (64 * (b.cluster : Nat) + b.core) } else j) ∧
      (t.ulg.ft.core.get (64 * (b.cluster : Nat) + b.core)).run = some i.id) ∧
  (∀ b : FtBeat, b.opReserved = false → b.par ≠ ftParity 0 b → ∃ t, exec (.yieldBeat b) s = .next t ∧
    t = { s with ulg := { s.ulg with p := t.ulg.p, sent := .ftGrant (64 * (b.cluster : Nat) + b.core) 0 0 0 :: s.ulg.sent } } ∧
    s.ulg.p.onlyEvents t.ulg.p [ULG_FT_EVENT_FT_VIOL] [0x0404]) ∧
  (∀ core : Fin 8192, (s.ulg.ft.core.get core).state = 1 → (s.ulg.ft.core.get core).defers < 255 →
    (s.ulg.ft.core.get core).defers + 1 < s.ulg.cfg ULG_FT_CFG_DEFER_LIMIT → ∃ t, exec (.ftDeferred core) s = .next t ∧
      t = { s with ulg := { s.ulg with p := t.ulg.p, ft := t.ulg.ft, cnt := t.ulg.cnt } } ∧
      s.ulg.p.onlyTime t.ulg.p [ULG_FT_COUNT_DEFER] ∧
      t.ulg.reg ULG_FT_COUNT_DEFER = min (s.ulg.reg ULG_FT_COUNT_DEFER + 1) (2 ^ ULG_FT_COUNT_DEFER.width - 1) ∧
      (t.ulg.ft.core.get core).state = 2 ∧ (t.ulg.ft.core.get core).defers = (s.ulg.ft.core.get core).defers + 1 ∧
      ∃ o, t.ulg.ft.waiting = s.ulg.ft.waiting ++ [o] ∧ o.outcome = 6 ∧ o.coreA = (core : Nat)) ∧
  (∀ (core : Fin 8192) (kernel lo : Nat), (core : Nat) < 64 * s.ulg.cfg ULG_CNT_CFG_CLUSTERS →
    s.ulg.kernels.any (fun e => e.1 = kernel) = true → 2 ^ 32 ≤ s.ulg.reg ULG_FT_SEQ_SEQ ∨ lo ≤ s.ulg.reg ULG_FT_SEQ_SEQ →
    lo < 2 ^ 32 → ∃ t seq, exec (.ftForce core kernel lo) s = .next t ∧
      t = { s with ulg := { s.ulg with ft := { s.ulg.ft with force := some ((core : Nat), kernel, seq) } } } ∧
      seq % 2 ^ 32 = lo ∧ seq ≤ s.ulg.reg ULG_FT_SEQ_SEQ ∧ s.ulg.reg ULG_FT_SEQ_SEQ < seq + 2 ^ 32)

/-- Field-test results (R113, R118, R122): the two halves of a signature make the first result, two equal signatures
pass, two that differ wait for an arbiter, one equal to the first fails the second core, a kernel that sends none in MAX_US
closes its instance TIMEOUT, and one that finds no partner closes UNPAIRED.
Where the spec is open, the clauses rest on the model's reading (log entries 4 and 18). -/
def Obligations.FieldTestResults : Prop := ∀ s : State,
  (∀ b : FtBeat, s.ulg.domainOn 0x12 = true → b.opReserved = false → b.par = ftParity 1 b →
    s.ulg.rplRuns (64 * (b.cluster : Nat) + b.core) = false →
    (s.ulg.ft.core.get (64 * (b.cluster : Nat) + b.core)).run.isSome = true → ∃ t, exec (.sigLo b) s = .next t ∧
      t = { s with ulg := { s.ulg with ft := { s.ulg.ft with core := t.ulg.ft.core } } } ∧
      (t.ulg.ft.core.get (64 * (b.cluster : Nat) + b.core)).sigLo = some b.data.toNat ∧
      ∀ k, k ≠ 64 * (b.cluster : Nat) + b.core → t.ulg.ft.core.get k = s.ulg.ft.core.get k) ∧
  (∀ (b : FtBeat) (lo : Nat) (i : FtInst), s.ulg.domainOn 0x12 = true → b.opReserved = false → b.par = ftParity 2 b →
    s.ulg.rplRuns (64 * (b.cluster : Nat) + b.core) = false →
    (s.ulg.ft.core.get (64 * (b.cluster : Nat) + b.core)).run = some i.id →
    (s.ulg.ft.core.get (64 * (b.cluster : Nat) + b.core)).sigLo = some lo →
    s.ulg.ft.inst.find? (fun j => j.id = i.id) = some i →
    (i.sigA = none → ∃ t, exec (.sigHi b) s = .next t ∧ t = { s with ulg := { s.ulg with ft := t.ulg.ft } } ∧
      t.ulg.ft.inst = s.ulg.ft.inst.map (fun j =>
        if j.id = i.id then { j with sigA := some (b.data.toNat * 2 ^ 64 + lo), waitFrom := s.ulg.p.nowNs } else j) ∧
      (t.ulg.ft.core.get (64 * (b.cluster : Nat) + b.core)).run = none) ∧
    (i.sigA = some (b.data.toNat * 2 ^ 64 + lo) → i.sigB = none →
      i.coreB = some (64 * (b.cluster : Nat) + b.core) → ∃ t, exec (.sigHi b) s = .next t ∧
      t = { s with ulg := { s.ulg with p := t.ulg.p, ft := t.ulg.ft, cnt := t.ulg.cnt } } ∧
      s.ulg.p.onlyRegs t.ulg.p [ULG_FT_COUNT_PASS] ∧ t.ulg.ft.inst = s.ulg.ft.inst.filter (fun j => j.id ≠ i.id) ∧
      (∃ o, t.ulg.ft.waiting = s.ulg.ft.waiting ++ [o] ∧ o.outcome = 1 ∧ o.seq = i.seq ∧ o.sigA = o.sigB) ∧
      (t.ulg.ft.core.get i.coreA).lastPass = s.ulg.p.nowSec % 2 ^ 32 ∧
      (t.ulg.ft.core.get (64 * (b.cluster : Nat) + b.core)).lastPass = s.ulg.p.nowSec % 2 ^ 32 ∧
      (t.ulg.ft.core.get (64 * (b.cluster : Nat) + b.core)).defers = 0) ∧
    (∀ a, i.sigA = some a → a ≠ b.data.toNat * 2 ^ 64 + lo → i.sigB = none →
      i.coreB = some (64 * (b.cluster : Nat) + b.core) → ∃ t, exec (.sigHi b) s = .next t ∧
      t = { s with ulg := { s.ulg with ft := t.ulg.ft, cnt := t.ulg.cnt } } ∧ t.ulg.ft.waiting = s.ulg.ft.waiting ∧
      t.ulg.ft.inst = s.ulg.ft.inst.map (fun j => if j.id = i.id then { i with
        sigB := some (b.data.toNat * 2 ^ 64 + lo), arb := true, waitFrom := s.ulg.p.nowNs } else j)) ∧
    (∀ x, i.sigA = some (b.data.toNat * 2 ^ 64 + lo) → i.sigB = some x → ∃ t, exec (.sigHi b) s = .next t ∧
      t = { s with ulg := { s.ulg with p := t.ulg.p, ft := t.ulg.ft, cnt := t.ulg.cnt } } ∧
      s.ulg.p.onlyEvents t.ulg.p [ULG_FT_EVENT_FAIL, ULG_FT_COUNT_FAIL] [0x0400] ∧
      t.ulg.ft.inst = s.ulg.ft.inst.filter (fun j => j.id ≠ i.id) ∧
      (∃ o, t.ulg.ft.waiting = s.ulg.ft.waiting ++ [o] ∧ o.outcome = 3 ∧ o.seq = i.seq) ∧
      (t.ulg.ft.core.get (i.coreB.getD 0)).failed = true)) ∧
  (∀ (core : Fin 8192) (i : FtInst), (s.ulg.ft.core.get core).run = some i.id →
    s.ulg.ft.inst.find? (fun j => j.id = i.id) = some i → i.sigA = none → ∃ t, exec (.ftSigTimeout core) s = .next t ∧
      t = { s with ulg := { s.ulg with p := t.ulg.p, ft := t.ulg.ft, cnt := t.ulg.cnt } } ∧
      s.ulg.p.onlyEvents t.ulg.p [ULG_FT_EVENT_TIMEOUT, ULG_FT_COUNT_TIMEOUT] [0x0402] ∧
      t.ulg.ft.inst = s.ulg.ft.inst.filter (fun j => j.id ≠ i.id) ∧
      (t.ulg.ft.core.get core).run = none ∧ ∃ o, t.ulg.ft.waiting = s.ulg.ft.waiting ++ [o] ∧ o.outcome = 5 ∧ o.seq = i.seq) ∧
  (∀ i : FtInst, s.ulg.ft.inst.find? (fun j => j.seq = i.seq ∧ (j.oneResult ∨ j.awaitsArbiter)) = some i →
    i.oneResult = true → ∃ t, exec (.pairWaitExpiry i.seq) s = .next t ∧
      t = { s with ulg := { s.ulg with p := { s.ulg.p with now := t.ulg.p.now }, ft := t.ulg.ft } } ∧
      s.ulg.p.now ≤ t.ulg.p.now ∧ t.ulg.ft.inst = s.ulg.ft.inst.filter (fun j => j.id ≠ i.id) ∧
      ∃ o, t.ulg.ft.waiting = s.ulg.ft.waiting ++ [o] ∧ o.outcome = 9 ∧ o.seq = i.seq)

/-- Tile capture (R126 to R129, R516): a selected command opens a tile within the reservation, each data beat in its
place joins it, END makes its record, a timeout or a failed buffer discards it, and TILE_FORCE sets force bits. Where
the spec is open, the clauses rest on the model's reading (log entry 35). -/
def Obligations.TileCapture : Prop := ∀ s : State,
  (∀ b : TapBeat, s.ulg.domainOn 0x13 = true → tapParityBad b = false → descValid b.data.toNat = true →
    s.ulg.cfgOn ULG_TILE_CFG_EN = true → (b.tap : Nat) < s.ulg.cfg ULG_TILE_CFG_TAPS → s.ulg.reg ULG_FLT_STATUS_STATE = 0 →
    s.ulg.p.timed = true → s.ulg.seedSelects b.tap (s.ulg.tile.count.get b.tap) = true → s.ulg.tile.tile.get b.tap = none →
    s.ulg.tile.reserved + tileRecordLen b.data.toNat ≤ 6 * 2 ^ 20 → ∃ t, exec (.cmdBeat b) s = .next t ∧
      t = { s with ulg := { s.ulg with p := t.ulg.p, tile := t.ulg.tile, sent := .ttCapture b.tap :: s.ulg.sent } } ∧
      s.ulg.p.onlyRegs t.ulg.p [ULG_TILE_FORCE_TAP, ULG_TILE_STATUS_OPEN] ∧
      t.ulg.tile.count.get b.tap = s.ulg.tile.count.get b.tap + 1 ∧
      t.ulg.tile.reserved = s.ulg.tile.reserved + tileRecordLen b.data.toNat ∧
      ∃ o, t.ulg.tile.tile.get b.tap = some o ∧ o.desc = b.data.toNat ∧ o.beats = [] ∧
        o.cmdIndex = s.ulg.tile.count.get b.tap ∧ o.cmdNs = s.ulg.p.nowNs) ∧
  (∀ (kind : Fin 8) (b : TapBeat) (o : OpenTile), s.ulg.domainOn 0x13 = true → s.ulg.tile.tile.get b.tap = some o →
    tapParityBad b = false → (kind : Nat) = tileKindAt (tilePlan o.desc) o.beats.length →
    o.beats.length < tileBeats o.desc → ∃ t, exec (.tileDataBeat kind b) s = .next t ∧
      t = { s with ulg := { s.ulg with tile := { s.ulg.tile with tile := t.ulg.tile.tile } } } ∧
      t.ulg.tile.tile.get b.tap = some { o with beats := ((kind : Nat), b.data.toNat) :: o.beats } ∧
      ∀ k : Nat, k ≠ b.tap → t.ulg.tile.tile.get k = s.ulg.tile.tile.get k) ∧
  (∀ (b : TapBeat) (o : OpenTile), s.ulg.domainOn 0x13 = true → s.ulg.tile.tile.get b.tap = some o →
    o.beats.length = tileBeats o.desc → ∃ t, exec (.endBeat b) s = .next t ∧
      t = { s with ulg := { s.ulg with p := t.ulg.p, link := t.ulg.link, tile := t.ulg.tile } } ∧
      t.ulg.tile = { s.ulg.tile with tile := t.ulg.tile.tile } ∧
      t.ulg.tile.tile.get b.tap = none ∧
      s.ulg.p.onlyRegs t.ulg.p [ULG_TILE_STATUS_OPEN, ULG_TILE_SEQ_SEQ] ∧
      ∃ r, t.ulg.link.recs = s.ulg.link.recs ++ [r] ∧ r.stream = 3 ∧ r.bytes = s.ulg.tileRecord b.tap o ∧
        r.tile = some (s.ulg.reg ULG_TILE_SEQ_SEQ) ∧ r.id = s.ulg.link.nextId ∧ r.begun = false) ∧
  (∀ (tap : Fin 32) (o : OpenTile), s.ulg.tile.tile.get tap = some o → ∃ t, exec (.tileTimeout tap) s = .next t ∧
    t = { s with ulg := { s.ulg with p := t.ulg.p, tile := t.ulg.tile } } ∧
    s.ulg.p.onlyEvents t.ulg.p [ULG_TILE_STATUS_OPEN, ULG_TILE_DISCARD_DISCARDED, ULG_TILE_EVENT_TIMEOUT] [0x0502] ∧
    t.ulg.tile.tile.get tap = none ∧ t.ulg.tile.reserved = s.ulg.tile.reserved - o.reserved) ∧
  (∀ mask : BitVec 32, ∃ t, exec (.tileForce mask) s = .next t ∧ t = { s with ulg := { s.ulg with p := t.ulg.p } } ∧
    s.ulg.p.onlyRegs t.ulg.p [ULG_TILE_FORCE_TAP] ∧
    t.ulg.reg ULG_TILE_FORCE_TAP = (s.ulg.reg ULG_TILE_FORCE_TAP ||| mask.toNat) % 2 ^ 32) ∧
  (∀ (tap : Fin 32) (o : OpenTile), s.ulg.tile.tile.get tap = some o →
    ∃ t, exec (.captureBufferUe (.openTile tap)) s = .next t ∧
      t = { s with ulg := { s.ulg with p := t.ulg.p, tile := t.ulg.tile } } ∧
      s.ulg.p.onlyEvents t.ulg.p [ULG_TILE_STATUS_OPEN, ULG_TILE_DISCARD_DISCARDED, ULG_TILE_EVENT_PARITY] [0x0501] ∧
      t.ulg.tile.tile.get tap = none)

/-! ### The die link (04) -/

/-- The link state machine at either end (R144, R146, R147): four trained lanes lead to ALIGN, a lost lock to RETRY,
every limit of TRAIN, ALIGN and RETRY and sixteen violations to DOWN, and the hold-off back to TRAIN. Where the spec
is open, the clauses rest on the model's reading (log entries 4 and 38). -/
def Obligations.LinkStatesFollowTheirEvents : Prop := ∀ (s : State) (e : LinkEnd),
  (s.endReg e (·.state) ≤ 1 → s.endEnabled e = true →
    ∃ t, exec (.trainingDone e 15) s = .next t ∧ s.endOnly t e ∧ t.endReg e (·.state) = 2 ∧ t.endReg e (·.lanes) = 1 ∧
      t.endReg e (·.pair) = 0 ∧ (t.endPort e).lockHeld = true ∧ (t.endPort e).alignAt = (s.endPart e).nowNs ∧
      (s.endPart e).regs.onlyAt (t.endPart e).regs [(endRegs e).state, (endRegs e).lanes, (endRegs e).pair]) ∧
  (s.endReg e (·.state) ≤ 1 → s.endEnabled e = true → s.endClosing e = false →
    ∃ t, exec (.trainLimit e) s = .next t ∧ s.endDown t e ∧ (s.endReg e (·.state) = 1 →
      (t.endPart e).nowNs = max (s.endPart e).nowNs ((s.endPort e).trainAt + s.endTrainMs e * 1000000))) ∧
  (s.endReg e (·.state) = 2 → s.endClosing e = false →
    ∃ t, exec (.alignTimeout e) s = .next t ∧ s.endDown t e ∧
      (t.endPart e).nowNs = max (s.endPart e).nowNs ((s.endPort e).alignAt + 1000000)) ∧
  (s.endReg e (·.state) = 4 → s.endClosing e = false →
    ∃ t, exec (.retryTimeout e) s = .next t ∧ s.endDown t e ∧
      (t.endPart e).nowNs = max (s.endPart e).nowNs ((s.endPort e).retryAt + 8000)) ∧
  ((s.endReg e (·.state) = 3 ∨ s.endReg e (·.state) = 4) → 16 ≤ (s.endPort e).violRun → s.endClosing e = false →
    ∃ t, exec (.violDown e) s = .next t ∧ s.endDown t e ∧ (t.endPart e).now = (s.endPart e).now) ∧
  (s.endReg e (·.state) = 3 → ∃ t, exec (.alignmentLockLost e) s = .next t ∧ s.endOnly t e ∧ t.endReg e (·.state) = 4 ∧
    t.endReg e (·.evRetry) = 1 ∧ (t.endPort e).lockHeld = false ∧ (t.endPort e).retryAt = (s.endPart e).nowNs ∧
    (t.endPort e).retrySet = (s.endPort e).unacked.map (·.fseq) ∧
    t.endReg e (·.cRetries) = min (s.endReg e (·.cRetries) + 1) (2 ^ (endRegs e).cRetries.width - 1)) ∧
  (s.endReg e (·.state) = 4 → ∃ t, exec (.alignmentLockLost e) s = .next t ∧ s.endOnly t e ∧ t.endReg e (·.state) = 4 ∧
    (t.endPort e).lockHeld = false ∧ (t.endPort e).retryAt = (s.endPort e).retryAt) ∧
  (s.endReg e (·.state) = 5 → s.endEnabled e = true → ∃ t, exec (.reupHold e) s = .next t ∧ s.endOnly t e ∧
    t.endReg e (·.state) = 1 ∧ (s.endPart e).onlyTime (t.endPart e) [(endRegs e).state])

/-- Flits at either end (R138, R141 to R143): one with a bad CRC owes a NAK; one of the session is acknowledged by what it
names, and accepted when its FSEQ is the one expected; without progress every unacknowledged flit leaves again, oldest
first and with a control slot filled anew; in ALIGN IDLE flits leave, and in UP the next command or response; after its
last response a port that a COMMIT has disabled goes OFF, and one whose domain leaves ON goes DOWN. Where the spec is open, the clauses rest on the model's
reading (log entry 38). -/
def Obligations.FlitsAreTakenInOrder : Prop := ∀ (s : State) (e : LinkEnd),
  (∀ (f : Flit), (s.endReg e (·.state) = 3 ∨ s.endReg e (·.state) = 4) → f.crcGood = false →
    ∃ t, exec (.dataFlit e f) s = .next t ∧ exec (.idleFlit e f) s = .next t ∧ s.endOnly t e ∧
      (s.endPart e).regs = (t.endPart e).regs ∧ t.endSent e = s.endSent e ∧
      t.endPort e = { s.endPort e with nakOwed := true, fecCorrected := (s.endPort e).fecCorrected + f.fecCorrected }) ∧
  (∀ (f : Flit) (done left : List TxFlit), s.endReg e (·.state) = 3 → f.crcGood = true → f.ftypeOther = none →
    f.sessTag = s.endReg e (·.nonce) % 65536 → f.ctrl.breaks (endIsAgg e) = false → f.nak = false →
    (∀ p, e = .agg p → s.agg.reg (DP_STATUS_ROLE p) ≠ 1 ∧ s.agg.heldAt p ≠ 2) →
    ackSplit (s.endPort e).unacked (s.endPort e).txSeq f.ackSeq = some (done, left) →
    (∃ t, exec (.idleFlit e f) s = .next t ∧ s.endOnly t e ∧ (t.endPort e).unacked = left ∧
      (t.endPort e).lockHeld = true ∧ (t.endPort e).rxNext = (s.endPort e).rxNext ∧ t.endReg e (·.state) = 3) ∧
    (f.fseq = (s.endPort e).rxNext → f.fseq < 256 → f.stream = 0 → f.plen ≤ 228 → ∃ t, exec (.dataFlit e f) s = .next t ∧
      s.endOnly t e ∧ (t.endPort e).unacked = left ∧ (t.endPort e).rxNext = ((s.endPort e).rxNext + 1) % 256)) ∧
  (s.endReg e (·.state) = 3 → (s.endPort e).unacked ≠ [] → ∃ t, ∃ fs : List Flit, exec (.replayTimeout e) s = .next t ∧ s.endOnly t e ∧
    t.endReg e (·.state) = 4 ∧ (t.endPort e).unacked = (s.endPort e).unacked ∧
    t.endSent e = (fs.map fun f => .flit e true f).reverse ++ s.endSent e ∧
    fs.map (·.fseq) = (s.endPort e).unacked.map (·.fseq) ∧ fs.map (·.payload) = (s.endPort e).unacked.map (·.payload) ∧
    fs.map (·.ctrl) = (List.range (s.endPort e).unacked.length).map (s.endSlot e) ∧
    t.endReg e (·.cReplays) = min (s.endReg e (·.cReplays) + 1) (2 ^ (endRegs e).cReplays.width - 1)) ∧
  (s.endReg e (·.state) = 2 → ∃ t f, exec (.flitSend e) s = .next t ∧ s.endSends t e false f ∧
    f.nak = (s.endPort e).nakOwed ∧ f.ctrl = s.endSlot e 0 ∧ (∀ a, f.ctrl = .helloAck a → f.sessTag = a.sessTag) ∧
    ((∀ a, f.ctrl ≠ .helloAck a) → f.sessTag = 0) ∧
    t.endPort e = { s.endPort e with nakOwed := false, slots := (s.endPort e).slots.tail }) ∧
  (∀ p c, e = .agg p → s.endReg e (·.state) = 3 → (s.endPort e).unacked.length < 64 →
    (s.agg.die.get p).cmds.find? (fun c => !c.sent) = some c → ∃ t f, exec (.flitSend e) s = .next t ∧
      s.endSends t e true f ∧ f.stream = 5 ∧ f.payload = cmdBytes c ∧ f.ctrl = s.endSlot e 0 ∧
      f.fseq = (s.endPort e).txSeq ∧ f.sessTag = s.endReg e (·.nonce) % 65536 ∧
      (t.endPort e).txSeq = ((s.endPort e).txSeq + 1) % 256 ∧ (t.endPort e).unacked.length = (s.endPort e).unacked.length + 1) ∧
  (∀ x r rest, e = .ulg x → s.endReg e (·.state) = 3 → (s.endPort e).unacked.length < 64 →
    (s.ulg.link.port.get x).respQ = r :: rest → ∃ t f, exec (.flitSend e) s = .next t ∧ s.endSends t e true f ∧
      f.stream = 6 ∧ f.payload = r.bytes.take 228 ∧ f.ctrl = s.endSlot e 0 ∧
      ((s.ulg.link.port.get x).closing = false → s.ulg.phyLeaves x = false → (t.ulg.link.port.get x).respQ = rest ∧
        (t.endPort e).unacked.length = (s.endPort e).unacked.length + 1) ∧
      ((s.ulg.link.port.get x).closing = false → s.ulg.phyLeaves x = true → rest = [] →
        t.endReg e (·.state) = 5 ∧ (t.endPort e).unacked = []) ∧
      ((s.ulg.link.port.get x).closing = true → rest = [] → t.endReg e (·.state) = 0 ∧
        (t.ulg.link.port.get x).closing = false))

/-- Sessions (R148, R149): a HELLO without a session carries a fresh nonce whose tag is neither 0 nor the previous
one, the Uligo opens the session it names, resumes a suspended one with the same nonce, and a HELLO_ACK brings the
port UP. Where the spec is open, the clauses rest on the model's reading (log entry 37). -/
def Obligations.SessionsOpenAndResume : Prop := ∀ s : State,
  (∀ p : Fin 16, s.agg.reg (DP_STATUS_STATE p) = 2 → s.agg.reg (DP_STATUS_SESSION p) = 0 →
    ∃ t n, exec (.helloSend p) s = .next t ∧
      t = { s with agg := { s.agg with p := t.agg.p, die := t.agg.die, sent := t.agg.sent } } ∧
      t.agg.sent = .hello p false n :: s.agg.sent ∧ n % 65536 ≠ 0 ∧
      ((s.agg.die.get p).l.prevTag < 65536 → n % 65536 ≠ (s.agg.die.get p).l.prevTag) ∧ n < 2 ^ 64 ∧
      t.agg.reg (DP_NONCE_NONCE p) = n ∧ t.agg.reg (DP_STATUS_SESSION p) = 1 ∧
      s.agg.p.regs.onlyAt t.agg.p.regs [DP_NONCE_NONCE p, DP_STATUS_SESSION p]) ∧
  (∀ (x : Fin 2) (nonce : Nat), nonce < 2 ^ 64 → s.ulg.reg (ULG_LINK_STATUS_STATE x) = 2 →
    s.ulg.reg (ULG_LINK_STATUS_SESSION x) = 0 → ∃ t, exec (.hello x false false nonce) s = .next t ∧
      t = { s with ulg := { s.ulg with p := t.ulg.p, link := t.ulg.link, sent := t.ulg.sent } } ∧
      t.ulg.sent = .helloAck x { dieUid := s.ulg.uid, sessTag := nonce % 65536 } :: s.ulg.sent ∧
      t.ulg.reg (ULG_LINK_NONCE_NONCE x) = nonce ∧ t.ulg.reg (ULG_LINK_STATUS_SESSION x) = 1 ∧
      t.ulg.reg (ULG_LINK_EVENT_NEW_SESSION x) = 1 ∧ (t.ulg.link.port.get x).next = 0 ∧
      (t.ulg.link.port.get x).cache = [] ∧ t.ulg.reg (ULG_LINK_CMD_CACHED x) = 0 ∧ t.ulg.link.recs = s.ulg.link.recs) ∧
  (∀ (x : Fin 2), s.ulg.reg (ULG_LINK_STATUS_STATE x) = 2 → s.ulg.reg (ULG_LINK_STATUS_SESSION x) = 3 →
    s.ulg.reg (ULG_LINK_STATUS_FULL_REQ x) = 0 →
    ∃ t, exec (.hello x true false (s.ulg.reg (ULG_LINK_NONCE_NONCE x))) s = .next t ∧
      t = { s with ulg := { s.ulg with p := t.ulg.p, link := t.ulg.link, sent := t.ulg.sent } } ∧
      t.ulg.sent = .helloAck x ⟨true, false, false, false, s.ulg.uid, (s.ulg.link.port.get x).next,
        s.ulg.reg (ULG_LINK_NONCE_NONCE x) % 65536⟩ :: s.ulg.sent ∧
      t.ulg.reg (ULG_LINK_STATUS_SESSION x) = 1 ∧
      (t.ulg.link.port.get x).next = (s.ulg.link.port.get x).next ∧
      (t.ulg.link.port.get x).cache = (s.ulg.link.port.get x).cache) ∧
  (∀ (p : Fin 16) (k : HelloAck), k.reservedSet = false → s.agg.reg (DP_STATUS_STATE p) = 2 →
    s.agg.reg (DP_STATUS_SESSION p) = 1 → k.sessTag = s.agg.reg (DP_NONCE_NONCE p) % 65536 →
    (s.agg.die.get p).l.resuming = false → k.unknown = false → k.fullReq = false → k.resumed = false →
    ∃ t, exec (.helloAck p k) s = .next t ∧ t = { s with agg := t.agg } ∧ t.agg.reg (DP_STATUS_STATE p) = 3 ∧
      t.agg.reg (DP_STATUS_SESSION p) = 2 ∧ t.agg.reg (DP_DIE_UID_UID p) = k.dieUid % 2 ^ 64 ∧
      (t.agg.die.get p).l.prevTag = k.sessTag ∧ (t.agg.die.get p).l.rxNext = 0 ∧ (t.agg.die.get p).l.txSeq = 0)

/-- The command layer (R152 to R155): the next command of a session runs once and its response is queued and cached; a
repeated one is answered from the cache with DUP and does not run; a payload of a reserved opcode is a violation and is
answered BAD_OPCODE. Where the spec is open, the clauses rest on the model's reading (log entries 54 and 100). -/
def Obligations.CommandsRunOnceInOrder : Prop := ∀ (s : State) (x : Fin 2) (c : Cmd),
  (s.ulg.inTurn x c → ∃ t, exec (.nop x c) s = .next t ∧
    t = { s with ulg := { s.ulg with p := t.ulg.p, link := t.ulg.link } } ∧
    s.ulg.answers t.ulg x { opcode := 6, seq := c.seq } ∧
    s.ulg.p.onlyRegs t.ulg.p [ULG_LINK_CMD_NEXT x, ULG_LINK_CMD_CACHED x]) ∧
  (s.ulg.inTurn x c → c.arg % 2 = x → ∃ t, exec (.sessionStatus x c) s = .next t ∧
    t = { s with ulg := { s.ulg with p := t.ulg.p, link := t.ulg.link } } ∧
    s.ulg.answers t.ulg x ⟨5, false, 0, c.seq, 0, [s.ulg.reg (ULG_LINK_NONCE_NONCE x), c.seq + 2 * 2 ^ 32]⟩) ∧
  (∀ r, s.ulg.repeats x c r →
    (∃ t, exec (.nop x c) s = .next t ∧ s.answersAgain t x r) ∧ (∃ t, exec (.read x c) s = .next t ∧ s.answersAgain t x r) ∧
    (∃ t, exec (.write x c) s = .next t ∧ s.answersAgain t x r) ∧
    (s.ulg.p.timed = true → ∃ t, exec (.commit x c) s = .next t ∧ s.answersAgain t x r) ∧
    (∃ t, exec (.sessionStatus x c) s = .next t ∧ s.answersAgain t x r) ∧
    (∃ t, exec (.domain x c) s = .next t ∧ s.answersAgain t x r) ∧
    (∃ t, exec (.replayStart x c) s = .next t ∧ s.answersAgain t x r)) ∧
  (s.ulg.inTurn x c → badRun (Cmd.offsets c) = true →
    (∃ t, exec (.read x c) s = .next t ∧ t = { s with ulg := { s.ulg with p := t.ulg.p, link := t.ulg.link } } ∧
      s.ulg.answers t.ulg x { opcode := 1, status := 1, seq := c.seq } ∧
      s.ulg.p.onlyRegs t.ulg.p [ULG_LINK_CMD_NEXT x, ULG_LINK_CMD_CACHED x]) ∧
    (∃ t, exec (.write x c) s = .next t ∧ t = { s with ulg := { s.ulg with p := t.ulg.p, link := t.ulg.link } } ∧
      s.ulg.answers t.ulg x { opcode := 2, status := 1, seq := c.seq } ∧
      s.ulg.p.onlyRegs t.ulg.p [ULG_LINK_CMD_NEXT x, ULG_LINK_CMD_CACHED x])) ∧
  (s.ulg.inTurn x c → badRun (Cmd.offsets c) = false → ∃ t w, exec (.read x c) s = .next t ∧ t = { s with ulg := t.ulg } ∧
    s.ulg.answers t.ulg x { opcode := 1, seq := c.seq, data := w } ∧ w.length = c.count) ∧
  (s.ulg.inTurn x c → badRun (Cmd.offsets c) = false → ∃ t, exec (.write x c) s = .next t ∧ t = { s with ulg := t.ulg } ∧
    s.ulg.answers t.ulg x { opcode := 2, seq := c.seq } ∧
    (c.count = 1 → c.addr = 0x130 → t.ulg.p.staged = (s.ulg.p.wordWrite regMapUlg 0x130 (c.data.getD 0 0 % 2 ^ 64)).staged ∧
      t.ulg.p.live = s.ulg.p.live)) ∧
  (s.ulg.inTurn x c → s.ulg.p.timed = true → s.ulg.p.copy = none →
    (firstBreach (s.ulg.breaches s.ulg.p.staged) = none → ∃ t, exec (.commit x c) s = .next t ∧
      t = { s with ulg := { s.ulg with p := t.ulg.p, link := t.ulg.link } } ∧ t.ulg.p.copy = some s.ulg.p.staged ∧
      t.ulg.p.live = s.ulg.p.live ∧ t.ulg.reg ULG_COMMIT_STATUS_PENDING = 1 ∧
      (t.ulg.link.port.get x).running = (s.ulg.link.port.get x).running ++ [(c.seq, 4)]) ∧
    (∀ b, firstBreach (s.ulg.breaches s.ulg.p.staged) = some b → ∃ t, exec (.commit x c) s = .next t ∧
      t.ulg.p.live = s.ulg.p.live ∧ t.ulg.p.copy = none ∧ t.agg = s.agg ∧ t.pending = s.pending ∧
      s.ulg.answers t.ulg x { opcode := 4, seq := c.seq, arg := b.2 + b.1 * 2 ^ 16 })) ∧
  (∀ l, s.ulg.inTurn x (readCmd l) → commandOf x (beAt l 0 1) (readCmd l) = none → beAt l 0 1 ≠ 0x10 →
    s.ulg.answers (s.ulg.reservedCommand x l) x { opcode := beAt l 0 1, status := 3, seq := (readCmd l).seq } ∧
      (s.ulg.reservedCommand x l).reg (ULG_LINK_EVENT_VIOL x) = 1)

/-- TILE_REPLAY (R362, R387): OPEN reserves the image, LOAD appends its words, START makes it ready, STATUS reports, CLOSE
frees the reservation and lets a run in progress end unheard, and a read of the image selects the next word. -/
def Obligations.ReplayCommandsHaveTheirEffect : Prop := ∀ (s : State) (x : Fin 2) (c : Cmd),
  (s.ulg.inTurn x c → c.addr = 0 → s.ulg.reg ULG_RPL_STATUS_STATE = 0 →
    s.ulg.rplOpenOk c (bitsOf (c.data.getD 1 0) 0 13) (bitsOf (c.data.getD 1 0) 16 3) (bitsOf (c.data.getD 1 0) 32 16)
      (c.data.getD 2 0 % 2 ^ 32)
      (c.data.getD 3 0 + c.data.getD 4 0 * 2 ^ 64 + c.data.getD 5 0 * 2 ^ 128 + c.data.getD 6 0 * 2 ^ 192) = true →
    ∃ t st, exec (.replayOpen x c) s = .next t ∧
      t = { s with ulg := { s.ulg with p := t.ulg.p, link := t.ulg.link, rpl := t.ulg.rpl, tile := t.ulg.tile } } ∧
      s.ulg.answers t.ulg x { opcode := 0x10, seq := c.seq, data := st } ∧ t.ulg.reg ULG_RPL_STATUS_STATE = 1 ∧
      t.ulg.reg ULG_RPL_STATUS_CORE = bitsOf (c.data.getD 1 0) 0 13 ∧ t.ulg.rpl.words = [] ∧
      t.ulg.rpl.seq = c.data.getD 0 0 ∧
      t.ulg.tile = { s.ulg.tile with reserved := s.ulg.tile.reserved + c.data.getD 2 0 % 2 ^ 32 }) ∧
  (s.ulg.inTurn x c → c.addr = 0 → s.ulg.reg ULG_RPL_STATUS_STATE = 1 → c.arg / 256 = s.ulg.rpl.words.length →
    8 * (s.ulg.rpl.words.length + (c.data.take c.count).length) ≤ s.ulg.rpl.imgLen →
    ∃ t, exec (.replayLoad x c) s = .next t ∧
      t = { s with ulg := { s.ulg with p := t.ulg.p, link := t.ulg.link, rpl := t.ulg.rpl } } ∧
      t.ulg.rpl = { s.ulg.rpl with words := s.ulg.rpl.words ++ (c.data.take c.count).map (· % 2 ^ 64) } ∧
      s.ulg.answers t.ulg x { opcode := 0x10, seq := c.seq } ∧
      s.ulg.p.onlyRegs t.ulg.p [ULG_LINK_CMD_NEXT x, ULG_LINK_CMD_CACHED x]) ∧
  (s.ulg.inTurn x c → c.addr = 0 → s.ulg.reg ULG_RPL_STATUS_STATE = 1 → 8 * s.ulg.rpl.words.length = s.ulg.rpl.imgLen →
    ∃ t, exec (.replayStart x c) s = .next t ∧
      t = { s with ulg := { s.ulg with p := t.ulg.p, link := t.ulg.link } } ∧
      s.ulg.answers t.ulg x { opcode := 0x10, seq := c.seq } ∧ t.ulg.reg ULG_RPL_STATUS_STATE = 2) ∧
  (s.ulg.inTurn x c → c.addr = 0 → ∃ t, exec (.replayStatus x c) s = .next t ∧
    t = { s with ulg := { s.ulg with p := t.ulg.p, link := t.ulg.link } } ∧
    s.ulg.answers t.ulg x { opcode := 0x10, seq := c.seq, data := s.ulg.rplStatus }) ∧
  (s.ulg.inTurn x c → c.addr = 0 → s.ulg.reg ULG_RPL_STATUS_STATE ≠ 0 → ∃ t, exec (.replayClose x c) s = .next t ∧
    t = { s with ulg := { s.ulg with p := t.ulg.p, link := t.ulg.link, rpl := t.ulg.rpl, tile := t.ulg.tile } } ∧
    t.ulg.tile = { s.ulg.tile with reserved := s.ulg.tile.reserved - s.ulg.rpl.imgLen } ∧
    s.ulg.answers t.ulg x { opcode := 0x10, seq := c.seq } ∧ t.ulg.reg ULG_RPL_STATUS_STATE = 0 ∧
    t.ulg.rpl.words = [] ∧ t.ulg.reg ULG_RPL_EVENT_CLOSED = 1 ∧
    t.ulg.rpl.late = if s.ulg.reg ULG_RPL_STATUS_STATE = 3 then s.ulg.rpl.late ++ [s.ulg.reg ULG_RPL_STATUS_CORE]
      else s.ulg.rpl.late) ∧
  (∃ t, exec .rplDataRead s = .next t ∧
    t = { s with ulg := { s.ulg with
      p := t.ulg.p, rdata := s.ulg.rpl.words.getD (s.ulg.reg ULG_RPL_SEL_OFFSET) 0, rerr := false } } ∧
    s.ulg.p.onlyRegs t.ulg.p [ULG_RPL_SEL_OFFSET] ∧
    t.ulg.reg ULG_RPL_SEL_OFFSET = (s.ulg.reg ULG_RPL_SEL_OFFSET + 1) % 2 ^ ULG_RPL_SEL_OFFSET.width) ∧
  (s.ulg.reg ULG_RPL_STATUS_STATE = 3 → ∃ t, exec .replayRunTimeout s = .next t ∧
    t = { s with ulg := { s.ulg with p := t.ulg.p, rpl := t.ulg.rpl } } ∧
    t.ulg.reg ULG_RPL_EVENT_RUN_TIMEOUT = 1 ∧
    t.ulg.rpl = { s.ulg.rpl with sigs := s.ulg.rpl.sigs ++ [(0, 0, false)], sigLo := none } ∧
    t.ulg.reg ULG_RPL_STATUS_STATE = (if s.ulg.rpl.runs ≤ s.ulg.reg ULG_RPL_STATUS_RUNS_DONE + 1 then 4 else 2))

/-- Responses, roles and the stream timeout (R157, R161, R162, R164): a response takes its command from the queue, and
one without a command or of a reserved STATUS is a violation; RELEASE steps back, CLAIM takes the die, and a silent
stream is a contained fault that keeps the port UP. Where the spec is open, the clauses rest on the model's reading (log
entries 39 and 54). -/
def Obligations.RolesAndResponses : Prop := ∀ (s : State) (p : Fin 16),
  (∀ (c : OutCmd) (r : Resp) (rest : List OutCmd), (s.agg.die.get p).cmds = c :: rest → c.seq = r.seq → r.status ≤ 6 →
    (∀ k ∈ rest, k.seq ≠ r.seq) → c.use = .plain → (s.agg.die.get p).heldCmds = [] → ∃ t, exec (.response p r) s = .next t ∧
      t = { s with agg := { s.agg with p := t.agg.p, die := t.agg.die } } ∧
      (t.agg.die.get p).cmds = rest ∧ (∀ q : Nat, q ≠ p → t.agg.die.get q = s.agg.die.get q) ∧
      s.agg.p.onlyRegs t.agg.p [DP_CMD_STATUS_OUTSTANDING p, DP_CMD_STATUS_HELD p]) ∧
  (∀ r : Resp, (6 < r.status ∨ ∀ c ∈ (s.agg.die.get p).cmds, c.seq ≠ r.seq) → ∃ t, exec (.response p r) s = .next t ∧
    t.ulg = s.ulg ∧ t.pending = s.pending ∧ (t.agg.die.get p).cmds = (s.agg.die.get p).cmds ∧
    t.agg.reg (DP_EVENT_VIOL p) = 1) ∧
  (∀ slot, s.agg.reg CFG_STATUS_STATE ≠ 5 → s.agg.slotServed p = some slot → s.agg.role.get slot = 1 →
    ∃ t, exec (.release p) s = .next t ∧ t = { s with agg := t.agg } ∧ t.agg.role = s.agg.role.set slot 2 ∧
      t.agg.reg (DP_STATUS_ROLE p) = if s.agg.safe then 3 else 2) ∧
  (∀ slot, s.agg.reg CFG_STATUS_STATE ≠ 5 → s.agg.slotServed p = some slot → s.agg.role.get slot ≠ 1 →
    ∃ t, exec (.claim p) s = .next t ∧ t = { s with agg := t.agg } ∧ t.agg.role = s.agg.role.set slot 1 ∧
      t.agg.reg (DP_EVENT_TAKEOVER p) = 1) ∧
  (∀ t0, (s.agg.die.get p).upSince = some t0 → s.agg.reg (DP_STATUS_STATE p) = 3 →
    ∃ t, exec (.streamTimeout p) s = .next t ∧ t = { s with agg := { s.agg with p := t.agg.p } } ∧
      t.agg.reg (DP_STATUS_SILENT p) = 1 ∧ t.agg.reg (DP_STATUS_STATE p) = 3 ∧
      t.agg.p.now = max s.agg.p.now ((t0 + s.agg.streamTmo p - (s.agg.die.get p).silentNs) * 2 ^ 56) ∧
      s.agg.p.onlyEvents t.agg.p [DP_STATUS_SILENT p, DP_EVENT_SILENT p] [0x0204 + 16 * (p : Nat)])

/-! ### Ingest (05) -/

/-- Records and the stream table (R174, R177, R178, R180, R182, R183, R193, R199): the oldest complete record is
committed in order or dropped as a duplicate, the sweep ages and removes entries, and the table commands read, insert
and delete. Where the spec is open, the clauses rest on the model's reading (log entries 19, 41, 43, 44 and 51). -/
def Obligations.IngestHasItsEffect : Prop := ∀ s : State,
  (∀ (p st : Fin 16) (r : IngRec) rest, s.agg.ing.ready.get (rxKey p st) = r :: rest → s.agg.gasp = false →
    (s.agg.judge r.slot st (parseHeader (typeOfStream st) r.bytes) = .dup → ∃ t, exec (.recordCommit p st) s = .next t ∧
      t = { s with agg := { s.agg with p := t.agg.p, ing := t.agg.ing, shed := t.agg.shed } } ∧
      t.agg.ing = { s.agg.ing with ready := s.agg.ing.ready.set (rxKey p st) rest, fifo := t.agg.ing.fifo } ∧
      t.agg.ing.fifo.get p = [] ∧ s.agg.p.onlyRegs t.agg.p [ING_PORT_STATUS_LEVEL p, ING_ERR_COUNT_DUP] ∧
      t.agg.reg ING_ERR_COUNT_DUP = min (s.agg.reg ING_ERR_COUNT_DUP + 1) (2 ^ ING_ERR_COUNT_DUP.width - 1)) ∧
    (s.agg.judge r.slot st (parseHeader (typeOfStream st) r.bytes) = .early → ∃ t, exec (.recordCommit p st) s = .next t ∧
      t = { s with agg := { s.agg with p := t.agg.p, ing := t.agg.ing, shed := t.agg.shed } } ∧
      t.agg.ing.ready = s.agg.ing.ready.set (rxKey p st) rest ∧ t.agg.ing.last = s.agg.ing.last ∧
      t.agg.reg ING_EVENT_ORDER = 1 ∧ s.agg.p.onlyEvents t.agg.p
        [ING_PORT_STATUS_LEVEL p, ING_ERR_COUNT_VIOL, ING_EVENT_VIOL, ING_EVENT_ORDER] [0x0300, 0x030B]) ∧
    (∀ id jump, s.agg.judge r.slot st (parseHeader (typeOfStream st) r.bytes) = .inOrder id jump →
      ∃ t, exec (.recordCommit p st) s = .next t ∧ t.ulg = s.ulg ∧ t.pending = s.pending ∧
        t.agg.ing.ready.get (rxKey p st) = rest ∧ t.agg.ing.last.get (8 * r.slot + st) = some id ∧
        t.agg.ing.gap.get (8 * r.slot + st) = false)) ∧
  (∀ (p : Fin 16) (r : IngRec) rest id jump, s.agg.ing.ready.get (rxKey p 4) = r :: rest →
    s.agg.gasp = false → s.agg.ringOn r.ring = true →
    s.agg.judge r.slot 4 (parseHeader 2 r.bytes) = .inOrder id jump → ∃ t, exec (.recordCommit p 4) s = .next t ∧
      (t.agg.ring r.ring).writeSeq = (s.agg.ring r.ring).writeSeq + 1 ∧
      (t.agg.ring r.ring).writeOff = (s.agg.ring r.ring).writeOff ∧
      ∀ e ∈ (t.agg.ring r.ring).reserved, e.1 ≠ r.off) ∧
  (s.agg.cfg ING_CFG_SWEEP_MS ≠ 0 → ∃ t f, exec .sweepVisit s = .next t ∧
    t = { s with agg := { s.agg with p := t.agg.p, ing := t.agg.ing } } ∧
    (s.agg.ing.sweepFrom = some f ∨ s.agg.ing.sweepFrom = none ∧ (∃ k, f = k * (s.agg.cfg ING_CFG_SWEEP_MS * 1000000)) ∧
      s.agg.p.nowNs ≤ f ∧ f < s.agg.p.nowNs + s.agg.cfg ING_CFG_SWEEP_MS * 1000000) ∧
    t.agg.p.now = max s.agg.p.now
      ((f + s.agg.ing.sweepLoc * (s.agg.cfg ING_CFG_SWEEP_MS * 1000000) / 66560) * 2 ^ 56) ∧
    (s.agg.ing.sweepLoc + 1 < 66560 → t.agg.ing.sweepLoc = s.agg.ing.sweepLoc + 1 ∧ t.agg.ing.sweepFrom = some f ∧
      t.agg.p.regs = s.agg.p.regs) ∧
    (66560 ≤ s.agg.ing.sweepLoc + 1 → t.agg.ing.sweepLoc = 0 ∧
      t.agg.ing.sweepFrom = some (f + s.agg.cfg ING_CFG_SWEEP_MS * 1000000) ∧
      t.agg.reg ING_STATUS_SWEEPS = (s.agg.reg ING_STATUS_SWEEPS + 1) % 2 ^ 32) ∧
    t.agg.stAt s.agg.ing.sweepLoc = (s.agg.stAt s.agg.ing.sweepLoc).bind (fun e =>
      if e.hit then some { e with hit := false, aged := false }
      else if !e.aged then some { e with aged := true } else if e.static then some e else none) ∧
    ∀ l, l ≠ s.agg.ing.sweepLoc → t.agg.stAt l = s.agg.stAt l) ∧
  (∀ loc e, s.agg.reg CFG_STATUS_STATE ≠ 5 → s.agg.stAt loc = some e → ∃ t, exec (.readLoc loc) s = .next t ∧
    t = { s with agg := { s.agg with p := t.agg.p } } ∧ t.agg.reg ING_ST_DATA0_UID = e.uid % 2 ^ 64 ∧
    t.agg.reg ING_ST_RESULT_FOUND = 1 ∧ t.agg.reg ING_ST_RESULT_DONE = 1 ∧ t.agg.reg ING_ST_DATA1_VALID = 1 ∧
    t.agg.reg ING_ST_DATA1_STATIC = (if e.static then 1 else 0)) ∧
  (∀ loc, s.agg.reg CFG_STATUS_STATE ≠ 5 → s.agg.stAt loc = none → ∃ t, exec (.readLoc loc) s = .next t ∧
    t = { s with agg := { s.agg with p := t.agg.p } } ∧ t.agg.reg ING_ST_RESULT_FOUND = 0 ∧
    t.agg.reg ING_ST_DATA1_VALID = 0) ∧
  (∀ loc e, s.agg.reg CFG_STATUS_STATE ≠ 5 → loc < 2 ^ ING_ST_RESULT_LOC.width →
    s.agg.stFind (s.agg.reg ING_ST_DATA0_UID) (s.agg.reg ING_ST_DATA1_CLASS) = some (loc, e) →
    (∃ t, exec .lookup s = .next t ∧ t = { s with agg := { s.agg with p := t.agg.p } } ∧
      t.agg.reg ING_ST_RESULT_FOUND = 1 ∧ t.agg.reg ING_ST_RESULT_LOC = loc ∧
      t.agg.reg ING_ST_DATA1_VALID = 1) ∧
    (∃ t, exec .delete s = .next t ∧ t = { s with agg := { s.agg with p := t.agg.p, ing := t.agg.ing } } ∧
      t.agg.stAt loc = none ∧ (∀ l, l ≠ loc → t.agg.stAt l = s.agg.stAt l) ∧ t.agg.reg ING_ST_RESULT_FOUND = 1)) ∧
  (∀ loc, s.agg.reg CFG_STATUS_STATE ≠ 5 → (s.agg.reg ING_ST_DATA1_PORT < 28 ∨ s.agg.reg ING_ST_DATA1_PORT = 31) →
    s.agg.ringOn (s.agg.reg ING_ST_DATA1_RING) = true →
    s.agg.stFind (s.agg.reg ING_ST_DATA0_UID) (s.agg.reg ING_ST_DATA1_CLASS) = none →
    s.agg.stFree (s.agg.reg ING_ST_DATA0_UID) (s.agg.reg ING_ST_DATA1_CLASS) = some loc →
    ∃ t e, exec .insertStatic s = .next t ∧
      t = { s with agg := { s.agg with p := t.agg.p, ing := t.agg.ing, shed := t.agg.shed } } ∧
      t.agg.stAt loc = some e ∧ e.static = true ∧ e.uid = s.agg.reg ING_ST_DATA0_UID ∧
      e.cls = s.agg.reg ING_ST_DATA1_CLASS ∧ e.ring = s.agg.reg ING_ST_DATA1_RING ∧ e.hit = false ∧
      t.agg.reg ING_ST_RESULT_REFUSED = 0 ∧ ∀ l, l ≠ loc → t.agg.stAt l = s.agg.stAt l) ∧
  (∀ ring, (s.agg.ring ring).mode = 3 → (∀ c ∈ (s.agg.ring ring).consumers, (s.agg.ring ring).writeSeq ≤ c) →
    ∃ t, exec (.ringReleased ring) s = .next t ∧ t = { s with agg := { s.agg with shed := t.agg.shed } } ∧
      t.agg.ring ring = { s.agg.ring ring with mode := 2, cursors := [] } ∧
      ∀ r, r ≠ ring → t.agg.ring r = s.agg.ring r)

/-! ### The Shed (06) -/

/-- Shed errors, repair and scrub, and the aperture (R200, R204 to R207, R490, R433): what each granule found and each
repaired copy does to the counts and the memory, and a host write lands only where it may. Where the spec is open, the
clauses rest on the model's reading (log entries 36, 49, 141, 142 and 148). -/
def Obligations.ShedErrorsAndAperture : Prop := ∀ s : State,
  (∀ addr, ∃ t, exec (.shedUe addr) s = .next t ∧ t.ulg = s.ulg ∧ t.pending = s.pending ∧
    t.agg.shed.mem = s.agg.shed.mem ∧ (addr / 64 * 64, 64) ∈ t.agg.shed.bad ∧ t.agg.reg SHED_EVENT_UE = 1 ∧
    t.agg.reg SHED_ECC_COUNT_UNCORR = min (s.agg.reg SHED_ECC_COUNT_UNCORR + 1) (2 ^ 16 - 1) ∧
    (s.agg.reg SHED_ECC_FIRST_VALID = 0 → t.agg.reg SHED_ECC_FIRST_VALID = 1 ∧ t.agg.reg SHED_ECC_FIRST_UNCORR = 1 ∧
      t.agg.reg SHED_ECC_FIRST_ADDR = addr % 2 ^ 39)) ∧
  (∀ addr, s.agg.recordsAt (addr / 64) = [] →
    (s.agg.shed.stackErr.get (s.agg.stackOf addr)).2.2 + 1 < s.agg.cfg SHED_CFG_UE_LIMIT →
    s.agg.reg SHED_ECC_FIRST_VALID = 1 → ∃ t, exec (.shedUe addr) s = .next t ∧
      t = { s with agg := { s.agg with p := t.agg.p, shed := t.agg.shed } } ∧
      t.agg.shed.ring = s.agg.shed.ring ∧ t.agg.shed.repair = s.agg.shed.repair ∧
      s.agg.p.onlyEvents t.agg.p [SHED_ECC_COUNT_UNCORR, SHED_EVENT_UE] [0x0401]) ∧
  (∀ addr r q, s.agg.recordsAt (addr / 64) = [(r, q)] → q.mirrored = true → ∃ t m, exec (.shedUe addr) s = .next t ∧
    t.agg.shed.repair = s.agg.shed.repair ++ [(r, q.seq)] ∧
    s.agg.offered t.agg (.rycon (s.agg.mirPacket s.agg.partner (.fetch m) s.agg.shed.msess)) ∧ m.cls = q.cls ∧
    m.fleetDie = q.die.getD (2 ^ 31) ∧ m.firstIdent = q.ident ∧ m.lastIdent = q.ident) ∧
  (∀ addr, ∃ t, exec (.shedUe addr) s = .next t ∧
    ∀ r q, (r, q) ∈ s.agg.recordsAt (addr / 64) → q.mirrored = true → (r, q.seq) ∈ t.agg.shed.repair) ∧
  (∀ l r seq rest q, s.agg.shed.repair = (r, seq) :: rest → (s.agg.ring r).find seq = some q →
    s.agg.shed.fetched.find? (copyOf q) = some l → ∃ t, exec .shedRepaired s = .next t ∧
      t = { s with agg := { s.agg with p := t.agg.p, shed := t.agg.shed } } ∧
      t.agg.shed = { s.agg.shed with
        repair := rest.filter (· ≠ (r, seq)), fetched := s.agg.shed.fetched.filter (· ≠ l)
        mem := (s.agg.ringWrite r q.off l).shed.mem, bad := (s.agg.ringWrite r q.off l).shed.bad } ∧
      s.agg.p.onlyEvents t.agg.p [SHED_ECC_COUNT_REPAIRED, SHED_EVENT_REPAIRED] [0x0402]) ∧
  (s.agg.cfg SHED_CFG_SCRUB_H ≠ 0 → s.agg.shed.scrubPos + 64 < s.agg.shedSize →
    s.agg.granuleLost (s.agg.shed.scrubPos / 64) = false → s.agg.reg SHED_ECC_COUNT_CORR < 2 ^ 32 →
    (∀ n reports, n ≤ 4 → ∃ t, exec (.scrub n reports) s = .next t ∧
      t = { s with agg := { s.agg with p := t.agg.p, shed := t.agg.shed } } ∧
      t.agg.shed = { s.agg.shed with scrubPos := s.agg.shed.scrubPos + 64, stackErr := t.agg.shed.stackErr } ∧
      t.agg.reg SHED_ECC_COUNT_CORR =
        min (s.agg.reg SHED_ECC_COUNT_CORR + reports.length + (if n = 0 then 0 else 1)) (2 ^ 32 - 1)) ∧
    ∀ n, 4 < n → n ≤ 8 → ∃ t, exec (.scrub n []) s = .next t ∧ t.ulg = s.ulg ∧ t.pending = s.pending ∧
      t.agg.shed.scrubPos = s.agg.shed.scrubPos + 64 ∧ t.agg.shed.mem = s.agg.shed.mem ∧
      (s.agg.shed.scrubPos / 64 * 64, 64) ∈ t.agg.shed.bad ∧ t.agg.reg SHED_EVENT_UE = 1) ∧
  (s.agg.cfg SHED_CFG_SCRUB_H ≠ 0 → s.agg.shedSize ≤ s.agg.shed.scrubPos + 64 →
    s.agg.granuleLost (s.agg.shed.scrubPos / 64) = false → ∃ t, exec (.scrub 0 []) s = .next t ∧
      t = { s with agg := { s.agg with p := t.agg.p, shed := { s.agg.shed with scrubPos := 0 } } } ∧
      s.agg.p.onlyRegs t.agg.p [SHED_STATUS_SCRUB_PASSES] ∧
      t.agg.reg SHED_STATUS_SCRUB_PASSES = (s.agg.reg SHED_STATUS_SCRUB_PASSES + 1) % 2 ^ 32) ∧
  (∀ stack : Fin 6, ∃ t, exec (.hbmTrainingLoss stack) s = .next t ∧
    t = { s with agg := { s.agg with p := t.agg.p, rprQueue := t.agg.rprQueue } } ∧
    s.agg.p.onlyEvents t.agg.p [SHED_EVENT_STACK_FAIL] [0x0403] ∧
    ∃ e, t.agg.rprQueue = s.agg.rprQueue ++ [e] ∧ e.etype = 1 ∧ e.unit = (stack : Nat)) ∧
  (∀ off bytes addr, addr = s.agg.reg CFG_APERTURE_BASE_4G * 2 ^ 32 + off % 2 ^ 32 →
    (s.agg.reg CFG_STATUS_STATE = 4 ∧ s.agg.inRegion 8 addr bytes.length = true ∨
      s.agg.reg CFG_STATUS_STATE = 5 ∧ addr + bytes.length ≤ 32 * 2 ^ 20 → ∃ t, exec (.apertureWrite off bytes) s = .next t ∧
        t = { s with agg := { s.agg with shed := { s.agg.shed with mem := t.agg.shed.mem, bad := t.agg.shed.bad } } } ∧
        (∀ i, (h : i < bytes.length) → t.agg.shed.mem.get (addr + i) = bytes[i]) ∧
        ∀ b, b < addr ∨ addr + bytes.length ≤ b → t.agg.shed.mem.get b = s.agg.shed.mem.get b) ∧
    (¬ (s.agg.reg CFG_STATUS_STATE = 4 ∧ s.agg.inRegion 8 addr bytes.length = true ∨
      s.agg.reg CFG_STATUS_STATE = 5 ∧ addr + bytes.length ≤ 32 * 2 ^ 20) →
      ∃ t, exec (.apertureWrite off bytes) s = .next t ∧ t = { s with agg := { s.agg with p := t.agg.p } } ∧
        s.agg.p.onlyEvents t.agg.p [CFG_EVENT_APERTURE_VIOL] [0x0D08]))

/-- The sending end of the mirror (R216, R217, R219, R220, R223, R224): HELLO with a new session number, ACTIVE on its
acknowledgement, REFUSED or FENCED by another answer, the parts of a record, a ring sent again, an ACK of the partner,
stalls, and the rate window. Where the spec is open, the clauses rest on the model's reading (log entries 22, 45, 46, 48,
143, 144 and 146). -/
def Obligations.MirrorSenderHasItsEffect : Prop := ∀ s : State,
  (s.agg.safe = false → s.agg.reg SHED_MIR_STATUS_STATE = 1 ∨ s.agg.reg SHED_MIR_STATUS_STATE = 5 ∧
      s.agg.shed.resetHello = true ∧ s.agg.cfgOn SHED_MIR_CFG_EN = true →
    (s.agg.cfg SHED_MIR_CFG_OWN_TAG ≠ s.agg.cfg SHED_MIR_CFG_PARTNER_TAG → ∃ t, exec .mirrorHelloSend s = .next t ∧
      t = { s with agg := { s.agg with p := t.agg.p, shed := t.agg.shed, fab := t.agg.fab } } ∧
      s.agg.p.onlyOffers t.agg.p [SHED_MIR_STATUS_STATE] ∧ t.agg.reg SHED_MIR_STATUS_STATE = 1 ∧
      t.agg.shed = { s.agg.shed with msess := (s.agg.shed.msess + 1) % 2 ^ 32 } ∧
      s.agg.offered t.agg (.rycon (s.agg.mirPacket s.agg.partner
        (.hello (s.agg.cfg SHED_MIR_CFG_OWN_TAG) s.agg.shed.resetHello) ((s.agg.shed.msess + 1) % 2 ^ 32)))) ∧
    (s.agg.cfg SHED_MIR_CFG_OWN_TAG = s.agg.cfg SHED_MIR_CFG_PARTNER_TAG → ∃ t, exec .mirrorHelloSend s = .next t ∧
      t = { s with agg := { s.agg with p := t.agg.p } } ∧ t.agg.reg SHED_MIR_STATUS_STATE = 4 ∧
      s.agg.p.onlyEvents t.agg.p [SHED_MIR_STATUS_STATE, SHED_MIR_EVENT_REFUSED] [0x0500])) ∧
  (∀ tag (h : MirHead), h.taken = true →
    (s.agg.reg SHED_MIR_STATUS_STATE = 1 → tag ≠ s.agg.cfg SHED_MIR_CFG_OWN_TAG →
      ∃ t, exec (.mirrorHelloAck (s.agg.cfg SHED_MIR_CFG_PARTNER) tag 0 h) s = .next t ∧
        t = { s with agg := { s.agg with p := t.agg.p, shed := t.agg.shed, fab := t.agg.fab } } ∧
        s.agg.p.onlyOffers t.agg.p [SHED_MIR_STATUS_STATE] ∧ t.agg.reg SHED_MIR_STATUS_STATE = 2 ∧
        t.agg.shed.resetHello = false ∧ t.agg.shed.progressNs = s.agg.p.nowNs ∧ t.agg.shed.mem = s.agg.shed.mem ∧
        ∀ r, (t.agg.ring r).writeSeq = (s.agg.ring r).writeSeq ∧
          (t.agg.ring r).recs.map (·.acked) = (s.agg.ring r).recs.map (·.acked)) ∧
    (∀ status, s.agg.reg SHED_MIR_STATUS_STATE = 1 → status = 1 ∨ status = 2 →
      ∃ t, exec (.mirrorHelloAck (s.agg.cfg SHED_MIR_CFG_PARTNER) tag status h) s = .next t ∧
        t = { s with agg := { s.agg with p := t.agg.p } } ∧ t.agg.reg SHED_MIR_STATUS_STATE = 4 ∧
        s.agg.p.onlyEvents t.agg.p [SHED_MIR_STATUS_STATE, SHED_MIR_EVENT_REFUSED] [0x0500]) ∧
    (1 ≤ s.agg.reg SHED_MIR_STATUS_STATE → s.agg.reg SHED_MIR_STATUS_STATE ≤ 3 →
      ∃ t, exec (.mirrorHelloAck (s.agg.cfg SHED_MIR_CFG_PARTNER) tag 3 h) s = .next t ∧
        t = { s with agg := { s.agg with p := t.agg.p, shed := t.agg.shed, det := t.agg.det } } ∧
        t.agg.reg SHED_MIR_STATUS_STATE = 5 ∧ t.agg.shed.fenceOp = s.agg.reg SHED_JRN_NEXT_OP ∧ t.agg.det.deliv = [] ∧
        s.agg.p.onlyEvents t.agg.p [SHED_MIR_STATUS_STATE, SHED_MIR_EVENT_FENCED, DET_STATUS_RUNS, DET_STATUS_PENDING,
          DET_STATUS_HELD] [0x0502])) ∧
  (∀ (h : MirHead) a b c, h.taken = false → ∃ t, exec (.mirrorHelloAck a b c h) s = .next t ∧
    (∀ src, exec (.mirrorAck src a b h) s = .next t) ∧ t = { s with agg := { s.agg with p := t.agg.p } } ∧
    s.agg.p.onlyEvents t.agg.p [SHED_MIR_EVENT_VIOL] [0x0506]) ∧
  (∀ (h : MirHead) ring ackSeq upto, h.taken = true →
    (s.agg.reg SHED_MIR_STATUS_STATE = 2 ∨ s.agg.reg SHED_MIR_STATUS_STATE = 3) → s.agg.shed.journal = [] →
    s.agg.shed.left = [] → (∀ slot, (s.agg.conf.push.get slot).held = none) → (s.agg.ring ring).waits = [] →
    upto = min (extendNear 32 ackSeq (s.agg.ring ring).writeSeq) (s.agg.ring ring).writeSeq →
    ∃ t, exec (.mirrorAck s.agg.partner ring ackSeq h) s = .next t ∧
      t = { s with agg := { s.agg with p := t.agg.p, shed := t.agg.shed } } ∧
      s.agg.p.onlyRegs t.agg.p [SHED_MIR_STATUS_STATE, SHED_MIR_STATUS_TAIL_KIB] ∧
      (∀ q ∈ (s.agg.ring ring).recs, q.mirror = true → q.seq < upto →
        ({ q with acked := true, mirrored := true } : RingRec) ∈ (t.agg.ring ring).recs) ∧
      (∀ q ∈ (s.agg.ring ring).recs, q.mirror = false ∨ upto ≤ q.seq → q ∈ (t.agg.ring ring).recs) ∧
      (t.agg.ring ring).recs.length = (s.agg.ring ring).recs.length ∧ ∀ r, r ≠ ring → t.agg.ring r = s.agg.ring r) ∧
  (∀ (h : MirHead) src ring ackSeq, h.taken = true → src ≠ s.agg.partner →
    exec (.mirrorAck src ring ackSeq h) s = .next s) ∧
  (∀ src ring seq (l : List Byte) fetched,
    ((mirParts src ring seq l fetched).map fun m : MirrorPart => m.bytes).flatten = l ∧
    ∀ m ∈ mirParts src ring seq l fetched, m.bytes.length ≤ 8160 ∧ m.total = l.length ∧ m.offset % 8160 = 0 ∧
      m.bytes = (l.drop m.offset).take 8160) ∧
  (∀ ring q rest, (s.agg.reg SHED_MIR_STATUS_STATE = 2 ∨ s.agg.reg SHED_MIR_STATUS_STATE = 3) →
    (s.agg.ring ring).owed = q :: rest → ∃ t, exec (.mirrorResend ring) s = .next t ∧
      t = { s with agg := { s.agg with p := t.agg.p, shed := { s.agg.shed with ring := t.agg.shed.ring }, fab := t.agg.fab } } ∧
      s.agg.p.onlyOffers t.agg.p [] ∧ (∀ r, r ≠ ring → t.agg.ring r = s.agg.ring r) ∧
      t.agg.p.now = max s.agg.p.now ((q.sentNs + s.agg.cfg SHED_MIR_TIMING_RTO_US * 1000) * 2 ^ 56) ∧
      ((s.agg.atTimeOf t.agg).mirUnwait ring).offeredAll t.agg ((q :: rest).flatMap fun q =>
        (mirParts s.agg.id ring q.seq (s.agg.ringRead ring q.off (40 + q.len)) false).map fun m =>
          .rycon (s.agg.mirPacket s.agg.partner (.data m) s.agg.shed.msess (s.agg.diePaddock q.die)))) ∧
  (s.agg.reg SHED_MIR_STATUS_STATE = 2 → s.agg.tailBytes ≠ 0 → ∃ t, exec .mirrorStall s = .next t ∧
    t = { s with agg := { s.agg with p := t.agg.p, shed := t.agg.shed } } ∧
    s.agg.p.onlyTime t.agg.p [SHED_MIR_STATUS_STATE] ∧ t.agg.reg SHED_MIR_STATUS_STATE = 3 ∧
    t.agg.p.now = max s.agg.p.now ((s.agg.shed.progressNs + 1000000) * 2 ^ 56) ∧
    t.agg.shed = { s.agg.shed with stalledNs := t.agg.p.nowNs }) ∧
  (s.agg.reg SHED_MIR_STATUS_STATE = 3 → ∃ t, exec .stalled s = .next t ∧
    t = { s with agg := { s.agg with p := t.agg.p } } ∧
    t.agg.p.now = max s.agg.p.now ((s.agg.shed.stalledNs + 1000000001) * 2 ^ 56) ∧
    s.agg.p.onlyEvents t.agg.p [SHED_MIR_EVENT_STALLED] [0x0501]) ∧
  (s.agg.cfg SHED_MIR_CFG_LIMIT_GBPS * 100000 < s.agg.shed.winBytes →
    ((∀ c < 256, s.agg.loRank c = 0 ∨ s.agg.isLocalOnly c = true) →
      ∃ t, exec .mirrorRateWindow s = .next t ∧ t = { s with agg := { s.agg with p := t.agg.p, shed := t.agg.shed } } ∧
        s.agg.p.onlyEvents t.agg.p [SHED_MIR_STATUS_RATE_GBPS, SHED_MIR_EVENT_MIRROR_OVER] [0x0504] ∧
        t.agg.shed.winBytes = 0 ∧ t.agg.shed.winWould = 0 ∧ t.agg.shed.marked = s.agg.shed.marked) ∧
    ∀ c < 256, s.agg.loRank c ≠ 0 → s.agg.isLocalOnly c = false →
      ∃ t d, exec .mirrorRateWindow s = .next t ∧
        t = { s with agg := { s.agg with p := t.agg.p, shed := t.agg.shed } } ∧ t.agg.shed.winBytes = 0 ∧
        t.agg.reg SHED_MIR_EVENT_LOCAL_ONLY = 1 ∧ s.agg.isLocalOnly d = false ∧ s.agg.loRank c ≤ s.agg.loRank d ∧
        t.agg.shed.marked = d :: s.agg.shed.marked) ∧
  (s.agg.shed.winBytes ≤ s.agg.cfg SHED_MIR_CFG_LIMIT_GBPS * 100000 →
    ∃ t, exec .mirrorRateWindow s = .next t ∧ t = { s with agg := { s.agg with p := t.agg.p, shed := t.agg.shed } } ∧
      t.agg.shed.winBytes = 0 ∧ t.agg.shed.winWould = 0 ∧
      t.agg.reg SHED_MIR_STATUS_RATE_GBPS = min (s.agg.shed.winBytes / 100000) 4095 ∧
      (∀ c rest, s.agg.shed.winWould * 100 < s.agg.cfg SHED_MIR_CFG_LIMIT_GBPS * 100000 * 80 → 99 ≤ s.agg.shed.calm →
        s.agg.shed.marked = c :: rest → t.agg.shed.marked = rest.filter (· ≠ c) ∧ t.agg.shed.calm = 0) ∧
      (s.agg.cfg SHED_MIR_CFG_LIMIT_GBPS * 100000 * 80 ≤ s.agg.shed.winWould * 100 →
        t.agg.shed.marked = s.agg.shed.marked ∧ t.agg.shed.calm = 0))

/-- The receiving end of the mirror (R15, R216, R221, R222, R236, R237): what each HELLO is answered, complete records are
committed in order and acknowledged, a spoilt one is asked for again, copies are fetched, and the journal's copy grows.
Where the spec is open, the clauses rest on the model's reading (log entries 47, 48, 52, 142, 143 and 146). -/
def Obligations.MirrorReceiverHasItsEffect : Prop := ∀ s : State,
  (∀ src tag port msess reset (h : MirHead), h.taken = true →
    (s.agg.isSource src = true → tag ≠ s.agg.cfg SHED_MIR_CFG_OWN_TAG →
      (s.agg.shed.src.get src).fenced = false ∨ reset = true →
      ∃ t, exec (.mirrorHello src tag port msess reset h) s = .next t ∧
        t = { s with agg := { s.agg with
          p := t.agg.p, shed := { s.agg.shed with src := t.agg.shed.src }, fab := t.agg.fab } } ∧
        s.agg.p.onlyOffers t.agg.p [] ∧ t.agg.shed.src.get src = { s.agg.shed.src.get src with
          accepted := true, fenced := false, msess := msess, port := port
          next := if reset then [] else (s.agg.shed.src.get src).next
          asm := if reset then [] else (s.agg.shed.src.get src).asm } ∧
        (∀ r, r ≠ src → t.agg.shed.src.get r = s.agg.shed.src.get r) ∧
        s.agg.offered t.agg (.rycon (s.agg.mirPacket src (.helloAck (s.agg.cfg SHED_MIR_CFG_OWN_TAG) 0) msess))) ∧
    (s.agg.isSource src = true → tag ≠ s.agg.cfg SHED_MIR_CFG_OWN_TAG → (s.agg.shed.src.get src).fenced = true →
      reset = false → ∃ t, exec (.mirrorHello src tag port msess reset h) s = .next t ∧
        t = { s with agg := { s.agg with p := t.agg.p, fab := t.agg.fab } } ∧ s.agg.p.onlyOffers t.agg.p [] ∧
        s.agg.offered t.agg (.rycon (s.agg.mirPacket src (.helloAck (s.agg.cfg SHED_MIR_CFG_OWN_TAG) 3)
          (s.agg.shed.src.get src).msess))) ∧
    (s.agg.isSource src = false ∨ tag = s.agg.cfg SHED_MIR_CFG_OWN_TAG →
      ∃ t, exec (.mirrorHello src tag port msess reset h) s = .next t ∧
        t = { s with agg := { s.agg with p := t.agg.p, fab := t.agg.fab } } ∧
        s.agg.p.onlyOffers t.agg.p [SHED_MIR_EVENT_REFUSED] ∧ t.agg.reg SHED_MIR_EVENT_REFUSED = 1 ∧
        s.agg.offered t.agg (.rycon (s.agg.mirPacket src (.helloAck (s.agg.cfg SHED_MIR_CFG_OWN_TAG)
          (if s.agg.isSource src then 1 else 2)) (s.agg.shed.src.get src).msess)))) ∧
  (∀ m : MirrorPart, m.head.taken = true → m.fetched = false →
    (s.agg.shed.src.get m.src).fenced = false → (s.agg.shed.src.get m.src).accepted = true →
    m.ringSeq < 2 ^ 32 → (s.agg.shed.src.get m.src).next.get m.ring = some m.ringSeq →
    (s.agg.shed.src.get m.src).asm = [] → m.offset = 0 → m.bytes ≠ [] → m.total = m.bytes.length →
    (m.ring = 65534 → trailerGood (m.bytes.drop 40) = true → (s.agg.shed.src.get m.src).journal.length < 4194304 →
      ∃ t, exec (.mirrorData m) s = .next t ∧
        t = { s with agg := { s.agg with p := t.agg.p, shed := t.agg.shed, fab := t.agg.fab } } ∧
        s.agg.p.onlyOffers t.agg.p [] ∧ s.agg.offered t.agg (.rycon (s.agg.mirPacket m.src
          (.ack 65534 ((m.ringSeq + 1) % 2 ^ 32)) (s.agg.shed.src.get m.src).msess)) ∧
        (t.agg.shed.src.get m.src).next.get 65534 = some ((m.ringSeq + 1) % 2 ^ 32) ∧
        (t.agg.shed.src.get m.src).journal =
          (s.agg.shed.src.get m.src).journal ++ [readJrn (m.bytes.drop 40) m.ringSeq]) ∧
    (m.ring ≠ 65534 → trailerGood (m.bytes.drop 40) = true → ∃ t, exec (.mirrorData m) s = .next t ∧ t.ulg = s.ulg ∧
      t.pending = s.pending ∧
      s.agg.offered t.agg (.rycon (s.agg.mirPacket m.src (.ack m.ring ((m.ringSeq + 1) % 2 ^ 32))
        (s.agg.shed.src.get m.src).msess)) ∧
      (t.agg.shed.src.get m.src).next.get m.ring = some ((m.ringSeq + 1) % 2 ^ 32) ∧
      ((readDesc m.bytes).die = none → (∀ e ∈ s.agg.shed.copyLast, e.1 ≠ copyKey m.src (readDesc m.bytes)) →
        ∃ c, t.agg.shed.copies.getLast? = some c ∧ c.src = m.src ∧ c.cls = (readDesc m.bytes).cls ∧
          c.ident = (readDesc m.bytes).ident ∧ c.seq = m.ringSeq ∧ c.len = m.bytes.length ∧
          (t.agg.ring 65535).writeSeq = (s.agg.ring 65535).writeSeq + 1)) ∧
    (trailerGood (m.bytes.drop 40) = false → ∃ t, exec (.mirrorData m) s = .next t ∧
      t = { s with agg := { s.agg with
        p := t.agg.p, shed := { s.agg.shed with src := t.agg.shed.src }, fab := t.agg.fab } } ∧
      s.agg.p.onlyOffers t.agg.p [] ∧
      s.agg.offered t.agg (.rycon (s.agg.mirPacket m.src (.ack m.ring m.ringSeq) (s.agg.shed.src.get m.src).msess)) ∧
      (t.agg.shed.src.get m.src).next.get m.ring = some m.ringSeq ∧ (t.agg.shed.src.get m.src).asm = [])) ∧
  (∀ m : MirrorPart, m.head.taken = true → m.fetched = false →
    (s.agg.shed.src.get m.src).fenced = true → ∃ t, exec (.mirrorData m) s = .next t ∧
      t = { s with agg := { s.agg with p := t.agg.p, fab := t.agg.fab } } ∧ s.agg.p.onlyOffers t.agg.p [] ∧
      s.agg.offered t.agg (.rycon (s.agg.mirPacket m.src (.helloAck (s.agg.cfg SHED_MIR_CFG_OWN_TAG) 3)
        (s.agg.shed.src.get m.src).msess))) ∧
  (∀ f : FetchMsg, f.head.taken = true → s.agg.shed.bad = [] →
    (∀ c ∈ s.agg.shed.copies, 0 < c.len) → ∃ t l n low, exec (.fetch f) s = .next t ∧
      t = { s with agg := { s.agg with p := t.agg.p, fab := t.agg.fab } } ∧ s.agg.p.onlyOffers t.agg.p [] ∧
      s.agg.offeredAll t.agg (l ++ [.rycon (s.agg.mirPacket f.src (.fetchEnd f.qid n low) s.agg.shed.msess)]) ∧
      (∀ x ∈ l, ∃ m pad, x = .rycon (s.agg.mirPacket f.src (.data m) s.agg.shed.msess pad) ∧ m.fetched = true) ∧
      n = ((s.agg.fetchHeld f).filter fun c => decide (f.firstIdent ≤ c.ident ∧ c.ident ≤ f.lastIdent)).length ∧
      (∀ c ∈ s.agg.fetchHeld f, low ≤ c.ident) ∧ (s.agg.fetchHeld f = [] → low = 2 ^ 64 - 1)) ∧
  (∀ (f : FetchAsk) qid count first (h : MirHead) ring seq q, h.taken = true → s.agg.shed.fetches = [f] → f.qid = qid →
    f.use = .repair ring seq → (s.agg.ring ring).find seq = some q →
    (s.agg.shed.fetched.any (copyOf q) = true → ∃ t, exec (.fetchEnd qid count first h) s = .next t ∧
      t = { s with agg := { s.agg with shed := { s.agg.shed with fetches := [] } } }) ∧
    (s.agg.shed.fetched.any (copyOf q) = false → ∃ t, exec (.fetchEnd qid count first h) s = .next t ∧
      t = { s with agg := { s.agg with p := t.agg.p, shed := { s.agg.shed with
        fetches := [], repair := s.agg.shed.repair.filter (· ≠ (ring, seq)) } } } ∧
      s.agg.p.onlyEvents t.agg.p [SHED_EVENT_UE] [0x0401])) ∧
  (∀ (h : MirHead) a b c d e (m : MirrorPart) (f : FetchMsg), h.taken = false → m.head.taken = false →
    f.head.taken = false → ∃ t, exec (.mirrorHello a b c d e h) s = .next t ∧ exec (.mirrorData m) s = .next t ∧
      exec (.fetch f) s = .next t ∧ exec (.fetchEnd a b c h) s = .next t ∧
      t = { s with agg := { s.agg with p := t.agg.p } } ∧ s.agg.p.onlyEvents t.agg.p [SHED_MIR_EVENT_VIOL] [0x0506])

/-- Journal queries and the opening of the journal (R235, R237, R238, R240): a query is answered from what is held and may
fence its subject, an answer fills the registers and brings the operations it lists, a query without an answer ends, and
the journal opens once its cover is known. Where the spec is open, the clauses rest on the model's reading (log entries 50,
90, 143 and 146). -/
def Obligations.JournalQueries : Prop := ∀ s : State,
  (∀ q : JQueryMsg, q.head.taken = true → q.mode ≤ 1 → ∃ t m, exec (.jquery q) s = .next t ∧
    s.agg.offered t.agg (.rycon (s.agg.mirPacket q.src (.janswer m) s.agg.shed.msess)) ∧ m.qid = q.qid ∧
    (q.fence = false → t = { s with agg := { s.agg with p := t.agg.p, fab := t.agg.fab } } ∧
      s.agg.p.onlyOffers t.agg.p []) ∧
    (q.fence = true → s.agg.isSource q.subject = true →
      t = { s with agg := { s.agg with
        p := t.agg.p, shed := { s.agg.shed with src := t.agg.shed.src }, fab := t.agg.fab } } ∧
      (t.agg.shed.src.get q.subject).fenced = true ∧ (t.agg.shed.src.get q.subject).accepted = false ∧
      s.agg.p.onlyOffers t.agg.p [SHED_MIR_EVENT_FENCE_GIVEN] ∧ t.agg.reg SHED_MIR_EVENT_FENCE_GIVEN = 1) ∧
    (s.agg.jrnOf q.subject = none → m.result = 1 ∧ m.coveredTo = 0 ∧ m.codes = []) ∧
    (∀ l, s.agg.jrnOf q.subject = some l → m.heldFrom = (jrnRange l).1 ∧ m.coveredTo = (jrnRange l).2 ∧
      (q.firstOp < (jrnRange l).1 → m.result = 2 ∧ m.codes = []) ∧
      ((jrnRange l).1 ≤ q.firstOp → q.count = 0 ∨ (if q.mode = 0 then 1024 else 256) < q.count →
        m.result = 3 ∧ m.codes = []) ∧
      ((jrnRange l).1 ≤ q.firstOp → 0 < q.count → q.count ≤ (if q.mode = 0 then 1024 else 256) → m.result = 0 ∧
        (q.mode = 0 → m.codes = (List.range q.count).map fun i => jrnCode l (q.firstOp + i)) ∧
        (q.mode = 1 → m.codes.length ≤ q.count ∧ ∀ o ∈ m.codes, q.firstOp ≤ o ∧ jrnCode l o = 1)))) ∧
  (∀ (m : JAnswerMsg) (q : JQuery), m.head.taken = true → m.result ≤ 3 → s.agg.shed.openQuery = none →
    s.agg.shed.query = some q → q.qid = m.qid → ∃ t, exec (.janswer m) s = .next t ∧ t.ulg = s.ulg ∧
      t.pending = s.pending ∧ t.agg.shed.query = none ∧
      t.agg.reg SHED_JQ_STATUS_DONE = 1 ∧ t.agg.reg SHED_JQ_STATUS_RESULT = m.result ∧
      t.agg.reg SHED_JQ_COVERED_OP = m.coveredTo % 2 ^ 64 ∧ t.agg.reg SHED_JQ_HELD_OP = m.heldFrom % 2 ^ 64 ∧
      (q.mode = 0 → t = { s with agg := { s.agg with p := t.agg.p, shed := { s.agg.shed with query := none } } }) ∧
      (q.mode = 1 → m.result = 0 → q.subject ≠ s.agg.reg CFG_STATUS_AGG_ID → ∀ b ∈ m.begins, b.op ∈ m.codes →
        ∃ e ∈ t.agg.shed.left, e.1.origAgg = b.origAgg ∧ e.1.origOp = b.origOp)) ∧
  (∀ (m : JAnswerMsg) (q : JQuery), m.head.taken = true → m.result ≤ 3 → s.agg.shed.query = none →
    s.agg.shed.openQuery = some q → q.qid = m.qid → ∃ t, exec (.janswer m) s = .next t ∧
      t = { s with agg := { s.agg with shed := { s.agg.shed with
        openQuery := none, covered := some (if m.result = 1 then 0 else m.coveredTo) } } }) ∧
  (∀ (m : JAnswerMsg) (q : JQueryMsg), (m.head.taken = false ∨ 3 < m.result) → (q.head.taken = false ∨ 1 < q.mode) →
    ∃ t, exec (.janswer m) s = .next t ∧ exec (.jquery q) s = .next t ∧
      t = { s with agg := { s.agg with p := t.agg.p } } ∧ s.agg.p.onlyEvents t.agg.p [SHED_MIR_EVENT_VIOL] [0x0506]) ∧
  (s.agg.openDue = true → s.agg.shed.covered = none → ∃ t q m, exec .jqueryTimeout s = .next t ∧
    t = { s with agg := { s.agg with p := t.agg.p, shed := t.agg.shed, fab := t.agg.fab } } ∧
    s.agg.p.onlyOffers t.agg.p [] ∧ (∀ o, s.agg.shed.openQuery = some o →
      t.agg.p.now = max s.agg.p.now ((o.sentNs + 1000000) * 2 ^ 56)) ∧ t.agg.shed.openQuery = some q ∧
    (s.agg.atTimeOf t.agg).offered t.agg (.rycon (s.agg.mirPacket s.agg.partner (.jquery m) s.agg.shed.msess)) ∧
    m.subject = s.agg.reg CFG_STATUS_AGG_ID ∧ m.qid = q.qid ∧ q.sentNs = t.agg.p.nowNs) ∧
  (∀ c, s.agg.openDue = true → s.agg.shed.covered = some c → c + 1 < 2 ^ 64 → s.agg.p.nowSec < 2 ^ 40 →
    s.agg.shed.left = [] → (∀ slot, (s.agg.conf.push.get slot).held = none) → ∃ t, exec .journalOpen s = .next t ∧
      t = { s with agg := { s.agg with p := t.agg.p } } ∧
      s.agg.p.onlyRegs t.agg.p [SHED_JRN_STATUS_OPEN, SHED_JRN_NEXT_OP] ∧ t.agg.reg SHED_JRN_STATUS_OPEN = 1 ∧
      t.agg.reg SHED_JRN_NEXT_OP = max (c + 1) (s.agg.p.nowSec * 2 ^ 24)) ∧
  (∀ v : Word, s.agg.reg CFG_STATUS_STATE ≠ 5 → v.toNat % 2 = 1 →
    (v.toNat / 8 % 2 ^ 11 ≤ (if v.toNat / 4 % 2 = 0 then 1024 else 32) →
      v.toNat / 2 ^ 32 % 2 ^ 14 ≠ s.agg.reg CFG_STATUS_AGG_ID → ∃ t q m, exec (.jqGo v) s = .next t ∧
        t = { s with agg := { s.agg with p := t.agg.p, shed := t.agg.shed, fab := t.agg.fab } } ∧
        s.agg.p.onlyOffers t.agg.p [SHED_JQ_STATUS_DONE] ∧ t.agg.reg SHED_JQ_STATUS_DONE = 0 ∧
        t.agg.shed.query = some q ∧
        s.agg.offered t.agg (.rycon (s.agg.mirPacket (v.toNat / 2 ^ 32 % 2 ^ 14) (.jquery m) s.agg.shed.msess)) ∧
        m.qid = q.qid ∧
        m.count = v.toNat / 8 % 2 ^ 11 ∧ m.mode = v.toNat / 4 % 2 ∧ m.subject = v.toNat / 2 ^ 16 % 2 ^ 14 ∧
        m.firstOp = s.agg.reg SHED_JQ_FIRST_OP ∧ (m.fence = true ↔ v.toNat / 2 % 2 = 1)) ∧
    ((if v.toNat / 4 % 2 = 0 then 1024 else 32) < v.toNat / 8 % 2 ^ 11 → ∃ t, exec (.jqGo v) s = .next t ∧
      t = { s with agg := { s.agg with p := t.agg.p } } ∧
      s.agg.p.onlyRegs t.agg.p [SHED_JQ_STATUS_DONE, SHED_JQ_STATUS_RESULT, SHED_JQ_STATUS_N] ∧
      t.agg.reg SHED_JQ_STATUS_DONE = 1 ∧ t.agg.reg SHED_JQ_STATUS_RESULT = 3)) ∧
  (∀ q, s.agg.shed.query = some q → ∃ t, exec .jqNoAnswer s = .next t ∧
    t = { s with agg := { s.agg with p := t.agg.p, shed := { s.agg.shed with query := none } } } ∧
    s.agg.p.onlyTime t.agg.p [SHED_JQ_STATUS_DONE, SHED_JQ_STATUS_RESULT] ∧
    t.agg.p.now = max s.agg.p.now ((q.sentNs + 1000000) * 2 ^ 56) ∧ t.agg.reg SHED_JQ_STATUS_DONE = 1 ∧
    t.agg.reg SHED_JQ_STATUS_RESULT = 4)

/-- The archive (R226, R229, R231): an open segment closes with age, the oldest closed one is written with the next
segment number, and a decompression request runs to its code; only code 0 writes data. Where the spec is open, the
clauses rest on the model's reading (log entries 20 and 21). -/
def Obligations.ArchiveHasItsEffect : Prop := ∀ s : State,
  (∀ (ring : Nat) (g : SegRec), (s.agg.shed.segs.find? fun g => g.ring = ring && !g.closed) = some g →
    ∃ t, exec (.segmentAge ring) s = .next t ∧
      t = { s with agg := { s.agg with p := t.agg.p, shed := { s.agg.shed with segs := t.agg.shed.segs } } } ∧
      s.agg.p.onlyTime t.agg.p [] ∧
      t.agg.p.now = max s.agg.p.now ((g.openNs + s.agg.cfg SHED_ARCH_CFG_SEG_AGE_MS * 1000000) * 2 ^ 56) ∧
      (∀ h ∈ t.agg.shed.segs, h.ring = ring → h.closed = true) ∧
      { g with closed := true } ∈ t.agg.shed.segs ∧ t.agg.shed.segs.length = s.agg.shed.segs.length ∧
      ∀ h ∈ s.agg.shed.segs, h.ring ≠ ring ∨ h.closed = true → h ∈ t.agg.shed.segs) ∧
  (∀ (ring : Nat) (g : SegRec),
    (s.agg.shed.segs.find? fun g => g.ring = ring && g.closed && g.addr.isNone) = some g →
    s.agg.gasp = false → s.agg.domOn 0x0D = true → ∃ t, exec (.segmentWritten ring) s = .next t ∧
      t.ulg = s.ulg ∧ t.pending = s.pending ∧
      t.agg.reg SHED_ARCH_STATUS_SEG_SEQ = (s.agg.reg SHED_ARCH_STATUS_SEG_SEQ + 1) % 2 ^ 32 ∧
      ∃ h ∈ t.agg.shed.segs, h.seq = s.agg.reg SHED_ARCH_STATUS_SEG_SEQ ∧ h.addr.isSome = true ∧
        h.ring = ring ∧ h.firstSeq = g.firstSeq ∧ h.closed = true) ∧
  (s.agg.reg CFG_STATUS_STATE ≠ 5 → s.agg.reg SHED_DZ_STATUS_BUSY = 0 → ∃ t, exec .dzGo s = .next t ∧
    t = { s with agg := { s.agg with p := t.agg.p } } ∧
    s.agg.p.onlyRegs t.agg.p [SHED_DZ_STATUS_BUSY, SHED_DZ_STATUS_DONE] ∧ t.agg.reg SHED_DZ_STATUS_BUSY = 1 ∧
    t.agg.reg SHED_DZ_STATUS_DONE = 0) ∧
  (∀ ecc, s.agg.reg SHED_DZ_STATUS_BUSY = 1 → s.agg.gasp = false → s.agg.domOn 0x0D = true →
    ∃ t, exec (.dzDone ecc) s = .next t ∧ t = { s with agg := { s.agg with p := t.agg.p, shed := t.agg.shed } } ∧
      t.agg.shed = (if (s.agg.dzRun ecc).code = 0 then
        s.agg.shedWrite (s.agg.reg SHED_DZ_DST_ADDR) (s.agg.dzRun ecc).out else s.agg).shed ∧
      t.agg.reg SHED_DZ_STATUS_BUSY = 0 ∧ t.agg.reg SHED_DZ_STATUS_DONE = 1 ∧
      t.agg.reg SHED_DZ_STATUS_ERR = (s.agg.dzRun ecc).code % 32 ∧
      ((s.agg.dzRun ecc).code ≠ 0 → t.agg.reg SHED_EVENT_DZ_ERR = 1) ∧
      (s.agg.shedBad (s.agg.reg SHED_DZ_SRC_ADDR) 64 = none →
        leAt (s.agg.shedRead (s.agg.reg SHED_DZ_SRC_ADDR) 64) 0 1 ≠ 0x20 → t.agg.reg SHED_DZ_STATUS_ERR = 12 ∧
          t.agg.shed = s.agg.shed))

/-! ### Tallies (07) -/

/-- The contribution and the spine's answers (R241, R251 to R253, R256, R258, R259, R266, R404): at OBS_CLOSE the even twin
fixes and sends its cover and the launches are requested, COVER reaches the odd one or is late, COUNT and DATA leave at
their launches, and what the spine answers is kept. Where the spec is open, the clauses rest on the model's reading (log
entries 58, 59, 60, 150, 151 and 153). -/
def Obligations.TallyRoundsHaveTheirEffect : Prop := ∀ s : State,
  (∀ round close, s.agg.cfgOn TALLY_CFG_EN = true → s.agg.p.timed = true →
    (∀ c, s.agg.tly.closed = some c → laterRound round c = true) → s.agg.tround round = none →
    close = s.agg.roundClose round → ∃ t r, exec (.obsClose round) s = .next t ∧ t = { s with agg := t.agg } ∧
      t.agg.tly.closed = some round ∧ t.agg.tround round = some r ∧ r.closeNs = close ∧
      max s.agg.p.now ((close + s.agg.cfg TALLY_TIMING_OBS_US * 1000) * 2 ^ 56) ≤ t.agg.p.now ∧
      (r.ring = true ↔ (s.agg.tly.setOf round).mode = 1) ∧
      (s.agg.id % 2 = 0 → r.cover = some (s.agg.coverDies false) ∧
        (s.agg.jrnReady = true → s.agg.tly.rounds = [] → r.op.isSome = true ∧ ∃ f, f.round = round ∧ f.src = s.agg.id ∧
          (s.agg.atTimeOf t.agg).handed t.agg {
            rclass := 2, dst := s.agg.id + 1, payload := coverBytes f (s.agg.coverDies false) })) ∧
      (s.agg.id % 2 = 1 → ∀ c, (s.agg.tly.covers.find? fun c => c.1 = round) = some c →
        r.cover = some (s.agg.coverDies false &&& (0xFFFF ^^^ c.2))) ∧
      (s.agg.id % 2 = 1 → (s.agg.tly.covers.find? fun c => c.1 = round) = none → r.cover = none)) ∧
  (∀ round close p ps, s.agg.cfgOn TALLY_CFG_EN = true → s.agg.p.timed = true → s.agg.safe = false →
    (∀ c, s.agg.tly.closed = some c → laterRound round c = true) → s.agg.tly.rounds = [] →
    close = s.agg.roundClose round → (s.agg.tly.setOf round).mode ≠ 1 → s.agg.redPorts = p :: ps →
    s.agg.fab.launches = [] → s.agg.reg SHED_JRN_NEXT_OP ≤ s.agg.opBound →
    (∀ us, us = s.agg.cfg TALLY_TIMING_COUNT_US ∨ us = s.agg.cfg TALLY_TIMING_DATA_US →
      max s.agg.p.nowNs (close + s.agg.cfg TALLY_TIMING_OBS_US * 1000) + 100 ≤ close + us * 1000) →
    ∃ t, exec (.obsClose round) s = .next t ∧ t.agg.fab.launches =
      { port := p, ns := close + s.agg.cfg TALLY_TIMING_COUNT_US * 1000, kind := .count round } ::
        (p :: ps).map fun q =>
          { port := q, ns := close + s.agg.cfg TALLY_TIMING_DATA_US * 1000, kind := .data round }) ∧
  (∀ (f : RedFrame) (mask : BitVec 16),
    (f.reserved = false → s.agg.id % 2 = 1 → f.src = s.agg.id - 1 → s.agg.tround f.round = none →
      ∃ t, exec (.cover f mask) s = .next t ∧ t = { s with agg := { s.agg with tly := { s.agg.tly with
        covers := s.agg.tly.covers ++ [(f.round, mask.toNat)] } } }) ∧
    (∀ r, f.reserved = false → s.agg.id % 2 = 1 → f.src = s.agg.id - 1 → s.agg.tround f.round = some r →
      r.cover = none → ∃ t q, exec (.cover f mask) s = .next t ∧ t = { s with agg := t.agg } ∧
        t.agg.tround f.round = some q ∧ q.cover = some (s.agg.coverDies false &&& (0xFFFF ^^^ mask.toNat))) ∧
    (f.reserved = true ∨ s.agg.id % 2 = 0 ∨ f.src ≠ s.agg.id - 1 → ∃ t, exec (.cover f mask) s = .next t ∧
      t = { s with agg := { s.agg with p := t.agg.p } } ∧
      s.agg.p.onlyEvents t.agg.p [TALLY_ERR_COUNT_VIOL, TALLY_EVENT_VIOL] [0x060A])) ∧
  (∀ round r, s.agg.id % 2 = 1 → s.agg.tround round = some r → r.cover = none →
    ∃ t q, exec (.coverLate round) s = .next t ∧ t = { s with agg := t.agg } ∧ t.agg.tround round = some q ∧
      q.cover = some (s.agg.coverDies true) ∧ t.agg.reg TALLY_EVENT_COVER_LATE = 1 ∧
      max s.agg.p.now ((r.closeNs + (s.agg.cfg TALLY_TIMING_OBS_US + s.agg.cfg TALLY_TIMING_COVER_WAIT_US) * 1000) *
        2 ^ 56) ≤ t.agg.p.now) ∧
  (∀ (port : Fin 12) ns lens n, n = (s.agg.fab.launches.filter fun x => x.port = (port : Nat)).length →
    (n < 4 → s.agg.p.nowNs + 100 ≤ ns → ∃ t, exec (.launchRequest port ns lens) s = .next t ∧
      t = { s with agg := { s.agg with fab := { s.agg.fab with
        launches := s.agg.fab.launches ++ [{ port := (port : Nat), ns := ns, kind := .frames lens }] } } }) ∧
    (4 ≤ n → ∃ t, exec (.launchRequest port ns lens) s = .next t ∧ t = { s with agg := { s.agg with p := t.agg.p } } ∧
      s.agg.p.onlyEvents t.agg.p [FAB_EVENT_LAUNCH_BUSY] [0x0B03]) ∧
    (n < 4 → ns < s.agg.p.nowNs + 100 → ∃ t, exec (.launchRequest port ns lens) s = .next t ∧
      t = { s with agg := { s.agg with p := t.agg.p } } ∧
      s.agg.p.onlyEvents t.agg.p [FAB_EVENT_LAUNCH_LATE] [0x0B02])) ∧
  (∀ (port : Fin 12) (l : Launch), s.agg.nextLaunch port = some l → s.agg.p.timed = true → s.agg.safe = false →
    s.agg.fabUp port = true →
    (∀ os, l.kind = .frames os → ∃ t, exec (.scheduledLaunch port) s = .next t ∧
      t = { s with agg := { s.agg with p := t.agg.p, fab := t.agg.fab, sent := t.agg.sent } } ∧
      s.agg.p.onlyTime t.agg.p ((List.range 12).map FAB_PORT_STATUS_TXN) ∧ t.agg.p.now = max s.agg.p.now (l.ns * 2 ^ 56) ∧
      t.agg.fab.launches = s.agg.fab.launches.erase l ∧ t.agg.fab.queue = s.agg.fab.queue ∧
      t.agg.fab.wait = s.agg.fab.wait ∧ s.agg.launched t.agg port os) ∧
    (∀ k r, l.kind = .count k → s.agg.tround k = some r → r.out = false → s.agg.p.nowNs ≤ r.dataNs → l.ns ≤ r.dataNs →
      (s.agg.contribMirrored r = true → ∃ t f, exec (.scheduledLaunch port) s = .next t ∧ t = { s with agg := t.agg } ∧
        t.agg.p.now = max s.agg.p.now (l.ns * 2 ^ 56) ∧ t.agg.fab.launches = s.agg.fab.launches.erase l ∧
        s.agg.launched t.agg port [spinePacket 0x41 f] ∧ f.round = k ∧ f.src = s.agg.id ∧ f.members = 1 ∧
        f.dies = r.dies ∧ f.memberHash = memberH s.agg.id ∧ f.keyset = r.keyset ∧ f.blocks = []) ∧
      (s.agg.contribMirrored r = false → ∃ t q, exec (.scheduledLaunch port) s = .next t ∧ t = { s with agg := t.agg } ∧
        t.agg.tround k = some q ∧ q.out = true ∧ t.agg.reg TALLY_EVENT_NOT_MIRRORED = 1)) ∧
    (∀ k r i, l.kind = .data k → s.agg.tround k = some r → r.out = false → r.mismatch = false → r.started = true →
      s.agg.p.nowNs ≤ r.dataNs → l.ns ≤ r.dataNs → (∀ p ∈ r.ports, s.agg.fabUp p = true) →
      r.ports.findIdx? (fun p => p == (port : Nat)) = some i → ∃ t q, exec (.scheduledLaunch port) s = .next t ∧
        t = { s with agg := t.agg } ∧ t.agg.tround k = some q ∧ q.dataSent = true ∧
        s.agg.launched t.agg port (((List.range (groupCount r.compact r.set.keys)).filter fun g =>
          g % r.ports.length = i).map fun g => spinePacket 0x43 (s.agg.dataFrame r g)))) ∧
  (∀ (f : RedFrame) r, f.reserved = false → s.agg.tround f.round = some r → r.ring = false → r.count = none →
    (f.keyset % 2 ^ 64 = f.members * r.keyset % 2 ^ 64 → ∃ t q, exec (.countResult f) s = .next t ∧
      t = { s with agg := { s.agg with p := t.agg.p, tly := t.agg.tly } } ∧
      s.agg.p.onlyRegs t.agg.p [TALLY_STATUS_INFLIGHT] ∧ t.agg.tround f.round = some q ∧
      q = { r with mismatch := false, count :=
        if s.agg.p.nowNs ≤ r.dataNs then some (f.members, f.dies, f.memberHash) else none }) ∧
    (f.keyset % 2 ^ 64 ≠ f.members * r.keyset % 2 ^ 64 → ∃ t q, exec (.countResult f) s = .next t ∧
      t = { s with agg := { s.agg with p := t.agg.p, tly := t.agg.tly } } ∧ t.agg.tround f.round = some q ∧
      q.mismatch = true ∧ t.agg.reg TALLY_EVENT_KEYSET_MISMATCH = 1)) ∧
  (∀ (f : RedFrame) r, f.reserved = false → s.agg.tround f.round = some r → r.ring = false →
    (r.groupGood f = true → f.blocks.any (·.badIdentity) = false →
      (r.results.find? fun e => e.1 = f.group) = none → ∃ t q, exec (.result f) s = .next t ∧
        t = { s with agg := { s.agg with p := t.agg.p, tly := t.agg.tly } } ∧
        s.agg.p.onlyRegs t.agg.p [TALLY_STATUS_INFLIGHT] ∧ t.agg.tround f.round = some q ∧
        q = { r with results := r.results ++ [(f.group, f)] }) ∧
    (r.groupGood f = false ∨ f.blocks.any (·.badIdentity) = true → ∃ t, exec (.result f) s = .next t ∧
      t = { s with agg := { s.agg with p := t.agg.p } } ∧
      s.agg.p.onlyEvents t.agg.p [TALLY_ERR_COUNT_VIOL, TALLY_EVENT_VIOL] [0x060A])) ∧
  (∀ f : RedFrame, f.reserved = false → s.agg.tround f.round = none → ∃ t, exec (.countResult f) s = .next t ∧
    exec (.result f) s = .next t ∧ exec (.chunk f) s = .next t ∧ t = { s with agg := { s.agg with p := t.agg.p } } ∧
    s.agg.p.onlyEvents t.agg.p [TALLY_ERR_COUNT_STALE, TALLY_EVENT_STALE] [0x060B]) ∧
  (∀ f : RedFrame, f.reserved = true → ∃ t, exec (.countResult f) s = .next t ∧
    exec (.result f) s = .next t ∧ exec (.chunk f) s = .next t ∧ t = { s with agg := { s.agg with p := t.agg.p } } ∧
    s.agg.p.onlyEvents t.agg.p [TALLY_ERR_COUNT_VIOL, TALLY_EVENT_VIOL] [0x060A]) ∧
  (∀ round r, s.agg.tround round = some r → r.ring = false → ∃ t b, exec (.resultDeadline round) s = .next t ∧
    t = { s with agg := t.agg } ∧ t.agg.tround round = none ∧ t.agg.reg TALLY_STATUS_ROUND = round % 2 ^ 32 ∧
    t.agg.p.now = max s.agg.p.now ((r.closeNs + s.agg.cfg TALLY_TIMING2_RESULT_US * 1000) * 2 ^ 56) ∧
    t.agg.tly.results = b :: s.agg.tly.results ∧ b.round = round ∧ b.failed = false ∧ t.agg.reg TALLY_LAST_FAILED = 0 ∧
    (r.results.length < groupCount r.compact r.set.keys → t.agg.reg TALLY_EVENT_NO_RESULT = 1)) ∧
  (s.agg.p.timed = false → exec .tallyActivation s = .next s) ∧
  (∀ k, s.agg.tly.waitRound = some k → s.agg.p.timed = true → ∃ t, exec .tallyActivation s = .next t ∧
    t = { s with agg := { s.agg with p := t.agg.p, tly := t.agg.tly, fab := t.agg.fab } } ∧
    s.agg.p.onlyOffers t.agg.p [TALLY_STATUS_MODE] ∧ t.agg.tly.waitRound = none ∧
    t.agg.p.now = max s.agg.p.now ((s.agg.roundClose k - s.agg.roundNs) * 2 ^ 56) ∧
    t.agg.tly.set.mode = s.agg.cfg TALLY_CFG_MODE ∧ t.agg.tly.set.keys = s.agg.cfg TALLY_CFG_KEYS ∧
    t.agg.tly.set.aggs = s.agg.cfg TALLY_RING_CFG_AGGS ∧ t.agg.tly.set.row = s.agg.cfg TALLY_RING_CFG_ROW ∧
    t.agg.tly.set.attempts = s.agg.cfg TALLY_RING_CFG_ATTEMPTS ∧
    (∀ j, laterRound k j = true → t.agg.tly.setOf j = s.agg.tly.setOf j) ∧
    (s.agg.tly.set.mode = 1 ∨ s.agg.cfg TALLY_CFG_MODE ≠ 1 → t.agg.fab = s.agg.fab) ∧
    (s.agg.tly.set.mode ≠ 1 → s.agg.cfg TALLY_CFG_MODE = 1 → t.agg.tly.excluded = [] ∧
      (s.agg.safe = true → t.agg.tly.joined = [] ∧ t.agg.tly.joinDue = true) ∧
      (s.agg.safe = false → ∃ n : RingNote, n.head.src = s.agg.id ∧ t.agg.tly.joined = [(s.agg.id, n.fromRound)] ∧
        ({ s.agg.atTimeOf t.agg with tly := t.agg.tly } : Agg).toRing t.agg n.joinBytes)))

/-- The ring fallback (R260 to R263, R266): an attempt starts, a chunk that comes early is held, a missing chunk names
its sender in a SKIP, SKIP and JOIN are held, a member named in a SKIP sends JOIN, and a round whose attempts all failed, or that is not committed four rounds
later, is committed as FAILED. Where the spec is open, the clauses rest on the model's reading (log entries 60, 61, 150 and
152). -/
def Obligations.RingFallbackHasItsEffect : Prop := ∀ s : State,
  (∀ round r, s.agg.tround round = some r → r.ring = true →
    (r.started = false → 0 < r.set.attempts → ∃ t, exec (.attemptStart round) s = .next t ∧ t = { s with agg := t.agg } ∧
      max s.agg.p.now (s.agg.attemptNs r 0 * 2 ^ 56) ≤ t.agg.p.now ∧
      (t.agg.tround round = none ∨ ∃ q, t.agg.tround round = some q ∧ q.started = true ∧ q.attempt = 0) ∧
      (s.agg.contribMirrored r = false → t.agg.reg TALLY_EVENT_NOT_MIRRORED = 1)) ∧
    (r.started = true → r.stopped = true → r.attempt + 1 < r.set.attempts → ∃ t, exec (.attemptStart round) s = .next t ∧
      t = { s with agg := t.agg } ∧ max s.agg.p.now (s.agg.attemptNs r (r.attempt + 1) * 2 ^ 56) ≤ t.agg.p.now ∧
      (t.agg.tround round = none ∨ ∃ q, t.agg.tround round = some q ∧ q.started = true ∧ q.attempt = r.attempt + 1 ∧
        ∀ e ∈ r.skips, e.2 = r.attempt → e.1 ∈ q.without))) ∧
  (∀ (f : RedFrame) r, f.reserved = false → s.agg.tround f.round = some r → r.ring = true → r.started = true →
    f.attempt = r.attempt → f.keyset = r.keyset → f.setDigest = (r.shape s.agg.id).digest →
    (∀ d, r.stopped = false → r.step < f.group → (∀ x ∈ r.inbox, r.step < x.group ∧ x.group ≠ f.group) →
      r.chunkOf ((r.shape s.agg.id).due f.group) f = some d → f.nkeys = f.blocks.length → (∀ b ∈ f.blocks, b.oct = r.set.oct b.key) →
      f.blocks.any (·.badIdentity) = false → (r.shape s.agg.id).due r.step ≠ [] → ∃ t q, exec (.chunk f) s = .next t ∧
        t = { s with agg := { s.agg with p := t.agg.p, tly := t.agg.tly } } ∧ t.agg.tround f.round = some q ∧
        q = { r with inbox := r.inbox ++ [d.2] }) ∧
    (r.chunkOf ((r.shape s.agg.id).due f.group) f = none ∨ f.nkeys ≠ f.blocks.length ∨
      f.blocks.any (·.badIdentity) = true → ∃ t, exec (.chunk f) s = .next t ∧
        t = { s with agg := { s.agg with p := t.agg.p } } ∧
        s.agg.p.onlyEvents t.agg.p [TALLY_ERR_COUNT_VIOL, TALLY_EVENT_VIOL] [0x060A])) ∧
  (∀ (f : RedFrame) r, f.reserved = false → s.agg.tround f.round = some r → r.ring = false ∨ r.started = false ∨
    f.attempt ≠ r.attempt ∨ f.keyset ≠ r.keyset ∨ f.setDigest ≠ (r.shape s.agg.id).digest →
    ∃ t, exec (.chunk f) s = .next t ∧ t = { s with agg := { s.agg with p := t.agg.p } } ∧
      s.agg.p.onlyEvents t.agg.p [TALLY_ERR_COUNT_STALE, TALLY_EVENT_STALE] [0x060B]) ∧
  (∀ round r d, s.agg.safe = false → s.agg.tround round = some r → r.ring = true → r.started = true →
    r.stopped = false → (r.shape s.agg.id).alive s.agg.id = true → d ∈ (r.shape s.agg.id).due r.step →
    r.arrived d = none → ∃ t, ∃ n : RingNote, ∃ q, exec (.stepDeadline round) s = .next t ∧
      t = { s with agg := { s.agg with p := t.agg.p, tly := t.agg.tly, fab := t.agg.fab } } ∧
      t.agg.p.now = max s.agg.p.now
        ((s.agg.attemptNs r r.attempt + (r.step + 1) * s.agg.cfg TALLY_TIMING2_STEP_NS) * 2 ^ 56) ∧
      (s.agg.atTimeOf t.agg).toRing t.agg n.skipBytes ∧ n.member = d.2.1 ∧ n.head.round = round ∧ n.head.attempt = r.attempt ∧
      n.head.src = s.agg.id ∧ t.agg.reg TALLY_EVENT_SKIP_SENT = 1 ∧ t.agg.tround round = some q ∧ q.stopped = true) ∧
  (∀ n : RingNote, n.head.reserved = false → n.member < s.agg.tly.set.aggs → ∃ t, exec (.skip n) s = .next t ∧
    t = { s with agg := { s.agg with p := t.agg.p, tly := t.agg.tly, fab := t.agg.fab } } ∧
    (∃ ns ≤ n.sendNs, (n.member, ns, n.head.round) ∈ t.agg.tly.excluded) ∧
    t.agg.reg TALLY_ERR_COUNT_SKIPS = min (s.agg.reg TALLY_ERR_COUNT_SKIPS + 1) (2 ^ 16 - 1) ∧
    (∀ r ∈ t.agg.tly.rounds, r.round = n.head.round → r.attempt = n.head.attempt → r.stopped = true) ∧
    (n.member ≠ s.agg.id → t.agg.fab = s.agg.fab) ∧
    (n.member = s.agg.id → t.agg.reg TALLY_EVENT_SKIPPED_SELF = 1 ∧
      (∀ r ∈ t.agg.tly.rounds, r.round = n.head.round → r.out = true) ∧
      (s.agg.safe = true ∨ s.agg.p.timed = false → t.agg.tly.joinDue = true ∧ t.agg.fab = s.agg.fab) ∧
      (s.agg.safe = false → s.agg.p.timed = true → ∃ j : RingNote, j.head.src = s.agg.id ∧
        (s.agg.id, j.fromRound) ∈ t.agg.tly.joined ∧ s.agg.toRing t.agg j.joinBytes))) ∧
  (∀ n : RingNote, n.head.reserved = false → n.head.src < s.agg.tly.set.aggs → ∃ t, exec (.join n) s = .next t ∧
    t = { s with agg := { s.agg with tly := { s.agg.tly with joined := t.agg.tly.joined } } } ∧
    (n.head.src, n.fromRound) ∈ t.agg.tly.joined ∧
    ∀ j, j ≠ (n.head.src, n.fromRound) → (j ∈ t.agg.tly.joined ↔ j ∈ s.agg.tly.joined)) ∧
  (∀ n : RingNote, n.head.reserved = true ∨ s.agg.tly.set.aggs ≤ n.member ∧ s.agg.tly.set.aggs ≤ n.head.src →
    ∃ t, exec (.skip n) s = .next t ∧ exec (.join n) s = .next t ∧ t = { s with agg := { s.agg with p := t.agg.p } } ∧
      s.agg.p.onlyEvents t.agg.p [TALLY_ERR_COUNT_VIOL, TALLY_EVENT_VIOL] [0x060A]) ∧
  (∀ round r, s.agg.tround round = some r → ∃ t b, exec (.roundFailed round) s = .next t ∧
    t = { s with agg := t.agg } ∧ t.agg.tround round = none ∧ t.agg.tly.results = b :: s.agg.tly.results ∧
    b.round = round ∧ b.failed = true ∧ b.blocks = [] ∧ t.agg.reg TALLY_EVENT_ROUND_FAILED = 1 ∧
    t.agg.reg TALLY_LAST_FAILED = 1 ∧
    (r.ring = true → r.started = true → r.stopped = true → r.set.attempts ≤ r.attempt + 1 →
      t.agg.p.now = s.agg.p.now) ∧
    (r.ring = false ∨ r.started = false ∨ r.stopped = false ∨ r.attempt + 1 < r.set.attempts →
      t.agg.p.now = max s.agg.p.now ((r.closeNs + 4 * s.agg.roundNs) * 2 ^ 56)))

/-! ### Detection (08) -/

/-- The arithmetic of a rule program (R277): DST takes the value that the table gives, saturated where it says so, the
cycles are charged, the next operation follows, and nothing else changes. A parameter that the program does not have gives a
free value. Where the spec is open, the clauses rest on the model's reading (log entry 64). -/
def Obligations.OperationsComputeTheirValues : Prop := ∀ (s : State) (slot : Fin 16) (o : Op) (r : Run),
  (s.agg.executes slot 0x01 o r → exec (.opLdi slot o) s = .next (s.ran slot (r.set o.dst o.imm) 1)) ∧
  (∀ x, s.agg.executes slot 0x02 o r → 0 ≤ o.imm → r.params[o.imm.toNat]? = some x →
    exec (.opLdp slot o) s = .next (s.ran slot (r.set o.dst x) 1)) ∧
  (s.agg.executes slot 0x02 o r → o.imm < 0 ∨ r.params[o.imm.toNat]? = none →
    ∃ x, exec (.opLdp slot o) s = .next (s.drewAgg.ran slot (r.set o.dst x) 1)) ∧
  (s.agg.executes slot 0x04 o r → exec (.opAdd slot o) s =
    .next (s.ran slot (r.set o.dst (max (1 - 2 ^ 63) (min (2 ^ 63 - 1) (r.get o.src1 + r.get o.src2)))) 1)) ∧
  (s.agg.executes slot 0x05 o r → exec (.opSub slot o) s =
    .next (s.ran slot (r.set o.dst (max (1 - 2 ^ 63) (min (2 ^ 63 - 1) (r.get o.src1 - r.get o.src2)))) 1)) ∧
  (s.agg.executes slot 0x06 o r → exec (.opMul slot o) s =
    .next (s.ran slot (r.set o.dst (max (1 - 2 ^ 63) (min (2 ^ 63 - 1) (r.get o.src1 * r.get o.src2)))) 2)) ∧
  (∀ q, s.agg.executes slot 0x07 o r → -2 ^ 63 < q → q < 2 ^ 63 → r.get o.src2 ≠ 0 →
    (0 < r.get o.src2 → q * r.get o.src2 ≤ r.get o.src1 ∧ r.get o.src1 < (q + 1) * r.get o.src2) →
    (r.get o.src2 < 0 → r.get o.src1 ≤ q * r.get o.src2 ∧ (q + 1) * r.get o.src2 < r.get o.src1) →
    exec (.opDiv slot o) s = .next (s.ran slot (r.set o.dst q) 8)) ∧
  (s.agg.executes slot 0x07 o r → r.get o.src2 = 0 → exec (.opDiv slot o) s = .next (s.ran slot (r.set o.dst 0) 8)) ∧
  (∀ q n : Nat, s.agg.executes slot 0x08 o r → n < 64 → r.get o.src2 % 64 = n → r.get o.src1 = q →
    exec (.opShr slot o) s = .next (s.ran slot (r.set o.dst ((q >>> n : Nat) : Int)) 1)) ∧
  (∀ q n : Nat, s.agg.executes slot 0x08 o r → n < 64 → r.get o.src2 % 64 = n → r.get o.src1 = Int.negSucc q →
    exec (.opShr slot o) s = .next (s.ran slot (r.set o.dst (Int.negSucc (q >>> n))) 1)) ∧
  (s.agg.executes slot 0x09 o r → exec (.opMin slot o) s =
    .next (s.ran slot (r.set o.dst (min (r.get o.src1) (r.get o.src2))) 1)) ∧
  (s.agg.executes slot 0x0A o r → exec (.opMax slot o) s =
    .next (s.ran slot (r.set o.dst (max (r.get o.src1) (r.get o.src2))) 1)) ∧
  (s.agg.executes slot 0x0B o r → exec (.opAbs slot o) s =
    .next (s.ran slot (r.set o.dst (min (2 ^ 63 - 1) (max (r.get o.src1) (-(r.get o.src1))))) 1)) ∧
  (s.agg.executes slot 0x0C o r → exec (.opClt slot o) s =
    .next (s.ran slot (r.set o.dst (if r.get o.src1 < r.get o.src2 then 1 else 0)) 1)) ∧
  (s.agg.executes slot 0x0D o r → exec (.opSel slot o) s =
    .next (s.ran slot (r.set o.dst (if r.get o.dst = 0 then r.get o.src2 else r.get o.src1)) 1)) ∧
  (s.agg.executes slot 0x0E o r → r.get o.src1 ≠ 0 → exec (.opSkipz slot o) s = .next (s.ran slot r 1)) ∧
  (s.agg.executes slot 0x0E o r → r.get o.src1 = 0 → r.core = none →
    exec (.opSkipz slot o) s = .next (s.ran slot { r with pc := r.pc + o.imm.toNat } 1)) ∧
  (∀ k, s.agg.executes slot 0x0E o r → r.get o.src1 = 0 → r.core = some k →
    exec (.opSkipz slot o) s = .next (s.ran slot { r with cpc := r.cpc + o.imm.toNat } 1))

/-- State words, accumulators, Bellwether and neighbour reads, posts, causes and verdicts of a rule program (R277,
R279, R281 to R283, R289): what each does to the run, and that nothing else changes; a value that the spec does not state
is a free value. Where the spec is open, the clauses rest on the model's reading (log entries 63, 64, 66 and 159). -/
def Obligations.OperationsReadAndWriteTheRun : Prop := ∀ (s : State) (slot : Fin 16) (o : Op) (r : Run),
  (∀ x, s.agg.executes slot 0x03 o r → s.agg.featureOf slot r o.imm = some x →
    exec (.opFeat slot o) s = .next (s.ran slot (r.set o.dst x) 2)) ∧
  (s.agg.executes slot 0x03 o r → s.agg.featureOf slot r o.imm = none →
    ∃ x, exec (.opFeat slot o) s = .next (s.drewAgg.ran slot (r.set o.dst x) 2)) ∧
  (s.agg.executes slot 0x10 o r → exec (.opLds slot o) s = .next (s.ran slot (r.set o.dst (r.word o.imm.toNat)) 2)) ∧
  (s.agg.executes slot 0x11 o r →
    exec (.opSts slot o) s = .next (s.ran slot (r.setWord o.imm.toNat (r.get o.src1)) 2)) ∧
  (∀ (n : Nat) (w y x : Int), s.agg.executes slot 0x12 o r → r.word o.imm.toNat = w → r.get o.src1 = y → n < 64 →
    r.get o.src2 % 64 = n → x = max (1 - 2 ^ 63) (min (2 ^ 63 - 1)
      (w + (max (1 - 2 ^ 63) (min (2 ^ 63 - 1) (y - w))) / 2 ^ n)) →
    exec (.opEwma slot o) s = .next (s.ran slot ((r.setWord o.imm.toNat x).set o.dst x) 3)) ∧
  (∀ x : Int, s.agg.executes slot 0x13 o r →
    x = max 0 (min (2 ^ 63 - 1) (r.word o.imm.toNat + r.get o.src1 - r.get o.src2)) →
    exec (.opCusum slot o) s = .next (s.ran slot ((r.setWord o.imm.toNat x).set o.dst x) 3)) ∧
  (s.agg.executes slot 0x18 o r → o.mode = 1 → exec (.opAcc slot o) s =
    .next (s.ran slot { r with acc := r.acc.set o.imm.toNat (min (r.acc.get o.imm.toNat) (r.get o.src1)) } 1)) ∧
  (s.agg.executes slot 0x18 o r → o.mode = 2 → exec (.opAcc slot o) s =
    .next (s.ran slot { r with acc := r.acc.set o.imm.toNat (max (r.acc.get o.imm.toNat) (r.get o.src1)) } 1)) ∧
  (∀ z : Int, s.agg.executes slot 0x18 o r → o.mode = 0 → -2 ^ 63 ≤ z → z < 2 ^ 63 →
    (z - (r.acc.get o.imm.toNat + r.get o.src1)) % 2 ^ 64 = 0 →
    exec (.opAcc slot o) s = .next (s.ran slot { r with acc := r.acc.set o.imm.toNat z } 1)) ∧
  (s.agg.executes slot 0x18 o r → 2 < (o.mode : Nat) → ∃ z,
    exec (.opAcc slot o) s = .next (s.drewAgg.ran slot { r with acc := r.acc.set o.imm.toNat z } 1)) ∧
  (s.agg.executes slot 0x19 o r → exec (.opLda slot o) s = .next (s.ran slot (r.set o.dst (r.acc.get o.imm.toNat)) 1)) ∧
  (s.agg.executes slot 0x1A o r → r.coreEntry < r.roundEntry → 0 < s.agg.runCores slot r →
    ∃ t, exec (.opEachcore slot o) s = .next t ∧ t = s.withRun slot
      { r with core := some 0, cpc := r.coreEntry, lane := laneStart r.v, laneCyc := [] }) ∧
  (s.agg.executes slot 0x1A o r → r.core = none → (r.roundEntry ≤ r.coreEntry ∨ s.agg.runCores slot r = 0) →
    exec (.opEachcore slot o) s = .next (s.ran slot r 0)) ∧
  (r.bellBlock o.imm = none →
    (s.agg.executes slot 0x20 o r →
      exec (.opBrank slot o) s = .next (s.ran slot ((Run.bellFlags o.imm r).set o.dst (-1)) 16)) ∧
    (s.agg.executes slot 0x21 o r →
      exec (.opBquant slot o) s = .next (s.ran slot ((Run.bellFlags o.imm r).set o.dst (-1)) 16)) ∧
    (s.agg.executes slot 0x22 o r →
      exec (.opBmom slot o) s = .next (s.ran slot ((Run.bellFlags o.imm r).set o.dst (-1)) 8))) ∧
  (∀ b x, r.bellBlock o.imm = some b →
    (s.agg.executes slot 0x20 o r → rankOf (r.get o.src1) b = some x →
      exec (.opBrank slot o) s = .next (s.ran slot ((Run.bellFlags o.imm r).set o.dst x) 16)) ∧
    (s.agg.executes slot 0x21 o r → quantOf (r.get o.src1) b = some x →
      exec (.opBquant slot o) s = .next (s.ran slot ((Run.bellFlags o.imm r).set o.dst x) 16)) ∧
    (s.agg.executes slot 0x22 o r → momentOf o.mode b = some x →
      exec (.opBmom slot o) s = .next (s.ran slot ((Run.bellFlags o.imm r).set o.dst x) 8))) ∧
  (∀ b, r.bellBlock o.imm = some b →
    (s.agg.executes slot 0x20 o r → rankOf (r.get o.src1) b = none →
      ∃ x, exec (.opBrank slot o) s = .next (s.drewAgg.ran slot ((Run.bellFlags o.imm r).set o.dst x) 16)) ∧
    (s.agg.executes slot 0x21 o r → quantOf (r.get o.src1) b = none →
      ∃ x, exec (.opBquant slot o) s = .next (s.drewAgg.ran slot ((Run.bellFlags o.imm r).set o.dst x) 16)) ∧
    (s.agg.executes slot 0x22 o r → momentOf o.mode b = none →
      ∃ x, exec (.opBmom slot o) s = .next (s.drewAgg.ran slot ((Run.bellFlags o.imm r).set o.dst x) 8))) ∧
  (∀ x, s.agg.executes slot 0x23 o r → nbrStat o.mode (r.nbrValues slot o.imm.toNat) = some x →
    exec (.opNbr slot o) s = .next (s.ran slot (r.set o.dst x) 8)) ∧
  (s.agg.executes slot 0x23 o r → nbrStat o.mode (r.nbrValues slot o.imm.toNat) = none →
    ∃ x, exec (.opNbr slot o) s = .next (s.drewAgg.ran slot (r.set o.dst x) 8)) ∧
  (s.agg.executes slot 0x24 o r → exec (.opPost slot o) s =
    .next (s.ran slot { r with posts := r.posts ++ [(o.imm.toNat, r.get o.src1)] } 2)) ∧
  (∀ x, s.agg.executes slot 0x28 o r → 0 ≤ o.imm → r.pred[o.imm.toNat]? = some (some x) →
    exec (.opPred slot o) s = .next (s.ran slot (r.set o.dst x) 4)) ∧
  (s.agg.executes slot 0x28 o r → (o.imm < 0 ∨ r.pred[o.imm.toNat]? = none ∨ r.pred[o.imm.toNat]? = some none) →
    exec (.opPred slot o) s = .next (s.ran slot (({ r with flags := r.flags ||| 8 } : Run).set o.dst 0) 4)) ∧
  (s.agg.executes slot 0x29 o r → 0 ≤ o.imm → o.imm < 256 → exec (.opVec slot o) s =
    .next (s.ran slot { r with vec := r.vec.set o.imm.toNat (r.get o.src1 % 65536).toNat } 1)) ∧
  (s.agg.executes slot 0x30 o r → exec (.opCause slot o) s =
    .next (s.ran slot { r with cause := r.cause ||| (o.imm % 2 ^ 32).toNat / 256 * 256 } 1)) ∧
  (s.agg.executes slot 0x31 o r →
    (r.get o.src1 = 0 ∨ s.agg.suppressed slot r (o.imm % 65536).toNat = true →
      exec (.opEmit slot o) s = .next (s.ran slot r 4)) ∧
    (r.get o.src1 ≠ 0 → s.agg.suppressed slot r (o.imm % 65536).toNat = false → r.emits.length < 15 →
      exec (.opEmit slot o) s = .next (s.ran slot { r with emits := r.emits ++ [r.emitOf o] } 4)) ∧
    (r.get o.src1 ≠ 0 → s.agg.suppressed slot r (o.imm % 65536).toNat = false → 15 ≤ r.emits.length →
      exec (.opEmit slot o) s = .next (s.ran slot { r with cut := r.cut + 1 } 4))) ∧
  (s.agg.executes slot 0x00 o r → r.core = none →
    exec (.opEnd slot o) s = .next (s.withRun slot { r with ended := true, cycles := r.cycles + 1 })) ∧
  (∀ k, s.agg.executes slot 0x00 o r → r.core = some k → k + 1 < s.agg.runCores slot r →
    exec (.opEnd slot o) s = .next (s.withRun slot { r with
      core := some (k + 1), cpc := r.coreEntry, laneCyc := r.laneCyc.upd (k % 32) (· + 1) })) ∧
  (∀ k, s.agg.executes slot 0x00 o r → r.core = some k → s.agg.runCores slot r ≤ k + 1 →
    ∃ t q, exec (.opEnd slot o) s = .next t ∧ t = s.withRun slot q ∧ q.core = none ∧ q.pc = r.pc + 1 ∧ q.laneCyc = [] ∧
      r.cycles ≤ q.cycles ∧ q.v = r.v ∧ q.words = r.words ∧ q.cwords = r.cwords ∧ q.emits = r.emits) ∧
  (s.agg.executes slot 0x2A o r → o.imm < 0 ∨ 16 ≤ o.imm ∨ s.agg.hdgCopy o.imm.toNat r.tick = none →
    ∃ t, exec (.opHedge slot o) s = .next t ∧
      t = { s with agg := { s.agg with p := t.agg.p, det :=
        (s.ran slot (({ r with flags := r.flags ||| 128 } : Run).set o.dst 0) 0).agg.det } } ∧
      s.agg.p.onlyEvents t.agg.p [HDG_ERR_COUNT_MISSING, HDG_EVENT_MISSING_REQ] [0x0807] ∧
      t.agg.reg HDG_ERR_COUNT_MISSING = min (s.agg.reg HDG_ERR_COUNT_MISSING + 1) (2 ^ HDG_ERR_COUNT_MISSING.width - 1)) ∧
  (∀ c, s.agg.executes slot 0x2A o r → 0 ≤ o.imm → o.imm < 16 → s.agg.hdgCopy o.imm.toNat r.tick = some c →
    (s.agg.cfg HDG_CFG_EN = 0 ∨ s.agg.domOn 0x0C = false → ∃ t, exec (.opHedge slot o) s = .next t ∧
      t = { s with agg := { s.agg with p := t.agg.p, det := (s.ran slot (r.set o.dst 0) 0).agg.det } } ∧
      s.agg.p.onlyRegs t.agg.p [HDG_ERR_COUNT_MISSING] ∧
      t.agg.reg HDG_ERR_COUNT_MISSING = min (s.agg.reg HDG_ERR_COUNT_MISSING + 1) (2 ^ HDG_ERR_COUNT_MISSING.width - 1)) ∧
    (s.agg.cfg HDG_CFG_EN ≠ 0 → s.agg.domOn 0x0C = true → ∃ t, exec (.opHedge slot o) s = .next t ∧
      t = { s with agg := { s.agg with p := t.agg.p, det := t.agg.det, hdg := t.agg.hdg } } ∧
      s.agg.p.onlyRegs t.agg.p [HDG_STATUS_QUEUE, HDG_STATUS_BUSY, HDG_STATUS_FREE_4K] ∧
      (t.agg.dieDet slot).run = some { r with hedge := some (o.dst : Nat) } ∧
      t.agg.hdg = { s.agg.hdg with queue := s.agg.hdg.queue ++
        [{ die := slot, model := o.imm.toNat, copy := c, vec := r.vec, issued := 6 * s.agg.p.nowNs }] }))

/-- Runs (R269 to R272, R277, R285, R293, R429, R430): how a TICK and a ROUND run begin, what the end of a run writes, what
is discarded whole, skipped, run again or lost. Where the spec is open, the clauses rest on the model's reading (log
entries 62, 65, 68, 69, 154, 155 and 180). -/
def Obligations.RunsStartAndEnd : Prop := ∀ (s : State) (slot : Fin 16),
  (∀ tick b rest, (s.agg.dieDet slot).jobs = (tick, b) :: rest → (s.agg.dieDet slot).run = none → s.agg.gasp = false →
    s.agg.runsOn slot = true → s.agg.roundDue slot = none →
    (b = true ∨ s.agg.reg (DET_DIE_STATUS_STATE slot) ≠ 1 ∧
      ∀ f, (s.agg.dieDet slot).at_ tick = some f → s.agg.p.nowNs ≤ f.commitNs + 2 * f.us * 1000) →
    (∀ e ∈ s.agg.det.retiring, e.1 ≠ s.agg.homeOf slot) →
    ((s.agg.dieDet slot).copying = false → ∃ t r, exec (.tickRunStart slot) s = .next t ∧ t = { s with agg := { s.agg with
          p := t.agg.p, det := t.agg.det, vrf := t.agg.vrf, flt := t.agg.flt, rprQueue := t.agg.rprQueue } } ∧
        (t.agg.dieDet slot).run = some r ∧ r.tick = tick ∧ r.round = none ∧ r.restore = b ∧ r.v = [] ∧ r.cycles = 0 ∧
        r.emits = [] ∧ r.words = (s.agg.dieDet slot).words ∧ r.cwords = (s.agg.dieDet slot).cwords ∧
        r.cluster = s.agg.homeOf slot ∧ r.result = s.agg.tly.results.head? ∧ t.agg.det.lost = s.agg.det.lost ∧
        ∀ k, k ≠ (slot : Nat) → t.agg.dieDet k = s.agg.dieDet k) ∧
    ((s.agg.dieDet slot).copying = true → ∃ t, exec (.tickRunStart slot) s = .next t ∧ t = { s with agg := t.agg } ∧
      ((t.agg.dieDet slot).run = none ∧ (t.agg.dieDet slot).jobs = rest ∧ (t.agg.dieDet slot).skipped = true ∧
          t.agg.reg DET_EVENT_SKIPPED = 1 ∨
        ∃ r, (t.agg.dieDet slot).run = some r ∧ r.tick = tick ∧ r.round = none ∧ r.restore = b ∧
          (t.agg.dieDet slot).copying = false))) ∧
  (∀ k ns, s.agg.roundDue slot = some (k, ns) → (s.agg.dieDet slot).run = none → s.agg.gasp = false →
    s.agg.runsOn slot = true → s.agg.tround k = none → (∀ e ∈ s.agg.det.retiring, e.1 ≠ s.agg.homeOf slot) →
    ((s.agg.dieDet slot).copying = false → ∃ t r, exec (.roundRunStart slot) s = .next t ∧
        t = { s with agg := { s.agg with
          p := t.agg.p, det := t.agg.det, flt := t.agg.flt, rprQueue := t.agg.rprQueue } } ∧
        (t.agg.dieDet slot).run = some r ∧
        r.tick = (s.agg.dieDet slot).lastTick ∧ r.round = some k ∧ r.v = [] ∧ r.cycles = 0 ∧ r.cluster = s.agg.homeOf slot ∧
        r.words = (s.agg.dieDet slot).words ∧ r.result = s.agg.tly.results.find? fun b => b.round = k) ∧
    ((s.agg.dieDet slot).copying = true → ∃ t, exec (.roundRunStart slot) s = .next t ∧ t = { s with agg := t.agg } ∧
      ((t.agg.dieDet slot).run = none ∧ (t.agg.dieDet slot).rounds = (s.agg.dieDet slot).rounds.tail ∨
        ∃ r, (t.agg.dieDet slot).run = some r ∧ r.round = some k ∧ (t.agg.dieDet slot).copying = false))) ∧
  (∀ r die, (s.agg.dieDet slot).run = some r → s.agg.dieOfSlot slot = some die → r.ended = true →
    s.agg.inBudget slot r = true → ∃ t, exec (.runEnd slot) s = .next t ∧ t = { s with agg := t.agg } ∧
      (t.agg.dieDet slot).run = none ∧ (t.agg.dieDet slot).words = r.words ∧ (t.agg.dieDet slot).cwords = r.cwords ∧
      (r.round = none → (t.agg.dieDet slot).lastTick = r.tick) ∧
      ((∀ e ∈ s.agg.det.retiring, e.1 ≠ r.cluster) →
        (r.round = none → (t.agg.dieDet slot).jobs = (s.agg.dieDet slot).jobs.tail) ∧
        (r.round.isSome = true → (t.agg.dieDet slot).rounds = (s.agg.dieDet slot).rounds.tail)) ∧
      (r.restore = true → (t.agg.dieDet slot).held = (s.agg.dieDet slot).held) ∧
      (r.restore = false → 0 < r.cut → t.agg.reg DET_EVENT_EMIT_CUT = 1)) ∧
  (∀ r die e, (s.agg.dieDet slot).run = some r → s.agg.dieOfSlot slot = some die → r.ended = true →
    s.agg.inBudget slot r = true → r.round = none → r.restore = false → r.posts = [] → r.emits = [e] →
    s.agg.cfg DET_STRAG_CFG_LOCAL_TICKS = 0 → s.agg.cfg DET_CFG_CKPT_TICKS = 0 →
    (∀ f ∈ (s.agg.dieDet slot).hist, ∀ q, s.agg.sampleRec f = some q → q.localOnly = false) →
    (s.agg.ringFits (s.agg.cfg DET_CFG_VERDICT_RING) 128 = true →
      ∃ t v, exec (.runEnd slot) s = .next t ∧ (t.agg.dieDet slot).held.getLast? = some v ∧
        (t.agg.dieDet slot).held.length = (s.agg.dieDet slot).held.length + 1 ∧ v.ident = r.tick * 256 + e.slot ∧
        v.kind = e.kind ∧ v.cleared = e.cleared ∧ v.sev = e.sev ∧ v.rule = e.rule ∧
        (t.agg.dieDet slot).rules.get e.rule = some r.tick) ∧
    (s.agg.ringFits (s.agg.cfg DET_CFG_VERDICT_RING) 128 = false → ∃ t, exec (.runEnd slot) s = .next t ∧
      (t.agg.dieDet slot).held = (s.agg.dieDet slot).held ∧ t.agg.reg DET_EVENT_VERDICT_RING_FULL = 1 ∧
      t.agg.reg DET_ERR_COUNT_VERDICTS_LOST = min (s.agg.reg DET_ERR_COUNT_VERDICTS_LOST + 1)
        (2 ^ DET_ERR_COUNT_VERDICTS_LOST.width - 1))) ∧
  (∀ r, (s.agg.dieDet slot).run = some r → (s.agg.inBudget slot r = false ∨ r.hedge.isSome = true) →
    ∃ t, exec (.overrun slot) s = .next t ∧ t = { s with agg := t.agg } ∧ (t.agg.dieDet slot).run = none ∧
      (t.agg.dieDet slot).words = (s.agg.dieDet slot).words ∧ (t.agg.dieDet slot).held = (s.agg.dieDet slot).held ∧
      t.agg.reg DET_ERR_COUNT_OVERRUN = min (s.agg.reg DET_ERR_COUNT_OVERRUN + 1) (2 ^ 16 - 1) ∧
      t.agg.reg DET_EVENT_OVERRUN = 1) ∧
  (∀ r (core : Fin 33), (s.agg.dieDet slot).run = some r →
    (∀ n, s.agg.det.coreFault.get (33 * r.cluster + core) = some n →
      n + s.agg.cfg FLT_CFG2_CORE_WIN_S * 1000000000 < s.agg.p.nowNs) → (s.agg.dieDet slot).unhomed = false →
    (s.agg.dieDet slot).copying = false → (∀ e ∈ s.agg.det.retiring, e.1 ≠ s.agg.homeOf slot) →
    ∃ t q, exec (.droverCoreFault slot core) s = .next t ∧
      t = { s with agg := { s.agg with
        p := t.agg.p, det := t.agg.det, hdg := t.agg.hdg, flt := t.agg.flt, rprQueue := t.agg.rprQueue } } ∧
      (t.agg.dieDet slot).run = some q ∧ q.cluster = s.agg.homeOf slot ∧ q.tick = r.tick ∧ q.round = r.round ∧ q.v = [] ∧ q.cycles = 0 ∧ q.emits = [] ∧
      q.words = (s.agg.dieDet slot).words ∧ q.ops = r.ops ∧ q.result = r.result ∧ q.pred = r.pred ∧ q.near = r.near ∧
      q.posted = r.posted ∧ q.ftest = r.ftest ∧
      t.agg.det.coreFault.get (33 * r.cluster + core) = some s.agg.p.nowNs ∧ t.agg.det.lost = s.agg.det.lost) ∧
  (∀ r (core : Fin 33) n, (s.agg.dieDet slot).run = some r →
    s.agg.det.coreFault.get (33 * r.cluster + core) = some n →
    s.agg.p.nowNs ≤ n + s.agg.cfg FLT_CFG2_CORE_WIN_S * 1000000000 → ∃ t, exec (.droverCoreFault slot core) s = .next t ∧
      t = { s with agg := t.agg } ∧ (core : Nat) ∈ t.agg.det.lost.get r.cluster) ∧
  (∀ tick rest, (s.agg.dieDet slot).jobs = (tick, false) :: rest → (s.agg.dieDet slot).run = none →
    ∃ t, exec (.runSkip slot) s = .next t ∧ t = { s with agg := t.agg } ∧
      (∀ f, (s.agg.dieDet slot).at_ tick = some f → f.commitNs + 2 * f.us * 1000 < t.agg.p.nowNs) ∧
      (t.agg.dieDet slot).jobs = rest ∧ (t.agg.dieDet slot).lastTick = (s.agg.dieDet slot).lastTick ∧
      (t.agg.dieDet slot).skipped = true ∧ (t.agg.dieDet slot).words = (s.agg.dieDet slot).words ∧
      t.agg.reg DET_EVENT_SKIPPED = 1 ∧
      t.agg.reg DET_ERR_COUNT_SKIPPED = min (s.agg.reg DET_ERR_COUNT_SKIPPED + 1) (2 ^ 16 - 1)) ∧
  (s.agg.reg (DET_DIE_STATUS_STATE slot) = 1 → (s.agg.dieDet slot).run = none →
    ((s.agg.dieDet slot).jobs.any fun j => j.2) = false → ∃ t, exec (.restoreCold slot) s = .next t ∧
      t = { s with agg := { s.agg with p := t.agg.p, det := t.agg.det, shed := t.agg.shed, hdg := t.agg.hdg } } ∧
      s.agg.p.onlyEvents t.agg.p [DET_DIE_STATUS_STATE slot, DET_DIE_STATUS_LOCAL_RUN slot, DET_DIE_STATUS_FLEET_RUN slot,
        HDG_STATUS_QUEUE, HDG_STATUS_BUSY, HDG_STATUS_FREE_4K, DET_STATUS_RUNS, DET_STATUS_PENDING, DET_STATUS_HELD,
        DET_EVENT_RESTORE_COLD] [0x0706] ∧
      (∀ f, (s.agg.shed.fetches.find? fun f => f.use = .drift slot) = some f → f.sentNs + 1000000 ≤ t.agg.p.nowNs) ∧
      t.agg.reg (DET_DIE_STATUS_STATE slot) = 3 ∧ (t.agg.dieDet slot).words = [] ∧ (t.agg.dieDet slot).cwords = [] ∧
      (t.agg.dieDet slot).localRun = 0 ∧ (t.agg.dieDet slot).fleetRun = 0 ∧
      (t.agg.dieDet slot).cold = 2 * s.agg.cfg DET_CFG_CKPT_TICKS)

/-- Notices and Hurdles (R294 to R300, R375, R376, R397): the oldest ready verdict reaches the host ring, entries are
read, interrupts coalesce, an unacknowledged notice is sent again, a received one is written, and a Hurdle changes
state. Where the spec is open, the clauses rest on the model's reading (log entries 70 and 81). -/
def Obligations.NoticesAndHurdles : Prop := ∀ s : State,
  (∀ (slot : Fin 16) die v rest op, s.agg.dieOfSlot slot = some die → (s.agg.dieDet slot).held = v :: rest →
    v.op = some op → (∀ x ∈ rest, x.op.isSome = true) → (s.agg.dieDet slot).hurdle = none →
    (∀ e ∈ s.agg.det.hurdleWait, e.1 ≠ (slot : Nat)) →
    s.agg.reg (DET_DIE_STATUS_STATE slot) ≠ 1 → s.agg.verdictReady v = true → (∀ d ∈ s.agg.det.deliv, d.op ≠ op) →
    s.agg.det.wait = [] →
    (s.agg.nqRoom = true → ∃ t e, exec (.verdictDelivery slot) s = .next t ∧ t = { s with agg := t.agg } ∧
      (t.agg.dieDet slot).held = rest ∧
      t.agg.reg DET_NQ_TAIL_INDEX = (s.agg.reg DET_NQ_TAIL_INDEX + 1) % 2 ^ 32 ∧ e.length = 64 ∧
      e = withPhase (verdictEntry v.ntype die v (s.agg.jrnOfOp op)) (s.agg.reg DET_NQ_TAIL_INDEX) s.agg.nqSize ∧
      Sent.hostNotice (s.agg.reg DET_NQ_BASE_ADDR * 4096 + 64 * (s.agg.reg DET_NQ_TAIL_INDEX % s.agg.nqSize)) e
        ∈ t.agg.sent ∧
      ∀ (i : Nat) x, (s.agg.subscribers v.paddock false)[i]? = some x → s.agg.handed t.agg {
        rclass := 3, msgType := 1, dst := x.agg, paddock := v.paddock % 256
        payload := verdictEntry v.ntype die v (s.agg.jrnOfOp op), tag := delivTag op i }) ∧
    (s.agg.reg DET_NQ_CFG_EN = 0 → s.agg.subscribers v.paddock false = [] → ∃ t, exec (.verdictDelivery slot) s = .next t ∧
      t = { s with agg := t.agg } ∧ (t.agg.dieDet slot).held = rest ∧
      t.agg.reg DET_NQ_TAIL_INDEX = s.agg.reg DET_NQ_TAIL_INDEX ∧ ∀ d ∈ t.agg.det.deliv, d.op ≠ op ∨ d.kind = 2)) ∧
  (∀ (slot : Fin 16) v, ((s.agg.dieDet slot).held.find? fun v => !v.late) = some v →
    ∃ t, exec (.evidWait slot) s = .next t ∧
    t = { s with agg := { s.agg with p := t.agg.p, det := t.agg.det } } ∧ t.agg.reg DET_EVENT_EVID_WAIT = 1 ∧
    v.commitNs + s.agg.cfg DET_RUN_CFG_EVID_WAIT_MS * 1000000 < t.agg.p.nowNs ∧
    { v with late := true } ∈ (t.agg.dieDet slot).held ∧
    (∀ x ∈ (s.agg.dieDet slot).held, x ≠ v → x ∈ (t.agg.dieDet slot).held) ∧
    (t.agg.dieDet slot).held.length = (s.agg.dieDet slot).held.length) ∧
  (s.agg.bit DET_NQ_CFG_EN = true → s.agg.nqUnread ≠ 0 → ∃ t, exec .noticeInterrupt s = .next t ∧
    t = { s with agg := { s.agg with p := t.agg.p, det := t.agg.det, sent := t.agg.sent } } ∧ s.agg.p.onlyTime t.agg.p [] ∧
    t.agg.det = { s.agg.det with irqNs := some t.agg.p.nowNs } ∧
    (∀ n, s.agg.det.irqNs = some n → n + s.agg.reg DET_NQ_CFG_COAL_US * 1000 ≤ t.agg.p.nowNs) ∧
    t.agg.sent = .msix (s.agg.reg DET_NQ_CFG_VECTOR) :: s.agg.sent) ∧
  (∀ value : Word, s.agg.reg CFG_STATUS_STATE ≠ 5 →
    (s.agg.beyondTail (value.toNat % 2 ^ 32) = true → exec (.nqHeadWrite value) s = .next s) ∧
    (s.agg.beyondTail (value.toNat % 2 ^ 32) = false → s.agg.det.wait = [] →
      ∃ t, exec (.nqHeadWrite value) s = .next t ∧ t = { s with agg := { s.agg with p := t.agg.p } } ∧
        s.agg.p.onlyRegs t.agg.p [DET_NQ_HEAD_INDEX, DET_STATUS_RUNS, DET_STATUS_PENDING, DET_STATUS_HELD] ∧
        t.agg.reg DET_NQ_HEAD_INDEX = value.toNat % 2 ^ 32 ∧ t.agg.reg DET_STATUS_PENDING = 0)) ∧
  (∀ op i d x, s.agg.deliv op = some d → d.host ≠ 0 → d.toAggs[i]? = some x → x.acked = false → x.gaveUp = false →
    (x.resends < 8 → ∃ t, exec (.noticeResend op i) s = .next t ∧
      t = { s with agg := { s.agg with p := t.agg.p, det := t.agg.det, fab := t.agg.fab } } ∧
      s.agg.p.onlyOffers t.agg.p [] ∧
      (s.agg.atTimeOf t.agg).offered t.agg (.rycon {
        rclass := 3, msgType := if x.record then 3 else 1, dst := x.agg, paddock := leAt d.entry 13 1
        payload := if x.record then d.body else d.entry, tag := delivTag op i }) ∧
      x.sentNs + x.rtoUs * 1000 ≤ t.agg.p.nowNs ∧
      (t.agg.deliv op).bind (fun e => e.toAggs[i]?) = some { x with resends := x.resends + 1, sentNs := t.agg.p.nowNs }) ∧
    (8 ≤ x.resends → ∃ t, exec (.noticeResend op i) s = .next t ∧ t = { s with agg := t.agg } ∧
      t.agg.reg DET_EVENT_SUB_UNACKED = 1 ∧ x.sentNs + x.rtoUs * 1000 ≤ t.agg.p.nowNs ∧
      ∀ e, d.host = 1 → d.answered = false → t.agg.deliv op = some e → e.toAggs[i]? = some { x with gaveUp := true })) ∧
  (∀ n : NoticeMsg, s.agg.noticeKnown n = false → n.ntype = 3 → s.agg.det.wait = [] → s.agg.nqRoom = true →
    ∃ t e, exec (.noticeReceived n) s = .next t ∧
      t = { s with agg := { s.agg with p := t.agg.p, det := t.agg.det, fab := t.agg.fab, sent := t.agg.sent } } ∧
      t.agg.det.taken = (3, n.origAgg, n.origOp, n.fleetDie, n.dseq) :: s.agg.det.taken ∧ e.length = 64 ∧
      e = withPhase (takenEntry n) (s.agg.reg DET_NQ_TAIL_INDEX) s.agg.nqSize ∧
      (∀ h, s.agg.fab.held.find? (fun h => h.src = n.src && h.psn = n.psn) = some h → s.agg.noticeAcked t.agg h) ∧
      ∃ at_, at_ = s.agg.reg DET_NQ_BASE_ADDR * 4096 + 64 * (s.agg.reg DET_NQ_TAIL_INDEX % s.agg.nqSize) ∧
        t.agg.sent = .hostFlush at_ :: .hostNotice at_ e :: s.agg.sent) ∧
  (∀ n : NoticeMsg, n.ntype = 0 ∨ 6 < n.ntype → ∃ t, exec (.noticeReceived n) s = .next t ∧
    t = { s with agg := { s.agg with p := t.agg.p } } ∧ t.agg.reg FAB_EVENT_VIOL = 1) ∧
  (∀ n : NoticeMsg, 1 ≤ n.ntype → n.ntype ≤ 6 → s.agg.noticeKnown n = true →
    (s.agg.noticeWaits n = true → ∃ t, exec (.noticeReceived n) s = .next t ∧
      t = { s with agg := { s.agg with det := { s.agg.det with wait := t.agg.det.wait } } } ∧
      t.agg.det.wait.length = s.agg.det.wait.length ∧
      (∀ (i : Nat) l e, s.agg.det.wait[i]? = some (.received l e) → NoticeMsg.repeats n e = true →
        t.agg.det.wait[i]? = some (.received (l ++ [(n.src, n.psn)]) e)) ∧
      ∀ (i : Nat) x, s.agg.det.wait[i]? = some x → (∀ l e, x = .received l e → NoticeMsg.repeats n e = false) →
        t.agg.det.wait[i]? = some x) ∧
    (s.agg.noticeWaits n = false → ∃ t, exec (.noticeReceived n) s = .next t ∧
      t = { s with agg := { s.agg with fab := t.agg.fab } } ∧
      ∀ h, s.agg.fab.held.find? (fun h => h.src = n.src && h.psn = n.psn) = some h → s.agg.noticeAcked t.agg h)) ∧
  (∀ n : NoticeMsg, s.agg.noticeKnown n = false → n.ntype = 4 → n.lastTaint ≠ 0 →
    s.agg.taintKnown n.fleetDie n.lastTaint = false → ∃ t, exec (.noticeReceived n) s = .next t ∧
      t = { s with agg := { s.agg with p := t.agg.p, fab := t.agg.fab } } ∧ s.agg.p.onlyOffers t.agg.p [] ∧
      (∀ h, s.agg.fab.held.find? (fun h => h.src = n.src && h.psn = n.psn) = some h → s.agg.noticeAcked t.agg h) ∧
      s.agg.handed t.agg { rclass := 3, msgType := 4, dst := n.src, paddock := n.paddock, payload := refusalBytes n }) ∧
  (∀ n : NoticeMsg, s.agg.noticeKnown n = false → 1 ≤ n.ntype → n.ntype ≤ 6 → n.ntype ≠ 3 →
    (n.ntype = 4 → n.lastTaint = 0 ∨ s.agg.taintKnown n.fleetDie n.lastTaint = true) →
    ∃ t, exec (.noticeReceived n) s = .next t ∧
      t = { s with agg := { s.agg with fab := t.agg.fab, det := { s.agg.det with
        taken := (n.ntype, n.origAgg, n.origOp, n.fleetDie, n.dseq) :: s.agg.det.taken } } } ∧
      ∀ h, s.agg.fab.held.find? (fun h => h.src = n.src && h.psn = n.psn) = some h → s.agg.noticeAcked t.agg h) ∧
  (∀ (slot : Fin 16) h, (s.agg.dieDet slot).hurdle = some h → s.agg.hurdleState slot = 1 →
    s.agg.reg CFG_STATUS_STATE ≠ 5 →
    (∃ t, exec (.hurdleAccept slot) s = .next t ∧ t = { s with agg := t.agg } ∧ t.agg.hurdleState slot = 2 ∧
      s.agg.hurdleAnswered t.agg h.op 0 ∧ (t.agg.dieDet slot).hurdle = some h) ∧
    (∃ t, exec (.hurdleDecline slot) s = .next t ∧ t = { s with agg := t.agg } ∧ t.agg.hurdleState slot = 3 ∧
      s.agg.hurdleAnswered t.agg h.op 1 ∧ (t.agg.dieDet slot).hurdle = some h)) ∧
  (∀ (slot : Fin 16) h n, (s.agg.dieDet slot).hurdle = some h → h.askNs = some n → s.agg.hurdleState slot = 1 →
    ∃ t, exec (.hurdleUnanswered slot) s = .next t ∧ t = { s with agg := t.agg } ∧ t.agg.hurdleState slot = 4 ∧
      s.agg.hurdleAnswered t.agg h.op 2 ∧ n + s.agg.cfg DET_HURDLE_CFG_ANS_MS * 1000000 ≤ t.agg.p.nowNs ∧ t.agg.reg DET_EVENT_HURDLE_UNANSWERED = 1) ∧
  (∀ slot : Fin 16, s.agg.reg CFG_STATUS_STATE ≠ 5 → 2 ≤ s.agg.hurdleState slot →
    ∃ t, exec (.hurdleLift slot) s = .next t ∧ t = { s with agg := { s.agg with p := t.agg.p, det := t.agg.det } } ∧
      s.agg.p.onlyRegs t.agg.p [DET_DIE_STATUS_HURDLE slot] ∧ t.agg.hurdleState slot = 0 ∧
      (t.agg.dieDet slot).hurdle = none)

/-! ### The Hedge engine and the Verifier (09, 10) -/

/-- The Hedge engine (R311 to R313, R317, R320, R322): the oldest request is answered to its waiting run with the score, or
0 where it meets a FAULTED slot or the engine off; and a model slot loads, waits for its BEGIN, is refused, swaps, is late,
retains, empties, faults and reloads. A score that R311 does not state is a free value. Where the spec is open, the clauses
rest on the model's reading (log entries 67 and 101). -/
def Obligations.HedgeHasItsEffect : Prop := ∀ s : State,
  (∀ n q rest r d, s.agg.hdg.queue = q :: rest → s.agg.gasp = false → (s.agg.dieDet q.die).run = some r →
    r.hedge = some d → r.core = none →
    (s.agg.cfg HDG_CFG_EN ≠ 0 → s.agg.domOn 0x0C = true → s.agg.hdgState q.model ≠ 5 → ∃ t w,
      exec (.hedgeScore n) s = .next t ∧
      t = { s with agg := { s.agg with p := t.agg.p, det := t.agg.det, hdg := t.agg.hdg } } ∧
      t.agg.hdg = { s.agg.hdg with queue := rest, free := s.agg.hdgStart q + 5 * hdgLanes q.copy.bytes } ∧
      s.agg.hdgStart q + 5 * hdgCycles q.copy.bytes ≤ 6 * t.agg.p.nowNs ∧ (t.agg.dieDet q.die).run = some w ∧
      (∀ v, hdgScore q.copy.bytes q.vec = some v → w.get d = v) ∧ w.hedge = none ∧ w.pc = r.pc + 1 ∧
      w.cycles = r.cycles + s.agg.hdgWait q (hdgCycles q.copy.bytes) ∧ w.flags = r.flags ∧
      (∀ k, k ≠ q.die → t.agg.dieDet k = s.agg.dieDet k) ∧
      t.agg.reg HDG_REQ_COUNT_REQUESTS = min (s.agg.reg HDG_REQ_COUNT_REQUESTS + 1) (2 ^ 48 - 1) ∧
      t.agg.reg HDG_EVAL_COUNT_TREES =
        min (s.agg.reg HDG_EVAL_COUNT_TREES + pkgTrees q.copy.bytes) (2 ^ 64 - 1) ∧
      (0 < n → t.agg.reg HDG_EVENT_SRAM_CE = 1 ∧
        t.agg.reg HDG_ERR_COUNT_CE = min (s.agg.reg HDG_ERR_COUNT_CE + n) (2 ^ 16 - 1))) ∧
    (∀ flags, (s.agg.cfg HDG_CFG_EN ≠ 0 ∧ s.agg.domOn 0x0C = true ∧ s.agg.hdgState q.model = 5 ∧ flags = 128 ∨
      (s.agg.cfg HDG_CFG_EN = 0 ∨ s.agg.domOn 0x0C = false) ∧ flags = 0) → ∃ t w, exec (.hedgeScore n) s = .next t ∧
      t = { s with agg := { s.agg with p := t.agg.p, det := t.agg.det, hdg := t.agg.hdg } } ∧
      t.agg.hdg = { s.agg.hdg with queue := rest } ∧ s.agg.hdgStart q ≤ 6 * t.agg.p.nowNs ∧
      (t.agg.dieDet q.die).run = some w ∧ w.get d = 0 ∧ w.hedge = none ∧ w.pc = r.pc + 1 ∧
      w.cycles = r.cycles + s.agg.hdgWait q 0 ∧ w.flags = r.flags ||| flags ∧
      (∀ k, k ≠ q.die → t.agg.dieDet k = s.agg.dieDet k) ∧ (flags = 128 → t.agg.reg HDG_EVENT_MISSING_REQ = 1) ∧
      t.agg.reg HDG_ERR_COUNT_MISSING = min (s.agg.reg HDG_ERR_COUNT_MISSING + 1) (2 ^ 16 - 1))) ∧
  (∀ n, s.agg.hdg.queue = [] ∨ s.agg.gasp = true → exec (.hedgeScore n) s = .next s) ∧
  (∀ (m : Fin 16) h, s.agg.hdg.slot.get m = h → s.agg.hdgState m = 1 → h.prev < 8 →
    (∀ f, (s.agg.pkgAt h.addr h.crc = none ∧ f = HDG_EVENT_LOAD_REFUSED ∨
      (∃ l, s.agg.pkgAt h.addr h.crc = some l ∧ s.agg.bankPlace (pkgBank l) = none) ∧ f = HDG_EVENT_NO_SPACE) →
      ∃ t, exec (.modelLoaded m) s = .next t ∧ t = { s with agg := t.agg } ∧ t.agg.hdgState m = h.prev ∧
        t.agg.reg f = 1 ∧ (h.op = none → h.again = [] →
          t = { s with agg := { s.agg with p := t.agg.p, hdg := t.agg.hdg } } ∧ t.agg.hdg.slot.get m = h ∧
          t.agg.reg HDG_ERR_COUNT_REFUSED = min (s.agg.reg HDG_ERR_COUNT_REFUSED + 1) (2 ^ 16 - 1))) ∧
    (∀ l off, s.agg.pkgAt h.addr h.crc = some l → s.agg.bankPlace (pkgBank l) = some off →
      (h.op = none → s.agg.jrnReady = false → exec (.modelLoaded m) s = .next s) ∧
      (∀ op, h.op = some op → s.agg.beginMirrored op = false → exec (.modelLoaded m) s = .next s) ∧
      (∀ op, h.op = some op → s.agg.beginMirrored op = true → h.actTick ≠ 0 → s.agg.tickNs h.actTick ≤ s.agg.p.nowNs →
        ∃ t, exec (.modelLoaded m) s = .next t ∧ t = { s with agg := t.agg } ∧ t.agg.hdgState m = h.prev ∧
          t.agg.reg HDG_EVENT_SWAP_LATE = 1) ∧
      (∀ op, h.op = some op → s.agg.beginMirrored op = true →
        (h.actTick = 0 ∨ s.agg.p.nowNs < s.agg.tickNs h.actTick) → ∃ t c, exec (.modelLoaded m) s = .next t ∧
          t = { s with agg := { s.agg with
            p := t.agg.p, hdg := t.agg.hdg, flt := t.agg.flt, rprQueue := t.agg.rprQueue } } ∧
          s.agg.mapped t.agg ∧ t.agg.hdgState m = 2 ∧
          t.agg.hdg.slot.get m = { h with next := some c, actTick := (t.agg.hdg.slot.get m).actTick } ∧
          (h.actTick ≠ 0 → (t.agg.hdg.slot.get m).actTick = h.actTick) ∧
          (h.actTick = 0 → (t.agg.hdg.slot.get m).actTick = s.agg.p.nowNs / (s.agg.p.tick.us * 1000) + 1) ∧
          c = { crc := h.crc, addr := h.addr, bytes := l, off := off, size := pkgBank l } ∧
          ∀ k, k ≠ (m : Nat) → t.agg.hdg.slot.get k = s.agg.hdg.slot.get k))) ∧
  (∀ m : Fin 16, s.agg.hdgState m ≠ 1 → exec (.modelLoaded m) s = .next s) ∧
  (∀ (m : Fin 16) h, s.agg.hdg.slot.get m = h →
    (s.agg.hdgState m = 2 → ∃ t, exec (.modelActivate m) s = .next t ∧ t = { s with agg := t.agg } ∧
      (t.agg.hdgState m = if h.cur = none then 3 else 4) ∧ (h.op = none → h.again = [] →
        t = { s with agg := { s.agg with p := t.agg.p, hdg := t.agg.hdg } } ∧ s.agg.tickNs h.actTick ≤ t.agg.p.nowNs ∧
        t.agg.hdg.slot.get m = { h with
          cur := h.next, next := none, kept := h.cur, swapTick := (t.agg.hdg.slot.get m).swapTick } ∧
        (h.actTick ≠ 0 → (t.agg.hdg.slot.get m).swapTick = h.actTick))) ∧
    (s.agg.hdgState m = 1 → h.prev < 8 → h.actTick ≠ 0 → ∃ t, exec (.modelActivate m) s = .next t ∧
      t = { s with agg := t.agg } ∧ t.agg.hdgState m = h.prev ∧ t.agg.reg HDG_EVENT_SWAP_LATE = 1 ∧
      (h.op = none → h.again = [] → t = { s with agg := { s.agg with p := t.agg.p, hdg := t.agg.hdg } } ∧
        s.agg.tickNs h.actTick ≤ t.agg.p.nowNs ∧ t.agg.hdg.slot.get m = h)) ∧
    (∀ n, s.agg.hdgState m = 3 → h.emptyAt = some n → ∃ t, exec (.modelActivate m) s = .next t ∧
      t = { s with agg := { s.agg with p := t.agg.p, hdg := t.agg.hdg } } ∧ s.agg.tickNs n ≤ t.agg.p.nowNs ∧
      t.agg.hdgState m = 0 ∧ t.agg.hdg.slot.get m = { h with cur := none, emptyAt := none }) ∧
    (s.agg.hdgState m = 0 ∨ s.agg.hdgState m = 1 ∧ h.actTick = 0 ∨ s.agg.hdgState m = 3 ∧ h.emptyAt = none ∨
      4 ≤ s.agg.hdgState m → exec (.modelActivate m) s = .next s)) ∧
  (∀ (m : Fin 16) h, s.agg.hdg.slot.get m = h →
    ((s.agg.hdgState m ≠ 4 ∨ ∃ q ∈ s.agg.hdg.queue, q.model = (m : Nat) ∧ some q.copy = h.kept) →
      exec (.retainEnd m) s = .next s) ∧
    (s.agg.hdgState m = 4 → (∀ q ∈ s.agg.hdg.queue, q.model = (m : Nat) → some q.copy ≠ h.kept) →
      ∃ t, exec (.retainEnd m) s = .next t ∧ t = { s with agg := { s.agg with p := t.agg.p, hdg := t.agg.hdg } } ∧
        s.agg.tickNs (h.swapTick + s.agg.cfg HDG_CFG_RETAIN_TICKS) ≤ t.agg.p.nowNs ∧ t.agg.hdgState m = 3 ∧
        t.agg.hdg.slot.get m = { h with kept := none })) ∧
  (∀ (m : Fin 16) h, s.agg.hdg.slot.get m = h →
    (h.copies = [] ∧ (∀ q ∈ s.agg.hdg.queue, q.model ≠ (m : Nat)) ∨ s.agg.hdgState m = 5 →
      exec (.sramUe m) s = .next s) ∧
    (h.copies ≠ [] ∨ (∃ q ∈ s.agg.hdg.queue, q.model = (m : Nat)) → s.agg.hdgState m ≠ 5 → h.op = none →
      h.again = [] → ∃ t, exec (.sramUe m) s = .next t ∧
      t = { s with agg := { s.agg with p := t.agg.p, det := t.agg.det, hdg := t.agg.hdg } } ∧
      t.agg.reg HDG_EVENT_SRAM_UE = 1 ∧
      t.agg.reg HDG_ERR_COUNT_UE = min (s.agg.reg HDG_ERR_COUNT_UE + 1) (2 ^ 16 - 1) ∧
      (s.agg.hdgState m ≤ 1 ∨ (∃ q, s.agg.hdg.queue.find? (fun q => q.model = (m : Nat)) = some q ∧ q.copy ∉ h.copies) →
        t.agg.hdgState m = s.agg.hdgState m ∧ t.agg.hdg.slot = s.agg.hdg.slot) ∧
      (2 ≤ s.agg.hdgState m →
        (∀ q, s.agg.hdg.queue.find? (fun q => q.model = (m : Nat)) = some q → q.copy ∈ h.copies) →
        t.agg.hdgState m = 5 ∧ t.agg.hdg.slot.get m =
          { h with cur := if h.cur.isSome then h.cur else h.next, next := none, kept := none }) ∧
      ((∀ q ∈ s.agg.hdg.queue, q.model ≠ (m : Nat)) ∨ s.agg.gasp = true →
        t.agg.det = s.agg.det ∧ t.agg.hdg.queue = s.agg.hdg.queue ∧ t.agg.hdg.free = s.agg.hdg.free) ∧
      (∀ q rest r d, s.agg.gasp = false → s.agg.hdg.queue = q :: rest → q.model = (m : Nat) →
        (s.agg.dieDet q.die).run = some r → r.hedge = some d → r.core = none →
        t.agg.hdg.queue = rest ∧ t.agg.hdg.free = s.agg.hdgStart q + 5 * hdgLanes q.copy.bytes ∧
        ∃ w, (t.agg.dieDet q.die).run = some w ∧ w.get d = 0 ∧ w.hedge = none ∧ w.pc = r.pc + 1 ∧
          w.cycles = r.cycles + s.agg.hdgWait q (hdgCycles q.copy.bytes) ∧ w.flags = r.flags ∧
          t.agg.reg HDG_ERR_COUNT_MISSING = min (s.agg.reg HDG_ERR_COUNT_MISSING + 1) (2 ^ 16 - 1)))) ∧
  (∀ (m : Fin 16) h, s.agg.hdg.slot.get m = h →
    (s.agg.hdgState m ≠ 5 ∨ h.cur = none → exec (.reloaded m) s = .next s) ∧
    (∀ c, s.agg.hdgState m = 5 → h.cur = some c →
      (∀ l, s.agg.pkgAt c.addr c.crc = some l → ∃ t, exec (.reloaded m) s = .next t ∧ t = { s with agg := t.agg } ∧
        t.agg.hdgState m = 3 ∧ t.agg.reg HDG_EVENT_RELOADED = 1 ∧ s.agg.mapped t.agg ∧ (h.op = none → h.again = [] →
          t = { s with agg := { s.agg with
            p := t.agg.p, hdg := t.agg.hdg, flt := t.agg.flt, rprQueue := t.agg.rprQueue } } ∧
          t.agg.hdg.slot.get m = { h with cur := some { c with bytes := l } })) ∧
      (s.agg.pkgAt c.addr c.crc = none → ∃ t, exec (.reloaded m) s = .next t ∧ t = { s with agg := t.agg } ∧
        t.agg.hdgState m = 0 ∧ t.agg.reg HDG_EVENT_LOAD_REFUSED = 1 ∧ (h.op = none → h.again = [] →
          t = { s with agg := { s.agg with p := t.agg.p, hdg := t.agg.hdg } } ∧
          t.agg.hdg.slot.get m = { h with cur := none } ∧
          t.agg.reg HDG_ERR_COUNT_REFUSED = min (s.agg.reg HDG_ERR_COUNT_REFUSED + 1) (2 ^ 16 - 1)))))

/-- The Verifier's arrays (R325, R336, R344, R347 to R352, R481): an array takes a job, at once or at its pass boundary,
with the predictor jobs batched with it; the results of a pass leave it; jobs age; operand errors discard a pass once;
self-tests are queued and compared; an array is retired and tested again; and the previous profile table goes. Where the
spec is open, the clauses rest on the model's reading (log entries 71, 74, 75, 76 and 77). -/
def Obligations.VerifierHasItsEffect : Prop := ∀ s : State,
  (∀ x : Fin 8, s.agg.allPlaced →
    (∀ j, s.agg.safe = false → s.agg.gasp = false → (s.agg.vrf.arr.get x).repair = none → s.agg.jobFor x = some j →
      s.agg.computes j →
      ((s.agg.vrf.arr.get x).job = none → ∃ t, exec (.passStart x) s = .next t ∧
        t = { s with agg := { s.agg with
          p := t.agg.p, vrf := t.agg.vrf, flt := t.agg.flt, rprQueue := t.agg.rprQueue } } ∧
        s.agg.mapped t.agg ∧ t.agg.p.now = s.agg.p.now ∧
        s.agg.took t.agg x j (s.agg.vrf.arr.get x).drain) ∧
      (∀ p, (s.agg.vrf.arr.get x).job = some p → s.agg.inService x = true →
        bitAt (s.agg.cfg VRF_CFG_ARR_EN) x = true → s.agg.domOn x = true → ∃ t, exec (.passStart x) s = .next t ∧
        t = { s with agg := { s.agg with
          p := t.agg.p, vrf := t.agg.vrf, flt := t.agg.flt, rprQueue := t.agg.rprQueue } } ∧ s.agg.mapped t.agg ∧
        p.startNs + s.agg.arrNs x (s.agg.jobCycles p.job) ≤ t.agg.p.nowNs ∧
        s.agg.took t.agg x j ((s.agg.vrf.arr.get x).drain ++ [p]))) ∧
    ((s.agg.safe = true ∨ s.agg.gasp = true ∨ (s.agg.vrf.arr.get x).repair.isSome = true ∨ s.agg.jobFor x = none) →
      ∃ t, exec (.passStart x) s = .next t ∧ t = { s with agg := { s.agg with p := t.agg.p } } ∧
        t.agg.p = { s.agg.p with regs := t.agg.p.regs })) ∧
  (∀ (x : Fin 8) f p rest, (s.agg.vrf.arr.get x).passes = p :: rest → ∃ t, exec (.passEnd x f) s = .next t ∧
    t = { s with agg := t.agg } ∧ p.startNs + s.agg.arrNs x (s.agg.jobCycles p.job + 1024) ≤ t.agg.p.nowNs ∧
    t.agg.reg VRF_WORK_COUNT_PASSES = min (s.agg.reg VRF_WORK_COUNT_PASSES + 1) (2 ^ 32 - 1)) ∧
  (∀ (x : Fin 8) f p rest, (s.agg.vrf.arr.get x).passes = p :: rest → p.more = [] →
    (s.agg.vrf.arr.get x).repair = none → s.agg.allPlaced → s.agg.inService x = true →
    bitAt (s.agg.cfg VRF_CFG_ARR_EN) x = true → s.agg.domOn x = true →
    (∀ slot tick l, p.job.work = .predict slot tick l → ∃ t, exec (.passEnd x f) s = .next t ∧
      t = { s with agg := { s.agg with p := t.agg.p, vrf := t.agg.vrf } } ∧
      p.startNs + s.agg.arrNs x (s.agg.jobCycles p.job + 1024) ≤ t.agg.p.nowNs ∧
      (t.agg.vrf.arr.get x).passes = rest ∧ t.agg.vrf.jobs = s.agg.vrf.jobs ∧
      (∀ outs, s.agg.predOutputs slot tick l = some outs → s.agg.tickWanted slot tick = true →
        (tick, outs) ∈ (t.agg.vrf.pred.get slot).outs) ∧
      (s.agg.predOutputs slot tick l = none ∨ s.agg.tickWanted slot tick = false → t.agg.vrf.pred = s.agg.vrf.pred) ∧
      t.agg.reg VRF_WORK_COUNT_PASSES = min (s.agg.reg VRF_WORK_COUNT_PASSES + 1) (2 ^ 32 - 1)) ∧
    (∀ q y, p.job.work = .selfTest q.id → s.agg.testOf q.id = some q → q.kind = 0 → q.results = [] →
      y ≠ (x : Nat) → q.arrays = [(x : Nat), y] → f.columns = [] → ∃ t, exec (.passEnd x f) s = .next t ∧
        t = { s with agg := { s.agg with p := t.agg.p, vrf := t.agg.vrf } } ∧
        (t.agg.vrf.arr.get x).passes = rest ∧ t.agg.testOf q.id = some { q with results := [((x : Nat), [])] } ∧
        t.agg.reg VRF_WORK_COUNT_PASSES = min (s.agg.reg VRF_WORK_COUNT_PASSES + 1) (2 ^ 32 - 1)) ∧
    (∀ q y, p.job.work = .selfTest q.id → s.agg.testOf q.id = some q → q.kind = 0 → q.results = [(y, [])] → y < 8 →
      y ≠ (x : Nat) → q.arrays = [y, (x : Nat)] → f.columns = [] → (∀ k ∈ s.agg.vrf.jobs, k.work ≠ .selfTest q.id) →
      ∃ t, exec (.passEnd x f) s = .next t ∧ t = { s with agg := { s.agg with p := t.agg.p, vrf := t.agg.vrf } } ∧
        (t.agg.vrf.arr.get x).passes = rest ∧ t.agg.testOf q.id = none ∧
        t.agg.reg (VRF_ARR_ST_RESULT x) = 1 ∧ t.agg.reg (VRF_ARR_ST_RESULT y) = 1)) ∧
  (∀ (x : Fin 8) f, (s.agg.vrf.arr.get x).passes = [] → exec (.passEnd x f) s = .next s) ∧
  (∀ j, (s.agg.vrf.jobs.find? fun k => k.id = j.id) = some j →
    (s.agg.cfg VRF_PRIO_AGE_US = 0 ∨ j.cls < 2 → exec (.jobAging j.id) s = .next s) ∧
    (s.agg.allPlaced → s.agg.cfg VRF_PRIO_AGE_US ≠ 0 → 2 ≤ j.cls →
    ∃ t, exec (.jobAging j.id) s = .next t ∧ t = { s with agg := { s.agg with p := t.agg.p, vrf := t.agg.vrf } } ∧
      j.sinceNs + s.agg.cfg VRF_PRIO_AGE_US * 1000 ≤ t.agg.p.nowNs ∧
      t.agg.vrf = { s.agg.vrf with jobs := s.agg.vrf.jobs.map fun k =>
        if k.id = j.id then { k with cls := k.cls - 1, aged := true, sinceNs := t.agg.p.nowNs } else k })) ∧
  (∀ n, (∀ j ∈ s.agg.vrf.jobs, j.id ≠ n) → exec (.jobAging n) s = .next s) ∧
  (∀ x : Fin 8, ∃ t, exec (.operandUe x true) s = .next t ∧ t = { s with agg := { s.agg with p := t.agg.p } } ∧
    s.agg.p.onlyEvents t.agg.p [VRF_ERR_COUNT_OPERAND_CE, VRF_EVENT_OPERAND_CE] [0x0904] ∧
    t.agg.reg VRF_ERR_COUNT_OPERAND_CE = min (s.agg.reg VRF_ERR_COUNT_OPERAND_CE + 1) (2 ^ 16 - 1)) ∧
  (∀ x : Fin 8,
    ((s.agg.vrf.arr.get x).job = none → ∃ t, exec (.operandUe x false) s = .next t ∧
      t = { s with agg := { s.agg with p := t.agg.p } } ∧
      s.agg.p.onlyEvents t.agg.p [VRF_ERR_COUNT_OPERAND_UE, VRF_EVENT_OPERAND_UE] [0x0905]) ∧
    (∀ p, (s.agg.vrf.arr.get x).job = some p → ∃ t l, exec (.operandUe x false) s = .next t ∧
      t = { s with agg := t.agg } ∧ t.agg.reg VRF_EVENT_OPERAND_UE = 1 ∧
      t.agg.p.col.notified = s.agg.p.col.notified ++ l ∧ (l.head?.map (·.source)) = some 0x0905 ∧
      t.agg.reg VRF_ERR_COUNT_OPERAND_UE = min (s.agg.reg VRF_ERR_COUNT_OPERAND_UE + 1) (2 ^ 16 - 1)) ∧
    (∀ p, (s.agg.vrf.arr.get x).job = some p → (∀ k ∈ p.job :: p.more, k.again = false) →
      (s.agg.vrf.arr.get x).repair = none → s.agg.reg (VRF_ARR_STATUS_STATE x) ≠ 2 → s.agg.allPlaced →
      ∃ t q, exec (.operandUe x false) s = .next t ∧
        t = { s with agg := { s.agg with p := t.agg.p, vrf := t.agg.vrf } } ∧ t.agg.p.now = s.agg.p.now ∧
        t.agg.vrf.arr.get x = { s.agg.vrf.arr.get x with job := some q } ∧ q.job = { p.job with again := true } ∧
        q.startNs = s.agg.p.nowNs ∧ q.more = p.more.map ({ · with again := true }) ∧ t.agg.vrf.jobs = s.agg.vrf.jobs) ∧
    (∀ p, (s.agg.vrf.arr.get x).job = some p → (∀ k ∈ p.job :: p.more, ∃ u tick l, k.work = .predict u tick l) →
      (s.agg.vrf.arr.get x).repair = none → s.agg.reg (VRF_ARR_STATUS_STATE x) ≠ 2 → s.agg.allPlaced →
      (∀ k more, (p.job :: p.more).filter (! ·.again) = k :: more → ∃ t q, exec (.operandUe x false) s = .next t ∧
        t = { s with agg := { s.agg with p := t.agg.p, vrf := t.agg.vrf } } ∧
        t.agg.vrf.arr.get x = { s.agg.vrf.arr.get x with job := some q } ∧ q.job = { k with again := true } ∧
        q.startNs = s.agg.p.nowNs ∧ q.more = more.map ({ · with again := true }) ∧ t.agg.vrf.jobs = s.agg.vrf.jobs ∧
        t.agg.vrf.pred = s.agg.vrf.pred) ∧
      ((p.job :: p.more).filter (! ·.again) = [] → s.agg.inService x = true →
        bitAt (s.agg.cfg VRF_CFG_ARR_EN) x = true → s.agg.domOn x = true → ∃ t, exec (.operandUe x false) s = .next t ∧
        t = { s with agg := { s.agg with p := t.agg.p, vrf := t.agg.vrf } } ∧
        t.agg.vrf.arr.get x = { s.agg.vrf.arr.get x with job := none } ∧ t.agg.vrf.jobs = s.agg.vrf.jobs ∧
        t.agg.vrf.pred = s.agg.vrf.pred)) ∧
    (∀ p id q, (s.agg.vrf.arr.get x).job = some p → p.job.work = .selfTest id → p.job.again = true → p.more = [] →
      s.agg.testOf id = some q → q.kind = 1 → ∃ t, exec (.operandUe x false) s = .next t ∧
        t.agg.reg (VRF_ARR_STATUS_STATE q.target) = 2)) ∧
  (∀ x : Fin 8, s.agg.allPlaced → s.agg.inService x = true →
    (∀ y rest, s.agg.nextArrays x [] = y :: rest →
      (∀ per, per = s.agg.cfg VRF_ST_CFG_ST_PERIOD_MS * 1000000 → per ≠ 0 → ∃ t, exec (.selfTestDue x) s = .next t ∧
        t = { s with agg := { s.agg with p := t.agg.p, vrf := t.agg.vrf } } ∧ s.agg.p.nowNs ≤ t.agg.p.nowNs ∧
        t.agg.p.nowNs < s.agg.p.nowNs + per ∧ (x : Nat) * per / 8 ≤ t.agg.p.nowNs ∧
        (t.agg.p.nowNs - (x : Nat) * per / 8) % per = 0 ∧ s.agg.tested t.agg x [(x : Nat), y] 0) ∧
      (s.agg.reg CFG_STATUS_STATE ≠ 5 → ∃ t, exec (.selftest x) s = .next t ∧
        t = { s with agg := { s.agg with p := t.agg.p, vrf := t.agg.vrf } } ∧ t.agg.p.now = s.agg.p.now ∧
        s.agg.tested t.agg x [(x : Nat), y] 0)) ∧
    (s.agg.nextArrays x [] = [] → s.agg.reg CFG_STATUS_STATE ≠ 5 → ∃ t, exec (.selftest x) s = .next t ∧
      t = { s with agg := { s.agg with p := t.agg.p } } ∧ t.agg.reg VRF_EVENT_ST_ALONE = 1)) ∧
  (∀ x : Fin 8, s.agg.cfg VRF_ST_CFG_ST_PERIOD_MS = 0 → exec (.selfTestDue x) s = .next s) ∧
  (∀ (x : Fin 8) y z rest, s.agg.reg CFG_STATUS_STATE ≠ 5 → s.agg.reg (VRF_ARR_STATUS_STATE x) = 2 →
    s.agg.nextArrays x [] = y :: z :: rest → s.agg.allPlaced →
    (∀ q ∈ s.agg.vrf.tests, q.id ≠ s.agg.vrf.nextTest) → ∃ t, exec (.retest x) s = .next t ∧
      t = { s with agg := { s.agg with p := t.agg.p, vrf := t.agg.vrf } } ∧ t.agg.reg (VRF_ARR_STATUS_STATE x) = 2 ∧
      s.agg.tested t.agg x [(x : Nat), y, z] 2) ∧
  (∀ x : Fin 8, s.agg.reg CFG_STATUS_STATE ≠ 5 → s.agg.reg (VRF_ARR_STATUS_STATE x) ≠ 2 → ∃ t,
    exec (.retire x) s = .next t ∧ t = { s with agg := t.agg } ∧ t.agg.reg (VRF_ARR_STATUS_STATE x) = 2 ∧
    t.agg.reg VRF_EVENT_ARR_RETIRED = 1 ∧ ∀ n ∈ s.agg.rerunsOf x, t.agg.testOf n = none) ∧
  (∀ x : Fin 8, s.agg.reg CFG_STATUS_STATE ≠ 5 → s.agg.reg (VRF_ARR_STATUS_STATE x) ≠ 2 →
    (s.agg.vrf.arr.get x).since = [] → s.agg.rerunsOf x = [] →
    (∀ k, k ∈ s.agg.vrf.jobs ∨ (∃ p ∈ (s.agg.vrf.arr.get x).passes, k ∈ p.job :: p.more) →
      ∃ y, y < 8 ∧ y ≠ (x : Nat) ∧ s.agg.eligible k y = true) →
    ∃ t, exec (.retire x) s = .next t ∧
      t = { s with agg := { s.agg with p := t.agg.p, vrf := t.agg.vrf, rprQueue := t.agg.rprQueue } } ∧
      t.agg.reg (VRF_ARR_STATUS_STATE x) = 2 ∧ t.agg.reg VRF_EVENT_ARR_RETIRED = 1 ∧
      t.agg.vrf.arr.get x = { s.agg.vrf.arr.get x with job := none, drain := [], repair := none } ∧
      t.agg.vrf.jobs = ((s.agg.vrf.arr.get x).passes.flatMap fun p => p.job :: p.more) ++ s.agg.vrf.jobs ∧
      (∃ e, t.agg.rprQueue = s.agg.rprQueue ++ [e] ∧ e.etype = 3 ∧ e.unit = (x : Nat)) ∧
      ∀ y, y ≠ (x : Nat) → y < 8 → t.agg.reg (VRF_ARR_STATUS_STATE y) = s.agg.reg (VRF_ARR_STATUS_STATE y)) ∧
  (∀ x : Fin 8, s.agg.reg CFG_STATUS_STATE = 5 →
    exec (.selftest x) s = .next s ∧ exec (.retest x) s = .next s ∧ exec (.retire x) s = .next s) ∧
  ((s.agg.prevNeeded = true → exec .prevTableRelease s = .next s) ∧
    (s.agg.prevNeeded = false → ∃ t, exec .prevTableRelease s = .next t ∧
      t = { s with agg := { s.agg with p := t.agg.p, vrf := { s.agg.vrf with profPrev := none } } } ∧
      s.agg.p.onlyRegs t.agg.p [VRF_STATUS_PREV_TABLE] ∧ t.agg.reg VRF_STATUS_PREV_TABLE = 0))

/-! ### Silent errors (11) -/

/-- Checks, replays and decisions (R355, R356, R364, R365, R369, R372, R378): a tile is taken for its check, a case is
replayed and classified by its signatures, an epoch is decided or held, and a restore without an answer ends. Where the
spec is open, the clauses rest on the model's reading (log entries 73, 78, 80, 82 and 83). -/
def Obligations.SilentErrorsAreFoundAndDecided : Prop := ∀ (s : State) (slot : Fin 16) (die : Nat),
  s.agg.dieOfSlot slot = some die →
  (∀ w rest tag x k, s.agg.cfgOn SE_CFG_EN = true → s.agg.tagsHeld slot < s.agg.cfg SE_TAG_CFG_DIE_TAGS →
    s.agg.reg (SE_DIE_STATUS_STATE slot) ≠ 1 → k < 16 → (s.agg.se.turn + k) % 16 = slot →
    (∀ i, i < k → s.agg.tileMayTake ((s.agg.se.turn + i) % 16) = false) →
    (s.agg.seDie slot).wait = w :: rest → s.agg.freeTag = some tag → s.agg.allPlaced → x < 8 →
    s.agg.inService x = true → ∃ t j c, exec (.tileCheckDispatch slot) s = .next t ∧ t = { s with agg := t.agg } ∧
      (t.agg.seDie slot).wait = rest ∧ t.agg.vrf.jobs = s.agg.vrf.jobs ++ [j] ∧ j.work = .tile tag ∧
      j.cls = s.agg.cfg VRF_PRIO_VERIFY_CLASS ∧ j.mask = 0 ∧ t.agg.vrf.checks = s.agg.vrf.checks ++ [c] ∧ c.tag = tag ∧
      c.die = die ∧ c.epoch = w.epoch ∧ c.captureSeq = w.captureSeq ∧ c.endNs = w.endNs ∧ c.passes = [] ∧
      t.agg.se.turn = ((slot : Nat) + 1) % 16 ∧ (w.bytes ≠ [] → c.bytes = w.bytes)) ∧
  (s.agg.cfgOn SE_CFG_EN = false ∨ s.agg.cfg SE_TAG_CFG_DIE_TAGS ≤ s.agg.tagsHeld slot ∨ (s.agg.seDie slot).wait = [] ∨
    s.agg.reg (SE_DIE_STATUS_STATE slot) = 1 ∨ s.agg.freeTag = none ∨
    (∃ i, i < ((slot : Nat) + 16 - s.agg.se.turn % 16) % 16 ∧
      s.agg.tileMayTake ((s.agg.se.turn + i) % 16) = true) → exec (.tileCheckDispatch slot) s = .next s) ∧
  ((s.agg.seDie slot).rpl = none → (∀ e ∈ s.agg.shed.left, e.1.kind ≠ 0xA) →
    (∀ c, ((s.agg.seDie slot).cases.find? fun c => c.tile && c.bytes ≠ []) = some c →
      (s.agg.cfgOn SE_RPL_CFG_AUTO = true → s.agg.jrnReady = true → ∃ t, exec (.replayAutoOpen slot) s = .next t ∧
        t = { s with agg := t.agg } ∧ (t.agg.seDie slot).rpl = some {
          caseSeq := c.seq, op := s.agg.reg SHED_JRN_NEXT_OP, runs := s.agg.cfg SE_RPL_CFG_RUNS } ∧
        t.agg.shed.begun = s.agg.shed.begun ++ [s.agg.reg SHED_JRN_NEXT_OP]) ∧
      (s.agg.cfgOn SE_RPL_CFG_AUTO = false ∨ s.agg.jrnReady = false → exec (.replayAutoOpen slot) s = .next s)) ∧
    ((∀ c ∈ (s.agg.seDie slot).cases, c.tile = false ∨ c.bytes = []) → exec (.replayAutoOpen slot) s = .next s)) ∧
  (∀ r c, (s.agg.seDie slot).rpl = some r → (s.agg.seDie slot).rplCase = some c →
    (r.phase = 0 → s.agg.beginMirrored r.op = true → ∃ t, exec (.replayAutoOpen slot) s = .next t ∧
      t = { s with agg := { s.agg with p := t.agg.p, die := t.agg.die, se := t.agg.se } } ∧
      (t.agg.seDie slot).rpl = some { r with phase := 1 }) ∧
    (r.phase ≠ 0 ∨ s.agg.beginMirrored r.op = false → exec (.replayAutoOpen slot) s = .next s)) ∧
  (∀ r c, (s.agg.seDie slot).rpl = some r → (s.agg.seDie slot).rplCase = some c →
    (r.phase ≠ 3 → ∀ ws, exec (.replayPoll slot ws) s = .next s) ∧
    (r.phase = 3 → ∃ t, exec (.replayPoll slot []) s = .next t ∧
      t = { s with agg := { s.agg with p := t.agg.p, die := t.agg.die } }) ∧
    (∀ w ws n ok kind, r.phase = 3 → n = min (w / 8 % 8) (ws.length / 2) →
      ok = ((List.range n).filter fun i => !bitAt w (56 + i)).map (fun i => (ws[2 * i]?).getD 0 % 2 ^ 32) →
      (w % 8 ≠ 4 ∨ ok = [] → ∃ t q, exec (.replayPoll slot (w :: ws)) s = .next t ∧
        t = { s with agg := { s.agg with p := t.agg.p, se := t.agg.se } } ∧
        s.agg.p.onlyRegs t.agg.p [SE_DIE_STATUS_RPL_STATE slot] ∧ t.agg.reg (SE_DIE_STATUS_RPL_STATE slot) = w % 8 ∧
        (t.agg.seDie slot).rpl = some { r with sigs := q } ∧ q.length = n ∧
        ∀ i, i < n → q[i]? = some ((ws[2 * i]?).getD 0 % 2 ^ 32, !bitAt w (56 + i))) ∧
      (w % 8 = 4 → (c.hostCrc ∈ ok ∧ kind = 0xB ∨
          c.hostCrc ∉ ok ∧ ok ≠ [] ∧ (∀ v ∈ ok, v = c.refCrc ∨ c.bound = true) ∧ kind = 0xA ∨
          c.hostCrc ∉ ok ∧ (∃ v ∈ ok, v ≠ c.refCrc ∧ c.bound = false) ∧ kind = 0xC) →
        ∃ t v, exec (.replayPoll slot (w :: ws)) s = .next t ∧ t = { s with agg := t.agg } ∧
          (t.agg.seDie slot).rpl = none ∧ t.agg.reg (SE_DIE_STATUS_RPL_STATE slot) = 0 ∧
          (t.agg.seDie slot).cases = (s.agg.seDie slot).cases.filter (fun x => x.seq ≠ c.seq) ∧
          (t.agg.dieDet slot).held.getLast? = some v ∧ v.kind = kind)) ∧
    (r.phase ≠ 3 → exec (.rplExpired slot) s = .next s) ∧
    (r.phase = 3 → ∃ t v, exec (.rplExpired slot) s = .next t ∧ t = { s with agg := t.agg } ∧
      (t.agg.seDie slot).rpl = none ∧ r.startNs + s.agg.cfg SE_RPL_CFG_WAIT_MS * 1000000 ≤ t.agg.p.nowNs ∧
      (t.agg.seDie slot).cases = (s.agg.seDie slot).cases.filter (fun x => x.seq ≠ c.seq) ∧
      (t.agg.dieDet slot).held.getLast? = some v ∧
      ((∀ x ∈ r.sigs, x.2 = false) → v.kind = 0xD ∧ t.agg.reg SE_EVENT_RPL_EXPIRED = 1) ∧
      ((∃ x ∈ r.sigs, x.2 = true ∧ x.1 = c.hostCrc) → v.kind = 0xB))) ∧
  (∀ c, ((s.agg.seDie slot).cases.find? fun c => !c.tile) = some c → ∃ t v, exec (.ftRetestExpired slot) s = .next t ∧
    t = { s with agg := t.agg } ∧ (t.agg.seDie slot).cases = (s.agg.seDie slot).cases.filter (fun x => x.seq ≠ c.seq) ∧
    c.forceNs + s.agg.cfg SE_RPL_CFG_WAIT_MS * 1000000 ≤ t.agg.p.nowNs ∧
    (t.agg.dieDet slot).held.getLast? = some v ∧ v.kind = 0xD) ∧
  ((∀ c ∈ (s.agg.seDie slot).cases, c.tile = true) → exec (.ftRetestExpired slot) s = .next s) ∧
  (∀ e later, ((s.agg.epochsBegan slot).seDie slot).epochs = e :: later →
    ((s.agg.epochsBegan slot).epochReady slot = true → ∃ t, exec (.epochDecision slot) s = .next t ∧
      t = { s with agg := t.agg } ∧ e ∈ (t.agg.seDie slot).past ∧
      ((∃ x ∈ (s.agg.seDie slot).taints, epIn x.1 x.2 e = true) →
        (t.agg.seDie slot).recs = (s.agg.seDie slot).recs) ∧
      ((∀ x ∈ (s.agg.seDie slot).taints, epIn x.1 x.2 e = false) →
        (t.agg.seDie slot).dseq = (s.agg.seDie slot).dseq + 1 ∧ ∃ r, (t.agg.seDie slot).recs.getLast? = some r ∧
          r.first = e ∧ r.dseq = (s.agg.seDie slot).dseq ∧
          r.flags = if s.agg.cfg SE_CFG_MIN_TILES ≤ ((s.agg.seDie slot).counts.get e).1 ∧
            ((s.agg.seDie slot).counts.get e).2 = 0 then 0 else 2)) ∧
    ((s.agg.epochsBegan slot).epochReady slot = false →
      exec (.epochDecision slot) s = .next { s with agg := s.agg.epochsBegan slot }) ∧
    (s.agg.cfgOn SE_CFG_EN = true → s.agg.reg (SE_DIE_STATUS_STATE slot) = 2 → (s.agg.seDie slot).cases = [] →
      ∃ t, exec (.epochHold slot) s = .next t ∧ t = { s with agg := t.agg } ∧ e ∈ (t.agg.seDie slot).past ∧
      ((∃ x ∈ (s.agg.seDie slot).taints, epIn x.1 x.2 e = true) →
        (t.agg.seDie slot).recs = (s.agg.seDie slot).recs) ∧
      ((∀ x ∈ (s.agg.seDie slot).taints, epIn x.1 x.2 e = false) → ∃ r v,
        (t.agg.seDie slot).recs.getLast? = some r ∧ r.first = e ∧ r.last = e ∧ r.flags = 2 ∧
        t.agg.reg SE_EVENT_STARVED = 1 ∧ t.agg.reg SE_EVENT_UNVERIFIED = 1 ∧
        (t.agg.dieDet slot).held.getLast? = some v ∧ v.kind = 0xE))) ∧
  (∀ f, (s.agg.shed.fetches.find? fun f => f.use = .errors slot ∨ f.use = .tiles slot) = some f →
    ∃ t, exec (.seRestoreTimeout slot) s = .next t ∧ t = { s with agg := t.agg } ∧
    f.sentNs + 1000000 ≤ t.agg.p.nowNs ∧ t.agg.reg SE_EVENT_STARVED = 1 ∧ t.agg.reg (SE_DIE_STATUS_STATE slot) = 2 ∧
    (f.use = .errors slot → (s.agg.seDie slot).ftWait = [] → (s.agg.seDie slot).lift = none →
      t = { s with agg := { s.agg with p := t.agg.p, se := t.agg.se, shed := { s.agg.shed with
        fetches := s.agg.shed.fetches.filter fun g => g.qid ≠ f.qid } } } ∧
      (t.agg.seDie slot).counts = [] ∧ (t.agg.seDie slot).good = [] ∧
      (t.agg.seDie slot).cases = (s.agg.seDie slot).cases) ∧
    (f.use = .tiles slot → (∀ l ∈ s.agg.shed.fetched, (readDesc l).die ≠ some f.die) →
      ∀ c ∈ (t.agg.seDie slot).cases, c.tile = false)) ∧
  ((∀ f ∈ s.agg.shed.fetches, f.use ≠ .errors slot ∧ f.use ≠ .tiles slot) →
    exec (.seRestoreTimeout slot) s = .next s)

/-- Announcements (R371, R374 to R376, R382, R385, R481): taints, clears and Fleece records reach the host ring and their
recipients once they may, a taint goes again to a recipient that lacks it, an unacknowledged record goes again, and LIFT and
CLOSE_CASE act, but not in HELD. Where the spec is open, the clauses rest on the model's reading (log entries 79 and
81). -/
def Obligations.TaintsClearsAndFleece : Prop := ∀ (s : State) (slot : Fin 16) (die : Nat),
  s.agg.dieOfSlot slot = some die →
  (∀ r op entry, (∀ x ∈ (s.agg.seDie slot).recs, x.op.isSome = true ∨ x.dropped = true ∨ x.begun = true) → r.op = some op →
    (∀ d ∈ s.agg.det.deliv, d.op ≠ op) → s.agg.det.wait = [] →
    entry = epochEntry die (s.agg.paddockOf slot) r (s.agg.jrnOfOp op) →
    (((s.agg.seDie slot).recs.find? fun r => bitAt r.flags 0 && !r.begun && s.agg.epochMirrored die r) = some r →
      ∃ t, exec (.taintDelivery slot) s = .next t ∧ t = { s with agg := t.agg } ∧
      (t.agg.seDie slot).recs = (s.agg.seDie slot).recs.map (fun x =>
        if x.dseq = r.dseq then { x with begun := true } else x) ∧ t.agg.reg SE_EVENT_TAINT_SENT = 1 ∧
      (∀ (i : Nat) m, (s.agg.img.members.filter (· ≠ s.agg.id))[i]? = some m → s.agg.handed t.agg {
        rclass := 3, msgType := 1, dst := m, paddock := leAt entry 13 1, payload := entry, tag := delivTag op i }) ∧
      (s.agg.nqRoom = false → t.agg.det.wait = [.own op]) ∧
      (s.agg.nqRoom = true → ∃ e, t.agg.reg DET_NQ_TAIL_INDEX = (s.agg.reg DET_NQ_TAIL_INDEX + 1) % 2 ^ 32 ∧
        Sent.hostNotice (s.agg.reg DET_NQ_BASE_ADDR * 4096 + 64 * (s.agg.reg DET_NQ_TAIL_INDEX % s.agg.nqSize)) e
          ∈ t.agg.sent ∧ leAt e 0 1 = 3 ∧ e.length = 64 ∧
        e = withPhase entry (s.agg.reg DET_NQ_TAIL_INDEX) s.agg.nqSize)) ∧
    (((s.agg.seDie slot).recs.find? fun r => !bitAt r.flags 0 && !r.begun && !r.dropped) = some r →
      (s.agg.epochMirrored die r = true →
        (∀ x ∈ (s.agg.seDie slot).recs, bitAt x.flags 0 = true → r.dseq < x.dseq ∨ s.agg.taintDone die x = true) →
        ∃ t, exec (.clearDelivery slot) s = .next t ∧ t = { s with agg := t.agg } ∧
        (t.agg.seDie slot).recs = (s.agg.seDie slot).recs.map (fun x =>
          if x.dseq = r.dseq then { x with begun := true } else x) ∧
        (∀ (i : Nat) m, (s.agg.subscribers (s.agg.paddockOf slot) false)[i]? = some m → s.agg.handed t.agg {
          rclass := 3, msgType := 1, dst := m.agg, paddock := leAt entry 13 1, payload := entry, tag := delivTag op i }) ∧
        (s.agg.nqRoom = false → t.agg.det.wait = [.own op]) ∧
        (s.agg.nqRoom = true → ∃ e, t.agg.reg DET_NQ_TAIL_INDEX = (s.agg.reg DET_NQ_TAIL_INDEX + 1) % 2 ^ 32 ∧
          Sent.hostNotice (s.agg.reg DET_NQ_BASE_ADDR * 4096 + 64 * (s.agg.reg DET_NQ_TAIL_INDEX % s.agg.nqSize)) e
            ∈ t.agg.sent ∧ leAt e 0 1 = 4 ∧ e.length = 64 ∧
          e = withPhase entry (s.agg.reg DET_NQ_TAIL_INDEX) s.agg.nqSize)) ∧
      (s.agg.epochMirrored die r = false ∨ (∃ x ∈ (s.agg.seDie slot).recs, bitAt x.flags 0 = true ∧ x.dseq ≤ r.dseq ∧
        s.agg.taintDone die x = false) → exec (.clearDelivery slot) s = .next s))) ∧
  (∀ r recipient dseq, ((s.agg.seDie slot).recs.find? fun r => bitAt r.flags 0 && r.dseq = dseq) = some r →
    ((∀ x ∈ r :: (s.agg.seDie slot).recs.filter (fun c => !bitAt c.flags 0 && c.begun && c.lastTaint = dseq),
        s.agg.epochOp die x ≠ none) →
      ∃ t, exec (.needTaint slot recipient dseq) s = .next t ∧
      t = { s with agg := { s.agg with p := t.agg.p, fab := t.agg.fab } } ∧
      s.agg.p.onlyOffers t.agg.p [SE_EVENT_NEED_TAINT] ∧ t.agg.reg SE_EVENT_NEED_TAINT = 1 ∧
      ∀ x ∈ r :: (s.agg.seDie slot).recs.filter (fun c => !bitAt c.flags 0 && c.begun && c.lastTaint = dseq), ∀ j,
        s.agg.epochOp die x = some j → s.agg.handed t.agg {
          rclass := 3, msgType := 1, dst := recipient, paddock := s.agg.paddockOf slot
          payload := epochEntry die (s.agg.paddockOf slot) x j }) ∧
    (s.agg.epochOp die r = none → ∃ t, exec (.needTaint slot recipient dseq) s = .next t ∧
      t = { s with agg := { s.agg with p := t.agg.p, fab := t.agg.fab, se := t.agg.se } } ∧
      t.agg.reg SE_EVENT_NEED_TAINT = 1 ∧ ∀ x ∈ (t.agg.seDie slot).recs, x.dseq = dseq → x.begun = false)) ∧
  (∀ recipient dseq, (∀ r ∈ (s.agg.seDie slot).recs, bitAt r.flags 0 = true → r.dseq ≠ dseq) →
    exec (.needTaint slot recipient dseq) s = .next s) ∧
  (∀ f op rest entry, (s.agg.seDie slot).fleece = f :: rest → (∀ x ∈ f :: rest, x.op.isSome = true) → f.op = some op →
    entry = fleeceEntry die (s.agg.paddockOf slot) f (s.agg.jrnOfOp op) →
    ((f.copied = true ∨ s.agg.mirrored f.ring f.seq = true) → s.agg.beginMirrored op = true →
      (∀ d ∈ s.agg.det.deliv, d.op ≠ op) → s.agg.det.wait = [] → ∃ t, exec (.fleeceExport slot) s = .next t ∧
      t = { s with agg := t.agg } ∧ (t.agg.seDie slot).fleece = rest ∧
      (s.agg.cfgOn SE_FLEECE_CFG_DEST_EN = true → s.agg.handed t.agg {
        rclass := 3, msgType := 3, dst := s.agg.cfg SE_FLEECE_CFG_DEST, paddock := leAt entry 13 1, payload := f.body
        tag := delivTag op 0 }) ∧
      (∀ (i : Nat) m, (s.agg.subscribers (s.agg.paddockOf slot) false)[i]? = some m → s.agg.handed t.agg {
        rclass := 3, msgType := 1, dst := m.agg, paddock := leAt entry 13 1, payload := entry
        tag := delivTag op (if s.agg.cfgOn SE_FLEECE_CFG_DEST_EN then i + 1 else i) }) ∧
      (s.agg.nqRoom = true → ∃ e, t.agg.reg DET_NQ_TAIL_INDEX = (s.agg.reg DET_NQ_TAIL_INDEX + 1) % 2 ^ 32 ∧
        Sent.hostNotice (s.agg.reg DET_NQ_BASE_ADDR * 4096 + 64 * (s.agg.reg DET_NQ_TAIL_INDEX % s.agg.nqSize)) e
          ∈ t.agg.sent ∧ leAt e 0 1 = 6 ∧ e = withPhase entry (s.agg.reg DET_NQ_TAIL_INDEX) s.agg.nqSize)) ∧
    (f.copied = false ∧ s.agg.mirrored f.ring f.seq = false ∨ s.agg.beginMirrored op = false →
      exec (.fleeceExport slot) s = .next s)) ∧
  ((s.agg.seDie slot).fleece = [] → exec (.fleeceExport slot) s = .next s) ∧
  (∀ d i x, (s.agg.det.deliv.find? fun d => d.kind = 6 && d.slot = (slot : Nat) &&
      d.toAggs.any fun t => t.record && !t.acked && !t.gaveUp) = some d →
    s.agg.deliv d.op = some d → i = d.toAggs.findIdx (fun t => t.record) → d.toAggs[i]? = some x → x.acked = false →
    x.gaveUp = false → d.host ≠ 0 →
    (x.resends < 8 → ∃ t, exec (.fleeceResend slot) s = .next t ∧
      t = { s with agg := { s.agg with p := t.agg.p, det := t.agg.det, fab := t.agg.fab } } ∧
      s.agg.p.onlyOffers t.agg.p [] ∧
      (s.agg.atTimeOf t.agg).offered t.agg (.rycon {
        rclass := 3, msgType := 3, dst := x.agg, paddock := leAt d.entry 13 1, payload := d.body
        tag := delivTag d.op i }) ∧ x.sentNs + x.rtoUs * 1000 ≤ t.agg.p.nowNs ∧
      (t.agg.deliv d.op).bind (fun e => e.toAggs[i]?) =
        some { x with resends := x.resends + 1, sentNs := t.agg.p.nowNs }) ∧
    (8 ≤ x.resends → ∃ t, exec (.fleeceResend slot) s = .next t ∧ t = { s with agg := t.agg } ∧
      t.agg.reg SE_EVENT_FLEECE_UNACKED = 1 ∧ x.sentNs + x.rtoUs * 1000 ≤ t.agg.p.nowNs)) ∧
  ((∀ d ∈ s.agg.det.deliv, d.kind = 6 → d.slot = (slot : Nat) → ∀ x ∈ d.toAggs,
    x.record = false ∨ x.acked = true ∨ x.gaveUp = true) → exec (.fleeceResend slot) s = .next s) ∧
  (∀ l, s.agg.reg CFG_STATUS_STATE ≠ 5 → l = (s.agg.seDie slot).recs.filter (s.agg.seDie slot).isOpen →
    (s.agg.reg (SE_DIE_STATUS_STATE slot) ≠ 1 → ∃ t, exec (.seLift slot) s = .next t ∧ t = { s with agg := t.agg } ∧
      (t.agg.seDie slot).dseq = (s.agg.seDie slot).dseq + l.length ∧
      (l = [] → t = { s with agg := s.agg.epochsBegan slot }) ∧
      ∀ o ∈ l, ∃ r ∈ (t.agg.seDie slot).recs, r.first = o.first ∧ r.last = s.agg.epochAt slot s.agg.p.nowNs ∧
        bitAt r.flags 0 = true ∧ bitAt r.flags 3 = true ∧ (s.agg.seDie slot).dseq ≤ r.dseq) ∧
    (s.agg.reg (SE_DIE_STATUS_STATE slot) = 1 → ∃ t, exec (.seLift slot) s = .next t ∧
      t = { s with agg := { s.agg with se := t.agg.se } } ∧ (t.agg.seDie slot).recs = (s.agg.seDie slot).recs ∧
      (t.agg.seDie slot).lift = some ((s.agg.seDie slot).lift.getD (s.agg.epochAt slot s.agg.p.nowNs)))) ∧
  (s.agg.reg CFG_STATUS_STATE = 5 → exec (.seLift slot) s = .next s) ∧
  (∀ c rest first, s.agg.reg CFG_STATUS_STATE ≠ 5 → (s.agg.seDie slot).cases = c :: rest →
    first = epAdd c.epoch (s.agg.cfg SE_CFG_LINGER + 1) →
    ∃ t v, exec (.seCloseCase slot) s = .next t ∧ t = { s with agg := t.agg } ∧
      (t.agg.seDie slot).cases = rest.filter (fun x => x.seq ≠ c.seq) ∧
      (t.agg.dieDet slot).held.getLast? = some v ∧ v.kind = 0xD ∧
      (∀ r, (s.agg.seDie slot).rpl = some r → (t.agg.seDie slot).rpl = if r.caseSeq = c.seq then none else some r) ∧
      ((s.agg.seDie slot).tainted first epochNone = true → (t.agg.seDie slot).recs = (s.agg.seDie slot).recs) ∧
      ((s.agg.seDie slot).tainted first epochNone = false → ∃ r, (t.agg.seDie slot).recs.getLast? = some r ∧
        r.first = first ∧ r.last = epochNone ∧ bitAt r.flags 0 = true)) ∧
  ((s.agg.reg CFG_STATUS_STATE = 5 ∨ (s.agg.seDie slot).cases = []) → exec (.seCloseCase slot) s = .next s)

/-! ### The fabric (12) -/

/-- Arrivals and acknowledgements (R389, R393 to R395, R397, R401, R407, R409): a frame that the wire checks refuse is
counted, a policed one is dropped, a good packet enters its window or is a duplicate or stale, an acknowledgement releases
entries, an unanswered one goes again or is given up, and pending acknowledgements and MGMT answers leave, but for those
that safe state holds. Where the spec is open, the clauses rest on the model's reading (log entries 55 and 57). -/
def Obligations.PacketsAreTakenAndAcknowledged : Prop := ∀ s : State,
  (∀ k : Packet, ∃ t, exec (.ryconFPacket .fcs k) s = .next t ∧ t = { s with agg := { s.agg with p := t.agg.p } } ∧
    s.agg.p.onlyRegs t.agg.p [FAB_PORT_ERR_FCS k.port] ∧ t.agg.reg (FAB_PORT_ERR_FCS k.port) =
      min (s.agg.reg (FAB_PORT_ERR_FCS k.port) + 1) (2 ^ (FAB_PORT_ERR_FCS k.port).width - 1)) ∧
  (∀ (k : Packet) d, (d = .pause ∨ d = .etherType ∨ d ≠ .fcs ∧ (s.agg.reaches k.dstAddr = false ∨ d = .icmp ∨
      d ≠ .ipForm ∧ k.udpPort ≠ s.agg.cfg FAB_CFG_UDP_PORT ∧ k.udpPort ≠ 319 ∧ k.udpPort ≠ 320)) →
    ∃ t, exec (.ryconFPacket d k) s = .next t ∧
      t = { s with agg := { s.agg with fab := { s.agg.fab with otherDrops := s.agg.fab.otherDrops + 1 } } }) ∧
  (∀ (k : Packet) d, d ∉ ([.fcs, .pause, .etherType, .ipForm, .icmp] : List WireDefect) → s.agg.reaches k.dstAddr = true →
    k.udpPort ≠ s.agg.cfg FAB_CFG_UDP_PORT → k.udpPort = 319 ∨ k.udpPort = 320 → exec (.ryconFPacket d k) s = .next s) ∧
  (∀ (k : Packet) d, s.agg.reaches k.dstAddr = true → (d = .ipForm ∨
      d ∉ ([.fcs, .pause, .etherType, .icmp] : List WireDefect) ∧ k.udpPort = s.agg.cfg FAB_CFG_UDP_PORT ∧
      (d = .udpChecksum ∨ s.agg.packetDefect k d = true)) →
    ∃ t, exec (.ryconFPacket d k) s = .next t ∧ t = { s with agg := { s.agg with p := t.agg.p } } ∧
    s.agg.p.onlyEvents t.agg.p [FAB_ERR_COUNT_VIOL, FAB_EVENT_VIOL] [evSource evBlockAgg FAB_EVENT_VIOL |>.getD 0] ∧
    t.agg.reg FAB_EVENT_VIOL = 1) ∧
  (∀ (k : Packet) g, s.agg.reaches k.dstAddr = true → k.udpPort = s.agg.cfg FAB_CFG_UDP_PORT →
    s.agg.packetDefect k .none = false → g = meterGroup k.rclass k.ackClass →
    (s.agg.accepts k.port g k.rx = false →
      exec (.ryconFPacket .none k) s = .next { s with agg := s.agg.policed k.port g k.rx }) ∧
    (s.agg.accepts k.port g k.rx = true → ∃ t, exec (.ryconFPacket .none k) s = .next t ∧
      t = { s with agg := { s.agg with p := t.agg.p, fab := t.agg.fab } } ∧
      t.agg.fab.queue = s.agg.fab.queue ∧ t.agg.fab.txn = s.agg.fab.txn ∧
      (k.rclass ≠ 1 ∧ k.rclass ≠ 3 → t.agg.fab.win = s.agg.fab.win ∧ t.agg.fab.acks = s.agg.fab.acks ∧
        t.agg.fab.held = s.agg.fab.held) ∧
      (k.rclass = 1 ∨ k.rclass = 3 →
        (∀ w, judgePsn (s.agg.fab.win.get (8 * k.src + k.rclass)) k.incarn k.psn = .accept w →
          t.agg.fab.win = s.agg.fab.win.set (8 * k.src + k.rclass) (some w) ∧
          (k.ackReq = true → k.rclass = 1 ∨ k.msgType = 2 ∨ k.msgType = 4 →
            (∃ a ∈ t.agg.fab.acks, a.src = k.src ∧ a.cls = k.rclass ∧ a.incarn = k.incarn ∧ a.port = k.port ∧
              k.psn ∈ a.psns) ∧ t.agg.fab.held = s.agg.fab.held) ∧
          (k.ackReq = true → k.rclass = 3 → k.msgType = 1 ∨ k.msgType = 3 → t.agg.fab.acks = s.agg.fab.acks ∧
            t.agg.fab.held = s.agg.fab.held ++ [{ src := k.src, psn := k.psn, incarn := k.incarn, port := k.port }]) ∧
          (k.ackReq = false → t.agg.fab.acks = s.agg.fab.acks ∧ t.agg.fab.held = s.agg.fab.held)) ∧
        (judgePsn (s.agg.fab.win.get (8 * k.src + k.rclass)) k.incarn k.psn = .dup →
          t.agg.fab.win = s.agg.fab.win ∧ t.agg.fab.held = s.agg.fab.held ∧
          t.agg.fab.otherDrops = s.agg.fab.otherDrops + 1 ∧
          (k.ackReq = true →
            k.rclass = 1 ∨ (∀ h ∈ s.agg.fab.held, h.src = k.src → h.psn = k.psn → h.incarn ≠ k.incarn) →
            ∃ a ∈ t.agg.fab.acks, a.src = k.src ∧ a.cls = k.rclass ∧ k.psn ∈ a.psns)) ∧
        (judgePsn (s.agg.fab.win.get (8 * k.src + k.rclass)) k.incarn k.psn = .stale →
          t.agg.fab.win = s.agg.fab.win ∧ t.agg.fab.acks = s.agg.fab.acks ∧ t.agg.fab.held = s.agg.fab.held ∧
          t.agg.reg FAB_ERR_COUNT_STALE =
            min (s.agg.reg FAB_ERR_COUNT_STALE + 1) (2 ^ FAB_ERR_COUNT_STALE.width - 1))))) ∧
  (∀ src cls incarn psns, ∃ t, exec (.transportAck src cls incarn psns) s = .next t ∧ t = { s with agg := t.agg } ∧
    (incarn = s.agg.reg FAB_STATUS_INCARN →
      (t.agg.fab.txn = s.agg.fab.txn.filter fun t =>
        !(t.pkt.o.dst = src && t.pkt.o.rclass = cls && psns.contains t.pkt.psn)) ∧
      ((∀ x ∈ s.agg.fab.txn, x.pkt.o.tag = 0 ∨ x.pkt.o.rclass = 3) →
        ∀ x ∈ s.agg.fab.txn, x.queued = true → x.pkt.o.dst = src → x.pkt.o.rclass = cls → x.pkt.psn ∈ psns →
        ∀ p < 12, ∀ k ∈ t.agg.fab.queue.get (fabKey p x.pkt.o.queue), k.named src cls x.pkt.psn = false)) ∧
    (incarn ≠ s.agg.reg FAB_STATUS_INCARN → t = { s with agg := { s.agg with p := t.agg.p, fab := t.agg.fab } } ∧
      t.agg.fab = { s.agg.fab with otherDrops := s.agg.fab.otherDrops + psns.length })) ∧
  (∀ (port : Fin 12) psn cls dst (mine : Txn → Bool),
    (∀ x, mine x = true ↔ x.port = (port : Nat) ∧ x.queued = false ∧ x.pkt.psn = psn ∧ x.pkt.o.rclass = cls ∧
      x.pkt.o.dst = dst) →
    (s.agg.fab.txn.find? mine = none → exec (.retransmit port psn cls dst) s = .next s) ∧
    (∀ x, s.agg.fab.txn.find? mine = some x →
      (x.retx < s.agg.cfg FAB_TXN_CFG_RETRIES → ∃ t p, exec (.retransmit port psn cls dst) s = .next t ∧
        t = { s with agg := { s.agg with p := t.agg.p, fab := t.agg.fab } } ∧ s.agg.p.onlyOffers t.agg.p [] ∧
        x.sentNs + s.agg.cfg FAB_TXN_CFG_RTO_US * 1000 ≤ t.agg.p.nowNs ∧
        (p = (port : Nat) ∧ (∀ y ∈ (s.agg.atTimeOf t.agg).placeable x.pkt.f, y ≠ (port : Nat) → 65536 ≤ s.agg.txnOn y) ∨
          p ≠ (port : Nat) ∧ p ∈ (s.agg.atTimeOf t.agg).placeable x.pkt.f ∧ s.agg.txnOn p < 65536) ∧
        (s.agg.roomAt p x.pkt.o.queue x.pkt.bytes = true →
          t.agg.fab.queue.get (fabKey p x.pkt.o.queue) = s.agg.fab.queue.get (fabKey p x.pkt.o.queue) ++
            [{ x.pkt with tx := x.retx + 1, enqNs := t.agg.p.nowNs, waited := false }] ∧
          t.agg.fab.txn = s.agg.fab.txn.map fun y => if mine y then { y with queued := true } else y) ∧
        (s.agg.roomAt p x.pkt.o.queue x.pkt.bytes = false → t.agg.fab.queue = s.agg.fab.queue ∧
          t.agg.fab.txn = s.agg.fab.txn ∧ t.agg.reg FAB_EVENT_QUEUE_FULL = 1)) ∧
      (s.agg.cfg FAB_TXN_CFG_RETRIES ≤ x.retx → ∃ t, exec (.retransmit port psn cls dst) s = .next t ∧
        t = { s with agg := { s.agg with p := t.agg.p, fab := { s.agg.fab with
          txn := s.agg.fab.txn.filter fun y => !mine y } } } ∧
        x.sentNs + s.agg.cfg FAB_TXN_CFG_RTO_US * 1000 ≤ t.agg.p.nowNs ∧ t.agg.reg FAB_EVENT_GIVE_UP = 1))) ∧
  (∀ src cls,
    ((∀ k ∈ s.agg.fab.acks, k.src ≠ src ∨ k.cls ≠ cls) ∨ s.agg.safe = true ∧ cls ≠ 3 →
      exec (.ackSend src cls) s = .next s) ∧
    (∀ k, (s.agg.fab.acks.find? fun k => k.src = src && k.cls = cls) = some k → s.agg.safe = false ∨ cls = 3 →
      ∃ t, exec (.ackSend src cls) s = .next t ∧
      t = { s with agg := { s.agg with p := t.agg.p, fab := t.agg.fab } } ∧ s.agg.p.onlyOffers t.agg.p [] ∧
      (s.agg.atTimeOf t.agg).offered t.agg (.rycon {
        rclass := 5, dst := src, port := k.port, payload := ackBytes cls k.incarn (k.psns.take 16) }) ∧
      (k.psns.length < s.agg.cfg FAB_TXN_CFG_ACK_EVERY →
        k.oldestNs + s.agg.cfg FAB_TXN_CFG_ACK_COAL_NS ≤ t.agg.p.nowNs) ∧
      t.agg.fab.acks = s.agg.fab.acks.erase k ++
        if k.psns.length ≤ 16 then [] else [{ k with psns := k.psns.drop 16, oldestNs := t.agg.p.nowNs }])) ∧
  (∀ (port : Fin 12) rx,
    (∀ target source, target ≠ s.agg.ownAddress → ∃ t, exec (.neighborSolicitation port target source rx) s = .next t ∧
      t = { s with agg := { s.agg with fab := { s.agg.fab with otherDrops := s.agg.fab.otherDrops + 1 } } }) ∧
    (∀ source, s.agg.accepts port 4 rx = true →
      ∃ t, exec (.neighborSolicitation port s.agg.ownAddress source rx) s = .next t ∧
      t = { s with agg := { s.agg with p := t.agg.p, fab := t.agg.fab } } ∧
      (s.agg.policed port 4 rx).offered t.agg
        (.neighborAdv port (if source = 0 then 0xFF02 * 2 ^ 112 + 1 else source))) ∧
    (∀ source ident seq data, s.agg.accepts port 4 rx = true →
      ∃ t, exec (.echoRequest port source ident seq data rx) s = .next t ∧
      t = { s with agg := { s.agg with p := t.agg.p, fab := t.agg.fab } } ∧
      (s.agg.policed port 4 rx).offered t.agg (.echoReply port source ident seq data)) ∧
    (s.agg.accepts port 4 rx = false → ∀ source ident seq data,
      exec (.neighborSolicitation port s.agg.ownAddress source rx) s = .next { s with agg := s.agg.policed port 4 rx } ∧
      exec (.echoRequest port source ident seq data rx) s = .next { s with agg := s.agg.policed port 4 rx }))

/-- Queues, shapers and ports (R388, R395, R396, R400, R403, R405, R406): a packet takes its place and PSN or is refused,
the head of the first queue that may be served starts, a refill adds up to the burst, and a port goes down and comes up.
Where the spec is open, the clauses rest on the model's reading (log entries 56, 57, 102 and 145). -/
def Obligations.QueuesAndPorts : Prop := ∀ s : State,
  (∀ (o : OutPacket) p k, s.agg.safe = false ∨ o.queue = 0 → s.agg.placeAt o.queue (s.agg.placeable (.rycon o)) = some p →
    k = 8 * (if o.spine then 2 ^ 14 else o.dst) + o.rclass →
    (s.agg.roomAt p o.queue (s.agg.lengthOf (.rycon o)) = true →
      ∃ t, exec (.packetEnqueue o) s = .next t ∧ t = { s with agg := { s.agg with p := t.agg.p, fab := t.agg.fab } } ∧
      s.agg.p.onlyOffers t.agg.p [] ∧
      t.agg.fab.queue.get (8 * p + o.queue) = s.agg.fab.queue.get (8 * p + o.queue) ++ [{
        f := .rycon o, psn := s.agg.fab.psn.get k, enqNs := s.agg.p.nowNs, bytes := s.agg.lengthOf (.rycon o) }] ∧
      t.agg.fab.psn.get k = (s.agg.fab.psn.get k + 1) % 2 ^ 32 ∧ t.agg.fab.wait = s.agg.fab.wait ∧
      (∀ j, j ≠ k → t.agg.fab.psn.get j = s.agg.fab.psn.get j) ∧
      ∀ j, j ≠ 8 * p + o.queue → t.agg.fab.queue.get j = s.agg.fab.queue.get j) ∧
    (s.agg.roomAt p o.queue (s.agg.lengthOf (.rycon o)) = false →
      ∃ t, exec (.packetEnqueue o) s = .next t ∧ t = { s with agg := { s.agg with p := t.agg.p, fab := t.agg.fab } } ∧
      s.agg.p.onlyOffers t.agg.p [] ∧ t.agg.fab.wait = s.agg.fab.wait ++ [.rycon o] ∧
      t.agg.fab.queue = s.agg.fab.queue ∧ t.agg.fab.psn = s.agg.fab.psn ∧ t.agg.reg FAB_EVENT_QUEUE_FULL = 1)) ∧
  (∀ o : OutPacket, s.agg.safe = false ∨ o.queue = 0 → s.agg.placeAt o.queue (s.agg.placeable (.rycon o)) = none →
    ((∀ p ∈ s.agg.portSet (.rycon o), s.agg.fabUp p = false) → exec (.packetEnqueue o) s = .next { s with agg := { s.agg with
      fab := { s.agg.fab with wait := s.agg.fab.wait ++ [.rycon o] } } }) ∧
    ((∃ p ∈ s.agg.portSet (.rycon o), s.agg.fabUp p = true) → ∃ t, exec (.packetEnqueue o) s = .next t ∧
      t = { s with agg := { s.agg with p := t.agg.p, fab := t.agg.fab } } ∧ s.agg.p.onlyOffers t.agg.p [] ∧
      t.agg.fab.queue = s.agg.fab.queue ∧ t.agg.fab.wait = s.agg.fab.wait ∧
      t.agg.fab.psn = s.agg.fab.psn ∧ t.agg.reg FAB_EVENT_TOO_LONG = 1)) ∧
  (∀ o : OutPacket, s.agg.safe = true → o.queue ≠ 0 → exec (.packetEnqueue o) s = .next s) ∧
  (∀ port : Fin 12, s.agg.reg (FAB_PORT_STATUS_UP port) = 1 → (∀ x < 8, s.agg.headBlock port x ≠ .txn) →
    (∀ q k rest, (List.range 8).find? (fun x => s.agg.headBlock port x = .go) = some q →
      s.agg.fab.queue.get (8 * (port : Nat) + q) = k :: rest → ∃ t, exec (.frameStart port) s = .next t ∧
      t = { s with agg := t.agg } ∧ rest <+: t.agg.fab.queue.get (8 * (port : Nat) + q) ∧
      (s.agg.fab.wait = [] → t.agg.fab.queue.get (8 * (port : Nat) + q) = rest) ∧
      (∀ o, k.f = .rycon o → t = { s with agg := { s.agg with
          p := t.agg.p, fab := t.agg.fab
          sent := .frame port k (s.agg.ryconWire port o.queue o k.psn k.enqNs k.tx) :: s.agg.sent } } ∧
        (o.ackReq = true → k.tx = 0 → ∃ x, t.agg.fab.txn = s.agg.fab.txn ++ [x] ∧ x.pkt = k ∧ x.port = (port : Nat) ∧
          x.sentNs = s.agg.p.nowNs) ∧
        (o.ackReq = true → k.tx ≠ 0 → t.agg.fab.txn = s.agg.fab.txn.map fun x =>
          if x.pkt.named o.dst o.rclass k.psn then
            { x with port := port, sentNs := s.agg.p.nowNs, retx := k.tx, queued := false } else x) ∧
        (o.ackReq = false → t.agg.fab.txn = s.agg.fab.txn)) ∧
      (∀ n, k.f = .esmc n → t.agg.sent = .esmcDnu n :: s.agg.sent) ∧
      (∀ n dst, k.f = .neighborAdv n dst → t.agg.sent = .frame port k (s.agg.advertWire port dst) :: s.agg.sent) ∧
      (∀ n dst i j l, k.f = .echoReply n dst i j l →
        t.agg.sent = .frame port k (s.agg.echoWire port dst i j l) :: s.agg.sent)) ∧
    ((∀ x < 8, s.agg.headBlock port x ≠ .go) → ∃ t, exec (.frameStart port) s = .next t ∧
      t = { s with agg := { s.agg with p := t.agg.p, fab := t.agg.fab } } ∧ t.agg.fab.txn = s.agg.fab.txn ∧
      ∀ x < 8, t.agg.reg (FAB_Q_STATUS_HEAD_WAIT port x) =
        if s.agg.headBlock port x = .gate ∨ s.agg.headBlock port x = .guard then 1 else 0)) ∧
  (∀ (port : Fin 12) q k rest, s.agg.reg (FAB_PORT_STATUS_UP port) = 1 → q < 8 → s.agg.headBlock port q = .txn →
    s.agg.fab.queue.get (8 * (port : Nat) + q) = k :: rest →
    (∀ x ∈ s.agg.placeable k.f, x ≠ (port : Nat) → 65536 ≤ s.agg.txnOn x ∨ s.agg.roomAt x q k.bytes = false) →
    ∃ t, exec (.frameStart port) s = .next t ∧ t = { s with agg := t.agg } ∧ t.agg.reg FAB_EVENT_TXN_FULL = 1) ∧
  (∀ port : Fin 12, s.agg.bit (FAB_PORT_STATUS_UP port) = false → exec (.frameStart port) s = .next s) ∧
  (∃ t, exec .shaperRefill s = .next t ∧ t = { s with agg := { s.agg with p := t.agg.p, fab := t.agg.fab } } ∧
    s.agg.p.onlyTime t.agg.p [] ∧ t.agg.fab.queue = s.agg.fab.queue ∧ t.agg.fab.refillNs = t.agg.p.nowNs ∧
    (s.agg.fab.refillNs / s.agg.cfg FAB_SHP_CFG_REFILL_NS + 1) * s.agg.cfg FAB_SHP_CFG_REFILL_NS ≤ t.agg.p.nowNs ∧
    ∀ d < 64, t.agg.fab.shpOld.get d = none ∧ (s.agg.fab.shpOld.get d = none →
      (s.agg.cfg (FAB_SHP_RATE_MBPS d) = 0 → t.agg.fab.credit.get d = s.agg.fab.credit.get d) ∧
      (s.agg.cfg (FAB_SHP_RATE_MBPS d) ≠ 0 → t.agg.fab.credit.get d = some (min (s.agg.shpCredit d +
        ((s.agg.cfg (FAB_SHP_RATE_MBPS d) * s.agg.cfg FAB_SHP_CFG_REFILL_NS + s.agg.fab.refillRem.get d) / 1000 : Nat))
        ((s.agg.cfg (FAB_SHP_BURST_KIB d) * 1024 : Nat) : Int))))) ∧
  (∀ (port : Fin 12) (lanes : BitVec 8) used, used = s.agg.fab.lanes.get port →
    (lanes.toNat &&& used = used ∨ s.agg.bit (FAB_PORT_STATUS_UP port) = false →
      exec (.fabricPortDown port lanes) s = .next s) ∧
    (lanes.toNat &&& used ≠ used → s.agg.reg (FAB_PORT_STATUS_UP port) = 1 →
      ∃ t, exec (.fabricPortDown port lanes) s = .next t ∧
      t = { s with agg := { s.agg with p := t.agg.p, time := t.agg.time, fab := { s.agg.fab with lanes := t.agg.fab.lanes } } } ∧
      t.agg.fab.lanes.get port = 0 ∧ t.agg.reg (FAB_PORT_STATUS_UP port) = 0 ∧
      t.agg.reg (FAB_PORT_STATUS_LANES port) = 0 ∧ (t.agg.time.ptp.get port).master = none ∧
      t.agg.time.ql.get port = 0)) ∧
  (∀ (port : Fin 12) (lanes : BitVec 8) m ok, m = s.agg.fabTrains port lanes →
    (ok ↔ m ≠ 0 ∧ s.agg.cfgOn (FAB_PORT_CFG_EN port) = true ∧ s.agg.domOn (0x10 + (port : Nat)) = true ∧
      s.agg.reg CFG_STATUS_STATE ≠ 5) →
    (s.agg.cfg (FAB_PORT_CFG_MODE port) = 0 → lanes = 255 → m = 255) ∧
    (s.agg.cfg (FAB_PORT_CFG_MODE port) = 0 → lanes ≠ 255 → s.agg.cfgOn (FAB_PORT_CFG_DEGRADE_OK port) = true →
      m = if lanes &&& 15 = 15 then 15 else if lanes &&& 240 = 240 then 240 else 0) ∧
    (s.agg.cfg (FAB_PORT_CFG_MODE port) = 0 → lanes ≠ 255 → s.agg.cfgOn (FAB_PORT_CFG_DEGRADE_OK port) = false → m = 0) ∧
    (s.agg.cfg (FAB_PORT_CFG_MODE port) = 1 → m = if lanes &&& 15 = 15 then 15 else 0) ∧
    (s.agg.cfg (FAB_PORT_CFG_MODE port) = 2 → m = if lanes &&& 240 = 240 then 240 else 0) ∧
    (ok → ∃ t, exec (.fabricPortUp port lanes) s = .next t ∧
      t = { s with agg := { s.agg with p := t.agg.p, fab := t.agg.fab } } ∧
      s.agg.p.onlyOffers t.agg.p [FAB_PORT_STATUS_UP port, FAB_PORT_STATUS_LANES port, FAB_STATUS_PORTS_UP,
        PTP_PORT_STATE_ST port] ∧
      t.agg.reg (FAB_PORT_STATUS_UP port) = 1 ∧ t.agg.fab.lanes.get port = m ∧
      t.agg.reg (FAB_PORT_STATUS_LANES port) = (if m = 255 then 8 else 4) ∧
      (s.agg.reg (PTP_PORT_STATE_ST port) = 5 → t.agg.reg (PTP_PORT_STATE_ST port) = 1) ∧
      (s.agg.fab.wait = [] → t.agg.fab = { s.agg.fab with lanes := t.agg.fab.lanes })) ∧
    (¬ ok → exec (.fabricPortUp port lanes) s = .next s))

/-! ### Faults and self-repair (13) -/

/-- An occurrence becomes a record (R413, R415 to R422): its class moves the collector between RUN, SAFE, LATCHED and
FATAL, it is captured as the first error, it waits for its acknowledgement, and an input counts once while asserted.
Where the spec is open, the clauses rest on the model's reading (log entries 11, 84, 85 and 86). -/
def Obligations.OccurrencesAreRecorded : Prop := ∀ s : State,
  (∀ (h : HwOccurrence) k, (s.agg.voted.rateClass (hwOcc h)).2 = k → k < 4 →
    ∃ t, exec (.faultOccurrence .agg (.hardware h)) s = .next t ∧ t = { s with agg := t.agg } ∧
      (levelSource (h.source % 65536) = true → h.source % 65536 ∈ t.agg.p.col.levels) ∧
      (k = 0 → t.agg.reg FLT_STATUS_STATE = s.agg.reg FLT_STATUS_STATE ∧ t.agg.p.col.pending = s.agg.p.col.pending) ∧
      (k = 1 → s.agg.reg FLT_STATUS_STATE = 0 → t.agg.reg FLT_STATUS_STATE = 0) ∧
      (k = 2 → s.agg.reg FLT_STATUS_STATE = 0 →
        s.agg.p.recoveries (s.agg.cfg FLT_CFG_RECOVER_WIN_S) < s.agg.cfg FLT_CFG_RECOVER_MAX →
        t.agg.reg FLT_STATUS_STATE = 1 ∧ t.agg.reg FLT_EVENT_SAFE_ENTER = 1 ∧
        t.agg.reg FLT_STATUS_CAUSE_SRC = h.source % 65536) ∧
      (k = 2 → s.agg.reg FLT_STATUS_STATE = 0 →
        s.agg.cfg FLT_CFG_RECOVER_MAX ≤ s.agg.p.recoveries (s.agg.cfg FLT_CFG_RECOVER_WIN_S) →
        t.agg.reg FLT_STATUS_STATE = 3 ∧ t.agg.reg FLT_EVENT_LATCHED = 1) ∧
      (k = 3 → t.agg.reg FLT_STATUS_STATE = 4) ∧
      (k ≠ 0 → h.source % 65536 ≠ 4 → s.agg.p.col.pending.length < 512 →
        ∃ x, t.agg.p.col.pending = s.agg.p.col.pending ++ [x] ∧ x.source = h.source % 65536 ∧ x.cls = k ∧
          x.fseq = s.agg.p.col.nextFseq) ∧
      (s.agg.reg FLT_FIRST_SRC_VALID = 0 → s.agg.cfg FLT_CFG2_CAPTURE_MIN ≤ k → t.agg.reg FLT_FIRST_SRC_VALID = 1 ∧
        t.agg.reg FLT_FIRST_SRC_SOURCE = h.source % 65536 ∧ t.agg.reg FLT_FIRST_SRC_CLASS = k ∧
        t.agg.reg FLT_FIRST_ADDR_ADDR = h.addr % 2 ^ 64) ∧
      (s.agg.reg FLT_FIRST_SRC_VALID = 1 → t.agg.reg FLT_FIRST_SRC_SOURCE = s.agg.reg FLT_FIRST_SRC_SOURCE ∧
        t.agg.reg FLT_FIRST_ADDR_ADDR = s.agg.reg FLT_FIRST_ADDR_ADDR ∧
        t.agg.reg FLT_FIRST_TIME_NS = s.agg.reg FLT_FIRST_TIME_NS)) ∧
  (s.agg.p.col.notified = [] → exec (.faultOccurrence .agg .notified) s = .next s) ∧
  (∀ o, nextOcc (fun o => (s.agg.rateClass o).2) s.agg.p.col.notified = some o →
    ∃ t, exec (.faultOccurrence .agg .notified) s = .next t ∧
    t = { s with agg := t.agg } ∧
    (t.agg.p.src o.source).count = min ((s.agg.p.src o.source).count + 1) (2 ^ 24 - 1)) ∧
  (s.ulg.p.col.notified = [] → exec (.faultOccurrence .ulg .notified) s = .next s) ∧
  (∀ o, nextOcc s.ulg.occClass s.ulg.p.col.notified = some o → ∃ t, exec (.faultOccurrence .ulg .notified) s = .next t ∧
    t = { s with ulg := t.ulg } ∧ t.ulg.p.col.nextFseq = s.ulg.p.col.nextFseq + 1 ∧
    (t.ulg.p.src o.source).count = min ((s.ulg.p.src o.source).count + 1) (2 ^ 24 - 1)) ∧
  (∀ (h : HwOccurrence) k, s.ulg.voted.occClass (hwOcc h) = k → k < 4 →
    ∃ t, exec (.faultOccurrence .ulg (.hardware h)) s = .next t ∧ t = { s with ulg := t.ulg } ∧
      (levelSource (h.source % 65536) = true → h.source % 65536 ∈ t.ulg.p.col.levels) ∧
      t.ulg.p.col.nextFseq = s.ulg.p.col.nextFseq + 1 ∧
      (s.ulg.p.col.log.length < 32 → ∃ r, t.ulg.p.col.log = s.ulg.p.col.log ++ [r] ∧
        r.source = h.source % 65536 ∧ r.cls = k ∧ r.fseq = s.ulg.p.col.nextFseq % 2 ^ 32) ∧
      (32 ≤ s.ulg.p.col.log.length → k ≠ 0 →
        t.ulg.p.col.log = s.ulg.p.col.log ∧ t.ulg.reg ULG_FLT_EVENT_LOG_FULL = 1) ∧
      (k = 3 → t.ulg.reg ULG_FLT_STATUS_STATE = 4) ∧
      (k ≤ 1 → s.ulg.reg ULG_FLT_STATUS_STATE = 0 → t.ulg.reg ULG_FLT_STATUS_STATE = 0) ∧
      (k ≠ 0 → h.source % 65536 ≠ 4 → s.ulg.p.col.pending.length < 32 →
        t.ulg.p.col.pending.length = s.ulg.p.col.pending.length + 1) ∧
      (k = 0 → t.ulg.p.col.pending = s.ulg.p.col.pending)) ∧
  (∀ src : Nat,
    (∃ t, exec (.faultOccurrence .agg (.released src)) s = .next t ∧
      t = { s with agg := { s.agg with p := { s.agg.p with col := { s.agg.p.col with levels := t.agg.p.col.levels } } } } ∧
      (∀ x, x ≠ src % 65536 → (x ∈ t.agg.p.col.levels ↔ x ∈ s.agg.p.col.levels)) ∧
      (levelSource (src % 65536) = true → src % 65536 ∉ t.agg.p.col.levels)) ∧
    ∃ t, exec (.faultOccurrence .ulg (.released src)) s = .next t ∧
      t = { s with ulg := { s.ulg with p := { s.ulg.p with col := { s.ulg.p.col with levels := t.ulg.p.col.levels } } } } ∧
      (∀ x, x ≠ src % 65536 → (x ∈ t.ulg.p.col.levels ↔ x ∈ s.ulg.p.col.levels)) ∧
      (levelSource (src % 65536) = true → src % 65536 ∉ t.ulg.p.col.levels)) ∧
  (∃ t, exec (.faultOccurrence .agg .captureParity) s = .next t ∧ t = { s with agg := { s.agg with p := t.agg.p } } ∧
    s.agg.p.onlyRegs t.agg.p [FLT_FIRST_SRC_CAP_PARITY] ∧ t.agg.reg FLT_FIRST_SRC_CAP_PARITY = 1) ∧
  (∃ t, exec (.faultOccurrence .ulg .captureParity) s = .next t ∧ t = { s with ulg := { s.ulg with p := t.ulg.p } } ∧
    s.ulg.p.onlyRegs t.ulg.p [ULG_FLT_FIRST_CAP_PARITY] ∧ t.ulg.reg ULG_FLT_FIRST_CAP_PARITY = 1) ∧
  (∀ (l : Bool) (k : Fin 3),
    (∃ t, exec (.faultOccurrence .agg (.copyUpset l k)) s = .next t ∧
      t = { s with agg := { s.agg with p := { s.agg.p with col := { s.agg.p.col with
        pendBad := t.agg.p.col.pendBad, cfgBad := t.agg.p.col.cfgBad } } } } ∧
      (l = true → t.agg.p.col.cfgBad = s.agg.p.col.cfgBad ∧ ∀ x, x ∈ t.agg.p.col.pendBad ↔ x ∈ s.agg.p.col.pendBad ∨ x = k) ∧
      (l = false → t.agg.p.col.pendBad = s.agg.p.col.pendBad ∧
        ∀ x, x ∈ t.agg.p.col.cfgBad ↔ x ∈ s.agg.p.col.cfgBad ∨ x = k)) ∧
    ∃ t, exec (.faultOccurrence .ulg (.copyUpset l k)) s = .next t ∧
      t = { s with ulg := { s.ulg with p := { s.ulg.p with col := { s.ulg.p.col with
        pendBad := t.ulg.p.col.pendBad, cfgBad := t.ulg.p.col.cfgBad } } } } ∧
      (l = true → t.ulg.p.col.cfgBad = s.ulg.p.col.cfgBad ∧ ∀ x, x ∈ t.ulg.p.col.pendBad ↔ x ∈ s.ulg.p.col.pendBad ∨ x = k) ∧
      (l = false → t.ulg.p.col.pendBad = s.ulg.p.col.pendBad ∧
        ∀ x, x ∈ t.ulg.p.col.cfgBad ↔ x ∈ s.ulg.p.col.cfgBad ∨ x = k)) ∧
  (∀ (n : Fin 1024) level cycles,
    ((s.ulg.cfgOn (ULG_HFLT_CFG_EN n) = false ∨ s.ulg.bit (ULG_HFLT_STATE_LEVEL n) = true ∨
        level = s.ulg.cfgOn (ULG_HFLT_CFG_POL n) ∨ cycles < s.ulg.cfg (ULG_HFLT_CFG_FILT n) + 1) →
      exec (.hfltAssert n level cycles) s = .next s) ∧
    (s.ulg.cfgOn (ULG_HFLT_CFG_EN n) = true → s.ulg.bit (ULG_HFLT_STATE_LEVEL n) = false →
      level ≠ s.ulg.cfgOn (ULG_HFLT_CFG_POL n) → s.ulg.cfg (ULG_HFLT_CFG_FILT n) + 1 ≤ cycles →
      ∃ t, exec (.hfltAssert n level cycles) s = .next t ∧ t = { s with ulg := t.ulg } ∧
        t.ulg.reg (ULG_HFLT_STATE_LEVEL n) = 1 ∧
        t.ulg.reg (ULG_HFLT_STATE_COUNT n) = min (s.ulg.reg (ULG_HFLT_STATE_COUNT n) + 1) (2 ^ 16 - 1) ∧
        t.ulg.p.col.nextFseq = s.ulg.p.col.nextFseq + 1 ∧
        (s.ulg.p.col.log.length < 32 → ∃ r, t.ulg.p.col.log = s.ulg.p.col.log ++ [r] ∧
          r.source = 0x1000 + (n : Nat) ∧ r.addr = (n : Nat))) ∧
    (s.ulg.cfgOn (ULG_HFLT_CFG_EN n) = false ∨ level ≠ s.ulg.cfgOn (ULG_HFLT_CFG_POL n) ∨
      cycles < s.ulg.cfg (ULG_HFLT_CFG_FILT n) + 1 → exec (.hfltRelease n level cycles) s = .next s) ∧
    (s.ulg.cfgOn (ULG_HFLT_CFG_EN n) = true → level = s.ulg.cfgOn (ULG_HFLT_CFG_POL n) →
      s.ulg.cfg (ULG_HFLT_CFG_FILT n) + 1 ≤ cycles → ∃ t, exec (.hfltRelease n level cycles) s = .next t ∧
      t = { s with ulg := { s.ulg with p := t.ulg.p } } ∧ s.ulg.p.onlyRegs t.ulg.p [ULG_HFLT_STATE_LEVEL n] ∧
      t.ulg.reg (ULG_HFLT_STATE_LEVEL n) = 0))

/-- Acknowledgement, escalation and safe state (R413, R417, R419 to R422, R424, R426, R427): what FLT_ACK, the
sheepdog, the ways into and out of safe state, injections and the poll of a Uligo's log do. Where the spec is open,
the clauses rest on the model's reading (log entries 87 and 88). -/
def Obligations.FaultCommandsHaveTheirEffect : Prop := ∀ s : State,
  (∀ q : Nat, q < 2 ^ 32 → (∃ t, exec (.fltAck .agg q) s = .next t ∧
      t = { s with agg := { s.agg with p := { s.agg.p with col := t.agg.p.col } } } ∧
      t.agg.p.col.pending = s.agg.p.col.pending.filter (fun r => r.fseq ≠ q) ∧ s.agg.p.col.votes t.agg.p.col) ∧
    (∃ t, exec (.fltAck .ulg q) s = .next t ∧
      t = { s with ulg := { s.ulg with p := { s.ulg.p with col := t.ulg.p.col } } } ∧
      t.ulg.p.col.pending = s.ulg.p.col.pending.filter (fun r => r.fseq ≠ q) ∧ s.ulg.p.col.votes t.ulg.p.col)) ∧
  ((∀ r ∈ s.agg.p.col.pending, r.cls ≠ 1) → exec (.sheepdog .agg) s = .next { s with agg := s.agg.voted }) ∧
  (∀ r, (s.agg.p.col.pending.find? fun r => r.cls = 1) = some r → r.source ≠ 4 → s.agg.p.col.pending.length ≤ 512 →
    ∃ t x, exec (.sheepdog .agg) s = .next t ∧ t = { s with agg := t.agg } ∧ t.agg.reg FLT_EVENT_SHEEPDOG = 1 ∧
      r.stamp + s.agg.cfg FLT_CFG_SHEEPDOG_US * 1000 ≤ t.agg.p.nowNs ∧
      t.agg.p.col.pending = s.agg.p.col.pending.filter (fun y => y.fseq ≠ r.fseq) ++ [x] ∧ x.cls = 2 ∧
      x.source = r.source ∧ x.fseq = s.agg.p.col.nextFseq ∧
      (s.agg.reg FLT_STATUS_STATE = 0 →
        s.agg.p.recoveries (s.agg.cfg FLT_CFG_RECOVER_WIN_S) < s.agg.cfg FLT_CFG_RECOVER_MAX →
        t.agg.reg FLT_STATUS_STATE = 1)) ∧
  ((∀ r ∈ s.ulg.p.col.pending, r.cls ≠ 1) → exec (.sheepdog .ulg) s = .next { s with ulg := s.ulg.voted }) ∧
  (∀ r, (s.ulg.p.col.pending.find? fun r => r.cls = 1) = some r → r.source ≠ 4 → s.ulg.p.col.pending.length ≤ 32 →
    (s.ulg.p.col.upFrom.isSome = true → ∃ t x, exec (.sheepdog .ulg) s = .next t ∧ t = { s with ulg := t.ulg } ∧
      t.ulg.reg ULG_FLT_EVENT_SHEEPDOG = 1 ∧
      s.ulg.p.nowNs + (r.up + s.ulg.cfg ULG_FLT_CFG_SHEEPDOG_US * 1000 - s.ulg.upTime) ≤ t.ulg.p.nowNs ∧
      t.ulg.p.col.pending = s.ulg.p.col.pending.filter (fun y => y.fseq ≠ r.fseq) ++ [x] ∧ x.cls = 2 ∧
      x.source = r.source) ∧
    (s.ulg.p.col.upFrom = none → s.ulg.upTime < r.up + s.ulg.cfg ULG_FLT_CFG_SHEEPDOG_US * 1000 →
      exec (.sheepdog .ulg) s = .next { s with ulg := s.ulg.voted })) ∧
  (∀ n, n = s.agg.p.recoveries (s.agg.cfg FLT_CFG_RECOVER_WIN_S) →
    (s.agg.reg FLT_STATUS_STATE = 0 ∨ s.agg.reg FLT_STATUS_STATE = 2 → ∃ t, exec (.enterSafe .agg) s = .next t ∧
      t = { s with agg := t.agg } ∧ t.agg.reg FLT_STATUS_STATE =
        (if s.agg.reg FLT_STATUS_STATE = 0 ∧ s.agg.cfg FLT_CFG_RECOVER_MAX ≤ n then 3 else 1) ∧
      t.agg.reg FLT_EVENT_SAFE_ENTER = 1 ∧ t.agg.p.col.safeAt = some s.agg.p.nowNs ∧
      t.agg.p.col.pending = s.agg.p.col.pending ∧ t.agg.p.col.nextFseq = s.agg.p.col.nextFseq)) ∧
  (s.agg.reg FLT_STATUS_STATE = 1 ∨ 3 ≤ s.agg.reg FLT_STATUS_STATE → exec (.enterSafe .agg) s = .next s) ∧
  (∀ n, n = s.ulg.p.recoveries (s.ulg.cfg ULG_FLT_CFG_RECOVER_WIN_S) →
    (s.ulg.reg ULG_FLT_STATUS_STATE = 0 ∨ s.ulg.reg ULG_FLT_STATUS_STATE = 2 → ∃ t, exec (.enterSafe .ulg) s = .next t ∧
      t = { s with ulg := t.ulg } ∧ t.ulg.reg ULG_FLT_STATUS_STATE =
        (if s.ulg.reg ULG_FLT_STATUS_STATE = 0 ∧ s.ulg.cfg ULG_FLT_CFG_RECOVER_MAX ≤ n then 3 else 1) ∧
      t.ulg.reg ULG_FLT_EVENT_SAFE_ENTER = 1 ∧ t.ulg.p.col.safeAt = some s.ulg.p.nowNs ∧
      t.ulg.p.col.log = s.ulg.p.col.log)) ∧
  (s.ulg.reg ULG_FLT_STATUS_STATE = 1 ∨ 3 ≤ s.ulg.reg ULG_FLT_STATUS_STATE → exec (.enterSafe .ulg) s = .next s) ∧
  (∀ dom n, (∃ d, dom = some d ∧ (s.agg.p.col.moving.find? fun e => e.1 = d) = some (d, some n)) ∨
      (∀ d, dom = some d → ∀ e ∈ s.agg.p.col.moving, e.1 ≠ d) ∧ s.agg.p.col.safeAt = some n →
    s.agg.safe = true → ∃ t, exec (.quiesceTimeout dom) s = .next t ∧
    t = { s with agg := t.agg } ∧ n + s.agg.cfg FLT_CFG_SAFE_US * 1000 ≤ t.agg.p.nowNs ∧
    t.agg.reg FLT_STATUS_STATE = 4 ∧
    (s.agg.reg FLT_STATUS_STATE = 1 → t = { s with agg := { s.agg with p := t.agg.p } } ∧
      s.agg.p.onlyTime t.agg.p [FLT_STATUS_STATE])) ∧
  (∀ dom, (s.agg.safe = false ∨ (∃ d, dom = some d ∧ (s.agg.p.col.moving.find? fun e => e.1 = d) = some (d, none)) ∨
      (∀ d, dom = some d → ∀ e ∈ s.agg.p.col.moving, e.1 ≠ d) ∧ s.agg.p.col.safeAt = none) →
    exec (.quiesceTimeout dom) s = .next s) ∧
  (∀ a, a = s.agg.voted →
    (a.reg FLT_STATUS_STATE = 1 → a.exitClear = true →
      (a.cfgOn FLT_CFG_AUTO_EXIT = true → ∃ t, exec (.exitStart .agg) s = .next t ∧
        t = { s with agg := { s.agg with p := t.agg.p } } ∧ t.agg.reg FLT_STATUS_STATE = 2 ∧ a.quietNs ≤ t.agg.p.nowNs ∧
        t.agg.p.col.exits = t.agg.p.nowNs :: s.agg.p.col.exits) ∧
      (a.quietNs ≤ a.p.nowNs → ∃ t, exec (.exit .agg) s = .next t ∧
        t = { s with agg := { s.agg with p := t.agg.p } } ∧ s.agg.p.now = t.agg.p.now ∧ t.agg.reg FLT_STATUS_STATE = 2 ∧
        t.agg.p.col.exits = s.agg.p.nowNs :: s.agg.p.col.exits)) ∧
    ((a.reg FLT_STATUS_STATE ≠ 1 ∨ a.exitClear = false ∨ a.p.nowNs < a.quietNs) →
      exec (.exit .agg) s = .next { s with agg := a }) ∧
    ((a.reg FLT_STATUS_STATE ≠ 1 ∨ a.exitClear = false ∨ a.cfgOn FLT_CFG_AUTO_EXIT = false) →
      exec (.exitStart .agg) s = .next { s with agg := a }) ∧
    (a.p.col.pending ≠ [] ∨ (∃ x ∈ a.p.col.levels, 2 ≤ a.occClass { source := x }) ∨
      a.reg FLT_PAIR_STATUS_P0_STATE ≠ 0 ∧ a.reg FLT_PAIR_STATUS_P1_STATE ≠ 0 → a.exitClear = false)) ∧
  (∀ u, u = s.ulg.voted →
    (u.reg ULG_FLT_STATUS_STATE = 1 → u.exitClear = true →
      (u.cfgOn ULG_FLT_CFG_AUTO_EXIT = true → ∃ t, exec (.exitStart .ulg) s = .next t ∧
        t = { s with ulg := { s.ulg with p := t.ulg.p } } ∧ t.ulg.reg ULG_FLT_STATUS_STATE = 2 ∧
        u.quietNs ≤ t.ulg.p.nowNs ∧ t.ulg.p.col.exits = t.ulg.p.nowNs :: s.ulg.p.col.exits) ∧
      (u.quietNs ≤ u.p.nowNs → ∃ t, exec (.exit .ulg) s = .next t ∧
        t = { s with ulg := { s.ulg with p := t.ulg.p } } ∧ s.ulg.p.now = t.ulg.p.now ∧
        t.ulg.reg ULG_FLT_STATUS_STATE = 2 ∧ t.ulg.p.col.exits = s.ulg.p.nowNs :: s.ulg.p.col.exits)) ∧
    ((u.reg ULG_FLT_STATUS_STATE ≠ 1 ∨ u.exitClear = false ∨ u.p.nowNs < u.quietNs) →
      exec (.exit .ulg) s = .next { s with ulg := u }) ∧
    ((u.reg ULG_FLT_STATUS_STATE ≠ 1 ∨ u.exitClear = false ∨ u.cfgOn ULG_FLT_CFG_AUTO_EXIT = false) →
      exec (.exitStart .ulg) s = .next { s with ulg := u }) ∧
    (u.p.col.pending ≠ [] ∨ (∃ x ∈ u.p.col.levels, 2 ≤ u.occClass { source := x }) → u.exitClear = false)) ∧
  (s.agg.reg FLT_STATUS_STATE = 2 → s.agg.p.col.notified = [] → ∃ t, exec (.safeExit .agg) s = .next t ∧
    t = { s with agg := t.agg } ∧ t.agg.reg FLT_STATUS_STATE = 0 ∧ t.agg.reg FLT_EVENT_SAFE_EXIT = 1 ∧
    t.agg.reg FAB_STATUS_SAFE = 0 ∧ t.agg.p.col.safeAt = none ∧ t.agg.shed.resetHello = true) ∧
  (s.ulg.reg ULG_FLT_STATUS_STATE = 2 → s.ulg.p.col.notified = [] → ∃ t, exec (.safeExit .ulg) s = .next t ∧
    t = { s with ulg := { s.ulg with p := t.ulg.p } } ∧ t.ulg.reg ULG_FLT_STATUS_STATE = 0 ∧
    t.ulg.reg ULG_FLT_EVENT_SAFE_EXIT = 1 ∧ t.ulg.p.col.safeAt = none) ∧
  (s.agg.reg FLT_STATUS_STATE ≠ 2 → exec (.safeExit .agg) s = .next s) ∧
  (s.ulg.reg ULG_FLT_STATUS_STATE ≠ 2 → exec (.safeExit .ulg) s = .next s) ∧
  (∃ t, exec (.heartbeatLoss .agg) s = .next t ∧ t = { s with agg := t.agg } ∧ t.agg.reg FLT_STATUS_STATE = 4 ∧
    t.agg.p.col.monitor = true ∧ t.agg.p.col.pending = s.agg.p.col.pending) ∧
  (∃ t, exec (.heartbeatLoss .ulg) s = .next t ∧ t = { s with ulg := t.ulg } ∧ t.ulg.reg ULG_FLT_STATUS_STATE = 4 ∧
    t.ulg.p.col.monitor = true ∧ t.ulg.p.col.pending = s.ulg.p.col.pending) ∧
  (∃ t, exec (.ceRateHourEnd .agg) s = .next t ∧ t = { s with agg := { s.agg with p := t.agg.p } } ∧
    t.agg.p.regs = s.agg.p.regs ∧ s.agg.p.nowSec / 3600 < t.agg.p.nowSec / 3600 ∧
    ∀ q, (t.agg.p.src q).hourCount = 0 ∧ (t.agg.p.src q).raised = false) ∧
  (exec (.ceRateHourEnd .ulg) s = .next s) ∧
  (∃ t, exec (.clearFirst .agg) s = .next t ∧ t = { s with agg := { s.agg with p := t.agg.p } } ∧
    s.agg.p.onlyRegs t.agg.p [FLT_FIRST_SRC_VALID] ∧ t.agg.reg FLT_FIRST_SRC_VALID = 0) ∧
  (∃ t, exec (.clearFirst .ulg) s = .next t ∧ t = { s with ulg := { s.ulg with p := t.ulg.p } } ∧
    s.ulg.p.onlyRegs t.ulg.p [ULG_FLT_FIRST_VALID] ∧ t.ulg.reg ULG_FLT_FIRST_VALID = 0) ∧
  (∀ source (cls : Fin 4), s.agg.bit FLT_STATUS_FTM = true → ∃ t, exec (.fltInject .agg source cls) s = .next t ∧
    t = { s with agg := t.agg } ∧ (cls = 3 → t.agg.reg FLT_STATUS_STATE = 4) ∧
    (cls ≠ 0 → source % 65536 ≠ 4 → s.agg.p.col.pending.length < 512 → ∃ x r,
      t.agg.p.col.pending = s.agg.p.col.pending ++ [x] ∧ x.source = source % 65536 ∧ x.cls = (cls : Nat) ∧
      t.agg.p.col.log.head? = some r ∧ r.injected = true ∧ r.source = source % 65536 ∧ r.cls = (cls : Nat))) ∧
  (∀ source cls, s.agg.bit FLT_STATUS_FTM = false → ∃ t, exec (.fltInject .agg source cls) s = .next t ∧
    t = { s with agg := t.agg } ∧ t.agg.reg FLT_EVENT_INJ_REFUSED = 1) ∧
  (∀ source (cls : Fin 4), s.ulg.bit ULG_FLT_STATUS_FTM = true → ∃ t, exec (.fltInject .ulg source cls) s = .next t ∧
    t = { s with ulg := t.ulg } ∧ (cls = 3 → t.ulg.reg ULG_FLT_STATUS_STATE = 4) ∧
    (s.ulg.p.col.log.length < 32 → ∃ r, t.ulg.p.col.log = s.ulg.p.col.log ++ [r] ∧ r.injected = true ∧
      r.source = source % 65536 ∧ r.cls = (cls : Nat) ∧ r.master = 0xFF)) ∧
  (∀ source cls, s.ulg.bit ULG_FLT_STATUS_FTM = false → ∃ t, exec (.fltInject .ulg source cls) s = .next t ∧
    t = { s with ulg := t.ulg } ∧ t.ulg.reg ULG_FLT_EVENT_INJ_REFUSED = 1) ∧
  (∀ q, s.ulg.p.col.log = [] → exec (.ulgFltPop q) s = .next s) ∧
  (∀ r l, s.ulg.p.col.log = r :: l → r.fseq < 2 ^ 32 →
    (∃ t, exec (.ulgFltPop r.fseq) s = .next t ∧
      t = { s with ulg := { s.ulg with p := { s.ulg.p with col := { s.ulg.p.col with log := l } } } }) ∧
    ∀ q, q < 2 ^ 32 → q ≠ r.fseq → exec (.ulgFltPop q) s = .next s) ∧
  (∀ (slot : Fin 16) die p, s.agg.dieOfSlot slot = some die → p = s.agg.portOfSlot slot →
    (s.agg.role.get slot ≠ 1 ∨ s.agg.reg (DP_STATUS_SESSION p) ≠ 2 → exec (.fltPoll slot) s = .next s) ∧
    (s.agg.role.get slot = 1 → s.agg.reg (DP_STATUS_SESSION p) = 2 →
      (∃ t c, exec (.fltPoll slot) s = .next t ∧
        t = { s with agg := { s.agg with p := t.agg.p, die := t.agg.die, flt := t.agg.flt } } ∧
        (∀ n, s.agg.flt.pollNs.get slot = some n → n + s.agg.cfg FLT_CFG2_POLL_US * 1000 ≤ t.agg.p.nowNs) ∧
        t.agg.flt.pollNs.get slot = some t.agg.p.nowNs ∧ c.opcode = 1 ∧ c.addr = ULG_FLT_STATUS_STATE.off ∧
        c.count = 1 ∧ c.use = .fltStatus slot ∧ s.agg.proxied t.agg p c) ∧
      ∀ (x : Fin 16) c rest (r : Resp), p = (x : Nat) → (s.agg.die.get p).cmds = c :: rest → c.seq = r.seq →
        (∀ k ∈ rest, k.seq ≠ r.seq) → r.status = 0 → (s.agg.die.get p).heldCmds = [] → (s.agg.die.get p).mustPush = false →
        rest.length < 61 →
        (∀ w, c.use = .fltStatus slot → r.data = [w] →
          w / 2 ^ ULG_FLT_STATUS_LOG_LEVEL.lsb % 2 ^ ULG_FLT_STATUS_LOG_LEVEL.width ≠ 0 → ∃ t,
          exec (.response x r) s = .next t ∧ t = { s with agg := { s.agg with p := t.agg.p, die := t.agg.die } } ∧
          ∃ k ∈ (t.agg.die.get p).cmds, k.opcode = 1 ∧ k.addr = (ULG_FLT_LOG_DATA_DATA 0).off ∧ k.count = 4) ∧
        (∀ l u, c.use = .fltEntry slot → r.data.length = 4 → l = (r.data.map (leBytes 8 ·)).flatten → leAt l 0 4 = u →
          ∃ t, exec (.response x r) s = .next t ∧ t = { s with agg := t.agg } ∧
          (s.agg.holdsUligo die u = true → t.agg.p.col = s.agg.p.col) ∧
          (s.agg.holdsUligo die u = false → t.agg.p.col.nextFseq = s.agg.p.col.nextFseq + 1 ∧
            ∃ r, t.agg.p.col.log.head? = some r ∧ r.fromUligo = true ∧ r.ufseq = u ∧ r.die = some die ∧
              r.cls = leAt l 6 1 % 4 ∧ r.source = leAt l 4 2) ∧
          (∃ k ∈ (t.agg.die.get p).cmds, k.addr = ULG_FLT_POP_FSEQ.off ∧ k.data = [u]) ∧
          (leAt l 6 1 % 4 ≠ 0 → ∃ k ∈ (t.agg.die.get p).cmds, k.addr = ULG_FLT_ACK_FSEQ.off ∧ k.data = [u]))))

/-- Control pairs, spare rows, the repair log and aging (R428, R429, R431, R434 to R436): a pair is halted, tested, retired
or takes over, a spare row replaces a bad one or its owner stops using it, entries are appended, and the delay monitors
run. Where the spec is open, the clauses rest on the model's reading (log entries 33, 89 and 91). -/
def Obligations.PartsAreRepairedAndRetired : Prop := ∀ s : State,
  (∀ (pair : Fin 2) addr, 2 ≤ s.agg.reg (pairField pair) → exec (.lockstepMismatch pair addr) s = .next s) ∧
  (∀ (pair other : Fin 2) addr, other ≠ pair → s.agg.reg (pairField pair) < 2 → ∃ t l,
    exec (.lockstepMismatch pair addr) s = .next t ∧ t = { s with agg := t.agg } ∧
    t.agg.flt.pairMiss.get pair = some s.agg.p.nowNs ∧
    t.agg.reg (pairField other) = s.agg.reg (pairField other) ∧ t.agg.flt.switch =
      (s.agg.flt.switch || (s.agg.reg (pairField pair) == 0 && s.agg.reg (pairField other) == 1)) ∧
    t.agg.rprQueue = s.agg.rprQueue ++ l ∧
    ((∀ n, s.agg.flt.pairMiss.get pair = some n →
        n + s.agg.cfg FLT_CFG_RECOVER_WIN_S * 1000000000 ≤ s.agg.p.nowNs) →
      t.agg.reg (pairField pair) = 2 ∧ ∀ e ∈ l, e.etype ≠ 7) ∧
    (∀ n, s.agg.flt.pairMiss.get pair = some n →
      s.agg.p.nowNs < n + s.agg.cfg FLT_CFG_RECOVER_WIN_S * 1000000000 →
      t.agg.reg (pairField pair) = 3 ∧ ∃ e, l.head? = some e ∧ e.etype = 7 ∧ e.unit = (pair : Nat))) ∧
  (s.agg.flt.switch = false → exec .pairSwitch s = .next s) ∧
  (s.agg.flt.switch = true →
    (∀ k : Fin 2, s.agg.reg (pairField k) = 1 → (∀ j : Fin 2, j ≠ k → s.agg.reg (pairField j) ≠ 1) →
      ∃ t, exec .pairSwitch s = .next t ∧ t = { s with agg := t.agg } ∧
      t.agg.flt = { s.agg.flt with switch := false } ∧
      t.agg.reg (pairField k) = 0 ∧ t.agg.reg FLT_PAIR_STATUS_ACTIVE = (k : Nat) ∧ t.agg.reg FLT_EVENT_PAIR_SWITCH = 1 ∧
      (s.agg.shed.begun = [] → t = { s with agg := { s.agg with p := t.agg.p, flt := t.agg.flt } } ∧
        s.agg.p.onlyRegs t.agg.p [pairField k, FLT_PAIR_STATUS_ACTIVE, FLT_EVENT_PAIR_SWITCH,
          FLT_PAIR_STATUS_SWITCHES])) ∧
    ((∀ k : Fin 2, s.agg.reg (pairField k) ≠ 1) →
      exec .pairSwitch s = .next { s with agg := { s.agg with flt := { s.agg.flt with switch := false } } })) ∧
  (∀ pair : Fin 2, s.agg.reg (pairField pair) = 2 →
    (∃ t, exec (.pairSelfTestDone pair true) s = .next t ∧ t = { s with agg := { s.agg with p := t.agg.p } } ∧
      s.agg.p.onlyRegs t.agg.p [pairField pair] ∧ t.agg.reg (pairField pair) = 1) ∧
    (∃ t e, exec (.pairSelfTestDone pair false) s = .next t ∧
      t = { s with agg := { s.agg with p := t.agg.p, rprQueue := s.agg.rprQueue ++ [e] } } ∧
      s.agg.p.onlyRegs t.agg.p [pairField pair] ∧ t.agg.reg (pairField pair) = 3 ∧ e.etype = 7 ∧ e.unit = (pair : Nat))) ∧
  (∀ (pair : Fin 2) pass, s.agg.reg (pairField pair) ≠ 2 → exec (.pairSelfTestDone pair pass) s = .next s) ∧
  (∀ owner inst row n, n ≤ s.agg.cfg FLT_CFG2_ROW_CE → exec (.rowBad owner inst row (some n)) s = .next s) ∧
  (∀ owner inst row hour, (∀ n, hour = some n → s.agg.cfg FLT_CFG2_ROW_CE < n) →
    ∃ t, exec (.rowBad owner inst row hour) s = .next t ∧ t = { s with agg := t.agg } ∧
    (∀ c k, owner = .drover c k → c < 32 → k < 33 → hour = none ∨ Config.spareRows (inst % 2 ^ 32) ≤
        s.agg.flt.rows.get (inst % 2 ^ 32) →
      (s.agg.clusterBusy c = true → (c, k) ∈ t.agg.det.retiring) ∧
      (s.agg.clusterBusy c = false → k ∈ t.agg.det.lost.get c)) ∧
    (s.agg.flt.rows.get (inst % 2 ^ 32) < Config.spareRows (inst % 2 ^ 32) →
      t.agg.flt.rows.get (inst % 2 ^ 32) = s.agg.flt.rows.get (inst % 2 ^ 32) + 1 ∧
      (owner = .other → ∃ e, e.etype = 6 ∧ e.unit = inst % 2 ^ 32 ∧ e.place = row % 2 ^ 20 ∧
        t = { s with agg := { s.agg with flt := t.agg.flt, rprQueue := s.agg.rprQueue ++ [e] } } ∧
        t.agg.flt = { s.agg.flt with rows := t.agg.flt.rows }) ∧
      (owner ≠ .other → t.agg.flt = { s.agg.flt with
          rows := t.agg.flt.rows
          rowsDue := s.agg.flt.rowsDue ++ [(owner, inst % 2 ^ 32, row, s.agg.flt.rows.get (inst % 2 ^ 32))] } ∧
        ((∀ c k, owner ≠ .drover c k) ∨ hour.isSome = true → t = { s with agg := { s.agg with flt := t.agg.flt } }))) ∧
    (Config.spareRows (inst % 2 ^ 32) ≤ s.agg.flt.rows.get (inst % 2 ^ 32) →
      t.agg.flt = s.agg.flt ∧ (owner = .other → t = s) ∧
      (∀ off size, owner = .tree off size →
        t = { s with agg := { s.agg with p := t.agg.p, hdg := t.agg.hdg } } ∧
        s.agg.p.onlyRegs t.agg.p [HDG_STATUS_FREE_4K] ∧
        t.agg.hdg = { s.agg.hdg with withheld := s.agg.hdg.withheld ++ [(off, size)] }) ∧
      (∀ x, owner = .array x → t.agg.reg (VRF_ARR_STATUS_STATE x) = 2))) ∧
  (s.agg.rprQueue = [] → ∀ b, exec (.repairLogAppend b) s = .next s) ∧
  (∀ e rest k, s.agg.rprQueue = e :: rest → k = s.agg.rprLive.getD 1 → s.agg.rprCompacts = true →
    ∃ t b, exec (.repairLogAppend b) s = .next t ∧ exec (.repairLogAppend (!b)) s = .next t ∧
    t = { s with agg := { s.agg with
      p := t.agg.p, conf := t.agg.conf, flt := { s.agg.flt with compact := t.agg.flt.compact } } } ∧
    t.agg.rprSector k = s.agg.rprSector k ∧
    s.agg.p.onlyRegs t.agg.p [FLT_RPR_STATUS_ENTRIES, FLT_RPR_STATUS_GEN, FLT_RPR_STATUS_FREE] ∧
    (s.agg.flt.compact = 0 → t.agg.flt.compact = 1 ∧ (t.agg.rprSector (1 - k)).header = [] ∧
      (t.agg.rprSector (1 - k)).places = (s.agg.rprSector k).kept.map some) ∧
    (s.agg.flt.compact = 1 → t.agg.flt.compact = 2 ∧
      (t.agg.rprSector (1 - k)).gen = some (((s.agg.rprSector k).gen.getD 0 + 1) % 2 ^ 32) ∧
      (t.agg.rprSector (1 - k)).places = (s.agg.rprSector (1 - k)).places) ∧
    (s.agg.flt.compact = 2 → t.agg.flt.compact = 3 ∧ t.agg.rprSector (1 - k) = {})) ∧
  (∀ e rest k, s.agg.rprQueue = e :: rest → s.agg.rprLive = some k → s.agg.rprCompacts = false →
      (s.agg.rprSector k).places.length < rprPlaces →
    (∃ t l, exec (.repairLogAppend true) s = .next t ∧
      t = { s with agg := { s.agg with
        p := t.agg.p, conf := t.agg.conf, flt := { s.agg.flt with compact := 0, again := false }, rprQueue := rest } } ∧
      (t.agg.rprSector k).places = (s.agg.rprSector k).places ++ [some l] ∧ l.length = 32 ∧ rprValid l = true ∧
      leAt l 0 1 = e.etype % 256 ∧ leAt l 4 4 = ((s.agg.rprSector k).entries.getLast?.elim 0 fun x => (leAt x 4 4 + 1) % 2 ^ 32) ∧
      t.agg.rprSector (1 - k) = s.agg.rprSector (1 - k)) ∧
    (∃ t l, exec (.repairLogAppend false) s = .next t ∧ t = { s with agg := t.agg } ∧
      (t.agg.rprSector k).places = (s.agg.rprSector k).places ++ [none] ∧
      t.agg.flt.again = (!s.agg.flt.again) ∧ t.agg.reg FLT_EVENT_RPR_WRITE_FAIL = 1 ∧
      t.agg.rprQueue = (if s.agg.flt.again then rest else e :: rest) ++ l)) ∧
  (∀ eseq, ∃ t e, exec (.revoke eseq) s = .next t ∧
    t = { s with agg := { s.agg with rprQueue := s.agg.rprQueue ++ [e] } } ∧ e.etype = 9 ∧ e.place = eseq % 2 ^ 32) ∧
  (∀ ms, s.agg.cfg FLT_AGE_CFG_PERIOD_H = 0 → exec (.agingCheck .agg ms) s = .next s) ∧
  (∀ ms, s.ulg.cfg ULG_FLT_AGE_CFG_PERIOD_H = 0 → exec (.agingCheck .ulg ms) s = .next s) ∧
  (∀ (m : AgeSample) h, h = s.agg.cfg FLT_AGE_CFG_PERIOD_H → m.island < 79 → h ≠ 0 → ∃ t,
    exec (.agingCheck .agg [m]) s = .next t ∧ t = { s with agg := t.agg } ∧
    (s.agg.p.nowNs / (h * 3600 * 1000000000) + 1) * (h * 3600 * 1000000000) ≤ t.agg.p.nowNs ∧
    (t.agg.reg (FLT_AGE_STATUS_SLACK_PS m.island) : Int) = m.slackPs % 2 ^ 16 ∧
    (t.agg.reg (FLT_AGE_STATUS_LOSS_PS m.island) : Int) = (m.fusedPs - m.slackPs) % 2 ^ 16 ∧
    t.agg.reg (FLT_AGE_STATUS_LAST_SEC m.island) = t.agg.p.nowSec % 2 ^ 32 ∧
    (m.fusedPs - m.slackPs < (s.agg.cfg FLT_AGE_CFG_WARN_PS : Int) → (s.agg.cfg FLT_AGE_CFG_MIN_PS : Int) < m.slackPs →
      t = { s with agg := { s.agg with p := t.agg.p } } ∧
      s.agg.p.onlyTime t.agg.p [FLT_AGE_STATUS_SLACK_PS m.island, FLT_AGE_STATUS_LOSS_PS m.island,
        FLT_AGE_STATUS_LAST_SEC m.island]) ∧
    ((s.agg.cfg FLT_AGE_CFG_WARN_PS : Int) ≤ m.fusedPs - m.slackPs → t.agg.reg FLT_EVENT_AGE_WARN = 1 ∧
      m.island ∈ t.agg.flt.aged) ∧
    (m.slackPs ≤ (s.agg.cfg FLT_AGE_CFG_MIN_PS : Int) → t.agg.reg FLT_EVENT_AGE_LIMIT = 1) ∧
    (m.slackPs < (s.agg.cfg FLT_AGE_CFG_MIN_PS : Int) →
      (m.island < 32 → t.agg.reg (FLT_DRV_CLUSTER_STATE m.island) = 3) ∧
      (32 ≤ m.island → m.island < 40 → t.agg.reg (VRF_ARR_STATUS_STATE (m.island - 32)) = 2))) ∧
  (∀ (m : AgeSample) h, h = s.ulg.cfg ULG_FLT_AGE_CFG_PERIOD_H → h ≠ 0 → ∃ t,
    exec (.agingCheck .ulg [m]) s = .next t ∧ t = { s with ulg := t.ulg } ∧
    (s.ulg.p.nowNs / (h * 3600 * 1000000000) + 1) * (h * 3600 * 1000000000) ≤ t.ulg.p.nowNs ∧
    t.ulg.reg ULG_FLT_AGE_ISLAND = m.island % 256 ∧
    (t.ulg.reg ULG_FLT_AGE_SLACK_PS : Int) = m.slackPs % 2 ^ 16 ∧
    (t.ulg.reg ULG_FLT_AGE_LOSS_PS : Int) = (m.fusedPs - m.slackPs) % 2 ^ 16 ∧
    (m.fusedPs - m.slackPs < (s.ulg.cfg ULG_FLT_AGE_CFG_WARN_PS : Int) →
      (s.ulg.cfg ULG_FLT_AGE_CFG_MIN_PS : Int) < m.slackPs → t = { s with ulg := { s.ulg with p := t.ulg.p } } ∧
      s.ulg.p.onlyTime t.ulg.p [ULG_FLT_AGE_ISLAND, ULG_FLT_AGE_SLACK_PS, ULG_FLT_AGE_LOSS_PS]) ∧
    ((s.ulg.cfg ULG_FLT_AGE_CFG_WARN_PS : Int) ≤ m.fusedPs - m.slackPs → t.ulg.reg ULG_FLT_EVENT_AGE_WARN = 1) ∧
    (m.slackPs ≤ (s.ulg.cfg ULG_FLT_AGE_CFG_MIN_PS : Int) → t.ulg.reg ULG_FLT_EVENT_AGE_LIMIT = 1))

/-! ### Power (14) -/

/-- Power domains of both parts (R443 to R450): a request is refused, already met, put to the owner or kept for later, the
owner accepts or denies, the transition completes, and each requester is answered. Where the spec is open, the clauses rest
on the model's reading (log entries 92 and 93). -/
def Obligations.DomainsChangeState : Prop := ∀ s : State,
  (∀ (value : Word) d tgt x, d = value.toNat % 256 → tgt = value.toNat / 256 % 4 → x = s.agg.pwr.dom.get d →
    (s.agg.reg CFG_STATUS_STATE = 5 ∨ bitAt value.toNat 10 = false → exec (.domainRequest value) s = .next s) ∧
    (s.agg.reg CFG_STATUS_STATE ≠ 5 → bitAt value.toNat 10 = true →
      (aggDomain d = true → tgt < 3 → (x.asked.isSome = true ∨ x.running.isSome = true) →
        ∃ t, exec (.domainRequest value) s = .next t ∧
        t = { s with agg := { s.agg with p := t.agg.p, pwr := t.agg.pwr } } ∧
        t.agg.pwr.dom.get d = { x with pending := some { tgt := tgt } } ∧ t.agg.reg (PWR_DOM_STATUS_PENDING d) = 1 ∧
        ∀ k, k ≠ d → t.agg.pwr.dom.get k = s.agg.pwr.dom.get k) ∧
      (aggDomain d = false ∨ 3 ≤ tgt ∨ x.asked = none ∧ x.running = none →
        (∀ w, s.agg.domRefusal d tgt = some w → ∃ t, exec (.domainRequest value) s = .next t ∧
          t = { s with agg := { s.agg with p := t.agg.p } } ∧
          t.agg.reg (PWR_DOM_STATUS_LAST_REFUSE d) = w % 8 ∧ t.agg.reg PWR_EVENT_DOM_REFUSED = 1) ∧
        (s.agg.domRefusal d tgt = none → s.agg.reg (PWR_DOM_STATUS_STATE d) = tgt →
          exec (.domainRequest value) s = .next s) ∧
        (s.agg.domRefusal d tgt = none → s.agg.reg (PWR_DOM_STATUS_STATE d) ≠ tgt →
          ∃ t, exec (.domainRequest value) s = .next t ∧
          t = { s with agg := { s.agg with p := t.agg.p, pwr := t.agg.pwr } } ∧
          t.agg.pwr.dom.get d = { x with asked := some { tgt := tgt } } ∧
          ∀ k, k ≠ d → t.agg.pwr.dom.get k = s.agg.pwr.dom.get k)))) ∧
  (∀ d, (s.agg.pwr.dom.get d).asked = none →
    exec (.quiesceAccept .agg d) s = .next s ∧ exec (.quiesceDeny .agg d) s = .next s) ∧
  (∀ d x r, s.agg.pwr.dom.get d = x → x.asked = some r →
    (s.agg.domQuiet d = false → exec (.quiesceAccept .agg d) s = .next s) ∧
    (s.agg.domQuiet d = true → ∃ t, exec (.quiesceAccept .agg d) s = .next t ∧ t = { s with agg := t.agg } ∧
      t.agg.pwr.dom.get d = { x with asked := none, running := some r } ∧ t.agg.reg (PWR_DOM_STATUS_BUSY d) = 1 ∧
      t.agg.reg (PWR_DOM_STATUS_STATE d) = s.agg.reg (PWR_DOM_STATUS_STATE d) ∧
      (r.tgt = 0 ∨ 0x08 ≤ d ∧ d < 0x10 → t = { s with agg := { s.agg with p := t.agg.p, pwr := t.agg.pwr } }) ∧
      (d < 0x08 → r.tgt ≠ 0 → s.agg.reg (VRF_ARR_STATUS_STATE d) = 0 → t.agg.reg (VRF_ARR_STATUS_STATE d) = 3)) ∧
    (x.pending = none → ∃ t, exec (.quiesceDeny .agg d) s = .next t ∧
      t = { s with agg := { s.agg with p := t.agg.p, pwr := t.agg.pwr } } ∧
      t.agg.pwr.dom.get d = { x with asked := none } ∧ t.agg.reg (PWR_DOM_STATUS_LAST_REFUSE d) = 1 ∧
      t.agg.reg (PWR_DOM_REFUSE_BUSY d) = min (s.agg.reg (PWR_DOM_REFUSE_BUSY d) + 1) (2 ^ 16 - 1)) ∧
    (∀ q, x.pending = some q → s.agg.reg (PWR_DOM_STATUS_STATE d) = q.tgt → ∃ t,
      exec (.quiesceDeny .agg d) s = .next t ∧
      t = { s with agg := { s.agg with p := t.agg.p, pwr := t.agg.pwr } } ∧
      t.agg.pwr.dom.get d = { x with asked := none, pending := none })) ∧
  (∀ d, (s.agg.pwr.dom.get d).running = none → exec (.domainTransitionComplete .agg d) s = .next s) ∧
  (∀ d x r, s.agg.pwr.dom.get d = x → x.running = some r → x.pending = none → r.tgt < 3 → ∃ t,
    exec (.domainTransitionComplete .agg d) s = .next t ∧ t = { s with agg := t.agg } ∧
    t.agg.reg (PWR_DOM_STATUS_STATE d) = r.tgt ∧ t.agg.reg (PWR_DOM_STATUS_BUSY d) = 0 ∧
    t.agg.pwr.dom.get d = { x with running := none } ∧
    (0x08 ≤ d → d < 0x0C → t = { s with agg := { s.agg with p := t.agg.p, pwr := t.agg.pwr } })) ∧
  (∀ (x : Fin 2) (c : Cmd) d tgt m, s.ulg.inTurn x c → d = c.arg % 256 → tgt = c.arg / 256 % 4 →
    m = s.ulg.pwr.dom.get d →
    (c.addr ≠ 0 → ∃ t r, exec (.domain x c) s = .next t ∧ t = { s with ulg := t.ulg } ∧ s.ulg.answers t.ulg x r ∧
      r.status = 1 ∧ t.ulg.pwr = s.ulg.pwr) ∧
    (c.addr = 0 → tgt < 3 → 22 ≤ d ∨ m.asked = none ∧ m.running = none →
      (∀ w, s.ulg.domRefusal d tgt = some w → ∃ t r, exec (.domain x c) s = .next t ∧ t = { s with ulg := t.ulg } ∧
        s.ulg.answers t.ulg x r ∧ r.status = 2 ∧ r.arg = w ∧ t.ulg.pwr = s.ulg.pwr ∧
        t.ulg.reg ULG_PD_EVENT_REFUSED = 1) ∧
      (s.ulg.domRefusal d tgt = none → s.ulg.reg (ULG_PD_STATUS_ST d) = tgt → ∃ t r, exec (.domain x c) s = .next t ∧
        t = { s with ulg := t.ulg } ∧ s.ulg.answers t.ulg x r ∧ r.status = 0 ∧ r.data = [tgt] ∧
        t.ulg.pwr = s.ulg.pwr) ∧
      (s.ulg.domRefusal d tgt = none → s.ulg.reg (ULG_PD_STATUS_ST d) ≠ tgt → ∃ t, exec (.domain x c) s = .next t ∧
        t = { s with ulg := t.ulg } ∧
        t.ulg.pwr.dom.get d = { m with asked := some {
          tgt := tgt, from_ := (x : Nat) + 1, seq := c.seq, nonce := (s.ulg.link.port.get x).l.nonce } } ∧
        (t.ulg.link.port.get x).respQ = (s.ulg.link.port.get x).respQ)) ∧
    (c.addr = 0 → tgt < 3 → d < 22 → (m.asked.isSome = true ∨ m.running.isSome = true) → m.pending = none →
      ∃ t, exec (.domain x c) s = .next t ∧ t = { s with ulg := t.ulg } ∧
        t.ulg.pwr.dom.get d = { m with pending := some {
          tgt := tgt, from_ := (x : Nat) + 1, seq := c.seq, nonce := (s.ulg.link.port.get x).l.nonce } } ∧
        (t.ulg.link.port.get x).respQ = (s.ulg.link.port.get x).respQ) ∧
    (∀ i, i = Instr.domainQuery x c ∨ i = .domain x c ∧ tgt = 3 → ∃ t r,
      exec i s = .next t ∧ t = { s with ulg := t.ulg } ∧ s.ulg.answers t.ulg x r ∧ t.ulg.pwr = s.ulg.pwr ∧
      (c.addr = 0 → d < 22 → r.status = 0 ∧ r.data = [s.ulg.reg (ULG_PD_STATUS_ST d)]) ∧
      (c.addr = 0 → 22 ≤ d → r.status = 2 ∧ r.arg = 6) ∧ (c.addr ≠ 0 → r.status = 1))) ∧
  (∀ d, (s.ulg.pwr.dom.get d).asked = none →
    exec (.quiesceAccept .ulg d) s = .next s ∧ exec (.quiesceDeny .ulg d) s = .next s) ∧
  (∀ d m r, s.ulg.pwr.dom.get d = m → m.asked = some r →
    (s.ulg.domQuiet d = false → exec (.quiesceAccept .ulg d) s = .next s) ∧
    (s.ulg.domQuiet d = true → ∃ t, exec (.quiesceAccept .ulg d) s = .next t ∧ t = { s with ulg := t.ulg } ∧
      t.ulg.pwr.dom.get d = { m with asked := none, running := some r } ∧
      (d < 22 → t.ulg.reg ULG_PD_STATUS_BUSY = 1) ∧
      (r.tgt = 0 ∨ d < 0x12 → t = { s with ulg := { s.ulg with p := t.ulg.p, pwr := t.ulg.pwr } })) ∧
    (m.pending = none → ∃ t, exec (.quiesceDeny .ulg d) s = .next t ∧ t = { s with ulg := t.ulg } ∧
      t.ulg.pwr.dom.get d = { m with asked := none } ∧
      t.ulg.reg ULG_PD_REFUSE_BUSY = min (s.ulg.reg ULG_PD_REFUSE_BUSY + 1) (2 ^ 16 - 1) ∧
      (r.from_ = 3 → t = { s with ulg := { s.ulg with p := t.ulg.p, pwr := t.ulg.pwr } } ∧
        t.ulg.pwr.ack = s.ulg.pwr.ack ∧ (s.ulg.pwr.req = true → t.ulg.pwr.deny = true)) ∧
      (∀ x : Fin 2, r.from_ = (x : Nat) + 1 → r.nonce = (s.ulg.link.port.get x).l.nonce →
        ((s.ulg.link.port.get x).running.any fun q => q.1 = r.seq) = true →
        ∃ q, (t.ulg.link.port.get x).respQ = (s.ulg.link.port.get x).respQ ++ [q] ∧ q.status = 2 ∧ q.arg = 1 ∧
          q.seq = r.seq))) ∧
  (∀ d, (s.ulg.pwr.dom.get d).running = none → exec (.domainTransitionComplete .ulg d) s = .next s) ∧
  (∀ d m r, s.ulg.pwr.dom.get d = m → m.running = some r → m.pending = none → r.tgt < 3 → d < 22 →
    (0x14 ≤ d → r.tgt ≠ 0 → s.ulg.respWaits (d - 0x14) = true →
      exec (.domainTransitionComplete .ulg d) s = .next s) ∧
    (d < 0x14 ∨ r.tgt = 0 ∨ s.ulg.respWaits (d - 0x14) = false → ∃ t,
      exec (.domainTransitionComplete .ulg d) s = .next t ∧ t = { s with ulg := t.ulg } ∧
      t.ulg.reg (ULG_PD_STATUS_ST d) = r.tgt ∧ t.ulg.pwr.dom.get d = { m with running := none } ∧
      (r.from_ = 3 → s.ulg.pwr.req = true → t.ulg.pwr.ack = true) ∧
      (r.from_ = 3 → r.tgt = 0 → d < 0x14 → t = { s with ulg := { s.ulg with p := t.ulg.p, pwr := t.ulg.pwr } }) ∧
      (d ≤ 0x10 → r.tgt = 2 → d ∈ t.ulg.pwr.dark ∧ ∀ i, ctrDomain i = d → t.ulg.cnt.counters.get i = 0) ∧
      (d = 0x11 → r.tgt = 2 → t.ulg.trc.core = [] ∧ t.ulg.trc.ring = [] ∧ t.ulg.trc.openWords = []) ∧
      (d = 0x12 → r.tgt = 2 → t.ulg.ft.core = [] ∧ t.ulg.ft.inst = []) ∧
      (∀ x : Fin 2, r.from_ = (x : Nat) + 1 → r.nonce = (s.ulg.link.port.get x).l.nonce → d < 0x14 →
        ((s.ulg.link.port.get x).running.any fun q => q.1 = r.seq) = true →
        ∃ q, (t.ulg.link.port.get x).respQ = (s.ulg.link.port.get x).respQ ++ [q] ∧ q.status = 0 ∧ q.data = [r.tgt] ∧
          q.seq = r.seq))) ∧
  (∀ (grp : Fin 16) (tgt : Fin 4) m, m = s.ulg.pwr.dom.get grp →
    (s.ulg.pwr.req = true → exec (.pdReq grp tgt) s = .next s) ∧
    (s.ulg.pwr.req = false → ∃ t, exec (.pdReq grp tgt) s = .next t ∧
      t = { s with ulg := { s.ulg with p := t.ulg.p, pwr := t.ulg.pwr } } ∧ t.ulg.pwr.req = true ∧
      (tgt = 3 ∨ s.ulg.cfgOn ULG_PD_CFG_HS_EN = false → t.ulg.pwr.deny = true ∧ t.ulg.pwr.ack = false ∧
        t.ulg.pwr.dom = s.ulg.pwr.dom ∧ t.ulg.reg ULG_PD_EVENT_HS_DENY = 1) ∧
      (tgt = 3 → t.ulg.reg ULG_PD_EVENT_HS_VIOL = 1) ∧
      (tgt ≠ 3 → s.ulg.cfgOn ULG_PD_CFG_HS_EN = true → m.asked = none → m.running = none →
        (∀ w, s.ulg.domRefusal grp tgt = some w →
          t.ulg.pwr.deny = true ∧ t.ulg.pwr.ack = false ∧ t.ulg.pwr.dom = s.ulg.pwr.dom) ∧
        (s.ulg.domRefusal grp tgt = none → s.ulg.reg (ULG_PD_STATUS_ST grp) = (tgt : Nat) →
          t.ulg.pwr.ack = true ∧ t.ulg.pwr.deny = false ∧ t.ulg.pwr.dom = s.ulg.pwr.dom) ∧
        (s.ulg.domRefusal grp tgt = none → s.ulg.reg (ULG_PD_STATUS_ST grp) ≠ (tgt : Nat) →
          t.ulg.pwr.ack = false ∧ t.ulg.pwr.deny = false ∧
          t.ulg.pwr.dom.get grp = { m with asked := some { tgt := tgt, from_ := 3 } })) ∧
      (tgt ≠ 3 → s.ulg.cfgOn ULG_PD_CFG_HS_EN = true → m.pending = none →
        (m.asked.isSome = true ∨ m.running.isSome = true) → t.ulg.pwr.ack = false ∧ t.ulg.pwr.deny = false ∧
        t.ulg.pwr.dom.get grp = { m with pending := some { tgt := tgt, from_ := 3 } }))) ∧
  (exec .pdReqRelease s = .next { s with ulg := { s.ulg with pwr := { s.ulg.pwr with req := false, ack := false, deny := false } } })

/-- The last gasp (R451 to R456, R467): the flush arms and disarms, starts when main power goes, seals, is cut, and ends
when main power is back; the cell is tested while no flush runs. Where the spec is open, the clauses rest on the model's
reading (log entries 94 and 96). -/
def Obligations.LastGaspRuns : Prop := ∀ s : State,
  (∀ mv (ok : Bool) (good : Prop), mv < 2 ^ 16 → (good ↔ s.agg.cfgOn PWR_CFG_GASP_EN = true ∧ ok = true ∧ s.agg.cfg PWR_CFG_ARM_MV ≤ mv ∧
      (s.agg.flushPages (s.agg.reg PWR_STATUS_NEXT_SLOT)).erased = true) →
    (∃ t, exec (.arm mv ok) s = .next t ∧ t = { s with agg := { s.agg with p := t.agg.p } } ∧
      s.agg.p.onlyRegs t.agg.p [PWR_STATUS_CELL_MV, PWR_STATUS_CELL_OK, PWR_STATUS_FLUSH] ∧
      t.agg.reg PWR_STATUS_CELL_MV = mv ∧ t.agg.reg PWR_STATUS_CELL_OK = ok.toNat ∧
      (s.agg.reg PWR_STATUS_FLUSH = 0 → good → t.agg.reg PWR_STATUS_FLUSH = 1) ∧
      (s.agg.reg PWR_STATUS_FLUSH ≠ 0 ∨ ¬ good → t.agg.reg PWR_STATUS_FLUSH = s.agg.reg PWR_STATUS_FLUSH)) ∧
    (∃ t, exec (.disarm mv ok) s = .next t ∧ t = { s with agg := { s.agg with p := t.agg.p } } ∧
      s.agg.p.onlyRegs t.agg.p [PWR_STATUS_CELL_MV, PWR_STATUS_CELL_OK, PWR_STATUS_FLUSH] ∧
      t.agg.reg PWR_STATUS_CELL_MV = mv ∧ t.agg.reg PWR_STATUS_CELL_OK = ok.toNat ∧
      (s.agg.reg PWR_STATUS_FLUSH = 1 → ¬ good → t.agg.reg PWR_STATUS_FLUSH = 0) ∧
      (s.agg.reg PWR_STATUS_FLUSH ≠ 1 ∨ good → t.agg.reg PWR_STATUS_FLUSH = s.agg.reg PWR_STATUS_FLUSH))) ∧
  (s.agg.reg PWR_STATUS_FLUSH = 0 ∨ s.agg.reg PWR_STATUS_FLUSH = 1 → ∃ t, exec .pfail s = .next t ∧
    t = { s with agg := t.agg } ∧ t.agg.reg PWR_STATUS_FLUSH = 2 ∧ t.agg.reg PWR_STATUS_MAIN_OK = 0 ∧
    t.agg.reg PWR_EVENT_GASP = 1 ∧ t.agg.pwr.flush.atNs = s.agg.p.nowNs ∧ t.agg.pwr.flush.bytes = s.agg.tailBytes ∧
    t.agg.pwr.flush.incomplete = false ∧ (t.agg.pwr.flush.armed = true ↔ s.agg.reg PWR_STATUS_FLUSH = 1) ∧
    (s.agg.reg PWR_STATUS_FLUSH = 0 → t.agg.reg PWR_EVENT_UNARMED_GASP = 1) ∧
    ∀ x < 8, (t.agg.vrf.arr.get x).passes = []) ∧
  (2 ≤ s.agg.reg PWR_STATUS_FLUSH → ∃ t, exec .pfail s = .next t ∧ t = { s with agg := { s.agg with p := t.agg.p } } ∧
    s.agg.p.onlyRegs t.agg.p [PWR_STATUS_MAIN_OK] ∧ t.agg.reg PWR_STATUS_MAIN_OK = 0) ∧
  (s.agg.reg PWR_STATUS_FLUSH = 2 → s.agg.tailLeft = [] → ∃ t, exec .tailFlushed s = .next t ∧
    t = { s with agg := { s.agg with p := t.agg.p } } ∧ s.agg.p.onlyRegs t.agg.p [PWR_STATUS_FLUSH] ∧
    t.agg.reg PWR_STATUS_FLUSH = 3) ∧
  (s.agg.reg PWR_STATUS_FLUSH ≠ 2 ∨ s.agg.tailLeft ≠ [] → exec .tailFlushed s = .next s) ∧
  (s.agg.reg PWR_STATUS_FLUSH = 2 → ∃ t, exec .flushLimit s = .next t ∧
    t = { s with agg := { s.agg with p := t.agg.p, pwr := t.agg.pwr } } ∧
    s.agg.p.onlyEvents t.agg.p [PWR_STATUS_FLUSH, PWR_EVENT_INCOMPLETE] [0x0C03] ∧ t.agg.reg PWR_STATUS_FLUSH = 3 ∧
    t.agg.pwr = { s.agg.pwr with flush := { s.agg.pwr.flush with incomplete := true } } ∧
    s.agg.pwr.flush.atNs + s.agg.cfg PWR_CFG_FLUSH_LIMIT_MS * 1000000 ≤ t.agg.p.nowNs) ∧
  (s.agg.reg PWR_STATUS_FLUSH ≠ 2 → exec .flushLimit s = .next s) ∧
  (s.agg.reg PWR_STATUS_FLUSH = 3 → s.agg.bit PWR_STATUS_MAIN_OK = false → ∃ t, exec .sealed s = .next t ∧
    t = { s with agg := { s.agg with p := t.agg.p, conf := t.agg.conf } } ∧
    s.agg.p.onlyRegs t.agg.p [PWR_STATUS_FLUSH] ∧ t.agg.reg PWR_STATUS_FLUSH = 4 ∧
    (s.agg.pwr.flush.armed = false → t.agg.conf = s.agg.conf) ∧
    (s.agg.pwr.flush.armed = true →
      (t.agg.flushPages s.agg.pwr.flush.slot).begin_ = (s.agg.flushPages s.agg.pwr.flush.slot).begin_ ∧
      pageValid 0x71 (t.agg.flushPages s.agg.pwr.flush.slot).end_ = true)) ∧
  (s.agg.reg PWR_STATUS_FLUSH = 3 → s.agg.bit PWR_STATUS_MAIN_OK = true → ∃ t, exec .sealed s = .next t ∧
    t = { s with agg := t.agg } ∧ t.agg.reg PWR_STATUS_FLUSH = 0 ∧ t.agg.reg PWR_EVENT_SEALED = 1) ∧
  (s.agg.reg PWR_STATUS_FLUSH ≠ 3 → exec .sealed s = .next s) ∧
  (s.agg.reg PWR_STATUS_FLUSH = 4 → ∃ t, exec .mainReturn s = .next t ∧ t = { s with agg := t.agg } ∧
    t.agg.reg PWR_STATUS_FLUSH = 0 ∧ t.agg.reg PWR_STATUS_MAIN_OK = 1 ∧ t.agg.reg PWR_EVENT_SEALED = 1) ∧
  (s.agg.reg PWR_STATUS_FLUSH = 2 ∨ s.agg.reg PWR_STATUS_FLUSH = 3 → ∃ t, exec .mainReturn s = .next t ∧
    t = { s with agg := { s.agg with p := t.agg.p, pwr := { s.agg.pwr with flush := { s.agg.pwr.flush with mainBack := true } } } } ∧
    s.agg.p.onlyRegs t.agg.p [PWR_STATUS_MAIN_OK] ∧ t.agg.reg PWR_STATUS_MAIN_OK = 1) ∧
  (s.agg.reg PWR_STATUS_FLUSH < 2 → ∃ t, exec .mainReturn s = .next t ∧
    t = { s with agg := { s.agg with p := t.agg.p } } ∧
    s.agg.p.onlyRegs t.agg.p [PWR_STATUS_MAIN_OK] ∧ t.agg.reg PWR_STATUS_MAIN_OK = 1) ∧
  (s.agg.reg PWR_STATUS_FLUSH = 5 → s.agg.pwr.flush.slot < 2 → ∃ t, exec .mainReturn s = .next t ∧
    t = { s with agg := t.agg } ∧ t.agg.reg PWR_STATUS_FLUSH = 2 ∧ t.agg.reg PWR_STATUS_MAIN_OK = 1 ∧
    t.agg.reg PWR_EVENT_GASP = 1 ∧ t.agg.pwr.flush.slot = 1 - s.agg.pwr.flush.slot ∧
    t.agg.pwr.flush.mainBack = true ∧ t.agg.pwr.flush.armed = s.agg.cfgOn PWR_CFG_GASP_EN) ∧
  (∀ mv, mv < 2 ^ 16 →
    (s.agg.cfg PWR_CFG_WARN_MV < mv → ∃ t, exec (.cut mv) s = .next t ∧
      t = { s with agg := { s.agg with p := t.agg.p } } ∧ s.agg.p.onlyRegs t.agg.p [PWR_STATUS_CELL_MV] ∧
      t.agg.reg PWR_STATUS_CELL_MV = mv) ∧
    (mv ≤ s.agg.cfg PWR_CFG_WARN_MV → (s.agg.reg PWR_STATUS_FLUSH = 2 ∨ s.agg.reg PWR_STATUS_FLUSH = 3) →
      s.agg.bit PWR_STATUS_MAIN_OK = false → ∃ t, exec (.cut mv) s = .next t ∧
      t = { s with agg := { s.agg with p := t.agg.p, conf := t.agg.conf } } ∧ t.agg.p.nowNs = s.agg.p.nowNs ∧
      s.agg.p.regs.onlyAt t.agg.p.regs [PWR_STATUS_CELL_MV, PWR_STATUS_FLUSH, PWR_EVENT_CELL_LOW, PWR_EVENT_CUT] ∧
      t.agg.reg PWR_STATUS_FLUSH = 5 ∧ t.agg.reg PWR_STATUS_CELL_MV = mv ∧
      t.agg.reg PWR_EVENT_CELL_LOW = 1 ∧ t.agg.reg PWR_EVENT_CUT = 1 ∧
      (s.agg.pwr.flush.armed = false → t.agg.conf = s.agg.conf ∧
        s.agg.p.onlyEvents t.agg.p [PWR_STATUS_CELL_MV, PWR_STATUS_FLUSH, PWR_EVENT_CELL_LOW, PWR_EVENT_CUT]
          [0x0C05, 0x0C02]) ∧
      (∀ k, k ≠ s.agg.pwr.flush.slot → t.agg.flushPages k = s.agg.flushPages k) ∧
      (s.agg.pwr.flush.armed = true → ∀ w, w = s.agg.flushPages s.agg.pwr.flush.slot →
        (s.agg.reg PWR_STATUS_FLUSH = 2 → ∃ l, (l = w.begin_ ∨ l.length = 64) ∧
          t.agg.flushPages s.agg.pwr.flush.slot = { w with begin_ := l }) ∧
        (s.agg.reg PWR_STATUS_FLUSH = 3 → ∃ l, (l = s.agg.flushEnd ∨ l.length = 64) ∧
          t.agg.flushPages s.agg.pwr.flush.slot = { w with end_ := l }))) ∧
    (mv ≤ s.agg.cfg PWR_CFG_WARN_MV → (s.agg.reg PWR_STATUS_FLUSH < 2 ∨ 3 < s.agg.reg PWR_STATUS_FLUSH ∨
      s.agg.bit PWR_STATUS_MAIN_OK = true) → ∃ t, exec (.cut mv) s = .next t ∧
      t = { s with agg := { s.agg with p := t.agg.p } } ∧
      s.agg.p.onlyEvents t.agg.p [PWR_STATUS_CELL_MV, PWR_EVENT_CELL_LOW] [0x0C05] ∧
      t.agg.reg PWR_STATUS_CELL_MV = mv)) ∧
  (∀ drop, (s.agg.reg CFG_STATUS_STATE = 5 ∨ 2 ≤ s.agg.reg PWR_STATUS_FLUSH → exec (.cellTest drop) s = .next s) ∧
    (s.agg.reg CFG_STATUS_STATE ≠ 5 → s.agg.reg PWR_STATUS_FLUSH ≤ 1 → ∃ t, exec (.cellTest drop) s = .next t ∧
      t = { s with agg := { s.agg with p := t.agg.p, sent := .cellTest :: s.agg.sent } } ∧
      (drop ≤ s.agg.cfg PWR_CFG_TEST_DROP * 100 → t.agg.p = s.agg.p) ∧
      (s.agg.cfg PWR_CFG_TEST_DROP * 100 < drop →
        s.agg.p.onlyEvents t.agg.p [PWR_EVENT_CELL_TEST_FAIL] [0x0C06])))

/-- Slot supervision (R457 to R464): a request is refused, met at once, or becomes a change that the journal begins and
ends, and a slot ramps, is on, drains, trips, backs off and faults as its owner's requests, its samples and its timers say.
Where the spec is open, the clauses rest on the model's reading (log entry 95). -/
def Obligations.SlotsFollowTheirRequests : Prop := ∀ (s : State) (slot : Fin 16) (op : Nat),
  op = s.agg.reg SHED_JRN_NEXT_OP →
  (s.agg.reg CFG_STATUS_STATE = 5 ∨ s.agg.owns slot = false ∨ s.agg.jrnReady = false →
    exec (.slotOn slot) s = .next s ∧ exec (.slotOff slot) s = .next s ∧ exec (.slotClear slot) s = .next s) ∧
  (s.agg.reg CFG_STATUS_STATE ≠ 5 → s.agg.owns slot = true → s.agg.jrnReady = true → s.agg.shed.fenceOp ≤ op →
    (s.agg.safe = true →
      (∃ t, exec (.slotOn slot) s = .next t ∧ t = { s with agg := t.agg } ∧
        s.agg.began t.agg 8 (s.agg.dieOfSlot slot) (slot + 256) ∧ t.agg.ended op 4 ∧ t.agg.pwr = s.agg.pwr ∧
        t.agg.slotSt slot = s.agg.slotSt slot) ∧
      (∃ t, exec (.slotOff slot) s = .next t ∧ t = { s with agg := t.agg } ∧
        s.agg.began t.agg 8 (s.agg.dieOfSlot slot) (slot + 512) ∧ t.agg.ended op 4 ∧ t.agg.pwr = s.agg.pwr ∧
        t.agg.slotSt slot = s.agg.slotSt slot) ∧
      (∃ t, exec (.slotClear slot) s = .next t ∧ t = { s with agg := t.agg } ∧
        s.agg.began t.agg 8 (s.agg.dieOfSlot slot) (slot + 768) ∧ t.agg.ended op 4 ∧ t.agg.pwr = s.agg.pwr ∧
        t.agg.slotSt slot = s.agg.slotSt slot)) ∧
    (s.agg.safe = false →
      (∃ t, exec (.slotOn slot) s = .next t ∧ t = { s with agg := t.agg } ∧
        s.agg.began t.agg 8 (s.agg.dieOfSlot slot) (slot + 256) ∧
        (s.agg.slotSt slot = 2 → t.agg.ended op 0 ∧ t.agg.pwr = s.agg.pwr ∧ t.agg.slotSt slot = 2) ∧
        (s.agg.slotSt slot = 5 → t.agg.ended op 3 ∧ t.agg.pwr = s.agg.pwr ∧ t.agg.slotSt slot = 5) ∧
        (s.agg.slotSt slot = 1 ∨ s.agg.slotSt slot = 4 → op ∈ t.agg.shed.begun ∧
          t.agg.slotSt slot = s.agg.slotSt slot ∧ t.agg.slotCh slot =
            { s.agg.slotCh slot with ops := (s.agg.slotCh slot).ops ++ [op] }) ∧
        (s.agg.slotSt slot = 3 ∨ s.agg.slotSt slot = 0 ∧ t.agg.beginMirrored op = false ∧
            s.agg.bit (SLOT_STATUS_FLT_SENSE slot) = false → op ∈ t.agg.shed.begun ∧
          t.agg.slotSt slot = s.agg.slotSt slot ∧ t.agg.slotCh slot = { s.agg.slotCh slot with
            ops := (s.agg.slotCh slot).ops ++ (s.agg.slotCh slot).waiting.toList, waiting := some op }) ∧
        (s.agg.slotSt slot = 0 → t.agg.beginMirrored op = true → s.agg.bit (SLOT_STATUS_FLT_SENSE slot) = true →
          t.agg.reg PWR_EVENT_SLOT_CTRL_TRIP = 1 ∧ t.agg.reg (SLOT_STATUS_EN_SENSE slot) = 0 ∧
          (t.agg.slotCh slot).waiting = none ∧
          t.agg.slotSt slot = if 0 < s.agg.cfg SLOT_CFG_RETRY_MAX then 4 else 5) ∧
        (s.agg.slotSt slot = 0 → t.agg.beginMirrored op = true → s.agg.bit (SLOT_STATUS_FLT_SENSE slot) = false →
          op ∈ t.agg.shed.begun ∧ t.agg.slotSt slot = 1 ∧
          t.agg.reg (SLOT_STATUS_TRIPS slot) = 0 ∧ t.agg.reg (SLOT_STATUS_EN_SENSE slot) = 1 ∧
          Sent.slotEn slot true ∈ t.agg.sent ∧ (t.agg.slotCh slot).waiting = none ∧
          (t.agg.slotCh slot).ops = (s.agg.slotCh slot).ops ++ (s.agg.slotCh slot).waiting.toList ++ [op])) ∧
      (∃ t, exec (.slotOff slot) s = .next t ∧ t = { s with agg := t.agg } ∧
        s.agg.began t.agg 8 (s.agg.dieOfSlot slot) (slot + 512) ∧ (t.agg.slotCh slot).waiting = none ∧
        (s.agg.slotSt slot = 0 → t.agg.ended op 1 ∧ t.agg.slotSt slot = 0) ∧
        (s.agg.slotSt slot = 5 → t.agg.slotSt slot = 5 ∧
          ((s.agg.slotCh slot).waiting ≠ some op → t.agg.ended op 3)) ∧
        (s.agg.slotSt slot = 3 → t.agg.slotSt slot = 3 ∧
          (t.agg.slotCh slot).ops = (s.agg.slotCh slot).ops ++ [op]) ∧
        (s.agg.slotSt slot = 1 ∨ s.agg.slotSt slot = 2 ∨ s.agg.slotSt slot = 4 → s.agg.slotOpened t.agg slot 3 ∧
          (t.agg.slotCh slot).ops = (s.agg.slotCh slot).ops ++ [op]) ∧
        (∀ old, (s.agg.slotCh slot).waiting = some old → old ∈ s.agg.shed.begun → s.agg.jrnFind old ≠ none →
          s.agg.shed.fenceOp ≤ old → t.agg.ended old 1)) ∧
      (∃ t, exec (.slotClear slot) s = .next t ∧ t = { s with agg := t.agg } ∧
        s.agg.began t.agg 8 (s.agg.dieOfSlot slot) (slot + 768) ∧
        (s.agg.slotSt slot = 0 → t.agg.ended op 2 ∧ t.agg.slotSt slot = 0 ∧ t.agg.pwr = s.agg.pwr) ∧
        (s.agg.slotSt slot = 5 → t.agg.ended op 2 ∧ t.agg.slotSt slot = 0 ∧
          t.agg.reg (SLOT_STATUS_FLT_SENSE slot) = s.agg.reg (SLOT_STATUS_FLT_SENSE slot)) ∧
        (s.agg.slotSt slot ≠ 0 → s.agg.slotSt slot ≠ 5 → t.agg.ended op 4 ∧
          t.agg.slotSt slot = s.agg.slotSt slot ∧ t.agg.pwr = s.agg.pwr)))) ∧
  (∀ k, k ≤ s.agg.cfg (SLOT_ENV0_RAMP_US slot) → 0 < s.agg.cfg (SLOT_ENV0_RAMP_US slot) → s.agg.slotSt slot = 1 →
    s.agg.slotLimit slot ((s.agg.slotCh slot).atNs + 1000 * k) = s.agg.cfg (SLOT_ENV0_I_RAMP0 slot) +
      (s.agg.cfg (SLOT_ENV0_I_RAMP1 slot) - s.agg.cfg (SLOT_ENV0_I_RAMP0 slot)) * k /
        s.agg.cfg (SLOT_ENV0_RAMP_US slot)) ∧
  (∀ code (en fltN : Bool), code < 4096 → ∃ t, exec (.slotSample slot code en fltN) s = .next t ∧ t = { s with agg := t.agg } ∧
    t.agg.reg (SLOT_STATUS_I_NOW slot) = code ∧
    t.agg.reg (SLOT_STATUS_FLT_SENSE slot) = (if fltN = true then 0 else s.agg.reg (SLOT_STATUS_FLT_SENSE slot)) ∧
    (t.agg.slotSt slot = s.agg.slotSt slot → t.agg.reg (SLOT_STATUS_EN_SENSE slot) = en.toNat) ∧
    (s.agg.slotCh slot).sampleNs + 1000 ≤ (t.agg.slotCh slot).sampleNs ∧
    (t.agg.slotCh slot).sampleNs + 1000 ≤ t.agg.p.nowNs ∧
    (t.agg.slotCh slot).samples = (s.agg.slotCh slot).samples + 1 ∧
    (t.agg.slotCh slot).iSum = (s.agg.slotCh slot).iSum + code ∧
    (t.agg.slotCh slot).iMax = max (s.agg.slotCh slot).iMax code ∧
    (s.agg.owns slot = false ∨ s.agg.slotSt slot = 0 ∨ s.agg.slotSt slot = 4 ∨ s.agg.slotSt slot = 5 →
      t = { s with agg := { s.agg with p := t.agg.p, pwr := t.agg.pwr } } ∧
      s.agg.p.onlyTime t.agg.p [SLOT_STATUS_I_NOW slot, SLOT_STATUS_EN_SENSE slot, SLOT_STATUS_FLT_SENSE slot] ∧ (t.agg.slotCh slot).ops = (s.agg.slotCh slot).ops) ∧
    (s.agg.owns slot = true → s.agg.slotSt slot = 1 ∨ s.agg.slotSt slot = 2 → ∀ over_ L,
      L = (if s.agg.slotSt slot = 1 then s.agg.slotLimit slot (t.agg.slotCh slot).sampleNs
        else s.agg.cfg (SLOT_ENV0_I_ON slot)) →
      over_ = (if L < code then (s.agg.slotCh slot).over_ + 1 else 0) →
      (over_ < s.agg.cfg SLOT_CFG_TRIP_N → t = { s with agg := { s.agg with p := t.agg.p, pwr := t.agg.pwr } } ∧
        s.agg.p.onlyTime t.agg.p [SLOT_STATUS_I_NOW slot, SLOT_STATUS_EN_SENSE slot, SLOT_STATUS_FLT_SENSE slot] ∧ (t.agg.slotCh slot).over_ = over_ ∧
        (s.agg.slotSt slot = 1 → (t.agg.slotCh slot).ok =
          if code ≤ s.agg.cfg (SLOT_ENV0_I_ON slot) then (s.agg.slotCh slot).ok + 1 else 0)) ∧
      (s.agg.cfg SLOT_CFG_TRIP_N ≤ over_ → s.agg.slotTripped t.agg slot (s.agg.slotSt slot) ∧
        t.agg.reg PWR_EVENT_SLOT_TRIP = 1 ∧
        t.agg.reg (SLOT_COUNT_TRIPS slot) = min (s.agg.reg (SLOT_COUNT_TRIPS slot) + 1) (2 ^ 16 - 1))) ∧
    (s.agg.owns slot = true → s.agg.slotSt slot = 3 →
      (s.agg.cfg (SLOT_ENV1_I_OFF slot) < code → t = { s with agg := { s.agg with p := t.agg.p, pwr := t.agg.pwr } } ∧
        s.agg.p.onlyTime t.agg.p [SLOT_STATUS_I_NOW slot, SLOT_STATUS_EN_SENSE slot, SLOT_STATUS_FLT_SENSE slot] ∧ (t.agg.slotCh slot).ops = (s.agg.slotCh slot).ops) ∧
      (code ≤ s.agg.cfg (SLOT_ENV1_I_OFF slot) → (s.agg.slotCh slot).waiting = none →
        t.agg.slotSt slot = 0 ∧ s.agg.slotEnded t.agg slot 1) ∧
      (∀ w, code ≤ s.agg.cfg (SLOT_ENV1_I_OFF slot) → (s.agg.slotCh slot).waiting = some w →
        (t.agg.beginMirrored w = true → s.agg.safe = false → s.agg.gasp = false →
          t.agg.reg (SLOT_STATUS_FLT_SENSE slot) ≠ 0 → t.agg.reg PWR_EVENT_SLOT_CTRL_TRIP = 1 ∧
          t.agg.slotSt slot = if 0 < s.agg.cfg SLOT_CFG_RETRY_MAX then 4 else 5) ∧
        (t.agg.beginMirrored w = true → s.agg.safe = false → s.agg.gasp = false →
          t.agg.reg (SLOT_STATUS_FLT_SENSE slot) = 0 → t.agg.slotSt slot = 1 ∧
          t.agg.reg (SLOT_STATUS_EN_SENSE slot) = 1 ∧ (t.agg.slotCh slot).ops = [w]) ∧
        (t.agg.beginMirrored w = false ∧ t.agg.reg (SLOT_STATUS_FLT_SENSE slot) = 0 ∨ s.agg.safe = true ∨
            s.agg.gasp = true → t.agg.slotSt slot = 0 ∧
          s.agg.slotEnded t.agg slot 1 ∧ (t.agg.slotCh slot).waiting = some w)))) ∧
  (∃ t, exec (.slotFlt slot) s = .next t ∧ t = { s with agg := t.agg } ∧ t.agg.reg (SLOT_STATUS_FLT_SENSE slot) = 1 ∧
    (s.agg.owns slot = false ∨ 3 ≤ s.agg.slotSt slot → t = { s with agg := { s.agg with p := t.agg.p, pwr := t.agg.pwr } } ∧
      s.agg.p.onlyRegs t.agg.p [SLOT_STATUS_FLT_SENSE slot]) ∧
    (s.agg.owns slot = true → s.agg.slotSt slot = 0 →
      t = { s with agg := { s.agg with p := t.agg.p, pwr := t.agg.pwr } } ∧
      s.agg.p.onlyEvents t.agg.p [SLOT_STATUS_FLT_SENSE slot, SLOT_COUNT_FLT_UNEXPECTED slot,
        PWR_EVENT_SLOT_FLT_UNEXPECTED] [0x0C0C] ∧ t.agg.reg PWR_EVENT_SLOT_FLT_UNEXPECTED = 1 ∧
      t.agg.reg (SLOT_COUNT_FLT_UNEXPECTED slot) =
        min (s.agg.reg (SLOT_COUNT_FLT_UNEXPECTED slot) + 1) (2 ^ 16 - 1)) ∧
    (s.agg.owns slot = true → s.agg.slotSt slot = 1 ∨ s.agg.slotSt slot = 2 → s.agg.slotTripped t.agg slot 3 ∧
      t.agg.reg PWR_EVENT_SLOT_CTRL_TRIP = 1 ∧
      t.agg.reg (SLOT_COUNT_CTRL_TRIPS slot) = min (s.agg.reg (SLOT_COUNT_CTRL_TRIPS slot) + 1) (2 ^ 16 - 1))) ∧
  (s.agg.slotSt slot ≠ 1 ∨ s.agg.owns slot = false ∨ (s.agg.slotCh slot).ok < s.agg.cfg SLOT_CFG_TRIP_N →
    exec (.rampEnd slot) s = .next s) ∧
  (s.agg.slotSt slot = 1 → s.agg.owns slot = true → s.agg.cfg SLOT_CFG_TRIP_N ≤ (s.agg.slotCh slot).ok →
    ∃ t, exec (.rampEnd slot) s = .next t ∧ t = { s with agg := t.agg } ∧ t.agg.slotSt slot = 2 ∧
      s.agg.slotEnded t.agg slot 0 ∧
      t.agg.reg (SLOT_STATUS_REF_NOW slot) = s.agg.cfg (SLOT_ENV1_REF_TGT slot) % 1024 ∧
      (s.agg.slotCh slot).atNs + s.agg.cfg (SLOT_ENV0_RAMP_US slot) * 1000 ≤ t.agg.p.nowNs ∧
      (t.agg.slotCh slot).over_ = (s.agg.slotCh slot).over_ ∧
      ((s.agg.slotCh slot).ops = [] → t = { s with agg := { s.agg with p := t.agg.p, pwr := t.agg.pwr } } ∧
        s.agg.p.onlyTime t.agg.p [SLOT_STATUS_REF_NOW slot, SLOT_STATUS_STATE slot])) ∧
  (s.agg.slotSt slot ≠ 4 ∨ s.agg.owns slot = false ∨ s.agg.slotsHeld = true → exec (.backoffEnd slot) s = .next s) ∧
  (s.agg.slotSt slot = 4 → s.agg.owns slot = true → s.agg.slotsHeld = false → ∃ t,
    exec (.backoffEnd slot) s = .next t ∧ t = { s with agg := t.agg } ∧
    (s.agg.bit (SLOT_STATUS_FLT_SENSE slot) = false →
      t = { s with agg := { s.agg with p := t.agg.p, pwr := t.agg.pwr, sent := .slotEn slot true :: s.agg.sent } } ∧
      t.agg.slotSt slot = 1 ∧ t.agg.reg (SLOT_STATUS_EN_SENSE slot) = 1 ∧
      (t.agg.slotCh slot).ops = (s.agg.slotCh slot).ops) ∧
    (s.agg.bit (SLOT_STATUS_FLT_SENSE slot) = true → t.agg.reg PWR_EVENT_SLOT_CTRL_TRIP = 1 ∧
      t.agg.reg (SLOT_STATUS_EN_SENSE slot) = 0 ∧ t.agg.reg (SLOT_STATUS_LAST_CAUSE slot) = 3 ∧
      t.agg.slotSt slot =
        if s.agg.reg (SLOT_STATUS_TRIPS slot) < s.agg.cfg SLOT_CFG_RETRY_MAX then 4 else 5) ∧
    (s.agg.slotCh slot).atNs + s.agg.cfg SLOT_CFG_BACKOFF_MS * 2 ^ (s.agg.reg (SLOT_STATUS_TRIPS slot) - 1) * 1000000
      ≤ t.agg.p.nowNs ∧
    t.agg.reg (SLOT_COUNT_RETRIES slot) = min (s.agg.reg (SLOT_COUNT_RETRIES slot) + 1) (2 ^ 16 - 1)) ∧
  (s.agg.slotSt slot ≠ 3 ∨ s.agg.owns slot = false → exec (.drainTimeout slot) s = .next s) ∧
  (s.agg.slotSt slot = 3 → s.agg.owns slot = true → ∃ t, exec (.drainTimeout slot) s = .next t ∧
    t = { s with agg := t.agg } ∧ s.agg.slotOpened t.agg slot 5 ∧ s.agg.slotEnded t.agg slot 3 ∧
    (t.agg.slotCh slot).waiting = none ∧ t.agg.reg (SLOT_STATUS_LAST_CAUSE slot) = 4 ∧
    t.agg.reg PWR_EVENT_SLOT_DRAIN_FAIL = 1 ∧ t.agg.reg PWR_EVENT_SLOT_FAULTED = 1 ∧
    (s.agg.slotCh slot).atNs + s.agg.cfg (SLOT_ENV1_DRAIN_US slot) * 1000 ≤ t.agg.p.nowNs)

/-! ### Start-up and configuration (15) -/

/-- Reset (R471, R472, R503): every register of the part is at its reset value but for pin levels, straps and the
incarnation; flash stays; the time is UNSET and no copy waits. The sequence of the aggregator waits for the supplies.
Where the spec is open, the clauses rest on the model's reading (log entries 5, 6, 28 and 110). -/
def Obligations.ResetLeavesResetValues : Prop := ∀ s : State,
  (∀ twin ftm good, ∃ t, exec (.reset twin ftm good) s = .next t ∧ t = { s with agg := t.agg } ∧
    (∀ f, (∀ g ∈ pinFields, f.key ≠ g.key) → f.key ≠ CFG_STATUS_TWIN_SEL.key → f.key ≠ FLT_STATUS_FTM.key →
      f.key ≠ FAB_STATUS_INCARN.key → t.agg.reg f = f.reset) ∧
    (∀ f, t.agg.cfg f = f.reset) ∧ t.agg.reg CFG_STATUS_TWIN_SEL = (if twin = true then 1 else 0) ∧
    t.agg.reg FLT_STATUS_FTM = (if ftm = true then 1 else 0) ∧ t.agg.conf.held = !good ∧ t.agg.p.copy = none ∧
    t.agg.p.servo.state = 0 ∧ t.agg.p.col.pending = [] ∧ t.agg.shed.mem = [] ∧ t.agg.sent = s.agg.sent ∧
    (∀ f ∈ pinFields, s.agg.reg f < 2 ^ f.width → t.agg.reg f = s.agg.reg f) ∧
    t.agg.conf.flash.rpr = s.agg.conf.flash.rpr ∧
    (s.agg.conf.flashOp = none → t.agg.conf.flash.img = s.agg.conf.flash.img) ∧
    (s.agg.pwr.flush.armed = false ∨ s.agg.reg PWR_STATUS_FLUSH ≠ 2 ∧ s.agg.reg PWR_STATUS_FLUSH ≠ 3 →
      t.agg.conf.flash.flush = s.agg.conf.flash.flush) ∧
    (∀ k, k ≠ s.agg.pwr.flush.slot → t.agg.flushPages k = s.agg.flushPages k) ∧
    (∀ op k b, s.agg.conf.flashOp = some (op, k, b) → ∀ j, j ≠ k → t.agg.conf.flash.img.get j = s.agg.conf.flash.img.get j)) ∧
  (∀ ftm, ∃ t, exec (.uligoReset ftm true) s = .next t ∧ t = { s with ulg := t.ulg } ∧ t.ulg.uid = s.ulg.uid ∧
    (∀ f, t.ulg.cfg f = f.reset) ∧ t.ulg.p.servo.state = 0 ∧ t.ulg.cnt = {} ∧
    t.ulg.reg ULG_FLT_STATUS_BIST_FAIL = 1 ∧ t.ulg.reg ULG_FLT_STATUS_STATE = 1 ∧
    t.ulg.reg ULG_FLT_STATUS_FTM = (if ftm = true then 1 else 0) ∧
    ∃ r ∈ t.ulg.p.col.log, r.source = 0x0A21 ∧ r.cls = 2) ∧
  (∀ ftm, ∃ t, exec (.uligoReset ftm false) s = .next t ∧ t = { s with ulg := t.ulg } ∧ t.ulg.uid = s.ulg.uid ∧
    t.ulg.sent = s.ulg.sent ∧
    (∀ f, (∀ g ∈ [ULG_FLT_STATUS_FTM, ULG_LINK_STATUS_STATE 0, ULG_LINK_STATUS_STATE 1], f.key ≠ g.key) →
      t.ulg.reg f = f.reset) ∧
    t.ulg.reg (ULG_LINK_STATUS_STATE 0) = 1 ∧ t.ulg.reg (ULG_LINK_STATUS_STATE 1) = 1 ∧
    (∀ f, t.ulg.cfg f = f.reset) ∧ t.ulg.reg ULG_FLT_STATUS_FTM = (if ftm = true then 1 else 0) ∧
    t.ulg.p.servo.state = 0 ∧ t.ulg.p.copy = none ∧ t.ulg.cnt = {}) ∧
  (exec .suppliesUp s = .next { s with agg := { s.agg with conf := { s.agg.conf with held := false } } }) ∧
  (∀ key, (key = 0x5A → ∃ t, exec (.smbReset key) s = .next t ∧
      exec (.reset (s.agg.bit CFG_STATUS_TWIN_SEL) (s.agg.bit FLT_STATUS_FTM) true) s = .next t) ∧
    (key ≠ 0x5A → exec (.smbReset key) s =
      .next { s with agg := { s.agg with sent := .smbusNack :: s.agg.sent } })) ∧
  (∃ t, exec .functionLevelReset s = .next t ∧
    t = { s with agg := { s.agg with p := t.agg.p, conf := { s.agg.conf with msix := [] } } } ∧
    s.agg.p.onlyRegs t.agg.p [CFG_APERTURE_BASE_4G] ∧ t.agg.reg CFG_APERTURE_BASE_4G = 0)

/-- The loader's states (R471, R474, R478 to R480, R482): from RESET through DISCOVER and VALIDATE to APPLY and RUN, or to
HELD with its reason, and from HELD by adoption. Where the spec is open, the clauses rest on the model's reading (log
entries 107 and 108). -/
def Obligations.LoaderStatesFollowTheirEvents : Prop := ∀ s : State,
  (s.agg.reg CFG_STATUS_STATE ≠ 0 ∨ s.agg.conf.held = true ∨ s.agg.safe = true → ∀ failed,
    exec (.discoverStart failed) s = .next s) ∧
  (∀ failed, s.agg.reg CFG_STATUS_STATE = 0 → s.agg.conf.held = false → s.agg.safe = false →
    (s.agg.repairsApply.reg (pairField 0) ≠ 0 → s.agg.repairsApply.reg (pairField 1) ≠ 0 →
      exec (.discoverStart failed) s = .next s) ∧
    (s.agg.repairsApply.reg (pairField 0) = 0 ∨ s.agg.repairsApply.reg (pairField 1) = 0 → ∃ t,
      exec (.discoverStart failed) s = .next t ∧ t = { s with agg := t.agg } ∧ t.agg.reg CFG_STATUS_STATE = 1 ∧
      (∀ e ∈ failed, (e.2 : Nat) ∈ t.agg.det.lost.get e.1) ∧
      t.agg.reg FLT_RPR_STATUS_VALID = (if s.agg.rprLive.isSome = true then 1 else 0) ∧ t.agg.p.live = s.agg.p.live ∧
      t.agg.p.staged = s.agg.p.staged ∧ (s.agg.rprLive = none → t.agg.flt = s.agg.flt) ∧
      (∀ sealed_, s.agg.flushResult.2 = some sealed_ → t.agg.reg (if sealed_ = true then PWR_EVENT_SEALED
        else PWR_EVENT_CUT) = 1))) ∧
  (∀ d : Sfdp,
    (s.agg.reg CFG_STATUS_STATE ≠ 1 → exec (.sfdpDone d) s = .next s) ∧
    (s.agg.reg CFG_STATUS_STATE = 1 → d.valid = true → 512 ≤ d.mbit → d.erase4k = true → d.erase64k = true →
      d.addr4 = true → ∃ t, exec (.sfdpDone d) s = .next t ∧ t = { s with agg := { s.agg with p := t.agg.p } } ∧
        s.agg.p.onlyRegs t.agg.p [CFG_STATUS_STATE] ∧ t.agg.reg CFG_STATUS_STATE = 2) ∧
    (s.agg.reg CFG_STATUS_STATE = 1 →
      d.valid = false ∨ d.mbit < 512 ∨ d.erase4k = false ∨ d.erase64k = false ∨ d.addr4 = false →
      ∃ t, exec (.sfdpDone d) s = .next t ∧ t = { s with agg := { s.agg with p := t.agg.p } } ∧
        s.agg.p.onlyEvents t.agg.p [CFG_STATUS_STATE, CFG_STATUS_REASON, CFG_EVENT_HELD] [0x0D02] ∧
        t.agg.reg CFG_STATUS_STATE = 5 ∧ t.agg.reg CFG_STATUS_REASON = 1)) ∧
  (∀ k0 k1, s.agg.reg CFG_STATUS_STATE ≠ 2 → exec (.validateDone k0 k1) s = .next s) ∧
  (∀ k0 k1 c0 c1, c0 = s.agg.imageCode (s.agg.slotImage 0) k0 → c1 = s.agg.imageCode (s.agg.slotImage 1) k1 →
    s.agg.reg CFG_STATUS_STATE = 2 → ∃ t, exec (.validateDone k0 k1) s = .next t ∧
    t = { s with agg := { s.agg with p := t.agg.p, conf := { s.agg.conf with tried := t.agg.conf.tried } } } ∧
    t.agg.p.live = s.agg.p.live ∧ t.agg.p.staged = s.agg.p.staged ∧
    t.agg.reg CFG_IMG_INFO_CODE0 = c0 ∧ t.agg.reg CFG_IMG_INFO_CODE1 = c1 ∧
    (c0 ≠ 0 → t.agg.reg CFG_EVENT_SLOT0_BAD = 1) ∧ (c1 ≠ 0 → t.agg.reg CFG_EVENT_SLOT1_BAD = 1) ∧
    (c0 ≠ 1 → c0 ≠ 2 → t.agg.reg CFG_IMG_INFO_GEN0 = imgNum (s.agg.slotImage 0) 8 4 % 2 ^ 24) ∧
    (c1 ≠ 1 → c1 ≠ 2 → t.agg.reg CFG_IMG_INFO_GEN1 = imgNum (s.agg.slotImage 1) 8 4 % 2 ^ 24) ∧
    (c0 ≠ 0 → c1 ≠ 0 → t.agg.reg CFG_STATUS_STATE = 5 ∧ t.agg.reg CFG_STATUS_REASON = 2 ∧
      t.agg.reg CFG_EVENT_HELD = 1 ∧ t.agg.conf.tried = s.agg.conf.tried) ∧
    (c0 = 0 → c1 ≠ 0 ∨ laterRound (imgNum (s.agg.slotImage 1) 8 4) (imgNum (s.agg.slotImage 0) 8 4) = false →
      t.agg.reg CFG_STATUS_STATE = 3 ∧ t.agg.conf.tried = [0]) ∧
    (c1 = 0 → c0 ≠ 0 ∨ laterRound (imgNum (s.agg.slotImage 1) 8 4) (imgNum (s.agg.slotImage 0) 8 4) = true →
      t.agg.reg CFG_STATUS_STATE = 3 ∧ t.agg.conf.tried = [1])) ∧
  (s.agg.reg CFG_STATUS_STATE ≠ 3 ∨ s.agg.conf.tried = [] → exec .imageCommit s = .next s) ∧
  (∀ k rest r, s.agg.reg CFG_STATUS_STATE = 3 → s.agg.conf.tried = k :: rest →
    s.agg.imageTry (readImage (s.agg.slotImage k)) k = .inr r →
    (rest ≠ [] ∨ s.agg.reg (cfgCode (1 - k)) ≠ 0 → ∃ t, exec .imageCommit s = .next t ∧
      t = { s with agg := { s.agg with p := t.agg.p, conf := { s.agg.conf with tried := [] } } } ∧
      t.agg.p.live = s.agg.p.live ∧ t.agg.p.staged = s.agg.p.staged ∧ t.agg.reg CFG_STATUS_STATE = 5 ∧
      t.agg.reg CFG_STATUS_REASON = 3 ∧ t.agg.reg (cfgCode k) = 8 ∧ t.agg.reg CFG_COMMIT_STATUS_REASON = r.2 % 8 ∧
      t.agg.reg CFG_EVENT_COMMIT_REFUSED = 1) ∧
    (rest = [] → s.agg.reg (cfgCode (1 - k)) = 0 → ∃ t, exec .imageCommit s = .next t ∧
      t = { s with agg := { s.agg with p := t.agg.p, conf := { s.agg.conf with tried := [1 - k, k] } } } ∧
      t.agg.p.live = s.agg.p.live ∧ t.agg.p.staged = s.agg.p.staged ∧ t.agg.reg CFG_STATUS_STATE = 3 ∧
      t.agg.reg (cfgCode k) = 8 ∧ t.agg.reg CFG_COMMIT_STATUS_REASON = r.2 % 8)) ∧
  (∀ k rest b, s.agg.reg CFG_STATUS_STATE = 3 → s.agg.conf.tried = k :: rest →
    s.agg.imageTry (readImage (s.agg.slotImage k)) k = .inl b → ∃ t, exec .imageCommit s = .next t ∧
      t = { s with agg := { b with conf := { b.conf with tried := [] } } } ∧
      t.agg.img = readImage (s.agg.slotImage k) ∧ t.agg.p.live = t.agg.p.staged ∧ t.agg.p.copy = none ∧
      t.agg.reg CFG_STATUS_STATE = 4 ∧ t.agg.reg CFG_STATUS_REASON = 0 ∧ t.agg.reg CFG_IMG_INFO_LIVE = k % 4) ∧
  (∀ write len k, (s.agg.reg CFG_STATUS_STATE ≠ 5 ∨ imgMax < len → ∃ t, exec (.adopt write len k) s = .next t ∧
      t = { s with agg := { s.agg with p := t.agg.p } } ∧
      s.agg.p.onlyEvents t.agg.p [CFG_EVENT_ADOPT_REFUSED] [0x0D04] ∧ t.agg.reg CFG_EVENT_ADOPT_REFUSED = 1) ∧
    (s.agg.reg CFG_STATUS_STATE = 5 → len ≤ imgMax → ∀ a code, a = s.agg.adopting write len →
      code = a.imageCode (s.agg.shedRead 0 len) k →
      (code ≠ 0 → ∃ t, exec (.adopt write len k) s = .next t ∧ t = { s with agg := { s.agg with p := t.agg.p } } ∧
        s.agg.p.onlyRegs t.agg.p [CFG_ADOPT_GO, CFG_ADOPT_WRITE, CFG_ADOPT_LEN, CFG_ADOPT_CODE, CFG_STATUS_STATE] ∧
        t.agg.reg CFG_ADOPT_CODE = max code 2 ∧ t.agg.reg CFG_ADOPT_GO = 0 ∧ t.agg.reg CFG_STATUS_STATE = 5) ∧
      (∀ r, code = 0 → a.imageTry (readImage (s.agg.shedRead 0 len)) 2 = .inr r → ∃ t,
        exec (.adopt write len k) s = .next t ∧ t = { s with agg := { s.agg with p := t.agg.p } } ∧
        t.agg.p.live = s.agg.p.live ∧ t.agg.p.staged = s.agg.p.staged ∧ t.agg.reg CFG_ADOPT_CODE = 8 ∧
        t.agg.reg CFG_ADOPT_GO = 0 ∧ t.agg.reg CFG_STATUS_STATE = 5 ∧ t.agg.reg CFG_STATUS_REASON = 3 ∧
        t.agg.reg CFG_COMMIT_STATUS_REASON = r.2 % 8) ∧
      (∀ b, code = 0 → a.imageTry (readImage (s.agg.shedRead 0 len)) 2 = .inl b → ∃ t,
        exec (.adopt write len k) s = .next t ∧ t = { s with agg := t.agg } ∧
        t.agg.img = readImage (s.agg.shedRead 0 len) ∧ t.agg.p.live = t.agg.p.staged ∧
        t.agg.reg CFG_STATUS_STATE = 4 ∧ t.agg.reg CFG_IMG_INFO_LIVE = 2 ∧ t.agg.reg CFG_ADOPT_CODE = 0 ∧
        t.agg.reg CFG_ADOPT_GO = 0 ∧
        (write = false ∨ b.bit CFG_FLASH_STATUS_BUSY = true → t.agg.conf = b.conf) ∧
        (write = true → b.bit CFG_FLASH_STATUS_BUSY = false → t.agg.reg CFG_FLASH_STATUS_BUSY = 1 ∧
          t.agg.conf.flashOp = some (2, b.adoptSlot, s.agg.shedRead 0 len)))))

/-- A COMMIT and its copy (R483 to R485): a COMMIT during another or in the last gasp, or one whose copy breaks a
rule, is refused and leaves both sets as they were; otherwise the copy of the whole staged bank waits, and at its
boundary, or at once while no tick exists, it becomes live whole. Staged writes after the copy belong to the next COMMIT.
Where the spec is open, the clauses rest on the model's reading (log entries 98, 99, 100, 101 and 104). -/
def Obligations.CommitsTakeEffectWhole : Prop := ∀ s : State,
  (s.agg.p.copy.isSome = true → ∃ t, exec .cfgCommit s = .next t ∧ t = { s with agg := { s.agg with p := t.agg.p } } ∧
    s.agg.p.onlyEvents t.agg.p [CFG_COMMIT_STATUS_REASON, CFG_COMMIT_STATUS_OFFSET, CFG_EVENT_COMMIT_REFUSED] [0x0D03] ∧
    t.agg.reg CFG_COMMIT_STATUS_REASON = 4 ∧ t.agg.reg CFG_EVENT_COMMIT_REFUSED = 1) ∧
  (s.agg.p.copy = none → s.agg.reg PWR_STATUS_FLUSH = 2 ∨ s.agg.reg PWR_STATUS_FLUSH = 3 →
    ∃ t, exec .cfgCommit s = .next t ∧ t = { s with agg := { s.agg with p := t.agg.p } } ∧
    s.agg.p.onlyEvents t.agg.p [CFG_COMMIT_STATUS_REASON, CFG_COMMIT_STATUS_OFFSET, CFG_EVENT_COMMIT_REFUSED] [0x0D03] ∧
    t.agg.reg CFG_COMMIT_STATUS_REASON = 5) ∧
  (s.agg.p.copy = none → s.agg.reg PWR_STATUS_FLUSH ≠ 2 → s.agg.reg PWR_STATUS_FLUSH ≠ 3 →
    (∀ off why, firstBreach (s.agg.breaches s.agg.p.staged) = some (off, why) → ∃ t, exec .cfgCommit s = .next t ∧
      t = { s with agg := { s.agg with p := t.agg.p } } ∧ t.agg.p.live = s.agg.p.live ∧
      t.agg.p.staged = s.agg.p.staged ∧ t.agg.p.copy = none ∧ t.agg.reg CFG_COMMIT_STATUS_REASON = why % 8 ∧
      t.agg.reg CFG_COMMIT_STATUS_OFFSET = off / 8 % 2 ^ 21 ∧ t.agg.reg CFG_EVENT_COMMIT_REFUSED = 1) ∧
    (firstBreach (s.agg.breaches s.agg.p.staged) = none → s.agg.p.timed = true → ∃ t, exec .cfgCommit s = .next t ∧
      t = { s with agg := t.agg } ∧ t.agg.p.copy = some s.agg.p.staged ∧ t.agg.p.copyNs = s.agg.p.boundaryNs ∧
      t.agg.p.live = s.agg.p.live ∧ t.agg.p.staged = s.agg.p.staged ∧ t.agg.reg CFG_COMMIT_STATUS_PENDING = 1 ∧
      ((∀ m : Fin 16, s.agg.hdgNamed s.agg.p.staged m = false) → t = { s with agg := { s.agg with p := t.agg.p } } ∧
        t.agg.p = { s.agg.p with
          regs := t.agg.p.regs, copy := some s.agg.p.staged, copyNs := s.agg.p.boundaryNs } ∧
        s.agg.p.regs.onlyAt t.agg.p.regs [CFG_COMMIT_STATUS_PENDING])) ∧
    (firstBreach (s.agg.breaches s.agg.p.staged) = none → s.agg.p.timed = false → ∃ t, exec .cfgCommit s = .next t ∧
      t = { s with agg := t.agg } ∧ t.agg.p.live = s.agg.p.staged ∧ t.agg.p.copy = none ∧
      t.agg.p.staged = s.agg.p.staged ∧ t.agg.reg CFG_COMMIT_STATUS_PENDING = 0)) ∧
  (∀ c, s.agg.p.copy = some c → s.agg.p.copyDue = true → ∃ t, exec (.commitApply .agg) s = .next t ∧
    t = { s with agg := t.agg } ∧ t.agg.p.live = c ∧ t.agg.p.copy = none ∧ t.agg.p.staged = s.agg.p.staged ∧
    t.agg.reg CFG_COMMIT_STATUS_PENDING = 0 ∧ t.agg.reg CFG_COMMIT_STATUS_REASON = 0 ∧
    t.agg.reg CFG_COMMIT_STATUS_TICK = s.agg.p.lastTick % 2 ^ 32) ∧
  (s.agg.p.copy = none ∨ s.agg.p.copyDue = false → exec (.commitApply .agg) s = .next s) ∧
  (∀ c, s.ulg.p.copy = some c → s.ulg.p.copyDue = true → ∃ t, exec (.commitApply .ulg) s = .next t ∧
    t = { s with ulg := t.ulg } ∧ t.ulg.p.live = c ∧ t.ulg.p.copy = none ∧ t.ulg.p.staged = s.ulg.p.staged ∧
    t.ulg.reg ULG_COMMIT_STATUS_PENDING = 0 ∧ t.ulg.reg ULG_COMMIT_STATUS_REASON = 0 ∧
    t.ulg.reg ULG_COMMIT_STATUS_TICK = s.ulg.p.lastTick % 2 ^ 32) ∧
  (s.ulg.p.copy = none ∨ s.ulg.p.copyDue = false → exec (.commitApply .ulg) s = .next s)

/-- Image slots are written (R477, R495), the host port and SMBus answer (R488, R489), and arrays and stacks follow
their temperature (R202, R509). Where the spec is open, the clauses rest on the model's reading (log entries 109, 111
and 113). -/
def Obligations.FlashHostAndTemperature : Prop := ∀ s : State,
  (∀ slot : Fin 2, s.agg.bit CFG_FLASH_STATUS_BUSY = false →
    (s.agg.reg CFG_IMG_INFO_LIVE ≠ slot → ∃ t, exec (.flashErase slot) s = .next t ∧ t = { s with
        agg := { s.agg with p := t.agg.p, conf := { s.agg.conf with flashOp := some (1, slot, []) } } } ∧
      s.agg.p.onlyRegs t.agg.p [CFG_FLASH_STATUS_BUSY, CFG_FLASH_STATUS_DONE, CFG_FLASH_STATUS_OK] ∧
      t.agg.reg CFG_FLASH_STATUS_BUSY = 1 ∧ t.agg.reg CFG_FLASH_STATUS_DONE = 0) ∧
    (∀ len, s.agg.reg CFG_IMG_INFO_LIVE ≠ slot → ∃ t, exec (.flashProgram slot len) s = .next t ∧ t = { s with
        agg := { s.agg with p := t.agg.p, conf := { s.agg.conf with
          flashOp := some (2, slot, s.agg.shedRead 0 (min len imgMax)) } } } ∧
      s.agg.p.onlyRegs t.agg.p [CFG_FLASH_STATUS_BUSY, CFG_FLASH_STATUS_DONE, CFG_FLASH_STATUS_OK] ∧
      t.agg.reg CFG_FLASH_STATUS_BUSY = 1) ∧
    (∀ len, s.agg.reg CFG_IMG_INFO_LIVE = slot → ∃ t, exec (.flashProgram slot len) s = .next t ∧
      t = { s with agg := { s.agg with p := t.agg.p } } ∧ s.agg.p.onlyEvents t.agg.p [CFG_EVENT_PROG_FAIL] [0x0D09] ∧
      t.agg.reg CFG_EVENT_PROG_FAIL = 1 ∧ exec (.flashErase slot) s = .next t)) ∧
  (∀ (slot : Fin 2) len, s.agg.bit CFG_FLASH_STATUS_BUSY = true →
    exec (.flashErase slot) s = .next s ∧ exec (.flashProgram slot len) s = .next s) ∧
  (∀ ok, s.agg.conf.flashOp = none → exec (.flashDone ok) s = .next s) ∧
  (∀ op slot b, s.agg.conf.flashOp = some (op, slot, b) → op = 1 ∨ op = 2 →
    (∃ t, exec (.flashDone true) s = .next t ∧ t = { s with agg := { s.agg with p := t.agg.p, conf := t.agg.conf } } ∧
      s.agg.p.onlyRegs t.agg.p [CFG_FLASH_STATUS_BUSY, CFG_FLASH_STATUS_DONE, CFG_FLASH_STATUS_OK] ∧
      t.agg.conf.flashOp = none ∧ t.agg.reg CFG_FLASH_STATUS_BUSY = 0 ∧ t.agg.reg CFG_FLASH_STATUS_DONE = 1 ∧
      t.agg.reg CFG_FLASH_STATUS_OK = 1 ∧ (op = 1 → t.agg.slotImage slot = []) ∧
      (op = 2 → (t.agg.slotImage slot).take b.length = b) ∧ ∀ j, j ≠ slot → t.agg.slotImage j = s.agg.slotImage j) ∧
    (∃ t, exec (.flashDone false) s = .next t ∧ t = { s with agg := { s.agg with p := t.agg.p, conf := t.agg.conf } } ∧
      t.agg.conf.flashOp = none ∧ t.agg.reg CFG_FLASH_STATUS_OK = 0 ∧ t.agg.reg CFG_EVENT_PROG_FAIL = 1 ∧
      ∀ j, j ≠ slot → t.agg.slotImage j = s.agg.slotImage j)) ∧
  (∃ t l, exec .smbStatus s = .next t ∧ t = { s with agg := { s.agg with
      p := { s.agg.p with free := s.agg.p.free + 1 }, sent := .smbus l :: s.agg.sent } } ∧ l.length = 16 ∧
    leAt l 0 1 = s.agg.reg CFG_STATUS_STATE % 256 ∧ leAt l 1 1 = s.agg.fltStateRead % 256 ∧
    leAt l 2 1 = s.agg.p.servo.state % 256 ∧ leAt l 3 1 = s.agg.reg PWR_STATUS_FLUSH % 256) ∧
  (∃ t l, exec .smbImage s = .next t ∧ t = { s with agg := { s.agg with sent := .smbus l :: s.agg.sent } } ∧
    l.length = 8 ∧ leAt l 0 1 = s.agg.reg CFG_IMG_INFO_LIVE % 256 ∧ leAt l 1 4 = s.agg.img.gen % 2 ^ 32 ∧
    leAt l 5 1 = s.agg.reg CFG_IMG_INFO_CODE0 % 256 ∧ leAt l 6 1 = s.agg.reg CFG_IMG_INFO_CODE1 % 256) ∧
  (∃ t l, exec .smbFirstError s = .next t ∧ t = { s with agg := { s.agg with sent := .smbus l :: s.agg.sent } } ∧
    l.length = 24 ∧ leAt l 0 8 = (s.agg.regWord FLT_FIRST_SRC_SOURCE.off).getD 0 % 2 ^ 64 ∧
    leAt l 8 8 = (s.agg.regWord FLT_FIRST_ADDR_ADDR.off).getD 0 % 2 ^ 64 ∧
    leAt l 16 8 = (s.agg.regWord FLT_FIRST_TIME_NS.off).getD 0 % 2 ^ 64) ∧
  (∀ key, (key = 0xA5 → ∃ t, exec (.smbEnterSafe key) s = .next t ∧ exec (.enterSafe .agg) s = .next t) ∧
    (key ≠ 0xA5 → exec (.smbEnterSafe key) s =
      .next { s with agg := { s.agg with sent := .smbusNack :: s.agg.sent } })) ∧
  (∃ t, exec .pcieUe s = .next t ∧ t = { s with agg := { s.agg with p := t.agg.p } } ∧
    s.agg.p.onlyEvents t.agg.p [CFG_EVENT_PCIE_UE] [0x0D0A] ∧ t.agg.reg CFG_EVENT_PCIE_UE = 1) ∧
  (∀ (die : Fin 2) (h : Int) (cool : Bool),
    cool = (if s.agg.vrf.cooling.get die = true then decide (102 < h) else decide (105 ≤ h)) → ∃ t,
    exec (.thermalClockStep die h) s = .next t ∧ t = { s with agg := { s.agg with p := t.agg.p, vrf := t.agg.vrf } } ∧
    t.agg.vrf = { s.agg.vrf with cooling := t.agg.vrf.cooling, stepNs := t.agg.vrf.stepNs } ∧
    s.agg.p.onlyTime t.agg.p ((List.range 4).map fun k => VRF_ARR_STATUS_MHZ (4 * die + k)) ∧
    t.agg.vrf.cooling.get die = cool ∧
    (∀ x : Nat, x / 4 = die → s.agg.reg (VRF_ARR_STATUS_MHZ x) ≤ 1900 → t.agg.reg (VRF_ARR_STATUS_MHZ x) =
      if cool = true then max 1000 (s.agg.reg (VRF_ARR_STATUS_MHZ x) - 100)
      else min (s.agg.arrTop x) (s.agg.reg (VRF_ARR_STATUS_MHZ x) + 100)) ∧
    (s.agg.vrf.stepNs.get die = none → t.agg.p.now = s.agg.p.now) ∧
    (∀ n, s.agg.vrf.stepNs.get die = some n → n + 1000000 ≤ t.agg.p.nowNs) ∧
    (cool = true ∨ (∃ x : Nat, x / 4 = die ∧ t.agg.reg (VRF_ARR_STATUS_MHZ x) ≠ s.agg.arrTop x) →
      t.agg.vrf.stepNs.get die = some t.agg.p.nowNs) ∧
    (cool = false → (∀ x : Nat, x / 4 = die → t.agg.reg (VRF_ARR_STATUS_MHZ x) = s.agg.arrTop x) →
      t.agg.vrf.stepNs.get die = none) ∧
    ∀ j : Nat, j ≠ die → t.agg.vrf.cooling.get j = s.agg.vrf.cooling.get j ∧
      t.agg.vrf.stepNs.get j = s.agg.vrf.stepNs.get j) ∧
  (∀ (k : Fin 6) (c : Int), ∃ t, exec (.hbmThrottle k c) s = .next t ∧
    t = { s with agg := { s.agg with shed := { s.agg.shed with throttled := t.agg.shed.throttled } } } ∧
    (k.val ∈ t.agg.shed.throttled ↔ 95 ≤ c) ∧
    ∀ j, j ≠ k.val → (j ∈ t.agg.shed.throttled ↔ j ∈ s.agg.shed.throttled))

/-- Pushes and the Uligo proxy (R486, R487, R492), and writes of BAR0 (R16, R481, R491): a cause of a push has no effect
at an aggregator that does not push to the die, is held during a push and until the journal takes a BEGIN, reads the die's
identity first after a claim or a resumed session, and begins a push otherwise. Where the spec is open, the clauses rest on
the model's reading (log entries 105, 106, 114, 115 and 116). -/
def Obligations.PushesProxiesAndWrites : Prop := ∀ (s : State) (slot : Fin 16) (p : Nat), p = s.agg.portOfSlot slot →
  (∀ cause, s.agg.pushOwner slot = false → exec (.push slot cause) s = .next s ∧ exec (.upush slot) s = .next s) ∧
  (s.agg.pushOwner slot = true →
    ((s.agg.conf.push.get slot).running = true ∨ s.agg.jrnReady = false →
      (∀ cause, ∃ t, exec (.push slot cause) s = .next t ∧ t = { s with agg := { s.agg with conf := t.agg.conf } } ∧
        t.agg.conf = { s.agg.conf with push := t.agg.conf.push } ∧ t.agg.conf.push.get slot =
          { s.agg.conf.push.get slot with held := some ((s.agg.conf.push.get slot).held.getD cause) } ∧
        ∀ j : Nat, j ≠ slot → t.agg.conf.push.get j = s.agg.conf.push.get j) ∧
      (∃ t, exec (.upush slot) s = .next t ∧ t = { s with agg := { s.agg with conf := t.agg.conf } } ∧
        t.agg.conf.push.get slot =
          { s.agg.conf.push.get slot with held := some ((s.agg.conf.push.get slot).held.getD 6) })) ∧
    ((s.agg.conf.push.get slot).running = false → s.agg.jrnReady = true →
      (∀ cause, cause = 5 ∨ cause = 2 ∧ (s.agg.die.get p).l.resuming = true → ∃ t,
        exec (.push slot cause) s = .next t ∧
        t = { s with agg := { s.agg with p := t.agg.p, die := t.agg.die, conf := t.agg.conf } } ∧
        t.agg.conf.push.get slot = { s.agg.conf.push.get slot with
          running := true, cause := cause, op := none, waiting := false } ∧
        bitAt (t.agg.reg CFG_UCFG_STATUS_BUSY) slot = true ∧
        ((s.agg.die.get p).cmds.length < 63 → ∃ c d, (t.agg.die.get p).cmds = (s.agg.die.get p).cmds ++ [c, d] ∧
          c.opcode = 2 ∧ c.addr = ULG_CFG_LSEL_OFFSET.off ∧ c.data = [ULG_CFG_ID_UCFG_ID.off] ∧
          d.opcode = 1 ∧ d.addr = ULG_CFG_LDATA_VALUE.off ∧ d.count = 1)) ∧
      (∀ cause, cause ≠ 5 → cause ≠ 2 ∨ (s.agg.die.get p).l.resuming = false → ∃ t,
        exec (.push slot cause) s = .next t ∧ t = { s with agg := t.agg } ∧ s.agg.pushBegan t.agg slot cause) ∧
      (∃ t, exec (.upush slot) s = .next t ∧ t = { s with agg := t.agg } ∧ s.agg.pushBegan t.agg slot 6))) ∧
  (∀ off wide, wide = false ∨ off % 8 ≠ 0 → ∃ t, exec (.proxyRead slot off wide) s = .next t ∧
    t = { s with agg := { s.agg with p := t.agg.p, rdata := 0 } } ∧
    s.agg.p.onlyEvents t.agg.p [CFG_EVENT_APERTURE_VIOL] [0x0D08] ∧ t.agg.reg CFG_EVENT_APERTURE_VIOL = 1) ∧
  (∀ off, 0xFFF8 ≤ off → off % 8 = 0 →
    exec (.proxyRead slot off true) s = .next { s with agg := { s.agg with rdata := 0 } }) ∧
  (∀ off, off < 0xFFF8 → off % 8 = 0 → ∃ t, exec (.proxyRead slot off true) s = .next t ∧
    t = { s with agg := { s.agg with p := t.agg.p, die := t.agg.die, conf := t.agg.conf } } ∧
    t.agg.conf = { s.agg.conf with proxy := s.agg.conf.proxy ++ [((slot : Nat), s.agg.p.nowNs)] } ∧
    (16 ≤ p ∨ s.agg.reg (DP_STATUS_SESSION p) < 2 → t.agg.p = s.agg.p ∧ t.agg.die = s.agg.die) ∧
    (p < 16 → 2 ≤ s.agg.reg (DP_STATUS_SESSION p) → s.agg.proxied t.agg p
      { opcode := 1, addr := off, count := 1, use := .proxy slot true })) ∧
  (s.agg.reg CFG_STATUS_STATE = 5 → (∀ off value wide, exec (.proxyWrite slot off value wide) s = .next s) ∧
    exec (.proxyCommit slot) s = .next s) ∧
  (s.agg.reg CFG_STATUS_STATE ≠ 5 →
    (∀ off value wide, wide = false ∨ off % 8 ≠ 0 → ∃ t, exec (.proxyWrite slot off value wide) s = .next t ∧
      t = { s with agg := { s.agg with p := t.agg.p } } ∧
      s.agg.p.onlyEvents t.agg.p [CFG_EVENT_APERTURE_VIOL] [0x0D08] ∧ t.agg.reg CFG_EVENT_APERTURE_VIOL = 1) ∧
    (∀ value : Word, ∃ t, exec (.proxyWrite slot ULG_TRC_AUTH_PRIV_OK.off value true) s = .next t ∧
      t = { s with agg := { s.agg with p := t.agg.p } } ∧
      s.agg.p.onlyRegs t.agg.p [CFG_PROXY_STATUS_SLOT, CFG_PROXY_STATUS_STATUS, CFG_PROXY_STATUS_ARG] ∧
      t.agg.reg CFG_PROXY_STATUS_STATUS = 2 ∧ t.agg.reg CFG_PROXY_STATUS_SLOT = slot) ∧
    (16 ≤ p ∨ s.agg.reg (DP_STATUS_SESSION p) < 2 →
      (∀ off (value : Word), off % 8 = 0 → off ≠ ULG_TRC_AUTH_PRIV_OK.off →
        exec (.proxyWrite slot off value true) s = .next s) ∧ exec (.proxyCommit slot) s = .next s) ∧
    (p < 16 → 2 ≤ s.agg.reg (DP_STATUS_SESSION p) →
      (∀ off (value : Word), off < 0xFFF8 → off % 8 = 0 → off ≠ ULG_TRC_AUTH_PRIV_OK.off → ∃ t,
        exec (.proxyWrite slot off value true) s = .next t ∧
        t = { s with agg := { s.agg with p := t.agg.p, die := t.agg.die } } ∧ s.agg.proxied t.agg p
          { opcode := 2, addr := off, count := 1, data := [value.toNat], use := .proxy slot false }) ∧
      (∀ off (value : Word), 0xFFF8 ≤ off → off % 8 = 0 → ∃ t, exec (.proxyWrite slot off value true) s = .next t ∧
        exec (.proxyCommit slot) s = .next t) ∧
      (∃ t, exec (.proxyCommit slot) s = .next t ∧
        t = { s with agg := { s.agg with p := t.agg.p, die := t.agg.die } } ∧
        s.agg.proxied t.agg p { opcode := 4, use := .proxy slot false }))) ∧
  ((s.agg.conf.proxy.find? fun e => e.1 = (slot : Nat)) = none → exec (.proxyTmo slot) s = .next s) ∧
  (∀ e, (s.agg.conf.proxy.find? fun e => e.1 = (slot : Nat)) = some e → ∃ t, exec (.proxyTmo slot) s = .next t ∧
    t = { s with agg := { s.agg with p := t.agg.p, die := t.agg.die, conf := t.agg.conf, rdata := 2 ^ 64 - 1 } } ∧
    t.agg.conf = { s.agg.conf with proxy := s.agg.conf.proxy.erase e } ∧ e.2 + 1000000 ≤ t.agg.p.nowNs ∧
    (∀ j, j ≠ p → t.agg.die.get j = s.agg.die.get j) ∧
    (t.agg.die.get p).cmds.map (fun c => (c.opcode, c.addr, c.seq)) =
      (s.agg.die.get p).cmds.map (fun c => (c.opcode, c.addr, c.seq)) ∧
    s.agg.p.onlyEvents t.agg.p [CFG_EVENT_PROXY_TMO] [0x0D07] ∧ t.agg.reg CFG_EVENT_PROXY_TMO = 1) ∧
  (∀ path off (value : Word),
    (inWindow off = false → ∃ t, exec (.registerWrite .agg path off value) s = .next t ∧
      t = { s with agg := { s.agg with p := t.agg.p } } ∧
      s.agg.p.onlyEvents t.agg.p [CFG_EVENT_APERTURE_VIOL] [0x0D08] ∧ t.agg.reg CFG_EVENT_APERTURE_VIOL = 1) ∧
    (inWindow off = true → s.agg.reg CFG_STATUS_STATE = 5 → off / 65536 ≠ 0 → off / 65536 ≠ 0xB →
      exec (.registerWrite .agg path off value) s = .next s) ∧
    (∃ t, exec (.registerWrite .agg path 0x28 value) s = .next t ∧ t = { s with agg := { s.agg with p := t.agg.p } } ∧
      s.agg.p.onlyRegs t.agg.p [CFG_LIVE_SEL_OFFSET] ∧ t.agg.reg CFG_LIVE_SEL_OFFSET = value.toNat / 8 % 2 ^ 21) ∧
    (∃ t, exec (.registerWrite .ulg (.ryconD 0) 0xC10 value) s = .next t ∧
      t = { s with ulg := { s.ulg with p := t.ulg.p } } ∧
      s.ulg.p.onlyRegs t.ulg.p [ULG_CFG_LSEL_OFFSET] ∧ t.ulg.reg ULG_CFG_LSEL_OFFSET = value.toNat / 8 % 2 ^ 13))

/-! ### The machine as a whole -/

/-- One step runs the command at the front of the queue on the state with the queue's rest; with no command waiting only
the two times go on (log entry 2). -/
def Obligations.StepRunsFrontCommand : Prop := ∀ s : State,
  (∀ c rest, s.pending = c :: rest → step s = exec c { s with pending := rest }) ∧
  (s.pending = [] → ∃ t, step s = .next t ∧
    t = { s with agg := { s.agg with p := { s.agg.p with now := t.agg.p.now } },
                 ulg := { s.ulg with p := { s.ulg.p with now := t.ulg.p.now } } } ∧
    (s.agg.p.servo.rate = 0 → t.agg.p.now = s.agg.p.now + 2 ^ 56) ∧
    (s.ulg.p.servo.rate = 0 → t.ulg.p.now = s.ulg.p.now + 2 ^ 56))

/-- Every command is carried out in every state: it answers a next state and leaves the rest of the queue alone. -/
def Obligations.EveryCommandIsCarriedOut : Prop := ∀ (c : Instr) (s : State), ∃ t, exec c s = .next t ∧
  t.pending = s.pending

/-- The machine right after reset: every register of both parts reads its reset value, staged and live alike, no time
exists, no link is up, and nothing waits. Where the spec is open, the clauses rest on the model's reading (log entries
5, 6 and 28). -/
def Obligations.ResetState : Prop :=
  (∀ f, State.reset.agg.reg f = f.reset ∧ State.reset.agg.cfg f = f.reset ∧ State.reset.ulg.reg f = f.reset ∧
    State.reset.ulg.cfg f = f.reset ∧ State.reset.agg.p.staged.get f = f.reset ∧
    State.reset.ulg.p.staged.get f = f.reset) ∧
  State.reset.agg.p.timed = false ∧ State.reset.ulg.p.timed = false ∧ State.reset.pending = [] ∧
  (∀ a, State.reset.agg.shed.mem.get a = 0) ∧ (∀ k, State.reset.ulg.cnt.counters.get k = 0) ∧
  State.reset.agg.reg CFG_STATUS_STATE = 0 ∧ State.reset.agg.reg CFG_IMG_INFO_LIVE = 3 ∧
  (∀ p : Fin 16, State.reset.agg.reg (DP_STATUS_STATE p) = 0) ∧ State.reset.agg.sent = [] ∧ State.reset.ulg.sent = []

/-- The two parts are isolated: while only commands of the one part are carried out, the other part stays as it is, and
what the commands do does not depend on it. -/
def Obligations.PartsAreIsolated : Prop := ∀ (n : Nat) (s t : State), n ≤ s.pending.length → s.steps n = .next t →
  ((∀ c ∈ s.pending, c.part = some .agg) → t.ulg = s.ulg ∧ t.pending = s.pending.drop n ∧
    ∀ u : Ulg, ({ s with ulg := u } : State).steps n = .next { t with ulg := u }) ∧
  ((∀ c ∈ s.pending, c.part = some .ulg) → t.agg = s.agg ∧ t.pending = s.pending.drop n ∧
    ∀ a : Agg, ({ s with agg := a } : State).steps n = .next { t with agg := a })

/-- Commands of different parts commute: in either order they leave the same machine. -/
def Obligations.CommandsOfDifferentPartsCommute : Prop := ∀ (c d : Instr) (s t v : State),
  c.part = some .agg → d.part = some .ulg → exec c s = .next t → exec d t = .next v →
  ∃ w, exec d s = .next w ∧ exec c w = .next v

/-- R80: the ring of every host core holds at most its last 64 events; every step keeps this. -/
def Obligations.EventRingsHoldAtMost64 : Prop := ∀ s t : State,
  (∀ k, (s.ulg.cnt.rings.get k).entries.length ≤ 64) → step s = .next t →
  ∀ k, (t.ulg.cnt.rings.get k).entries.length ≤ 64

/-- The event rings hold at most 64 entries at reset, and none at all. -/
def Obligations.EventRingsAtReset : Prop := ∀ k, (State.reset.ulg.cnt.rings.get k).entries = []

/-- R24: round instants are tick instants, the round number is the floor of the instant over the round period mod 2^32,
round `k` closes where round `k + 1` begins, and the order of round numbers is that of their difference mod 2^32. -/
def Obligations.RoundNumbersAndTheirOrder : Prop :=
  (∀ ns us ticks, 0 < us → 0 < ticks →
    (ns % (us * ticks * 1000) = 0 → ns % (us * 1000) = 0) ∧ roundIndex ns us ticks = tickOf ns us / ticks ∧
    roundOf ns us ticks = ns / (us * ticks * 1000) % 2 ^ 32 ∧
    (∀ k, roundIndex ns us ticks = k ↔ k * (us * ticks * 1000) ≤ ns ∧ ns < (k + 1) * (us * ticks * 1000))) ∧
  (∀ a b, a < 2 ^ 32 → b < 2 ^ 32 →
    (laterRound a b = true ↔ 1 ≤ ((a : Int) - b) % 2 ^ 32 ∧ ((a : Int) - b) % 2 ^ 32 ≤ 2 ^ 31 - 1) ∧
    (laterRound a b = true → laterRound b a = false) ∧
    (a ≠ b → ((a : Int) - b) % 2 ^ 32 ≠ 2 ^ 31 → laterRound a b = true ∨ laterRound b a = true))

/-- R26: a receiver extends a Stamp32 to the value nearest its own time, of two equally near the earlier one. Where
the spec is open, the clauses rest on the model's reading (log entry 29). -/
def Obligations.StampsExtendToTheNearest : Prop := ∀ s t : Nat, s < 2 ^ 32 →
  extendStamp s t % 2 ^ 32 = s ∧ ∀ e : Nat, e % 2 ^ 32 = s → e ≠ extendStamp s t →
    ((extendStamp s t : Int) - t).natAbs < ((e : Int) - t).natAbs ∨
    ((extendStamp s t : Int) - t).natAbs = ((e : Int) - t).natAbs ∧ extendStamp s t < e

/-- R16: what a write of software does to a field of each access type, and that it does nothing to any other field. -/
def Obligations.FieldsFollowTheirAccessType : Prop := ∀ (p : Part) (f : Field) (v : Nat), p.reg f < 2 ^ f.width →
  (f.acc = .ro ∨ f.acc = .wo ∨ f.acc = .rc → p.fieldWrite f v = p) ∧
  (f.acc = .rw → (p.fieldWrite f v).reg f = v % 2 ^ f.width ∧ p.onlyRegs (p.fieldWrite f v) [f]) ∧
  (f.acc = .rws → (p.fieldWrite f v).staged.get f = v % 2 ^ f.width ∧
    p.fieldWrite f v = { p with staged := (p.fieldWrite f v).staged } ∧ p.staged.onlyAt (p.fieldWrite f v).staged [f]) ∧
  (f.acc = .w1c → p.onlyRegs (p.fieldWrite f v) [f] ∧ ∀ k < f.width,
    bitAt ((p.fieldWrite f v).reg f) k = (bitAt (p.reg f) k && !bitAt v k)) ∧
  (f.acc = .w1s → p.onlyRegs (p.fieldWrite f v) [f] ∧ ∀ k < f.width,
    bitAt ((p.fieldWrite f v).reg f) k = (bitAt (p.reg f) k || bitAt v k))

/-- What stands on the wires reads back (R34, R138, R141, R152, R218, R219): a well-formed flit laid out in its 256 bytes,
time words and control slots included, a command in its payload and a mirror or journal message in its bytes give the
operands that they were made from. What the FEC corrected and the FIFO's level are no part of a flit. -/
def Obligations.WireFormatsReadBack : Prop :=
  (∀ (f : Flit) (data : Bool), f.wf = true → (∀ a, f.ctrl = .helloAck a → a.sessTag = f.sessTag) →
    (f.bytes data).length = 256 ∧
    readFlit (f.bytes data) =
      ({ f with crcGood := true, fecCorrected := 0, fifoLeft := 0 }, f.ftypeOther.isNone && data)) ∧
  (∀ (opcode : Nat) (c : Cmd), c.wf = true → c.data = [] ∨ c.count = c.data.length →
    readCmd (c.bytes opcode) = c ∧ (opcode < 256 → beAt (c.bytes opcode) 0 1 = opcode)) ∧
  (∀ src dst msess port mode : Nat, src < 2 ^ 14 → dst < 2 ^ 16 → msess < 2 ^ 32 →
    (∀ tag reset, tag < 2 ^ 16 → mirCommand port mode 0 ((MirMsg.hello tag reset).bytes src dst msess) =
      some (.mirrorHello src tag port msess reset)) ∧
    (∀ tag status, tag < 2 ^ 16 → status < 256 → mirCommand port mode 0 ((MirMsg.helloAck tag status).bytes src dst msess) =
      some (.mirrorHelloAck src tag status)) ∧
    (∀ m : MirrorPart, m.wf = true → mirCommand port mode m.bytes.length ((MirMsg.data m).bytes src dst msess) =
      some (.mirrorData { m with src := src, head := {} })) ∧
    (∀ ring seq, ring < 2 ^ 16 → seq < 2 ^ 32 → mirCommand port mode 0 ((MirMsg.ack ring seq).bytes src dst msess) =
      some (.mirrorAck src ring seq)) ∧
    (∀ q : JQueryMsg, q.wf = true → mirCommand port mode 0 ((MirMsg.jquery q).bytes src dst msess) =
      some (.jquery { q with src := src, head := {} })) ∧
    (∀ a : JAnswerMsg, a.wf = true → a.codes.length < 2 ^ 32 →
      mirCommand port a.mode 0 ((MirMsg.janswer a).bytes src dst msess) =
        some (.janswer { a with begins := [], head := {} })) ∧
    (∀ f : FetchMsg, f.wf = true → mirCommand port mode 0 ((MirMsg.fetch f).bytes src dst msess) =
      some (.fetch { f with src := src, head := {} })) ∧
    (∀ qid count first, qid < 2 ^ 32 → count < 2 ^ 32 → first < 2 ^ 64 →
      mirCommand port mode 0 ((MirMsg.fetchEnd qid count first).bytes src dst msess) =
        some (.fetchEnd qid count first)))
end

