-- ==== Sys2Proof/Laws/Store.lean ====
section
/-! SUPPORT. Laws of tables and register stores: a read after a write, and the canonical form. -/

namespace Sys2Proof.Laws
open Sys2Proof Sys2Proof.Machine

variable {α : Type}

@[simp] theorem assocGet_put_same (l : List (Nat × α)) (k : Nat) (v : α) : assocGet (assocPut l k v) k = some v := by
  induction l with
  | nil => simp [assocPut, assocGet]
  | cons e t ih =>
    by_cases h1 : k < e.1
    · simp [assocPut, assocGet, h1]
    · by_cases h2 : e.1 = k <;> simp [assocPut, assocGet, h1, h2, ih]

theorem assocGet_put_other (l : List (Nat × α)) (k j : Nat) (v : α) (h : j ≠ k) :
    assocGet (assocPut l k v) j = assocGet l j := by
  induction l with
  | nil => simp [assocPut, assocGet, Ne.symm h]
  | cons e t ih =>
    by_cases h1 : k < e.1
    · simp [assocPut, assocGet, h1, Ne.symm h]
    · by_cases h2 : e.1 = k
      · subst h2; simp [assocPut, assocGet, Ne.symm h]
      · simp [assocPut, assocGet, h1, h2, ih]

@[simp] theorem assocGet_del_same (l : List (Nat × α)) (k : Nat) : assocGet (assocDel l k) k = none := by
  induction l with
  | nil => simp [assocDel, assocGet]
  | cons e t ih => by_cases h : e.1 = k <;> simp [assocDel, assocGet, h, ih]

theorem assocGet_del_other (l : List (Nat × α)) (k j : Nat) (h : j ≠ k) : assocGet (assocDel l k) j = assocGet l j := by
  induction l with
  | nil => simp [assocDel, assocGet]
  | cons e t ih =>
    by_cases h1 : e.1 = k
    · subst h1; simp [assocDel, assocGet, ih, Ne.symm h]
    · simp [assocDel, assocGet, h1, ih]

theorem risesFrom_mono (l : List (Nat × α)) (a b : Nat) (h : a ≤ b) (hb : risesFrom b l = true) : risesFrom a l = true := by
  cases l with
  | nil => rfl
  | cons e t =>
    simp only [risesFrom, Bool.and_eq_true, decide_eq_true_eq] at hb ⊢
    exact ⟨Nat.le_trans h hb.1, hb.2⟩

theorem risesFrom_put (l : List (Nat × α)) (lo k : Nat) (v : α) (hk : lo ≤ k) (h : risesFrom lo l = true) :
    risesFrom lo (assocPut l k v) = true := by
  induction l generalizing lo with
  | nil => simp [assocPut, risesFrom, hk]
  | cons e t ih =>
    simp only [risesFrom, Bool.and_eq_true, decide_eq_true_eq] at h
    by_cases h1 : k < e.1
    · simp only [assocPut, h1, if_true, risesFrom, Bool.and_eq_true, decide_eq_true_eq]
      exact ⟨hk, h1, h.2⟩
    · by_cases h2 : e.1 = k
      · subst h2
        simp only [assocPut, h1, if_false, if_true, risesFrom, Bool.and_eq_true, decide_eq_true_eq]
        exact ⟨hk, h.2⟩
      · simp only [assocPut, h1, if_false, h2, risesFrom, Bool.and_eq_true, decide_eq_true_eq]
        exact ⟨h.1, ih (e.1 + 1) (by omega) h.2⟩

theorem risesFrom_del (l : List (Nat × α)) (lo k : Nat) (h : risesFrom lo l = true) :
    risesFrom lo (assocDel l k) = true := by
  induction l generalizing lo with
  | nil => rfl
  | cons e t ih =>
    simp only [risesFrom, Bool.and_eq_true, decide_eq_true_eq] at h
    by_cases h1 : e.1 = k
    · simp only [assocDel, h1, if_true]
      exact ih lo (risesFrom_mono t lo (e.1 + 1) (by omega) h.2)
    · simp only [assocDel, h1, if_false, risesFrom, Bool.and_eq_true, decide_eq_true_eq]
      exact ⟨h.1, ih (e.1 + 1) h.2⟩

theorem all_put (p : Nat × α → Bool) (l : List (Nat × α)) (k : Nat) (v : α) (hv : p (k, v) = true) (h : l.all p = true) :
    (assocPut l k v).all p = true := by
  induction l with
  | nil => simp [assocPut, hv]
  | cons e t ih =>
    simp only [List.all_cons, Bool.and_eq_true] at h
    by_cases h1 : k < e.1
    · simp [assocPut, h1, hv, h.1, h.2]
    · by_cases h2 : e.1 = k <;> simp [assocPut, h1, h2, hv, h.1, h.2, ih h.2]

theorem all_del (p : Nat × α → Bool) (l : List (Nat × α)) (k : Nat) (h : l.all p = true) : (assocDel l k).all p = true := by
  induction l with
  | nil => rfl
  | cons e t ih =>
    simp only [List.all_cons, Bool.and_eq_true] at h
    by_cases h1 : e.1 = k <;> simp [assocDel, h1, h.1, ih h.2]

section Tab
variable [Inhabited α] [DecidableEq α]

@[simp] theorem tab_get_set_same (t : Tab α) (k : Nat) (v : α) : (t.set k v).get k = v := by
  unfold Tab.get Tab.set
  split <;> simp_all

theorem tab_get_set_other (t : Tab α) (k j : Nat) (v : α) (h : j ≠ k) : (t.set k v).get j = t.get j := by
  unfold Tab.get Tab.set
  split <;> simp [assocGet_del_other, assocGet_put_other, h]

theorem tab_get_set (t : Tab α) (k j : Nat) (v : α) : (t.set k v).get j = if j = k then v else t.get j := by
  split
  · subst_vars; simp
  · exact tab_get_set_other t k j v ‹_›

@[simp] theorem tab_get_upd_same (t : Tab α) (k : Nat) (f : α → α) : (t.upd k f).get k = f (t.get k) := by
  simp [Tab.upd]

theorem tab_get_upd_other (t : Tab α) (k j : Nat) (f : α → α) (h : j ≠ k) : (t.upd k f).get j = t.get j :=
  tab_get_set_other t k j _ h

@[simp] theorem tab_get_nil (k : Nat) : Tab.get ([] : Tab α) k = default := rfl

/-- Writing an entry keeps the canonical form. -/
theorem tab_set_wf (t : Tab α) (k : Nat) (v : α) (h : t.wf = true) : (t.set k v).wf = true := by
  unfold Tab.wf at h ⊢
  simp only [Bool.and_eq_true] at h ⊢
  unfold Tab.set
  split
  · exact ⟨risesFrom_del _ _ _ h.1, all_del _ _ _ h.2⟩
  · exact ⟨risesFrom_put _ _ _ _ (Nat.zero_le _) h.1, all_put _ _ _ _ (by simpa using ‹_›) h.2⟩

end Tab

/-- A field reads what was written to it, cut to its width. -/
@[simp] theorem store_get_set_same (r : Store) (f : Field) (v : Nat) : (r.set f v).get f = v % 2 ^ f.width := by
  unfold Store.get Store.set
  split <;> simp_all

/-- A field of another key is not changed. -/
theorem store_get_set_other (r : Store) (f g : Field) (v : Nat) (h : g.key ≠ f.key) : (r.set f v).get g = r.get g := by
  unfold Store.get Store.set
  split <;> simp [assocGet_del_other, assocGet_put_other, h]

@[simp] theorem store_get_nil (f : Field) : Store.get [] f = f.reset := rfl

/-- A count field reads one more, and holds at its largest value. -/
theorem store_get_count_same (r : Store) (f : Field) (n : Nat) :
    (r.count f n).get f = min (r.get f + n) (2 ^ f.width - 1) := by
  unfold Store.count
  rw [store_get_set_same]
  refine Nat.mod_eq_of_lt ?_
  have : 0 < 2 ^ f.width := Nat.two_pow_pos _
  omega

theorem store_get_count_other (r : Store) (f g : Field) (n : Nat) (h : g.key ≠ f.key) : (r.count f n).get g = r.get g :=
  store_get_set_other _ _ _ _ h

/-- Writing a field keeps the keys rising. -/
theorem store_set_wf (r : Store) (f : Field) (v : Nat) (h : r.wf = true) : (r.set f v).wf = true := by
  unfold Store.wf Store.set at *
  split
  · exact risesFrom_del _ _ _ h
  · exact risesFrom_put _ _ _ _ (Nat.zero_le _) h

theorem store_count_wf (r : Store) (f : Field) (n : Nat) (h : r.wf = true) : (r.count f n).wf = true :=
  store_set_wf _ _ _ h

theorem store_setInt_wf (r : Store) (f : Field) (v : Int) (h : r.wf = true) : (r.setInt f v).wf = true :=
  store_set_wf _ _ _ h

end Sys2Proof.Laws
end

