-- ==== Sys2Proof/Laws/Memory.lean ====
section
/-! SUPPORT. Laws of memory: a read after a write, every other byte left alone, and the canonical form kept. -/

namespace Sys2Proof.Laws
open Sys2Proof Sys2Proof.Machine

@[simp] theorem memory_get_put_same (m : Memory) (a : Nat) (b : Byte) : (m.put a b).get a = b := by
  unfold Memory.get Memory.put
  split <;> simp_all

theorem memory_get_put_other (m : Memory) (a c : Nat) (b : Byte) (h : c ≠ a) : (m.put a b).get c = m.get c := by
  unfold Memory.get Memory.put
  split <;> simp [assocGet_del_other, assocGet_put_other, h]

theorem memory_get_write_other (m : Memory) (a c : Nat) (l : List Byte) (h : c < a ∨ a + l.length ≤ c) :
    (m.write a l).get c = m.get c := by
  induction l generalizing m a with
  | nil => rfl
  | cons b t ih =>
    simp only [List.length_cons] at h
    rw [Memory.write, ih _ _ (by omega), memory_get_put_other _ _ _ _ (by omega)]

theorem memory_get_write (m : Memory) (a i : Nat) (l : List Byte) (h : i < l.length) :
    (m.write a l).get (a + i) = l[i] := by
  induction l generalizing m a i with
  | nil => simp at h
  | cons b t ih =>
    cases i with
    | zero =>
      rw [Memory.write, memory_get_write_other _ _ _ _ (by omega)]
      simp
    | succ i =>
      rw [Memory.write, show a + (i + 1) = a + 1 + i by omega, ih]
      · simp
      · simpa using h

theorem memory_put_wf (m : Memory) (a : Nat) (b : Byte) (h : m.wf = true) : (m.put a b).wf = true := by
  unfold Memory.wf at h ⊢
  simp only [Bool.and_eq_true] at h ⊢
  unfold Memory.put
  split
  · exact ⟨risesFrom_del _ _ _ h.1, all_del _ _ _ h.2⟩
  · exact ⟨risesFrom_put _ _ _ _ (Nat.zero_le _) h.1, all_put _ _ _ _ (by simpa using ‹_›) h.2⟩

/-- Every write keeps the canonical form. -/
theorem memory_write_wf (m : Memory) (a : Nat) (l : List Byte) (h : m.wf = true) : (m.write a l).wf = true := by
  induction l generalizing m a with
  | nil => exact h
  | cons b t ih => exact ih _ _ (memory_put_wf _ _ _ h)

theorem memory_reset_wf : (State.reset.agg.shed.mem).wf = true := rfl

end Sys2Proof.Laws
end

