-- ==== Sys2Proof/Laws/State.lean ====
section
/-! SUPPORT. What an update leaves alone: one lemma per field and update, each true by unfolding. -/

namespace Sys2Proof.Laws
open Sys2Proof Sys2Proof.Machine

/-! ### The part both share -/
@[simp] theorem part_put_live (p : Part) (f : Field) (v : Nat) : (p.put f v).live = p.live := rfl
@[simp] theorem part_put_staged (p : Part) (f : Field) (v : Nat) : (p.put f v).staged = p.staged := rfl
@[simp] theorem part_put_copy (p : Part) (f : Field) (v : Nat) : (p.put f v).copy = p.copy := rfl
@[simp] theorem part_put_copyNs (p : Part) (f : Field) (v : Nat) : (p.put f v).copyNs = p.copyNs := rfl
@[simp] theorem part_put_now (p : Part) (f : Field) (v : Nat) : (p.put f v).now = p.now := rfl
@[simp] theorem part_put_servo (p : Part) (f : Field) (v : Nat) : (p.put f v).servo = p.servo := rfl
@[simp] theorem part_put_tick (p : Part) (f : Field) (v : Nat) : (p.put f v).tick = p.tick := rfl
@[simp] theorem part_put_col (p : Part) (f : Field) (v : Nat) : (p.put f v).col = p.col := rfl
@[simp] theorem part_put_free (p : Part) (f : Field) (v : Nat) : (p.put f v).free = p.free := rfl
@[simp] theorem part_putInt_live (p : Part) (f : Field) (v : Int) : (p.putInt f v).live = p.live := rfl
@[simp] theorem part_putInt_staged (p : Part) (f : Field) (v : Int) : (p.putInt f v).staged = p.staged := rfl
@[simp] theorem part_putInt_copy (p : Part) (f : Field) (v : Int) : (p.putInt f v).copy = p.copy := rfl
@[simp] theorem part_putInt_copyNs (p : Part) (f : Field) (v : Int) : (p.putInt f v).copyNs = p.copyNs := rfl
@[simp] theorem part_putInt_now (p : Part) (f : Field) (v : Int) : (p.putInt f v).now = p.now := rfl
@[simp] theorem part_putInt_servo (p : Part) (f : Field) (v : Int) : (p.putInt f v).servo = p.servo := rfl
@[simp] theorem part_putInt_tick (p : Part) (f : Field) (v : Int) : (p.putInt f v).tick = p.tick := rfl
@[simp] theorem part_putInt_col (p : Part) (f : Field) (v : Int) : (p.putInt f v).col = p.col := rfl
@[simp] theorem part_putInt_free (p : Part) (f : Field) (v : Int) : (p.putInt f v).free = p.free := rfl
@[simp] theorem part_count_live (p : Part) (f : Field) (n : Nat) : (p.count f n).live = p.live := rfl
@[simp] theorem part_count_staged (p : Part) (f : Field) (n : Nat) : (p.count f n).staged = p.staged := rfl
@[simp] theorem part_count_copy (p : Part) (f : Field) (n : Nat) : (p.count f n).copy = p.copy := rfl
@[simp] theorem part_count_copyNs (p : Part) (f : Field) (n : Nat) : (p.count f n).copyNs = p.copyNs := rfl
@[simp] theorem part_count_now (p : Part) (f : Field) (n : Nat) : (p.count f n).now = p.now := rfl
@[simp] theorem part_count_servo (p : Part) (f : Field) (n : Nat) : (p.count f n).servo = p.servo := rfl
@[simp] theorem part_count_tick (p : Part) (f : Field) (n : Nat) : (p.count f n).tick = p.tick := rfl
@[simp] theorem part_count_col (p : Part) (f : Field) (n : Nat) : (p.count f n).col = p.col := rfl
@[simp] theorem part_count_free (p : Part) (f : Field) (n : Nat) : (p.count f n).free = p.free := rfl
@[simp] theorem part_putLive_regs (p : Part) (f : Field) (v : Nat) : (p.putLive f v).regs = p.regs := rfl
@[simp] theorem part_putLive_staged (p : Part) (f : Field) (v : Nat) : (p.putLive f v).staged = p.staged := rfl
@[simp] theorem part_putLive_copy (p : Part) (f : Field) (v : Nat) : (p.putLive f v).copy = p.copy := rfl
@[simp] theorem part_putLive_copyNs (p : Part) (f : Field) (v : Nat) : (p.putLive f v).copyNs = p.copyNs := rfl
@[simp] theorem part_putLive_now (p : Part) (f : Field) (v : Nat) : (p.putLive f v).now = p.now := rfl
@[simp] theorem part_putLive_servo (p : Part) (f : Field) (v : Nat) : (p.putLive f v).servo = p.servo := rfl
@[simp] theorem part_putLive_tick (p : Part) (f : Field) (v : Nat) : (p.putLive f v).tick = p.tick := rfl
@[simp] theorem part_putLive_col (p : Part) (f : Field) (v : Nat) : (p.putLive f v).col = p.col := rfl
@[simp] theorem part_putLive_free (p : Part) (f : Field) (v : Nat) : (p.putLive f v).free = p.free := rfl
@[simp] theorem part_until_regs (p : Part) (ns : Nat) : (p.until ns).regs = p.regs := rfl
@[simp] theorem part_until_live (p : Part) (ns : Nat) : (p.until ns).live = p.live := rfl
@[simp] theorem part_until_staged (p : Part) (ns : Nat) : (p.until ns).staged = p.staged := rfl
@[simp] theorem part_until_copy (p : Part) (ns : Nat) : (p.until ns).copy = p.copy := rfl
@[simp] theorem part_until_copyNs (p : Part) (ns : Nat) : (p.until ns).copyNs = p.copyNs := rfl
@[simp] theorem part_until_servo (p : Part) (ns : Nat) : (p.until ns).servo = p.servo := rfl
@[simp] theorem part_until_tick (p : Part) (ns : Nat) : (p.until ns).tick = p.tick := rfl
@[simp] theorem part_until_col (p : Part) (ns : Nat) : (p.until ns).col = p.col := rfl
@[simp] theorem part_until_free (p : Part) (ns : Nat) : (p.until ns).free = p.free := rfl
@[simp] theorem part_notify_regs (p : Part) (o : Occ) : (p.notify o).regs = p.regs := rfl
@[simp] theorem part_notify_live (p : Part) (o : Occ) : (p.notify o).live = p.live := rfl
@[simp] theorem part_notify_staged (p : Part) (o : Occ) : (p.notify o).staged = p.staged := rfl
@[simp] theorem part_notify_copy (p : Part) (o : Occ) : (p.notify o).copy = p.copy := rfl
@[simp] theorem part_notify_copyNs (p : Part) (o : Occ) : (p.notify o).copyNs = p.copyNs := rfl
@[simp] theorem part_notify_now (p : Part) (o : Occ) : (p.notify o).now = p.now := rfl
@[simp] theorem part_notify_servo (p : Part) (o : Occ) : (p.notify o).servo = p.servo := rfl
@[simp] theorem part_notify_tick (p : Part) (o : Occ) : (p.notify o).tick = p.tick := rfl
@[simp] theorem part_notify_free (p : Part) (o : Occ) : (p.notify o).free = p.free := rfl
@[simp] theorem part_put_regs (p : Part) (f : Field) (v : Nat) : (p.put f v).regs = p.regs.set f v := rfl
@[simp] theorem part_count_regs (p : Part) (f : Field) (n : Nat) : (p.count f n).regs = p.regs.count f n := rfl
@[simp] theorem part_putLive_live (p : Part) (f : Field) (v : Nat) : (p.putLive f v).live = p.live.set f v := rfl
@[simp] theorem part_until_now (p : Part) (ns : Nat) : (p.until ns).now = max p.now (ns * 2 ^ 56) := rfl
@[simp] theorem part_onCol_regs (p : Part) (g : Collector → Collector) : (p.onCol g).regs = p.regs := rfl
@[simp] theorem part_onCol_live (p : Part) (g : Collector → Collector) : (p.onCol g).live = p.live := rfl
@[simp] theorem part_onCol_staged (p : Part) (g : Collector → Collector) : (p.onCol g).staged = p.staged := rfl
@[simp] theorem part_onCol_copy (p : Part) (g : Collector → Collector) : (p.onCol g).copy = p.copy := rfl
@[simp] theorem part_onCol_copyNs (p : Part) (g : Collector → Collector) : (p.onCol g).copyNs = p.copyNs := rfl
@[simp] theorem part_onCol_now (p : Part) (g : Collector → Collector) : (p.onCol g).now = p.now := rfl
@[simp] theorem part_onCol_servo (p : Part) (g : Collector → Collector) : (p.onCol g).servo = p.servo := rfl
@[simp] theorem part_onCol_tick (p : Part) (g : Collector → Collector) : (p.onCol g).tick = p.tick := rfl
@[simp] theorem part_onCol_free (p : Part) (g : Collector → Collector) : (p.onCol g).free = p.free := rfl
@[simp] theorem part_onSrc_regs (p : Part) (k : Nat) (g : SrcStat → SrcStat) : (p.onSrc k g).regs = p.regs := rfl
@[simp] theorem part_onSrc_live (p : Part) (k : Nat) (g : SrcStat → SrcStat) : (p.onSrc k g).live = p.live := rfl
@[simp] theorem part_onSrc_staged (p : Part) (k : Nat) (g : SrcStat → SrcStat) : (p.onSrc k g).staged = p.staged := rfl
@[simp] theorem part_onSrc_copy (p : Part) (k : Nat) (g : SrcStat → SrcStat) : (p.onSrc k g).copy = p.copy := rfl
@[simp] theorem part_onSrc_copyNs (p : Part) (k : Nat) (g : SrcStat → SrcStat) : (p.onSrc k g).copyNs = p.copyNs := rfl
@[simp] theorem part_onSrc_now (p : Part) (k : Nat) (g : SrcStat → SrcStat) : (p.onSrc k g).now = p.now := rfl
@[simp] theorem part_onSrc_servo (p : Part) (k : Nat) (g : SrcStat → SrcStat) : (p.onSrc k g).servo = p.servo := rfl
@[simp] theorem part_onSrc_tick (p : Part) (k : Nat) (g : SrcStat → SrcStat) : (p.onSrc k g).tick = p.tick := rfl
@[simp] theorem part_onSrc_free (p : Part) (k : Nat) (g : SrcStat → SrcStat) : (p.onSrc k g).free = p.free := rfl
@[simp] theorem part_onServo_regs (p : Part) (g : Servo → Servo) : (p.onServo g).regs = p.regs := rfl
@[simp] theorem part_onServo_live (p : Part) (g : Servo → Servo) : (p.onServo g).live = p.live := rfl
@[simp] theorem part_onServo_staged (p : Part) (g : Servo → Servo) : (p.onServo g).staged = p.staged := rfl
@[simp] theorem part_onServo_copy (p : Part) (g : Servo → Servo) : (p.onServo g).copy = p.copy := rfl
@[simp] theorem part_onServo_copyNs (p : Part) (g : Servo → Servo) : (p.onServo g).copyNs = p.copyNs := rfl
@[simp] theorem part_onServo_now (p : Part) (g : Servo → Servo) : (p.onServo g).now = p.now := rfl
@[simp] theorem part_onServo_tick (p : Part) (g : Servo → Servo) : (p.onServo g).tick = p.tick := rfl
@[simp] theorem part_onServo_col (p : Part) (g : Servo → Servo) : (p.onServo g).col = p.col := rfl
@[simp] theorem part_onServo_free (p : Part) (g : Servo → Servo) : (p.onServo g).free = p.free := rfl

/-! ### The aggregator -/
@[simp] theorem agg_put_time (a : Agg) (f : Field) (v : Nat) : (a.put f v).time = a.time := rfl
@[simp] theorem agg_put_die (a : Agg) (f : Field) (v : Nat) : (a.put f v).die = a.die := rfl
@[simp] theorem agg_put_img (a : Agg) (f : Field) (v : Nat) : (a.put f v).img = a.img := rfl
@[simp] theorem agg_put_ing (a : Agg) (f : Field) (v : Nat) : (a.put f v).ing = a.ing := rfl
@[simp] theorem agg_put_shed (a : Agg) (f : Field) (v : Nat) : (a.put f v).shed = a.shed := rfl
@[simp] theorem agg_put_fab (a : Agg) (f : Field) (v : Nat) : (a.put f v).fab = a.fab := rfl
@[simp] theorem agg_put_tly (a : Agg) (f : Field) (v : Nat) : (a.put f v).tly = a.tly := rfl
@[simp] theorem agg_put_det (a : Agg) (f : Field) (v : Nat) : (a.put f v).det = a.det := rfl
@[simp] theorem agg_put_hdg (a : Agg) (f : Field) (v : Nat) : (a.put f v).hdg = a.hdg := rfl
@[simp] theorem agg_put_vrf (a : Agg) (f : Field) (v : Nat) : (a.put f v).vrf = a.vrf := rfl
@[simp] theorem agg_put_se (a : Agg) (f : Field) (v : Nat) : (a.put f v).se = a.se := rfl
@[simp] theorem agg_put_flt (a : Agg) (f : Field) (v : Nat) : (a.put f v).flt = a.flt := rfl
@[simp] theorem agg_put_pwr (a : Agg) (f : Field) (v : Nat) : (a.put f v).pwr = a.pwr := rfl
@[simp] theorem agg_put_conf (a : Agg) (f : Field) (v : Nat) : (a.put f v).conf = a.conf := rfl
@[simp] theorem agg_put_rprQueue (a : Agg) (f : Field) (v : Nat) : (a.put f v).rprQueue = a.rprQueue := rfl
@[simp] theorem agg_put_rdata (a : Agg) (f : Field) (v : Nat) : (a.put f v).rdata = a.rdata := rfl
@[simp] theorem agg_put_sent (a : Agg) (f : Field) (v : Nat) : (a.put f v).sent = a.sent := rfl
@[simp] theorem agg_put_role (a : Agg) (f : Field) (v : Nat) : (a.put f v).role = a.role := rfl
@[simp] theorem agg_putInt_time (a : Agg) (f : Field) (v : Int) : (a.putInt f v).time = a.time := rfl
@[simp] theorem agg_putInt_die (a : Agg) (f : Field) (v : Int) : (a.putInt f v).die = a.die := rfl
@[simp] theorem agg_putInt_img (a : Agg) (f : Field) (v : Int) : (a.putInt f v).img = a.img := rfl
@[simp] theorem agg_putInt_ing (a : Agg) (f : Field) (v : Int) : (a.putInt f v).ing = a.ing := rfl
@[simp] theorem agg_putInt_shed (a : Agg) (f : Field) (v : Int) : (a.putInt f v).shed = a.shed := rfl
@[simp] theorem agg_putInt_fab (a : Agg) (f : Field) (v : Int) : (a.putInt f v).fab = a.fab := rfl
@[simp] theorem agg_putInt_tly (a : Agg) (f : Field) (v : Int) : (a.putInt f v).tly = a.tly := rfl
@[simp] theorem agg_putInt_det (a : Agg) (f : Field) (v : Int) : (a.putInt f v).det = a.det := rfl
@[simp] theorem agg_putInt_hdg (a : Agg) (f : Field) (v : Int) : (a.putInt f v).hdg = a.hdg := rfl
@[simp] theorem agg_putInt_vrf (a : Agg) (f : Field) (v : Int) : (a.putInt f v).vrf = a.vrf := rfl
@[simp] theorem agg_putInt_se (a : Agg) (f : Field) (v : Int) : (a.putInt f v).se = a.se := rfl
@[simp] theorem agg_putInt_flt (a : Agg) (f : Field) (v : Int) : (a.putInt f v).flt = a.flt := rfl
@[simp] theorem agg_putInt_pwr (a : Agg) (f : Field) (v : Int) : (a.putInt f v).pwr = a.pwr := rfl
@[simp] theorem agg_putInt_conf (a : Agg) (f : Field) (v : Int) : (a.putInt f v).conf = a.conf := rfl
@[simp] theorem agg_putInt_rprQueue (a : Agg) (f : Field) (v : Int) : (a.putInt f v).rprQueue = a.rprQueue := rfl
@[simp] theorem agg_putInt_rdata (a : Agg) (f : Field) (v : Int) : (a.putInt f v).rdata = a.rdata := rfl
@[simp] theorem agg_putInt_sent (a : Agg) (f : Field) (v : Int) : (a.putInt f v).sent = a.sent := rfl
@[simp] theorem agg_putInt_role (a : Agg) (f : Field) (v : Int) : (a.putInt f v).role = a.role := rfl
@[simp] theorem agg_count_time (a : Agg) (f : Field) (n : Nat) : (a.count f n).time = a.time := rfl
@[simp] theorem agg_count_die (a : Agg) (f : Field) (n : Nat) : (a.count f n).die = a.die := rfl
@[simp] theorem agg_count_img (a : Agg) (f : Field) (n : Nat) : (a.count f n).img = a.img := rfl
@[simp] theorem agg_count_ing (a : Agg) (f : Field) (n : Nat) : (a.count f n).ing = a.ing := rfl
@[simp] theorem agg_count_shed (a : Agg) (f : Field) (n : Nat) : (a.count f n).shed = a.shed := rfl
@[simp] theorem agg_count_fab (a : Agg) (f : Field) (n : Nat) : (a.count f n).fab = a.fab := rfl
@[simp] theorem agg_count_tly (a : Agg) (f : Field) (n : Nat) : (a.count f n).tly = a.tly := rfl
@[simp] theorem agg_count_det (a : Agg) (f : Field) (n : Nat) : (a.count f n).det = a.det := rfl
@[simp] theorem agg_count_hdg (a : Agg) (f : Field) (n : Nat) : (a.count f n).hdg = a.hdg := rfl
@[simp] theorem agg_count_vrf (a : Agg) (f : Field) (n : Nat) : (a.count f n).vrf = a.vrf := rfl
@[simp] theorem agg_count_se (a : Agg) (f : Field) (n : Nat) : (a.count f n).se = a.se := rfl
@[simp] theorem agg_count_flt (a : Agg) (f : Field) (n : Nat) : (a.count f n).flt = a.flt := rfl
@[simp] theorem agg_count_pwr (a : Agg) (f : Field) (n : Nat) : (a.count f n).pwr = a.pwr := rfl
@[simp] theorem agg_count_conf (a : Agg) (f : Field) (n : Nat) : (a.count f n).conf = a.conf := rfl
@[simp] theorem agg_count_rprQueue (a : Agg) (f : Field) (n : Nat) : (a.count f n).rprQueue = a.rprQueue := rfl
@[simp] theorem agg_count_rdata (a : Agg) (f : Field) (n : Nat) : (a.count f n).rdata = a.rdata := rfl
@[simp] theorem agg_count_sent (a : Agg) (f : Field) (n : Nat) : (a.count f n).sent = a.sent := rfl
@[simp] theorem agg_count_role (a : Agg) (f : Field) (n : Nat) : (a.count f n).role = a.role := rfl
@[simp] theorem agg_event_time (a : Agg) (f : Field) (d : Option Nat) (c : Nat) : (a.event f d c).time = a.time := rfl
@[simp] theorem agg_event_die (a : Agg) (f : Field) (d : Option Nat) (c : Nat) : (a.event f d c).die = a.die := rfl
@[simp] theorem agg_event_img (a : Agg) (f : Field) (d : Option Nat) (c : Nat) : (a.event f d c).img = a.img := rfl
@[simp] theorem agg_event_ing (a : Agg) (f : Field) (d : Option Nat) (c : Nat) : (a.event f d c).ing = a.ing := rfl
@[simp] theorem agg_event_shed (a : Agg) (f : Field) (d : Option Nat) (c : Nat) : (a.event f d c).shed = a.shed := rfl
@[simp] theorem agg_event_fab (a : Agg) (f : Field) (d : Option Nat) (c : Nat) : (a.event f d c).fab = a.fab := rfl
@[simp] theorem agg_event_tly (a : Agg) (f : Field) (d : Option Nat) (c : Nat) : (a.event f d c).tly = a.tly := rfl
@[simp] theorem agg_event_det (a : Agg) (f : Field) (d : Option Nat) (c : Nat) : (a.event f d c).det = a.det := rfl
@[simp] theorem agg_event_hdg (a : Agg) (f : Field) (d : Option Nat) (c : Nat) : (a.event f d c).hdg = a.hdg := rfl
@[simp] theorem agg_event_vrf (a : Agg) (f : Field) (d : Option Nat) (c : Nat) : (a.event f d c).vrf = a.vrf := rfl
@[simp] theorem agg_event_se (a : Agg) (f : Field) (d : Option Nat) (c : Nat) : (a.event f d c).se = a.se := rfl
@[simp] theorem agg_event_flt (a : Agg) (f : Field) (d : Option Nat) (c : Nat) : (a.event f d c).flt = a.flt := rfl
@[simp] theorem agg_event_pwr (a : Agg) (f : Field) (d : Option Nat) (c : Nat) : (a.event f d c).pwr = a.pwr := rfl
@[simp] theorem agg_event_conf (a : Agg) (f : Field) (d : Option Nat) (c : Nat) : (a.event f d c).conf = a.conf := rfl
@[simp] theorem agg_event_rprQueue (a : Agg) (f : Field) (d : Option Nat) (c : Nat) : (a.event f d c).rprQueue = a.rprQueue := rfl
@[simp] theorem agg_event_rdata (a : Agg) (f : Field) (d : Option Nat) (c : Nat) : (a.event f d c).rdata = a.rdata := rfl
@[simp] theorem agg_event_sent (a : Agg) (f : Field) (d : Option Nat) (c : Nat) : (a.event f d c).sent = a.sent := rfl
@[simp] theorem agg_event_role (a : Agg) (f : Field) (d : Option Nat) (c : Nat) : (a.event f d c).role = a.role := rfl
@[simp] theorem agg_send_p (a : Agg) (m : Sent) : (a.send m).p = a.p := rfl
@[simp] theorem agg_send_time (a : Agg) (m : Sent) : (a.send m).time = a.time := rfl
@[simp] theorem agg_send_die (a : Agg) (m : Sent) : (a.send m).die = a.die := rfl
@[simp] theorem agg_send_img (a : Agg) (m : Sent) : (a.send m).img = a.img := rfl
@[simp] theorem agg_send_ing (a : Agg) (m : Sent) : (a.send m).ing = a.ing := rfl
@[simp] theorem agg_send_shed (a : Agg) (m : Sent) : (a.send m).shed = a.shed := rfl
@[simp] theorem agg_send_fab (a : Agg) (m : Sent) : (a.send m).fab = a.fab := rfl
@[simp] theorem agg_send_tly (a : Agg) (m : Sent) : (a.send m).tly = a.tly := rfl
@[simp] theorem agg_send_det (a : Agg) (m : Sent) : (a.send m).det = a.det := rfl
@[simp] theorem agg_send_hdg (a : Agg) (m : Sent) : (a.send m).hdg = a.hdg := rfl
@[simp] theorem agg_send_vrf (a : Agg) (m : Sent) : (a.send m).vrf = a.vrf := rfl
@[simp] theorem agg_send_se (a : Agg) (m : Sent) : (a.send m).se = a.se := rfl
@[simp] theorem agg_send_flt (a : Agg) (m : Sent) : (a.send m).flt = a.flt := rfl
@[simp] theorem agg_send_pwr (a : Agg) (m : Sent) : (a.send m).pwr = a.pwr := rfl
@[simp] theorem agg_send_conf (a : Agg) (m : Sent) : (a.send m).conf = a.conf := rfl
@[simp] theorem agg_send_rprQueue (a : Agg) (m : Sent) : (a.send m).rprQueue = a.rprQueue := rfl
@[simp] theorem agg_send_rdata (a : Agg) (m : Sent) : (a.send m).rdata = a.rdata := rfl
@[simp] theorem agg_send_role (a : Agg) (m : Sent) : (a.send m).role = a.role := rfl
@[simp] theorem agg_onShed_p (a : Agg) (g : AggShed → AggShed) : (a.onShed g).p = a.p := rfl
@[simp] theorem agg_onShed_time (a : Agg) (g : AggShed → AggShed) : (a.onShed g).time = a.time := rfl
@[simp] theorem agg_onShed_die (a : Agg) (g : AggShed → AggShed) : (a.onShed g).die = a.die := rfl
@[simp] theorem agg_onShed_img (a : Agg) (g : AggShed → AggShed) : (a.onShed g).img = a.img := rfl
@[simp] theorem agg_onShed_ing (a : Agg) (g : AggShed → AggShed) : (a.onShed g).ing = a.ing := rfl
@[simp] theorem agg_onShed_fab (a : Agg) (g : AggShed → AggShed) : (a.onShed g).fab = a.fab := rfl
@[simp] theorem agg_onShed_tly (a : Agg) (g : AggShed → AggShed) : (a.onShed g).tly = a.tly := rfl
@[simp] theorem agg_onShed_det (a : Agg) (g : AggShed → AggShed) : (a.onShed g).det = a.det := rfl
@[simp] theorem agg_onShed_hdg (a : Agg) (g : AggShed → AggShed) : (a.onShed g).hdg = a.hdg := rfl
@[simp] theorem agg_onShed_vrf (a : Agg) (g : AggShed → AggShed) : (a.onShed g).vrf = a.vrf := rfl
@[simp] theorem agg_onShed_se (a : Agg) (g : AggShed → AggShed) : (a.onShed g).se = a.se := rfl
@[simp] theorem agg_onShed_flt (a : Agg) (g : AggShed → AggShed) : (a.onShed g).flt = a.flt := rfl
@[simp] theorem agg_onShed_pwr (a : Agg) (g : AggShed → AggShed) : (a.onShed g).pwr = a.pwr := rfl
@[simp] theorem agg_onShed_conf (a : Agg) (g : AggShed → AggShed) : (a.onShed g).conf = a.conf := rfl
@[simp] theorem agg_onShed_rprQueue (a : Agg) (g : AggShed → AggShed) : (a.onShed g).rprQueue = a.rprQueue := rfl
@[simp] theorem agg_onShed_rdata (a : Agg) (g : AggShed → AggShed) : (a.onShed g).rdata = a.rdata := rfl
@[simp] theorem agg_onShed_sent (a : Agg) (g : AggShed → AggShed) : (a.onShed g).sent = a.sent := rfl
@[simp] theorem agg_onShed_role (a : Agg) (g : AggShed → AggShed) : (a.onShed g).role = a.role := rfl
@[simp] theorem agg_onIng_p (a : Agg) (g : AggIngest → AggIngest) : (a.onIng g).p = a.p := rfl
@[simp] theorem agg_onIng_time (a : Agg) (g : AggIngest → AggIngest) : (a.onIng g).time = a.time := rfl
@[simp] theorem agg_onIng_die (a : Agg) (g : AggIngest → AggIngest) : (a.onIng g).die = a.die := rfl
@[simp] theorem agg_onIng_img (a : Agg) (g : AggIngest → AggIngest) : (a.onIng g).img = a.img := rfl
@[simp] theorem agg_onIng_shed (a : Agg) (g : AggIngest → AggIngest) : (a.onIng g).shed = a.shed := rfl
@[simp] theorem agg_onIng_fab (a : Agg) (g : AggIngest → AggIngest) : (a.onIng g).fab = a.fab := rfl
@[simp] theorem agg_onIng_tly (a : Agg) (g : AggIngest → AggIngest) : (a.onIng g).tly = a.tly := rfl
@[simp] theorem agg_onIng_det (a : Agg) (g : AggIngest → AggIngest) : (a.onIng g).det = a.det := rfl
@[simp] theorem agg_onIng_hdg (a : Agg) (g : AggIngest → AggIngest) : (a.onIng g).hdg = a.hdg := rfl
@[simp] theorem agg_onIng_vrf (a : Agg) (g : AggIngest → AggIngest) : (a.onIng g).vrf = a.vrf := rfl
@[simp] theorem agg_onIng_se (a : Agg) (g : AggIngest → AggIngest) : (a.onIng g).se = a.se := rfl
@[simp] theorem agg_onIng_flt (a : Agg) (g : AggIngest → AggIngest) : (a.onIng g).flt = a.flt := rfl
@[simp] theorem agg_onIng_pwr (a : Agg) (g : AggIngest → AggIngest) : (a.onIng g).pwr = a.pwr := rfl
@[simp] theorem agg_onIng_conf (a : Agg) (g : AggIngest → AggIngest) : (a.onIng g).conf = a.conf := rfl
@[simp] theorem agg_onIng_rprQueue (a : Agg) (g : AggIngest → AggIngest) : (a.onIng g).rprQueue = a.rprQueue := rfl
@[simp] theorem agg_onIng_rdata (a : Agg) (g : AggIngest → AggIngest) : (a.onIng g).rdata = a.rdata := rfl
@[simp] theorem agg_onIng_sent (a : Agg) (g : AggIngest → AggIngest) : (a.onIng g).sent = a.sent := rfl
@[simp] theorem agg_onIng_role (a : Agg) (g : AggIngest → AggIngest) : (a.onIng g).role = a.role := rfl
@[simp] theorem agg_onFab_p (a : Agg) (g : AggFab → AggFab) : (a.onFab g).p = a.p := rfl
@[simp] theorem agg_onFab_time (a : Agg) (g : AggFab → AggFab) : (a.onFab g).time = a.time := rfl
@[simp] theorem agg_onFab_die (a : Agg) (g : AggFab → AggFab) : (a.onFab g).die = a.die := rfl
@[simp] theorem agg_onFab_img (a : Agg) (g : AggFab → AggFab) : (a.onFab g).img = a.img := rfl
@[simp] theorem agg_onFab_ing (a : Agg) (g : AggFab → AggFab) : (a.onFab g).ing = a.ing := rfl
@[simp] theorem agg_onFab_shed (a : Agg) (g : AggFab → AggFab) : (a.onFab g).shed = a.shed := rfl
@[simp] theorem agg_onFab_tly (a : Agg) (g : AggFab → AggFab) : (a.onFab g).tly = a.tly := rfl
@[simp] theorem agg_onFab_det (a : Agg) (g : AggFab → AggFab) : (a.onFab g).det = a.det := rfl
@[simp] theorem agg_onFab_hdg (a : Agg) (g : AggFab → AggFab) : (a.onFab g).hdg = a.hdg := rfl
@[simp] theorem agg_onFab_vrf (a : Agg) (g : AggFab → AggFab) : (a.onFab g).vrf = a.vrf := rfl
@[simp] theorem agg_onFab_se (a : Agg) (g : AggFab → AggFab) : (a.onFab g).se = a.se := rfl
@[simp] theorem agg_onFab_flt (a : Agg) (g : AggFab → AggFab) : (a.onFab g).flt = a.flt := rfl
@[simp] theorem agg_onFab_pwr (a : Agg) (g : AggFab → AggFab) : (a.onFab g).pwr = a.pwr := rfl
@[simp] theorem agg_onFab_conf (a : Agg) (g : AggFab → AggFab) : (a.onFab g).conf = a.conf := rfl
@[simp] theorem agg_onFab_rprQueue (a : Agg) (g : AggFab → AggFab) : (a.onFab g).rprQueue = a.rprQueue := rfl
@[simp] theorem agg_onFab_rdata (a : Agg) (g : AggFab → AggFab) : (a.onFab g).rdata = a.rdata := rfl
@[simp] theorem agg_onFab_sent (a : Agg) (g : AggFab → AggFab) : (a.onFab g).sent = a.sent := rfl
@[simp] theorem agg_onFab_role (a : Agg) (g : AggFab → AggFab) : (a.onFab g).role = a.role := rfl
@[simp] theorem agg_onTly_p (a : Agg) (g : AggTally → AggTally) : (a.onTly g).p = a.p := rfl
@[simp] theorem agg_onTly_time (a : Agg) (g : AggTally → AggTally) : (a.onTly g).time = a.time := rfl
@[simp] theorem agg_onTly_die (a : Agg) (g : AggTally → AggTally) : (a.onTly g).die = a.die := rfl
@[simp] theorem agg_onTly_img (a : Agg) (g : AggTally → AggTally) : (a.onTly g).img = a.img := rfl
@[simp] theorem agg_onTly_ing (a : Agg) (g : AggTally → AggTally) : (a.onTly g).ing = a.ing := rfl
@[simp] theorem agg_onTly_shed (a : Agg) (g : AggTally → AggTally) : (a.onTly g).shed = a.shed := rfl
@[simp] theorem agg_onTly_fab (a : Agg) (g : AggTally → AggTally) : (a.onTly g).fab = a.fab := rfl
@[simp] theorem agg_onTly_det (a : Agg) (g : AggTally → AggTally) : (a.onTly g).det = a.det := rfl
@[simp] theorem agg_onTly_hdg (a : Agg) (g : AggTally → AggTally) : (a.onTly g).hdg = a.hdg := rfl
@[simp] theorem agg_onTly_vrf (a : Agg) (g : AggTally → AggTally) : (a.onTly g).vrf = a.vrf := rfl
@[simp] theorem agg_onTly_se (a : Agg) (g : AggTally → AggTally) : (a.onTly g).se = a.se := rfl
@[simp] theorem agg_onTly_flt (a : Agg) (g : AggTally → AggTally) : (a.onTly g).flt = a.flt := rfl
@[simp] theorem agg_onTly_pwr (a : Agg) (g : AggTally → AggTally) : (a.onTly g).pwr = a.pwr := rfl
@[simp] theorem agg_onTly_conf (a : Agg) (g : AggTally → AggTally) : (a.onTly g).conf = a.conf := rfl
@[simp] theorem agg_onTly_rprQueue (a : Agg) (g : AggTally → AggTally) : (a.onTly g).rprQueue = a.rprQueue := rfl
@[simp] theorem agg_onTly_rdata (a : Agg) (g : AggTally → AggTally) : (a.onTly g).rdata = a.rdata := rfl
@[simp] theorem agg_onTly_sent (a : Agg) (g : AggTally → AggTally) : (a.onTly g).sent = a.sent := rfl
@[simp] theorem agg_onTly_role (a : Agg) (g : AggTally → AggTally) : (a.onTly g).role = a.role := rfl
@[simp] theorem agg_onDet_p (a : Agg) (g : AggDet → AggDet) : (a.onDet g).p = a.p := rfl
@[simp] theorem agg_onDet_time (a : Agg) (g : AggDet → AggDet) : (a.onDet g).time = a.time := rfl
@[simp] theorem agg_onDet_die (a : Agg) (g : AggDet → AggDet) : (a.onDet g).die = a.die := rfl
@[simp] theorem agg_onDet_img (a : Agg) (g : AggDet → AggDet) : (a.onDet g).img = a.img := rfl
@[simp] theorem agg_onDet_ing (a : Agg) (g : AggDet → AggDet) : (a.onDet g).ing = a.ing := rfl
@[simp] theorem agg_onDet_shed (a : Agg) (g : AggDet → AggDet) : (a.onDet g).shed = a.shed := rfl
@[simp] theorem agg_onDet_fab (a : Agg) (g : AggDet → AggDet) : (a.onDet g).fab = a.fab := rfl
@[simp] theorem agg_onDet_tly (a : Agg) (g : AggDet → AggDet) : (a.onDet g).tly = a.tly := rfl
@[simp] theorem agg_onDet_hdg (a : Agg) (g : AggDet → AggDet) : (a.onDet g).hdg = a.hdg := rfl
@[simp] theorem agg_onDet_vrf (a : Agg) (g : AggDet → AggDet) : (a.onDet g).vrf = a.vrf := rfl
@[simp] theorem agg_onDet_se (a : Agg) (g : AggDet → AggDet) : (a.onDet g).se = a.se := rfl
@[simp] theorem agg_onDet_flt (a : Agg) (g : AggDet → AggDet) : (a.onDet g).flt = a.flt := rfl
@[simp] theorem agg_onDet_pwr (a : Agg) (g : AggDet → AggDet) : (a.onDet g).pwr = a.pwr := rfl
@[simp] theorem agg_onDet_conf (a : Agg) (g : AggDet → AggDet) : (a.onDet g).conf = a.conf := rfl
@[simp] theorem agg_onDet_rprQueue (a : Agg) (g : AggDet → AggDet) : (a.onDet g).rprQueue = a.rprQueue := rfl
@[simp] theorem agg_onDet_rdata (a : Agg) (g : AggDet → AggDet) : (a.onDet g).rdata = a.rdata := rfl
@[simp] theorem agg_onDet_sent (a : Agg) (g : AggDet → AggDet) : (a.onDet g).sent = a.sent := rfl
@[simp] theorem agg_onDet_role (a : Agg) (g : AggDet → AggDet) : (a.onDet g).role = a.role := rfl
@[simp] theorem agg_onVrf_p (a : Agg) (g : AggVrf → AggVrf) : (a.onVrf g).p = a.p := rfl
@[simp] theorem agg_onVrf_time (a : Agg) (g : AggVrf → AggVrf) : (a.onVrf g).time = a.time := rfl
@[simp] theorem agg_onVrf_die (a : Agg) (g : AggVrf → AggVrf) : (a.onVrf g).die = a.die := rfl
@[simp] theorem agg_onVrf_img (a : Agg) (g : AggVrf → AggVrf) : (a.onVrf g).img = a.img := rfl
@[simp] theorem agg_onVrf_ing (a : Agg) (g : AggVrf → AggVrf) : (a.onVrf g).ing = a.ing := rfl
@[simp] theorem agg_onVrf_shed (a : Agg) (g : AggVrf → AggVrf) : (a.onVrf g).shed = a.shed := rfl
@[simp] theorem agg_onVrf_fab (a : Agg) (g : AggVrf → AggVrf) : (a.onVrf g).fab = a.fab := rfl
@[simp] theorem agg_onVrf_tly (a : Agg) (g : AggVrf → AggVrf) : (a.onVrf g).tly = a.tly := rfl
@[simp] theorem agg_onVrf_det (a : Agg) (g : AggVrf → AggVrf) : (a.onVrf g).det = a.det := rfl
@[simp] theorem agg_onVrf_hdg (a : Agg) (g : AggVrf → AggVrf) : (a.onVrf g).hdg = a.hdg := rfl
@[simp] theorem agg_onVrf_se (a : Agg) (g : AggVrf → AggVrf) : (a.onVrf g).se = a.se := rfl
@[simp] theorem agg_onVrf_flt (a : Agg) (g : AggVrf → AggVrf) : (a.onVrf g).flt = a.flt := rfl
@[simp] theorem agg_onVrf_pwr (a : Agg) (g : AggVrf → AggVrf) : (a.onVrf g).pwr = a.pwr := rfl
@[simp] theorem agg_onVrf_conf (a : Agg) (g : AggVrf → AggVrf) : (a.onVrf g).conf = a.conf := rfl
@[simp] theorem agg_onVrf_rprQueue (a : Agg) (g : AggVrf → AggVrf) : (a.onVrf g).rprQueue = a.rprQueue := rfl
@[simp] theorem agg_onVrf_rdata (a : Agg) (g : AggVrf → AggVrf) : (a.onVrf g).rdata = a.rdata := rfl
@[simp] theorem agg_onVrf_sent (a : Agg) (g : AggVrf → AggVrf) : (a.onVrf g).sent = a.sent := rfl
@[simp] theorem agg_onVrf_role (a : Agg) (g : AggVrf → AggVrf) : (a.onVrf g).role = a.role := rfl
@[simp] theorem agg_onFlt_p (a : Agg) (g : AggFlt → AggFlt) : (a.onFlt g).p = a.p := rfl
@[simp] theorem agg_onFlt_time (a : Agg) (g : AggFlt → AggFlt) : (a.onFlt g).time = a.time := rfl
@[simp] theorem agg_onFlt_die (a : Agg) (g : AggFlt → AggFlt) : (a.onFlt g).die = a.die := rfl
@[simp] theorem agg_onFlt_img (a : Agg) (g : AggFlt → AggFlt) : (a.onFlt g).img = a.img := rfl
@[simp] theorem agg_onFlt_ing (a : Agg) (g : AggFlt → AggFlt) : (a.onFlt g).ing = a.ing := rfl
@[simp] theorem agg_onFlt_shed (a : Agg) (g : AggFlt → AggFlt) : (a.onFlt g).shed = a.shed := rfl
@[simp] theorem agg_onFlt_fab (a : Agg) (g : AggFlt → AggFlt) : (a.onFlt g).fab = a.fab := rfl
@[simp] theorem agg_onFlt_tly (a : Agg) (g : AggFlt → AggFlt) : (a.onFlt g).tly = a.tly := rfl
@[simp] theorem agg_onFlt_det (a : Agg) (g : AggFlt → AggFlt) : (a.onFlt g).det = a.det := rfl
@[simp] theorem agg_onFlt_hdg (a : Agg) (g : AggFlt → AggFlt) : (a.onFlt g).hdg = a.hdg := rfl
@[simp] theorem agg_onFlt_vrf (a : Agg) (g : AggFlt → AggFlt) : (a.onFlt g).vrf = a.vrf := rfl
@[simp] theorem agg_onFlt_se (a : Agg) (g : AggFlt → AggFlt) : (a.onFlt g).se = a.se := rfl
@[simp] theorem agg_onFlt_pwr (a : Agg) (g : AggFlt → AggFlt) : (a.onFlt g).pwr = a.pwr := rfl
@[simp] theorem agg_onFlt_conf (a : Agg) (g : AggFlt → AggFlt) : (a.onFlt g).conf = a.conf := rfl
@[simp] theorem agg_onFlt_rprQueue (a : Agg) (g : AggFlt → AggFlt) : (a.onFlt g).rprQueue = a.rprQueue := rfl
@[simp] theorem agg_onFlt_rdata (a : Agg) (g : AggFlt → AggFlt) : (a.onFlt g).rdata = a.rdata := rfl
@[simp] theorem agg_onFlt_sent (a : Agg) (g : AggFlt → AggFlt) : (a.onFlt g).sent = a.sent := rfl
@[simp] theorem agg_onFlt_role (a : Agg) (g : AggFlt → AggFlt) : (a.onFlt g).role = a.role := rfl
@[simp] theorem agg_onConf_p (a : Agg) (g : AggCfg → AggCfg) : (a.onConf g).p = a.p := rfl
@[simp] theorem agg_onConf_time (a : Agg) (g : AggCfg → AggCfg) : (a.onConf g).time = a.time := rfl
@[simp] theorem agg_onConf_die (a : Agg) (g : AggCfg → AggCfg) : (a.onConf g).die = a.die := rfl
@[simp] theorem agg_onConf_img (a : Agg) (g : AggCfg → AggCfg) : (a.onConf g).img = a.img := rfl
@[simp] theorem agg_onConf_ing (a : Agg) (g : AggCfg → AggCfg) : (a.onConf g).ing = a.ing := rfl
@[simp] theorem agg_onConf_shed (a : Agg) (g : AggCfg → AggCfg) : (a.onConf g).shed = a.shed := rfl
@[simp] theorem agg_onConf_fab (a : Agg) (g : AggCfg → AggCfg) : (a.onConf g).fab = a.fab := rfl
@[simp] theorem agg_onConf_tly (a : Agg) (g : AggCfg → AggCfg) : (a.onConf g).tly = a.tly := rfl
@[simp] theorem agg_onConf_det (a : Agg) (g : AggCfg → AggCfg) : (a.onConf g).det = a.det := rfl
@[simp] theorem agg_onConf_hdg (a : Agg) (g : AggCfg → AggCfg) : (a.onConf g).hdg = a.hdg := rfl
@[simp] theorem agg_onConf_vrf (a : Agg) (g : AggCfg → AggCfg) : (a.onConf g).vrf = a.vrf := rfl
@[simp] theorem agg_onConf_se (a : Agg) (g : AggCfg → AggCfg) : (a.onConf g).se = a.se := rfl
@[simp] theorem agg_onConf_flt (a : Agg) (g : AggCfg → AggCfg) : (a.onConf g).flt = a.flt := rfl
@[simp] theorem agg_onConf_pwr (a : Agg) (g : AggCfg → AggCfg) : (a.onConf g).pwr = a.pwr := rfl
@[simp] theorem agg_onConf_rprQueue (a : Agg) (g : AggCfg → AggCfg) : (a.onConf g).rprQueue = a.rprQueue := rfl
@[simp] theorem agg_onConf_rdata (a : Agg) (g : AggCfg → AggCfg) : (a.onConf g).rdata = a.rdata := rfl
@[simp] theorem agg_onConf_sent (a : Agg) (g : AggCfg → AggCfg) : (a.onConf g).sent = a.sent := rfl
@[simp] theorem agg_onConf_role (a : Agg) (g : AggCfg → AggCfg) : (a.onConf g).role = a.role := rfl
@[simp] theorem agg_onFlush_p (a : Agg) (g : AggFlush → AggFlush) : (a.onFlush g).p = a.p := rfl
@[simp] theorem agg_onFlush_time (a : Agg) (g : AggFlush → AggFlush) : (a.onFlush g).time = a.time := rfl
@[simp] theorem agg_onFlush_die (a : Agg) (g : AggFlush → AggFlush) : (a.onFlush g).die = a.die := rfl
@[simp] theorem agg_onFlush_img (a : Agg) (g : AggFlush → AggFlush) : (a.onFlush g).img = a.img := rfl
@[simp] theorem agg_onFlush_ing (a : Agg) (g : AggFlush → AggFlush) : (a.onFlush g).ing = a.ing := rfl
@[simp] theorem agg_onFlush_shed (a : Agg) (g : AggFlush → AggFlush) : (a.onFlush g).shed = a.shed := rfl
@[simp] theorem agg_onFlush_fab (a : Agg) (g : AggFlush → AggFlush) : (a.onFlush g).fab = a.fab := rfl
@[simp] theorem agg_onFlush_tly (a : Agg) (g : AggFlush → AggFlush) : (a.onFlush g).tly = a.tly := rfl
@[simp] theorem agg_onFlush_det (a : Agg) (g : AggFlush → AggFlush) : (a.onFlush g).det = a.det := rfl
@[simp] theorem agg_onFlush_hdg (a : Agg) (g : AggFlush → AggFlush) : (a.onFlush g).hdg = a.hdg := rfl
@[simp] theorem agg_onFlush_vrf (a : Agg) (g : AggFlush → AggFlush) : (a.onFlush g).vrf = a.vrf := rfl
@[simp] theorem agg_onFlush_se (a : Agg) (g : AggFlush → AggFlush) : (a.onFlush g).se = a.se := rfl
@[simp] theorem agg_onFlush_flt (a : Agg) (g : AggFlush → AggFlush) : (a.onFlush g).flt = a.flt := rfl
@[simp] theorem agg_onFlush_conf (a : Agg) (g : AggFlush → AggFlush) : (a.onFlush g).conf = a.conf := rfl
@[simp] theorem agg_onFlush_rprQueue (a : Agg) (g : AggFlush → AggFlush) : (a.onFlush g).rprQueue = a.rprQueue := rfl
@[simp] theorem agg_onFlush_rdata (a : Agg) (g : AggFlush → AggFlush) : (a.onFlush g).rdata = a.rdata := rfl
@[simp] theorem agg_onFlush_sent (a : Agg) (g : AggFlush → AggFlush) : (a.onFlush g).sent = a.sent := rfl
@[simp] theorem agg_onFlush_role (a : Agg) (g : AggFlush → AggFlush) : (a.onFlush g).role = a.role := rfl
@[simp] theorem agg_onDie_p (a : Agg) (k : Nat) (g : DiePort → DiePort) : (a.onDie k g).p = a.p := rfl
@[simp] theorem agg_onDie_time (a : Agg) (k : Nat) (g : DiePort → DiePort) : (a.onDie k g).time = a.time := rfl
@[simp] theorem agg_onDie_img (a : Agg) (k : Nat) (g : DiePort → DiePort) : (a.onDie k g).img = a.img := rfl
@[simp] theorem agg_onDie_ing (a : Agg) (k : Nat) (g : DiePort → DiePort) : (a.onDie k g).ing = a.ing := rfl
@[simp] theorem agg_onDie_shed (a : Agg) (k : Nat) (g : DiePort → DiePort) : (a.onDie k g).shed = a.shed := rfl
@[simp] theorem agg_onDie_fab (a : Agg) (k : Nat) (g : DiePort → DiePort) : (a.onDie k g).fab = a.fab := rfl
@[simp] theorem agg_onDie_tly (a : Agg) (k : Nat) (g : DiePort → DiePort) : (a.onDie k g).tly = a.tly := rfl
@[simp] theorem agg_onDie_det (a : Agg) (k : Nat) (g : DiePort → DiePort) : (a.onDie k g).det = a.det := rfl
@[simp] theorem agg_onDie_hdg (a : Agg) (k : Nat) (g : DiePort → DiePort) : (a.onDie k g).hdg = a.hdg := rfl
@[simp] theorem agg_onDie_vrf (a : Agg) (k : Nat) (g : DiePort → DiePort) : (a.onDie k g).vrf = a.vrf := rfl
@[simp] theorem agg_onDie_se (a : Agg) (k : Nat) (g : DiePort → DiePort) : (a.onDie k g).se = a.se := rfl
@[simp] theorem agg_onDie_flt (a : Agg) (k : Nat) (g : DiePort → DiePort) : (a.onDie k g).flt = a.flt := rfl
@[simp] theorem agg_onDie_pwr (a : Agg) (k : Nat) (g : DiePort → DiePort) : (a.onDie k g).pwr = a.pwr := rfl
@[simp] theorem agg_onDie_conf (a : Agg) (k : Nat) (g : DiePort → DiePort) : (a.onDie k g).conf = a.conf := rfl
@[simp] theorem agg_onDie_rprQueue (a : Agg) (k : Nat) (g : DiePort → DiePort) : (a.onDie k g).rprQueue = a.rprQueue := rfl
@[simp] theorem agg_onDie_rdata (a : Agg) (k : Nat) (g : DiePort → DiePort) : (a.onDie k g).rdata = a.rdata := rfl
@[simp] theorem agg_onDie_sent (a : Agg) (k : Nat) (g : DiePort → DiePort) : (a.onDie k g).sent = a.sent := rfl
@[simp] theorem agg_onDie_role (a : Agg) (k : Nat) (g : DiePort → DiePort) : (a.onDie k g).role = a.role := rfl
@[simp] theorem agg_onSlot_p (a : Agg) (k : Nat) (g : DieDet → DieDet) : (a.onSlot k g).p = a.p := rfl
@[simp] theorem agg_onSlot_time (a : Agg) (k : Nat) (g : DieDet → DieDet) : (a.onSlot k g).time = a.time := rfl
@[simp] theorem agg_onSlot_die (a : Agg) (k : Nat) (g : DieDet → DieDet) : (a.onSlot k g).die = a.die := rfl
@[simp] theorem agg_onSlot_img (a : Agg) (k : Nat) (g : DieDet → DieDet) : (a.onSlot k g).img = a.img := rfl
@[simp] theorem agg_onSlot_ing (a : Agg) (k : Nat) (g : DieDet → DieDet) : (a.onSlot k g).ing = a.ing := rfl
@[simp] theorem agg_onSlot_shed (a : Agg) (k : Nat) (g : DieDet → DieDet) : (a.onSlot k g).shed = a.shed := rfl
@[simp] theorem agg_onSlot_fab (a : Agg) (k : Nat) (g : DieDet → DieDet) : (a.onSlot k g).fab = a.fab := rfl
@[simp] theorem agg_onSlot_tly (a : Agg) (k : Nat) (g : DieDet → DieDet) : (a.onSlot k g).tly = a.tly := rfl
@[simp] theorem agg_onSlot_hdg (a : Agg) (k : Nat) (g : DieDet → DieDet) : (a.onSlot k g).hdg = a.hdg := rfl
@[simp] theorem agg_onSlot_vrf (a : Agg) (k : Nat) (g : DieDet → DieDet) : (a.onSlot k g).vrf = a.vrf := rfl
@[simp] theorem agg_onSlot_se (a : Agg) (k : Nat) (g : DieDet → DieDet) : (a.onSlot k g).se = a.se := rfl
@[simp] theorem agg_onSlot_flt (a : Agg) (k : Nat) (g : DieDet → DieDet) : (a.onSlot k g).flt = a.flt := rfl
@[simp] theorem agg_onSlot_pwr (a : Agg) (k : Nat) (g : DieDet → DieDet) : (a.onSlot k g).pwr = a.pwr := rfl
@[simp] theorem agg_onSlot_conf (a : Agg) (k : Nat) (g : DieDet → DieDet) : (a.onSlot k g).conf = a.conf := rfl
@[simp] theorem agg_onSlot_rprQueue (a : Agg) (k : Nat) (g : DieDet → DieDet) : (a.onSlot k g).rprQueue = a.rprQueue := rfl
@[simp] theorem agg_onSlot_rdata (a : Agg) (k : Nat) (g : DieDet → DieDet) : (a.onSlot k g).rdata = a.rdata := rfl
@[simp] theorem agg_onSlot_sent (a : Agg) (k : Nat) (g : DieDet → DieDet) : (a.onSlot k g).sent = a.sent := rfl
@[simp] theorem agg_onSlot_role (a : Agg) (k : Nat) (g : DieDet → DieDet) : (a.onSlot k g).role = a.role := rfl
@[simp] theorem agg_onRun_p (a : Agg) (k : Nat) (g : Run → Run) : (a.onRun k g).p = a.p := rfl
@[simp] theorem agg_onRun_time (a : Agg) (k : Nat) (g : Run → Run) : (a.onRun k g).time = a.time := rfl
@[simp] theorem agg_onRun_die (a : Agg) (k : Nat) (g : Run → Run) : (a.onRun k g).die = a.die := rfl
@[simp] theorem agg_onRun_img (a : Agg) (k : Nat) (g : Run → Run) : (a.onRun k g).img = a.img := rfl
@[simp] theorem agg_onRun_ing (a : Agg) (k : Nat) (g : Run → Run) : (a.onRun k g).ing = a.ing := rfl
@[simp] theorem agg_onRun_shed (a : Agg) (k : Nat) (g : Run → Run) : (a.onRun k g).shed = a.shed := rfl
@[simp] theorem agg_onRun_fab (a : Agg) (k : Nat) (g : Run → Run) : (a.onRun k g).fab = a.fab := rfl
@[simp] theorem agg_onRun_tly (a : Agg) (k : Nat) (g : Run → Run) : (a.onRun k g).tly = a.tly := rfl
@[simp] theorem agg_onRun_hdg (a : Agg) (k : Nat) (g : Run → Run) : (a.onRun k g).hdg = a.hdg := rfl
@[simp] theorem agg_onRun_vrf (a : Agg) (k : Nat) (g : Run → Run) : (a.onRun k g).vrf = a.vrf := rfl
@[simp] theorem agg_onRun_se (a : Agg) (k : Nat) (g : Run → Run) : (a.onRun k g).se = a.se := rfl
@[simp] theorem agg_onRun_flt (a : Agg) (k : Nat) (g : Run → Run) : (a.onRun k g).flt = a.flt := rfl
@[simp] theorem agg_onRun_pwr (a : Agg) (k : Nat) (g : Run → Run) : (a.onRun k g).pwr = a.pwr := rfl
@[simp] theorem agg_onRun_conf (a : Agg) (k : Nat) (g : Run → Run) : (a.onRun k g).conf = a.conf := rfl
@[simp] theorem agg_onRun_rprQueue (a : Agg) (k : Nat) (g : Run → Run) : (a.onRun k g).rprQueue = a.rprQueue := rfl
@[simp] theorem agg_onRun_rdata (a : Agg) (k : Nat) (g : Run → Run) : (a.onRun k g).rdata = a.rdata := rfl
@[simp] theorem agg_onRun_sent (a : Agg) (k : Nat) (g : Run → Run) : (a.onRun k g).sent = a.sent := rfl
@[simp] theorem agg_onRun_role (a : Agg) (k : Nat) (g : Run → Run) : (a.onRun k g).role = a.role := rfl
@[simp] theorem agg_onArr_p (a : Agg) (k : Nat) (g : VArray → VArray) : (a.onArr k g).p = a.p := rfl
@[simp] theorem agg_onArr_time (a : Agg) (k : Nat) (g : VArray → VArray) : (a.onArr k g).time = a.time := rfl
@[simp] theorem agg_onArr_die (a : Agg) (k : Nat) (g : VArray → VArray) : (a.onArr k g).die = a.die := rfl
@[simp] theorem agg_onArr_img (a : Agg) (k : Nat) (g : VArray → VArray) : (a.onArr k g).img = a.img := rfl
@[simp] theorem agg_onArr_ing (a : Agg) (k : Nat) (g : VArray → VArray) : (a.onArr k g).ing = a.ing := rfl
@[simp] theorem agg_onArr_shed (a : Agg) (k : Nat) (g : VArray → VArray) : (a.onArr k g).shed = a.shed := rfl
@[simp] theorem agg_onArr_fab (a : Agg) (k : Nat) (g : VArray → VArray) : (a.onArr k g).fab = a.fab := rfl
@[simp] theorem agg_onArr_tly (a : Agg) (k : Nat) (g : VArray → VArray) : (a.onArr k g).tly = a.tly := rfl
@[simp] theorem agg_onArr_det (a : Agg) (k : Nat) (g : VArray → VArray) : (a.onArr k g).det = a.det := rfl
@[simp] theorem agg_onArr_hdg (a : Agg) (k : Nat) (g : VArray → VArray) : (a.onArr k g).hdg = a.hdg := rfl
@[simp] theorem agg_onArr_se (a : Agg) (k : Nat) (g : VArray → VArray) : (a.onArr k g).se = a.se := rfl
@[simp] theorem agg_onArr_flt (a : Agg) (k : Nat) (g : VArray → VArray) : (a.onArr k g).flt = a.flt := rfl
@[simp] theorem agg_onArr_pwr (a : Agg) (k : Nat) (g : VArray → VArray) : (a.onArr k g).pwr = a.pwr := rfl
@[simp] theorem agg_onArr_conf (a : Agg) (k : Nat) (g : VArray → VArray) : (a.onArr k g).conf = a.conf := rfl
@[simp] theorem agg_onArr_rprQueue (a : Agg) (k : Nat) (g : VArray → VArray) : (a.onArr k g).rprQueue = a.rprQueue := rfl
@[simp] theorem agg_onArr_rdata (a : Agg) (k : Nat) (g : VArray → VArray) : (a.onArr k g).rdata = a.rdata := rfl
@[simp] theorem agg_onArr_sent (a : Agg) (k : Nat) (g : VArray → VArray) : (a.onArr k g).sent = a.sent := rfl
@[simp] theorem agg_onArr_role (a : Agg) (k : Nat) (g : VArray → VArray) : (a.onArr k g).role = a.role := rfl
@[simp] theorem agg_onHdg_p (a : Agg) (k : Nat) (g : HdgSlot → HdgSlot) : (a.onHdg k g).p = a.p := rfl
@[simp] theorem agg_onHdg_time (a : Agg) (k : Nat) (g : HdgSlot → HdgSlot) : (a.onHdg k g).time = a.time := rfl
@[simp] theorem agg_onHdg_die (a : Agg) (k : Nat) (g : HdgSlot → HdgSlot) : (a.onHdg k g).die = a.die := rfl
@[simp] theorem agg_onHdg_img (a : Agg) (k : Nat) (g : HdgSlot → HdgSlot) : (a.onHdg k g).img = a.img := rfl
@[simp] theorem agg_onHdg_ing (a : Agg) (k : Nat) (g : HdgSlot → HdgSlot) : (a.onHdg k g).ing = a.ing := rfl
@[simp] theorem agg_onHdg_shed (a : Agg) (k : Nat) (g : HdgSlot → HdgSlot) : (a.onHdg k g).shed = a.shed := rfl
@[simp] theorem agg_onHdg_fab (a : Agg) (k : Nat) (g : HdgSlot → HdgSlot) : (a.onHdg k g).fab = a.fab := rfl
@[simp] theorem agg_onHdg_tly (a : Agg) (k : Nat) (g : HdgSlot → HdgSlot) : (a.onHdg k g).tly = a.tly := rfl
@[simp] theorem agg_onHdg_det (a : Agg) (k : Nat) (g : HdgSlot → HdgSlot) : (a.onHdg k g).det = a.det := rfl
@[simp] theorem agg_onHdg_vrf (a : Agg) (k : Nat) (g : HdgSlot → HdgSlot) : (a.onHdg k g).vrf = a.vrf := rfl
@[simp] theorem agg_onHdg_se (a : Agg) (k : Nat) (g : HdgSlot → HdgSlot) : (a.onHdg k g).se = a.se := rfl
@[simp] theorem agg_onHdg_flt (a : Agg) (k : Nat) (g : HdgSlot → HdgSlot) : (a.onHdg k g).flt = a.flt := rfl
@[simp] theorem agg_onHdg_pwr (a : Agg) (k : Nat) (g : HdgSlot → HdgSlot) : (a.onHdg k g).pwr = a.pwr := rfl
@[simp] theorem agg_onHdg_conf (a : Agg) (k : Nat) (g : HdgSlot → HdgSlot) : (a.onHdg k g).conf = a.conf := rfl
@[simp] theorem agg_onHdg_rprQueue (a : Agg) (k : Nat) (g : HdgSlot → HdgSlot) : (a.onHdg k g).rprQueue = a.rprQueue := rfl
@[simp] theorem agg_onHdg_rdata (a : Agg) (k : Nat) (g : HdgSlot → HdgSlot) : (a.onHdg k g).rdata = a.rdata := rfl
@[simp] theorem agg_onHdg_sent (a : Agg) (k : Nat) (g : HdgSlot → HdgSlot) : (a.onHdg k g).sent = a.sent := rfl
@[simp] theorem agg_onHdg_role (a : Agg) (k : Nat) (g : HdgSlot → HdgSlot) : (a.onHdg k g).role = a.role := rfl
@[simp] theorem agg_onSE_p (a : Agg) (k : Nat) (g : DieSE → DieSE) : (a.onSE k g).p = a.p := rfl
@[simp] theorem agg_onSE_time (a : Agg) (k : Nat) (g : DieSE → DieSE) : (a.onSE k g).time = a.time := rfl
@[simp] theorem agg_onSE_die (a : Agg) (k : Nat) (g : DieSE → DieSE) : (a.onSE k g).die = a.die := rfl
@[simp] theorem agg_onSE_img (a : Agg) (k : Nat) (g : DieSE → DieSE) : (a.onSE k g).img = a.img := rfl
@[simp] theorem agg_onSE_ing (a : Agg) (k : Nat) (g : DieSE → DieSE) : (a.onSE k g).ing = a.ing := rfl
@[simp] theorem agg_onSE_shed (a : Agg) (k : Nat) (g : DieSE → DieSE) : (a.onSE k g).shed = a.shed := rfl
@[simp] theorem agg_onSE_fab (a : Agg) (k : Nat) (g : DieSE → DieSE) : (a.onSE k g).fab = a.fab := rfl
@[simp] theorem agg_onSE_tly (a : Agg) (k : Nat) (g : DieSE → DieSE) : (a.onSE k g).tly = a.tly := rfl
@[simp] theorem agg_onSE_det (a : Agg) (k : Nat) (g : DieSE → DieSE) : (a.onSE k g).det = a.det := rfl
@[simp] theorem agg_onSE_hdg (a : Agg) (k : Nat) (g : DieSE → DieSE) : (a.onSE k g).hdg = a.hdg := rfl
@[simp] theorem agg_onSE_vrf (a : Agg) (k : Nat) (g : DieSE → DieSE) : (a.onSE k g).vrf = a.vrf := rfl
@[simp] theorem agg_onSE_flt (a : Agg) (k : Nat) (g : DieSE → DieSE) : (a.onSE k g).flt = a.flt := rfl
@[simp] theorem agg_onSE_pwr (a : Agg) (k : Nat) (g : DieSE → DieSE) : (a.onSE k g).pwr = a.pwr := rfl
@[simp] theorem agg_onSE_conf (a : Agg) (k : Nat) (g : DieSE → DieSE) : (a.onSE k g).conf = a.conf := rfl
@[simp] theorem agg_onSE_rprQueue (a : Agg) (k : Nat) (g : DieSE → DieSE) : (a.onSE k g).rprQueue = a.rprQueue := rfl
@[simp] theorem agg_onSE_rdata (a : Agg) (k : Nat) (g : DieSE → DieSE) : (a.onSE k g).rdata = a.rdata := rfl
@[simp] theorem agg_onSE_sent (a : Agg) (k : Nat) (g : DieSE → DieSE) : (a.onSE k g).sent = a.sent := rfl
@[simp] theorem agg_onSE_role (a : Agg) (k : Nat) (g : DieSE → DieSE) : (a.onSE k g).role = a.role := rfl
@[simp] theorem agg_onCh_p (a : Agg) (k : Nat) (g : SlotCh → SlotCh) : (a.onCh k g).p = a.p := rfl
@[simp] theorem agg_onCh_time (a : Agg) (k : Nat) (g : SlotCh → SlotCh) : (a.onCh k g).time = a.time := rfl
@[simp] theorem agg_onCh_die (a : Agg) (k : Nat) (g : SlotCh → SlotCh) : (a.onCh k g).die = a.die := rfl
@[simp] theorem agg_onCh_img (a : Agg) (k : Nat) (g : SlotCh → SlotCh) : (a.onCh k g).img = a.img := rfl
@[simp] theorem agg_onCh_ing (a : Agg) (k : Nat) (g : SlotCh → SlotCh) : (a.onCh k g).ing = a.ing := rfl
@[simp] theorem agg_onCh_shed (a : Agg) (k : Nat) (g : SlotCh → SlotCh) : (a.onCh k g).shed = a.shed := rfl
@[simp] theorem agg_onCh_fab (a : Agg) (k : Nat) (g : SlotCh → SlotCh) : (a.onCh k g).fab = a.fab := rfl
@[simp] theorem agg_onCh_tly (a : Agg) (k : Nat) (g : SlotCh → SlotCh) : (a.onCh k g).tly = a.tly := rfl
@[simp] theorem agg_onCh_det (a : Agg) (k : Nat) (g : SlotCh → SlotCh) : (a.onCh k g).det = a.det := rfl
@[simp] theorem agg_onCh_hdg (a : Agg) (k : Nat) (g : SlotCh → SlotCh) : (a.onCh k g).hdg = a.hdg := rfl
@[simp] theorem agg_onCh_vrf (a : Agg) (k : Nat) (g : SlotCh → SlotCh) : (a.onCh k g).vrf = a.vrf := rfl
@[simp] theorem agg_onCh_se (a : Agg) (k : Nat) (g : SlotCh → SlotCh) : (a.onCh k g).se = a.se := rfl
@[simp] theorem agg_onCh_flt (a : Agg) (k : Nat) (g : SlotCh → SlotCh) : (a.onCh k g).flt = a.flt := rfl
@[simp] theorem agg_onCh_conf (a : Agg) (k : Nat) (g : SlotCh → SlotCh) : (a.onCh k g).conf = a.conf := rfl
@[simp] theorem agg_onCh_rprQueue (a : Agg) (k : Nat) (g : SlotCh → SlotCh) : (a.onCh k g).rprQueue = a.rprQueue := rfl
@[simp] theorem agg_onCh_rdata (a : Agg) (k : Nat) (g : SlotCh → SlotCh) : (a.onCh k g).rdata = a.rdata := rfl
@[simp] theorem agg_onCh_sent (a : Agg) (k : Nat) (g : SlotCh → SlotCh) : (a.onCh k g).sent = a.sent := rfl
@[simp] theorem agg_onCh_role (a : Agg) (k : Nat) (g : SlotCh → SlotCh) : (a.onCh k g).role = a.role := rfl
@[simp] theorem agg_onRing_p (a : Agg) (k : Nat) (g : Ring → Ring) : (a.onRing k g).p = a.p := rfl
@[simp] theorem agg_onRing_time (a : Agg) (k : Nat) (g : Ring → Ring) : (a.onRing k g).time = a.time := rfl
@[simp] theorem agg_onRing_die (a : Agg) (k : Nat) (g : Ring → Ring) : (a.onRing k g).die = a.die := rfl
@[simp] theorem agg_onRing_img (a : Agg) (k : Nat) (g : Ring → Ring) : (a.onRing k g).img = a.img := rfl
@[simp] theorem agg_onRing_ing (a : Agg) (k : Nat) (g : Ring → Ring) : (a.onRing k g).ing = a.ing := rfl
@[simp] theorem agg_onRing_fab (a : Agg) (k : Nat) (g : Ring → Ring) : (a.onRing k g).fab = a.fab := rfl
@[simp] theorem agg_onRing_tly (a : Agg) (k : Nat) (g : Ring → Ring) : (a.onRing k g).tly = a.tly := rfl
@[simp] theorem agg_onRing_det (a : Agg) (k : Nat) (g : Ring → Ring) : (a.onRing k g).det = a.det := rfl
@[simp] theorem agg_onRing_hdg (a : Agg) (k : Nat) (g : Ring → Ring) : (a.onRing k g).hdg = a.hdg := rfl
@[simp] theorem agg_onRing_vrf (a : Agg) (k : Nat) (g : Ring → Ring) : (a.onRing k g).vrf = a.vrf := rfl
@[simp] theorem agg_onRing_se (a : Agg) (k : Nat) (g : Ring → Ring) : (a.onRing k g).se = a.se := rfl
@[simp] theorem agg_onRing_flt (a : Agg) (k : Nat) (g : Ring → Ring) : (a.onRing k g).flt = a.flt := rfl
@[simp] theorem agg_onRing_pwr (a : Agg) (k : Nat) (g : Ring → Ring) : (a.onRing k g).pwr = a.pwr := rfl
@[simp] theorem agg_onRing_conf (a : Agg) (k : Nat) (g : Ring → Ring) : (a.onRing k g).conf = a.conf := rfl
@[simp] theorem agg_onRing_rprQueue (a : Agg) (k : Nat) (g : Ring → Ring) : (a.onRing k g).rprQueue = a.rprQueue := rfl
@[simp] theorem agg_onRing_rdata (a : Agg) (k : Nat) (g : Ring → Ring) : (a.onRing k g).rdata = a.rdata := rfl
@[simp] theorem agg_onRing_sent (a : Agg) (k : Nat) (g : Ring → Ring) : (a.onRing k g).sent = a.sent := rfl
@[simp] theorem agg_onRing_role (a : Agg) (k : Nat) (g : Ring → Ring) : (a.onRing k g).role = a.role := rfl
@[simp] theorem agg_onSrc_p (a : Agg) (k : Nat) (g : MirrorSrc → MirrorSrc) : (a.onSrc k g).p = a.p := rfl
@[simp] theorem agg_onSrc_time (a : Agg) (k : Nat) (g : MirrorSrc → MirrorSrc) : (a.onSrc k g).time = a.time := rfl
@[simp] theorem agg_onSrc_die (a : Agg) (k : Nat) (g : MirrorSrc → MirrorSrc) : (a.onSrc k g).die = a.die := rfl
@[simp] theorem agg_onSrc_img (a : Agg) (k : Nat) (g : MirrorSrc → MirrorSrc) : (a.onSrc k g).img = a.img := rfl
@[simp] theorem agg_onSrc_ing (a : Agg) (k : Nat) (g : MirrorSrc → MirrorSrc) : (a.onSrc k g).ing = a.ing := rfl
@[simp] theorem agg_onSrc_fab (a : Agg) (k : Nat) (g : MirrorSrc → MirrorSrc) : (a.onSrc k g).fab = a.fab := rfl
@[simp] theorem agg_onSrc_tly (a : Agg) (k : Nat) (g : MirrorSrc → MirrorSrc) : (a.onSrc k g).tly = a.tly := rfl
@[simp] theorem agg_onSrc_det (a : Agg) (k : Nat) (g : MirrorSrc → MirrorSrc) : (a.onSrc k g).det = a.det := rfl
@[simp] theorem agg_onSrc_hdg (a : Agg) (k : Nat) (g : MirrorSrc → MirrorSrc) : (a.onSrc k g).hdg = a.hdg := rfl
@[simp] theorem agg_onSrc_vrf (a : Agg) (k : Nat) (g : MirrorSrc → MirrorSrc) : (a.onSrc k g).vrf = a.vrf := rfl
@[simp] theorem agg_onSrc_se (a : Agg) (k : Nat) (g : MirrorSrc → MirrorSrc) : (a.onSrc k g).se = a.se := rfl
@[simp] theorem agg_onSrc_flt (a : Agg) (k : Nat) (g : MirrorSrc → MirrorSrc) : (a.onSrc k g).flt = a.flt := rfl
@[simp] theorem agg_onSrc_pwr (a : Agg) (k : Nat) (g : MirrorSrc → MirrorSrc) : (a.onSrc k g).pwr = a.pwr := rfl
@[simp] theorem agg_onSrc_conf (a : Agg) (k : Nat) (g : MirrorSrc → MirrorSrc) : (a.onSrc k g).conf = a.conf := rfl
@[simp] theorem agg_onSrc_rprQueue (a : Agg) (k : Nat) (g : MirrorSrc → MirrorSrc) : (a.onSrc k g).rprQueue = a.rprQueue := rfl
@[simp] theorem agg_onSrc_rdata (a : Agg) (k : Nat) (g : MirrorSrc → MirrorSrc) : (a.onSrc k g).rdata = a.rdata := rfl
@[simp] theorem agg_onSrc_sent (a : Agg) (k : Nat) (g : MirrorSrc → MirrorSrc) : (a.onSrc k g).sent = a.sent := rfl
@[simp] theorem agg_onSrc_role (a : Agg) (k : Nat) (g : MirrorSrc → MirrorSrc) : (a.onSrc k g).role = a.role := rfl
@[simp] theorem agg_onPush_p (a : Agg) (k : Nat) (g : Push → Push) : (a.onPush k g).p = a.p := rfl
@[simp] theorem agg_onPush_time (a : Agg) (k : Nat) (g : Push → Push) : (a.onPush k g).time = a.time := rfl
@[simp] theorem agg_onPush_die (a : Agg) (k : Nat) (g : Push → Push) : (a.onPush k g).die = a.die := rfl
@[simp] theorem agg_onPush_img (a : Agg) (k : Nat) (g : Push → Push) : (a.onPush k g).img = a.img := rfl
@[simp] theorem agg_onPush_ing (a : Agg) (k : Nat) (g : Push → Push) : (a.onPush k g).ing = a.ing := rfl
@[simp] theorem agg_onPush_shed (a : Agg) (k : Nat) (g : Push → Push) : (a.onPush k g).shed = a.shed := rfl
@[simp] theorem agg_onPush_fab (a : Agg) (k : Nat) (g : Push → Push) : (a.onPush k g).fab = a.fab := rfl
@[simp] theorem agg_onPush_tly (a : Agg) (k : Nat) (g : Push → Push) : (a.onPush k g).tly = a.tly := rfl
@[simp] theorem agg_onPush_det (a : Agg) (k : Nat) (g : Push → Push) : (a.onPush k g).det = a.det := rfl
@[simp] theorem agg_onPush_hdg (a : Agg) (k : Nat) (g : Push → Push) : (a.onPush k g).hdg = a.hdg := rfl
@[simp] theorem agg_onPush_vrf (a : Agg) (k : Nat) (g : Push → Push) : (a.onPush k g).vrf = a.vrf := rfl
@[simp] theorem agg_onPush_se (a : Agg) (k : Nat) (g : Push → Push) : (a.onPush k g).se = a.se := rfl
@[simp] theorem agg_onPush_flt (a : Agg) (k : Nat) (g : Push → Push) : (a.onPush k g).flt = a.flt := rfl
@[simp] theorem agg_onPush_pwr (a : Agg) (k : Nat) (g : Push → Push) : (a.onPush k g).pwr = a.pwr := rfl
@[simp] theorem agg_onPush_rprQueue (a : Agg) (k : Nat) (g : Push → Push) : (a.onPush k g).rprQueue = a.rprQueue := rfl
@[simp] theorem agg_onPush_rdata (a : Agg) (k : Nat) (g : Push → Push) : (a.onPush k g).rdata = a.rdata := rfl
@[simp] theorem agg_onPush_sent (a : Agg) (k : Nat) (g : Push → Push) : (a.onPush k g).sent = a.sent := rfl
@[simp] theorem agg_onPush_role (a : Agg) (k : Nat) (g : Push → Push) : (a.onPush k g).role = a.role := rfl
@[simp] theorem agg_onDeliv_p (a : Agg) (k : Nat) (g : Delivery → Delivery) : (a.onDeliv k g).p = a.p := rfl
@[simp] theorem agg_onDeliv_time (a : Agg) (k : Nat) (g : Delivery → Delivery) : (a.onDeliv k g).time = a.time := rfl
@[simp] theorem agg_onDeliv_die (a : Agg) (k : Nat) (g : Delivery → Delivery) : (a.onDeliv k g).die = a.die := rfl
@[simp] theorem agg_onDeliv_img (a : Agg) (k : Nat) (g : Delivery → Delivery) : (a.onDeliv k g).img = a.img := rfl
@[simp] theorem agg_onDeliv_ing (a : Agg) (k : Nat) (g : Delivery → Delivery) : (a.onDeliv k g).ing = a.ing := rfl
@[simp] theorem agg_onDeliv_shed (a : Agg) (k : Nat) (g : Delivery → Delivery) : (a.onDeliv k g).shed = a.shed := rfl
@[simp] theorem agg_onDeliv_fab (a : Agg) (k : Nat) (g : Delivery → Delivery) : (a.onDeliv k g).fab = a.fab := rfl
@[simp] theorem agg_onDeliv_tly (a : Agg) (k : Nat) (g : Delivery → Delivery) : (a.onDeliv k g).tly = a.tly := rfl
@[simp] theorem agg_onDeliv_hdg (a : Agg) (k : Nat) (g : Delivery → Delivery) : (a.onDeliv k g).hdg = a.hdg := rfl
@[simp] theorem agg_onDeliv_vrf (a : Agg) (k : Nat) (g : Delivery → Delivery) : (a.onDeliv k g).vrf = a.vrf := rfl
@[simp] theorem agg_onDeliv_se (a : Agg) (k : Nat) (g : Delivery → Delivery) : (a.onDeliv k g).se = a.se := rfl
@[simp] theorem agg_onDeliv_flt (a : Agg) (k : Nat) (g : Delivery → Delivery) : (a.onDeliv k g).flt = a.flt := rfl
@[simp] theorem agg_onDeliv_pwr (a : Agg) (k : Nat) (g : Delivery → Delivery) : (a.onDeliv k g).pwr = a.pwr := rfl
@[simp] theorem agg_onDeliv_conf (a : Agg) (k : Nat) (g : Delivery → Delivery) : (a.onDeliv k g).conf = a.conf := rfl
@[simp] theorem agg_onDeliv_rprQueue (a : Agg) (k : Nat) (g : Delivery → Delivery) : (a.onDeliv k g).rprQueue = a.rprQueue := rfl
@[simp] theorem agg_onDeliv_rdata (a : Agg) (k : Nat) (g : Delivery → Delivery) : (a.onDeliv k g).rdata = a.rdata := rfl
@[simp] theorem agg_onDeliv_sent (a : Agg) (k : Nat) (g : Delivery → Delivery) : (a.onDeliv k g).sent = a.sent := rfl
@[simp] theorem agg_onDeliv_role (a : Agg) (k : Nat) (g : Delivery → Delivery) : (a.onDeliv k g).role = a.role := rfl
@[simp] theorem agg_shedWrite_p (a : Agg) (x : Nat) (l : List Byte) : (a.shedWrite x l).p = a.p := rfl
@[simp] theorem agg_shedWrite_time (a : Agg) (x : Nat) (l : List Byte) : (a.shedWrite x l).time = a.time := rfl
@[simp] theorem agg_shedWrite_die (a : Agg) (x : Nat) (l : List Byte) : (a.shedWrite x l).die = a.die := rfl
@[simp] theorem agg_shedWrite_img (a : Agg) (x : Nat) (l : List Byte) : (a.shedWrite x l).img = a.img := rfl
@[simp] theorem agg_shedWrite_ing (a : Agg) (x : Nat) (l : List Byte) : (a.shedWrite x l).ing = a.ing := rfl
@[simp] theorem agg_shedWrite_fab (a : Agg) (x : Nat) (l : List Byte) : (a.shedWrite x l).fab = a.fab := rfl
@[simp] theorem agg_shedWrite_tly (a : Agg) (x : Nat) (l : List Byte) : (a.shedWrite x l).tly = a.tly := rfl
@[simp] theorem agg_shedWrite_det (a : Agg) (x : Nat) (l : List Byte) : (a.shedWrite x l).det = a.det := rfl
@[simp] theorem agg_shedWrite_hdg (a : Agg) (x : Nat) (l : List Byte) : (a.shedWrite x l).hdg = a.hdg := rfl
@[simp] theorem agg_shedWrite_vrf (a : Agg) (x : Nat) (l : List Byte) : (a.shedWrite x l).vrf = a.vrf := rfl
@[simp] theorem agg_shedWrite_se (a : Agg) (x : Nat) (l : List Byte) : (a.shedWrite x l).se = a.se := rfl
@[simp] theorem agg_shedWrite_flt (a : Agg) (x : Nat) (l : List Byte) : (a.shedWrite x l).flt = a.flt := rfl
@[simp] theorem agg_shedWrite_pwr (a : Agg) (x : Nat) (l : List Byte) : (a.shedWrite x l).pwr = a.pwr := rfl
@[simp] theorem agg_shedWrite_conf (a : Agg) (x : Nat) (l : List Byte) : (a.shedWrite x l).conf = a.conf := rfl
@[simp] theorem agg_shedWrite_rprQueue (a : Agg) (x : Nat) (l : List Byte) : (a.shedWrite x l).rprQueue = a.rprQueue := rfl
@[simp] theorem agg_shedWrite_rdata (a : Agg) (x : Nat) (l : List Byte) : (a.shedWrite x l).rdata = a.rdata := rfl
@[simp] theorem agg_shedWrite_sent (a : Agg) (x : Nat) (l : List Byte) : (a.shedWrite x l).sent = a.sent := rfl
@[simp] theorem agg_shedWrite_role (a : Agg) (x : Nat) (l : List Byte) : (a.shedWrite x l).role = a.role := rfl
@[simp] theorem agg_onPtp_p (a : Agg) (k : Nat) (g : PtpPort → PtpPort) : (a.onPtp k g).p = a.p := rfl
@[simp] theorem agg_onPtp_die (a : Agg) (k : Nat) (g : PtpPort → PtpPort) : (a.onPtp k g).die = a.die := rfl
@[simp] theorem agg_onPtp_role (a : Agg) (k : Nat) (g : PtpPort → PtpPort) : (a.onPtp k g).role = a.role := rfl
@[simp] theorem agg_onPtp_img (a : Agg) (k : Nat) (g : PtpPort → PtpPort) : (a.onPtp k g).img = a.img := rfl
@[simp] theorem agg_onPtp_ing (a : Agg) (k : Nat) (g : PtpPort → PtpPort) : (a.onPtp k g).ing = a.ing := rfl
@[simp] theorem agg_onPtp_shed (a : Agg) (k : Nat) (g : PtpPort → PtpPort) : (a.onPtp k g).shed = a.shed := rfl
@[simp] theorem agg_onPtp_fab (a : Agg) (k : Nat) (g : PtpPort → PtpPort) : (a.onPtp k g).fab = a.fab := rfl
@[simp] theorem agg_onPtp_tly (a : Agg) (k : Nat) (g : PtpPort → PtpPort) : (a.onPtp k g).tly = a.tly := rfl
@[simp] theorem agg_onPtp_det (a : Agg) (k : Nat) (g : PtpPort → PtpPort) : (a.onPtp k g).det = a.det := rfl
@[simp] theorem agg_onPtp_hdg (a : Agg) (k : Nat) (g : PtpPort → PtpPort) : (a.onPtp k g).hdg = a.hdg := rfl
@[simp] theorem agg_onPtp_vrf (a : Agg) (k : Nat) (g : PtpPort → PtpPort) : (a.onPtp k g).vrf = a.vrf := rfl
@[simp] theorem agg_onPtp_se (a : Agg) (k : Nat) (g : PtpPort → PtpPort) : (a.onPtp k g).se = a.se := rfl
@[simp] theorem agg_onPtp_flt (a : Agg) (k : Nat) (g : PtpPort → PtpPort) : (a.onPtp k g).flt = a.flt := rfl
@[simp] theorem agg_onPtp_pwr (a : Agg) (k : Nat) (g : PtpPort → PtpPort) : (a.onPtp k g).pwr = a.pwr := rfl
@[simp] theorem agg_onPtp_conf (a : Agg) (k : Nat) (g : PtpPort → PtpPort) : (a.onPtp k g).conf = a.conf := rfl
@[simp] theorem agg_onPtp_rprQueue (a : Agg) (k : Nat) (g : PtpPort → PtpPort) : (a.onPtp k g).rprQueue = a.rprQueue := rfl
@[simp] theorem agg_onPtp_rdata (a : Agg) (k : Nat) (g : PtpPort → PtpPort) : (a.onPtp k g).rdata = a.rdata := rfl
@[simp] theorem agg_onPtp_sent (a : Agg) (k : Nat) (g : PtpPort → PtpPort) : (a.onPtp k g).sent = a.sent := rfl
@[simp] theorem agg_onDom_time (a : Agg) (k : Nat) (g : Dom → Dom) : (a.onDom k g).time = a.time := rfl
@[simp] theorem agg_onDom_die (a : Agg) (k : Nat) (g : Dom → Dom) : (a.onDom k g).die = a.die := rfl
@[simp] theorem agg_onDom_role (a : Agg) (k : Nat) (g : Dom → Dom) : (a.onDom k g).role = a.role := rfl
@[simp] theorem agg_onDom_img (a : Agg) (k : Nat) (g : Dom → Dom) : (a.onDom k g).img = a.img := rfl
@[simp] theorem agg_onDom_ing (a : Agg) (k : Nat) (g : Dom → Dom) : (a.onDom k g).ing = a.ing := rfl
@[simp] theorem agg_onDom_shed (a : Agg) (k : Nat) (g : Dom → Dom) : (a.onDom k g).shed = a.shed := rfl
@[simp] theorem agg_onDom_fab (a : Agg) (k : Nat) (g : Dom → Dom) : (a.onDom k g).fab = a.fab := rfl
@[simp] theorem agg_onDom_tly (a : Agg) (k : Nat) (g : Dom → Dom) : (a.onDom k g).tly = a.tly := rfl
@[simp] theorem agg_onDom_det (a : Agg) (k : Nat) (g : Dom → Dom) : (a.onDom k g).det = a.det := rfl
@[simp] theorem agg_onDom_hdg (a : Agg) (k : Nat) (g : Dom → Dom) : (a.onDom k g).hdg = a.hdg := rfl
@[simp] theorem agg_onDom_vrf (a : Agg) (k : Nat) (g : Dom → Dom) : (a.onDom k g).vrf = a.vrf := rfl
@[simp] theorem agg_onDom_se (a : Agg) (k : Nat) (g : Dom → Dom) : (a.onDom k g).se = a.se := rfl
@[simp] theorem agg_onDom_flt (a : Agg) (k : Nat) (g : Dom → Dom) : (a.onDom k g).flt = a.flt := rfl
@[simp] theorem agg_onDom_conf (a : Agg) (k : Nat) (g : Dom → Dom) : (a.onDom k g).conf = a.conf := rfl
@[simp] theorem agg_onDom_rprQueue (a : Agg) (k : Nat) (g : Dom → Dom) : (a.onDom k g).rprQueue = a.rprQueue := rfl
@[simp] theorem agg_onDom_rdata (a : Agg) (k : Nat) (g : Dom → Dom) : (a.onDom k g).rdata = a.rdata := rfl
@[simp] theorem agg_onDom_sent (a : Agg) (k : Nat) (g : Dom → Dom) : (a.onDom k g).sent = a.sent := rfl
@[simp] theorem agg_onRound_time (a : Agg) (k : Nat) (g : TRound → TRound) : (a.onRound k g).time = a.time := rfl
@[simp] theorem agg_onRound_die (a : Agg) (k : Nat) (g : TRound → TRound) : (a.onRound k g).die = a.die := rfl
@[simp] theorem agg_onRound_role (a : Agg) (k : Nat) (g : TRound → TRound) : (a.onRound k g).role = a.role := rfl
@[simp] theorem agg_onRound_img (a : Agg) (k : Nat) (g : TRound → TRound) : (a.onRound k g).img = a.img := rfl
@[simp] theorem agg_onRound_ing (a : Agg) (k : Nat) (g : TRound → TRound) : (a.onRound k g).ing = a.ing := rfl
@[simp] theorem agg_onRound_fab (a : Agg) (k : Nat) (g : TRound → TRound) : (a.onRound k g).fab = a.fab := rfl
@[simp] theorem agg_onRound_det (a : Agg) (k : Nat) (g : TRound → TRound) : (a.onRound k g).det = a.det := rfl
@[simp] theorem agg_onRound_hdg (a : Agg) (k : Nat) (g : TRound → TRound) : (a.onRound k g).hdg = a.hdg := rfl
@[simp] theorem agg_onRound_vrf (a : Agg) (k : Nat) (g : TRound → TRound) : (a.onRound k g).vrf = a.vrf := rfl
@[simp] theorem agg_onRound_se (a : Agg) (k : Nat) (g : TRound → TRound) : (a.onRound k g).se = a.se := rfl
@[simp] theorem agg_onRound_flt (a : Agg) (k : Nat) (g : TRound → TRound) : (a.onRound k g).flt = a.flt := rfl
@[simp] theorem agg_onRound_pwr (a : Agg) (k : Nat) (g : TRound → TRound) : (a.onRound k g).pwr = a.pwr := rfl
@[simp] theorem agg_onRound_conf (a : Agg) (k : Nat) (g : TRound → TRound) : (a.onRound k g).conf = a.conf := rfl
@[simp] theorem agg_onRound_rprQueue (a : Agg) (k : Nat) (g : TRound → TRound) : (a.onRound k g).rprQueue = a.rprQueue := rfl
@[simp] theorem agg_onRound_rdata (a : Agg) (k : Nat) (g : TRound → TRound) : (a.onRound k g).rdata = a.rdata := rfl
@[simp] theorem agg_onRound_sent (a : Agg) (k : Nat) (g : TRound → TRound) : (a.onRound k g).sent = a.sent := rfl
@[simp] theorem agg_onFlash_p (a : Agg) (g : Flash → Flash) : (a.onFlash g).p = a.p := rfl
@[simp] theorem agg_onFlash_time (a : Agg) (g : Flash → Flash) : (a.onFlash g).time = a.time := rfl
@[simp] theorem agg_onFlash_die (a : Agg) (g : Flash → Flash) : (a.onFlash g).die = a.die := rfl
@[simp] theorem agg_onFlash_role (a : Agg) (g : Flash → Flash) : (a.onFlash g).role = a.role := rfl
@[simp] theorem agg_onFlash_img (a : Agg) (g : Flash → Flash) : (a.onFlash g).img = a.img := rfl
@[simp] theorem agg_onFlash_ing (a : Agg) (g : Flash → Flash) : (a.onFlash g).ing = a.ing := rfl
@[simp] theorem agg_onFlash_shed (a : Agg) (g : Flash → Flash) : (a.onFlash g).shed = a.shed := rfl
@[simp] theorem agg_onFlash_fab (a : Agg) (g : Flash → Flash) : (a.onFlash g).fab = a.fab := rfl
@[simp] theorem agg_onFlash_tly (a : Agg) (g : Flash → Flash) : (a.onFlash g).tly = a.tly := rfl
@[simp] theorem agg_onFlash_det (a : Agg) (g : Flash → Flash) : (a.onFlash g).det = a.det := rfl
@[simp] theorem agg_onFlash_hdg (a : Agg) (g : Flash → Flash) : (a.onFlash g).hdg = a.hdg := rfl
@[simp] theorem agg_onFlash_vrf (a : Agg) (g : Flash → Flash) : (a.onFlash g).vrf = a.vrf := rfl
@[simp] theorem agg_onFlash_se (a : Agg) (g : Flash → Flash) : (a.onFlash g).se = a.se := rfl
@[simp] theorem agg_onFlash_flt (a : Agg) (g : Flash → Flash) : (a.onFlash g).flt = a.flt := rfl
@[simp] theorem agg_onFlash_pwr (a : Agg) (g : Flash → Flash) : (a.onFlash g).pwr = a.pwr := rfl
@[simp] theorem agg_onFlash_rprQueue (a : Agg) (g : Flash → Flash) : (a.onFlash g).rprQueue = a.rprQueue := rfl
@[simp] theorem agg_onFlash_rdata (a : Agg) (g : Flash → Flash) : (a.onFlash g).rdata = a.rdata := rfl
@[simp] theorem agg_onFlash_sent (a : Agg) (g : Flash → Flash) : (a.onFlash g).sent = a.sent := rfl
@[simp] theorem agg_onRpl_p (a : Agg) (k : Nat) (g : SeReplay → SeReplay) : (a.onRpl k g).p = a.p := rfl
@[simp] theorem agg_onRpl_time (a : Agg) (k : Nat) (g : SeReplay → SeReplay) : (a.onRpl k g).time = a.time := rfl
@[simp] theorem agg_onRpl_die (a : Agg) (k : Nat) (g : SeReplay → SeReplay) : (a.onRpl k g).die = a.die := rfl
@[simp] theorem agg_onRpl_role (a : Agg) (k : Nat) (g : SeReplay → SeReplay) : (a.onRpl k g).role = a.role := rfl
@[simp] theorem agg_onRpl_img (a : Agg) (k : Nat) (g : SeReplay → SeReplay) : (a.onRpl k g).img = a.img := rfl
@[simp] theorem agg_onRpl_ing (a : Agg) (k : Nat) (g : SeReplay → SeReplay) : (a.onRpl k g).ing = a.ing := rfl
@[simp] theorem agg_onRpl_shed (a : Agg) (k : Nat) (g : SeReplay → SeReplay) : (a.onRpl k g).shed = a.shed := rfl
@[simp] theorem agg_onRpl_fab (a : Agg) (k : Nat) (g : SeReplay → SeReplay) : (a.onRpl k g).fab = a.fab := rfl
@[simp] theorem agg_onRpl_tly (a : Agg) (k : Nat) (g : SeReplay → SeReplay) : (a.onRpl k g).tly = a.tly := rfl
@[simp] theorem agg_onRpl_det (a : Agg) (k : Nat) (g : SeReplay → SeReplay) : (a.onRpl k g).det = a.det := rfl
@[simp] theorem agg_onRpl_hdg (a : Agg) (k : Nat) (g : SeReplay → SeReplay) : (a.onRpl k g).hdg = a.hdg := rfl
@[simp] theorem agg_onRpl_vrf (a : Agg) (k : Nat) (g : SeReplay → SeReplay) : (a.onRpl k g).vrf = a.vrf := rfl
@[simp] theorem agg_onRpl_flt (a : Agg) (k : Nat) (g : SeReplay → SeReplay) : (a.onRpl k g).flt = a.flt := rfl
@[simp] theorem agg_onRpl_pwr (a : Agg) (k : Nat) (g : SeReplay → SeReplay) : (a.onRpl k g).pwr = a.pwr := rfl
@[simp] theorem agg_onRpl_conf (a : Agg) (k : Nat) (g : SeReplay → SeReplay) : (a.onRpl k g).conf = a.conf := rfl
@[simp] theorem agg_onRpl_rprQueue (a : Agg) (k : Nat) (g : SeReplay → SeReplay) : (a.onRpl k g).rprQueue = a.rprQueue := rfl
@[simp] theorem agg_onRpl_rdata (a : Agg) (k : Nat) (g : SeReplay → SeReplay) : (a.onRpl k g).rdata = a.rdata := rfl
@[simp] theorem agg_onRpl_sent (a : Agg) (k : Nat) (g : SeReplay → SeReplay) : (a.onRpl k g).sent = a.sent := rfl

/-! ### The Uligo -/
@[simp] theorem ulg_put_uid (u : Ulg) (f : Field) (v : Nat) : (u.put f v).uid = u.uid := rfl
@[simp] theorem ulg_put_time (u : Ulg) (f : Field) (v : Nat) : (u.put f v).time = u.time := rfl
@[simp] theorem ulg_put_cnt (u : Ulg) (f : Field) (v : Nat) : (u.put f v).cnt = u.cnt := rfl
@[simp] theorem ulg_put_trc (u : Ulg) (f : Field) (v : Nat) : (u.put f v).trc = u.trc := rfl
@[simp] theorem ulg_put_ft (u : Ulg) (f : Field) (v : Nat) : (u.put f v).ft = u.ft := rfl
@[simp] theorem ulg_put_tile (u : Ulg) (f : Field) (v : Nat) : (u.put f v).tile = u.tile := rfl
@[simp] theorem ulg_put_ep (u : Ulg) (f : Field) (v : Nat) : (u.put f v).ep = u.ep := rfl
@[simp] theorem ulg_put_rpl (u : Ulg) (f : Field) (v : Nat) : (u.put f v).rpl = u.rpl := rfl
@[simp] theorem ulg_put_link (u : Ulg) (f : Field) (v : Nat) : (u.put f v).link = u.link := rfl
@[simp] theorem ulg_put_pwr (u : Ulg) (f : Field) (v : Nat) : (u.put f v).pwr = u.pwr := rfl
@[simp] theorem ulg_put_rdata (u : Ulg) (f : Field) (v : Nat) : (u.put f v).rdata = u.rdata := rfl
@[simp] theorem ulg_put_sent (u : Ulg) (f : Field) (v : Nat) : (u.put f v).sent = u.sent := rfl
@[simp] theorem ulg_put_rerr (u : Ulg) (f : Field) (v : Nat) : (u.put f v).rerr = u.rerr := rfl
@[simp] theorem ulg_putInt_uid (u : Ulg) (f : Field) (v : Int) : (u.putInt f v).uid = u.uid := rfl
@[simp] theorem ulg_putInt_time (u : Ulg) (f : Field) (v : Int) : (u.putInt f v).time = u.time := rfl
@[simp] theorem ulg_putInt_cnt (u : Ulg) (f : Field) (v : Int) : (u.putInt f v).cnt = u.cnt := rfl
@[simp] theorem ulg_putInt_trc (u : Ulg) (f : Field) (v : Int) : (u.putInt f v).trc = u.trc := rfl
@[simp] theorem ulg_putInt_ft (u : Ulg) (f : Field) (v : Int) : (u.putInt f v).ft = u.ft := rfl
@[simp] theorem ulg_putInt_tile (u : Ulg) (f : Field) (v : Int) : (u.putInt f v).tile = u.tile := rfl
@[simp] theorem ulg_putInt_ep (u : Ulg) (f : Field) (v : Int) : (u.putInt f v).ep = u.ep := rfl
@[simp] theorem ulg_putInt_rpl (u : Ulg) (f : Field) (v : Int) : (u.putInt f v).rpl = u.rpl := rfl
@[simp] theorem ulg_putInt_link (u : Ulg) (f : Field) (v : Int) : (u.putInt f v).link = u.link := rfl
@[simp] theorem ulg_putInt_pwr (u : Ulg) (f : Field) (v : Int) : (u.putInt f v).pwr = u.pwr := rfl
@[simp] theorem ulg_putInt_rdata (u : Ulg) (f : Field) (v : Int) : (u.putInt f v).rdata = u.rdata := rfl
@[simp] theorem ulg_putInt_sent (u : Ulg) (f : Field) (v : Int) : (u.putInt f v).sent = u.sent := rfl
@[simp] theorem ulg_putInt_rerr (u : Ulg) (f : Field) (v : Int) : (u.putInt f v).rerr = u.rerr := rfl
@[simp] theorem ulg_count_uid (u : Ulg) (f : Field) (n : Nat) : (u.count f n).uid = u.uid := rfl
@[simp] theorem ulg_count_time (u : Ulg) (f : Field) (n : Nat) : (u.count f n).time = u.time := rfl
@[simp] theorem ulg_count_cnt (u : Ulg) (f : Field) (n : Nat) : (u.count f n).cnt = u.cnt := rfl
@[simp] theorem ulg_count_trc (u : Ulg) (f : Field) (n : Nat) : (u.count f n).trc = u.trc := rfl
@[simp] theorem ulg_count_ft (u : Ulg) (f : Field) (n : Nat) : (u.count f n).ft = u.ft := rfl
@[simp] theorem ulg_count_tile (u : Ulg) (f : Field) (n : Nat) : (u.count f n).tile = u.tile := rfl
@[simp] theorem ulg_count_ep (u : Ulg) (f : Field) (n : Nat) : (u.count f n).ep = u.ep := rfl
@[simp] theorem ulg_count_rpl (u : Ulg) (f : Field) (n : Nat) : (u.count f n).rpl = u.rpl := rfl
@[simp] theorem ulg_count_link (u : Ulg) (f : Field) (n : Nat) : (u.count f n).link = u.link := rfl
@[simp] theorem ulg_count_pwr (u : Ulg) (f : Field) (n : Nat) : (u.count f n).pwr = u.pwr := rfl
@[simp] theorem ulg_count_rdata (u : Ulg) (f : Field) (n : Nat) : (u.count f n).rdata = u.rdata := rfl
@[simp] theorem ulg_count_sent (u : Ulg) (f : Field) (n : Nat) : (u.count f n).sent = u.sent := rfl
@[simp] theorem ulg_count_rerr (u : Ulg) (f : Field) (n : Nat) : (u.count f n).rerr = u.rerr := rfl
@[simp] theorem ulg_event_uid (u : Ulg) (f : Field) (d : Option Nat) (c : Nat) : (u.event f d c).uid = u.uid := rfl
@[simp] theorem ulg_event_time (u : Ulg) (f : Field) (d : Option Nat) (c : Nat) : (u.event f d c).time = u.time := rfl
@[simp] theorem ulg_event_cnt (u : Ulg) (f : Field) (d : Option Nat) (c : Nat) : (u.event f d c).cnt = u.cnt := rfl
@[simp] theorem ulg_event_trc (u : Ulg) (f : Field) (d : Option Nat) (c : Nat) : (u.event f d c).trc = u.trc := rfl
@[simp] theorem ulg_event_ft (u : Ulg) (f : Field) (d : Option Nat) (c : Nat) : (u.event f d c).ft = u.ft := rfl
@[simp] theorem ulg_event_tile (u : Ulg) (f : Field) (d : Option Nat) (c : Nat) : (u.event f d c).tile = u.tile := rfl
@[simp] theorem ulg_event_ep (u : Ulg) (f : Field) (d : Option Nat) (c : Nat) : (u.event f d c).ep = u.ep := rfl
@[simp] theorem ulg_event_rpl (u : Ulg) (f : Field) (d : Option Nat) (c : Nat) : (u.event f d c).rpl = u.rpl := rfl
@[simp] theorem ulg_event_link (u : Ulg) (f : Field) (d : Option Nat) (c : Nat) : (u.event f d c).link = u.link := rfl
@[simp] theorem ulg_event_pwr (u : Ulg) (f : Field) (d : Option Nat) (c : Nat) : (u.event f d c).pwr = u.pwr := rfl
@[simp] theorem ulg_event_rdata (u : Ulg) (f : Field) (d : Option Nat) (c : Nat) : (u.event f d c).rdata = u.rdata := rfl
@[simp] theorem ulg_event_sent (u : Ulg) (f : Field) (d : Option Nat) (c : Nat) : (u.event f d c).sent = u.sent := rfl
@[simp] theorem ulg_event_rerr (u : Ulg) (f : Field) (d : Option Nat) (c : Nat) : (u.event f d c).rerr = u.rerr := rfl
@[simp] theorem ulg_send_p (u : Ulg) (m : Sent) : (u.send m).p = u.p := rfl
@[simp] theorem ulg_send_uid (u : Ulg) (m : Sent) : (u.send m).uid = u.uid := rfl
@[simp] theorem ulg_send_time (u : Ulg) (m : Sent) : (u.send m).time = u.time := rfl
@[simp] theorem ulg_send_cnt (u : Ulg) (m : Sent) : (u.send m).cnt = u.cnt := rfl
@[simp] theorem ulg_send_trc (u : Ulg) (m : Sent) : (u.send m).trc = u.trc := rfl
@[simp] theorem ulg_send_ft (u : Ulg) (m : Sent) : (u.send m).ft = u.ft := rfl
@[simp] theorem ulg_send_tile (u : Ulg) (m : Sent) : (u.send m).tile = u.tile := rfl
@[simp] theorem ulg_send_ep (u : Ulg) (m : Sent) : (u.send m).ep = u.ep := rfl
@[simp] theorem ulg_send_rpl (u : Ulg) (m : Sent) : (u.send m).rpl = u.rpl := rfl
@[simp] theorem ulg_send_link (u : Ulg) (m : Sent) : (u.send m).link = u.link := rfl
@[simp] theorem ulg_send_pwr (u : Ulg) (m : Sent) : (u.send m).pwr = u.pwr := rfl
@[simp] theorem ulg_send_rdata (u : Ulg) (m : Sent) : (u.send m).rdata = u.rdata := rfl
@[simp] theorem ulg_send_rerr (u : Ulg) (m : Sent) : (u.send m).rerr = u.rerr := rfl
@[simp] theorem ulg_onCnt_p (u : Ulg) (g : UlgCount → UlgCount) : (u.onCnt g).p = u.p := rfl
@[simp] theorem ulg_onCnt_uid (u : Ulg) (g : UlgCount → UlgCount) : (u.onCnt g).uid = u.uid := rfl
@[simp] theorem ulg_onCnt_time (u : Ulg) (g : UlgCount → UlgCount) : (u.onCnt g).time = u.time := rfl
@[simp] theorem ulg_onCnt_trc (u : Ulg) (g : UlgCount → UlgCount) : (u.onCnt g).trc = u.trc := rfl
@[simp] theorem ulg_onCnt_ft (u : Ulg) (g : UlgCount → UlgCount) : (u.onCnt g).ft = u.ft := rfl
@[simp] theorem ulg_onCnt_tile (u : Ulg) (g : UlgCount → UlgCount) : (u.onCnt g).tile = u.tile := rfl
@[simp] theorem ulg_onCnt_ep (u : Ulg) (g : UlgCount → UlgCount) : (u.onCnt g).ep = u.ep := rfl
@[simp] theorem ulg_onCnt_rpl (u : Ulg) (g : UlgCount → UlgCount) : (u.onCnt g).rpl = u.rpl := rfl
@[simp] theorem ulg_onCnt_link (u : Ulg) (g : UlgCount → UlgCount) : (u.onCnt g).link = u.link := rfl
@[simp] theorem ulg_onCnt_pwr (u : Ulg) (g : UlgCount → UlgCount) : (u.onCnt g).pwr = u.pwr := rfl
@[simp] theorem ulg_onCnt_rdata (u : Ulg) (g : UlgCount → UlgCount) : (u.onCnt g).rdata = u.rdata := rfl
@[simp] theorem ulg_onCnt_sent (u : Ulg) (g : UlgCount → UlgCount) : (u.onCnt g).sent = u.sent := rfl
@[simp] theorem ulg_onCnt_rerr (u : Ulg) (g : UlgCount → UlgCount) : (u.onCnt g).rerr = u.rerr := rfl
@[simp] theorem ulg_onInterval_p (u : Ulg) (g : Interval → Interval) : (u.onInterval g).p = u.p := rfl
@[simp] theorem ulg_onInterval_uid (u : Ulg) (g : Interval → Interval) : (u.onInterval g).uid = u.uid := rfl
@[simp] theorem ulg_onInterval_time (u : Ulg) (g : Interval → Interval) : (u.onInterval g).time = u.time := rfl
@[simp] theorem ulg_onInterval_trc (u : Ulg) (g : Interval → Interval) : (u.onInterval g).trc = u.trc := rfl
@[simp] theorem ulg_onInterval_ft (u : Ulg) (g : Interval → Interval) : (u.onInterval g).ft = u.ft := rfl
@[simp] theorem ulg_onInterval_tile (u : Ulg) (g : Interval → Interval) : (u.onInterval g).tile = u.tile := rfl
@[simp] theorem ulg_onInterval_ep (u : Ulg) (g : Interval → Interval) : (u.onInterval g).ep = u.ep := rfl
@[simp] theorem ulg_onInterval_rpl (u : Ulg) (g : Interval → Interval) : (u.onInterval g).rpl = u.rpl := rfl
@[simp] theorem ulg_onInterval_link (u : Ulg) (g : Interval → Interval) : (u.onInterval g).link = u.link := rfl
@[simp] theorem ulg_onInterval_pwr (u : Ulg) (g : Interval → Interval) : (u.onInterval g).pwr = u.pwr := rfl
@[simp] theorem ulg_onInterval_rdata (u : Ulg) (g : Interval → Interval) : (u.onInterval g).rdata = u.rdata := rfl
@[simp] theorem ulg_onInterval_sent (u : Ulg) (g : Interval → Interval) : (u.onInterval g).sent = u.sent := rfl
@[simp] theorem ulg_onInterval_rerr (u : Ulg) (g : Interval → Interval) : (u.onInterval g).rerr = u.rerr := rfl
@[simp] theorem ulg_onTrc_p (u : Ulg) (g : UlgTrace → UlgTrace) : (u.onTrc g).p = u.p := rfl
@[simp] theorem ulg_onTrc_uid (u : Ulg) (g : UlgTrace → UlgTrace) : (u.onTrc g).uid = u.uid := rfl
@[simp] theorem ulg_onTrc_time (u : Ulg) (g : UlgTrace → UlgTrace) : (u.onTrc g).time = u.time := rfl
@[simp] theorem ulg_onTrc_cnt (u : Ulg) (g : UlgTrace → UlgTrace) : (u.onTrc g).cnt = u.cnt := rfl
@[simp] theorem ulg_onTrc_ft (u : Ulg) (g : UlgTrace → UlgTrace) : (u.onTrc g).ft = u.ft := rfl
@[simp] theorem ulg_onTrc_tile (u : Ulg) (g : UlgTrace → UlgTrace) : (u.onTrc g).tile = u.tile := rfl
@[simp] theorem ulg_onTrc_ep (u : Ulg) (g : UlgTrace → UlgTrace) : (u.onTrc g).ep = u.ep := rfl
@[simp] theorem ulg_onTrc_rpl (u : Ulg) (g : UlgTrace → UlgTrace) : (u.onTrc g).rpl = u.rpl := rfl
@[simp] theorem ulg_onTrc_link (u : Ulg) (g : UlgTrace → UlgTrace) : (u.onTrc g).link = u.link := rfl
@[simp] theorem ulg_onTrc_pwr (u : Ulg) (g : UlgTrace → UlgTrace) : (u.onTrc g).pwr = u.pwr := rfl
@[simp] theorem ulg_onTrc_rdata (u : Ulg) (g : UlgTrace → UlgTrace) : (u.onTrc g).rdata = u.rdata := rfl
@[simp] theorem ulg_onTrc_sent (u : Ulg) (g : UlgTrace → UlgTrace) : (u.onTrc g).sent = u.sent := rfl
@[simp] theorem ulg_onTrc_rerr (u : Ulg) (g : UlgTrace → UlgTrace) : (u.onTrc g).rerr = u.rerr := rfl
@[simp] theorem ulg_onFt_p (u : Ulg) (g : UlgFt → UlgFt) : (u.onFt g).p = u.p := rfl
@[simp] theorem ulg_onFt_uid (u : Ulg) (g : UlgFt → UlgFt) : (u.onFt g).uid = u.uid := rfl
@[simp] theorem ulg_onFt_time (u : Ulg) (g : UlgFt → UlgFt) : (u.onFt g).time = u.time := rfl
@[simp] theorem ulg_onFt_cnt (u : Ulg) (g : UlgFt → UlgFt) : (u.onFt g).cnt = u.cnt := rfl
@[simp] theorem ulg_onFt_trc (u : Ulg) (g : UlgFt → UlgFt) : (u.onFt g).trc = u.trc := rfl
@[simp] theorem ulg_onFt_tile (u : Ulg) (g : UlgFt → UlgFt) : (u.onFt g).tile = u.tile := rfl
@[simp] theorem ulg_onFt_ep (u : Ulg) (g : UlgFt → UlgFt) : (u.onFt g).ep = u.ep := rfl
@[simp] theorem ulg_onFt_rpl (u : Ulg) (g : UlgFt → UlgFt) : (u.onFt g).rpl = u.rpl := rfl
@[simp] theorem ulg_onFt_link (u : Ulg) (g : UlgFt → UlgFt) : (u.onFt g).link = u.link := rfl
@[simp] theorem ulg_onFt_pwr (u : Ulg) (g : UlgFt → UlgFt) : (u.onFt g).pwr = u.pwr := rfl
@[simp] theorem ulg_onFt_rdata (u : Ulg) (g : UlgFt → UlgFt) : (u.onFt g).rdata = u.rdata := rfl
@[simp] theorem ulg_onFt_sent (u : Ulg) (g : UlgFt → UlgFt) : (u.onFt g).sent = u.sent := rfl
@[simp] theorem ulg_onFt_rerr (u : Ulg) (g : UlgFt → UlgFt) : (u.onFt g).rerr = u.rerr := rfl
@[simp] theorem ulg_onTile_p (u : Ulg) (g : UlgTile → UlgTile) : (u.onTile g).p = u.p := rfl
@[simp] theorem ulg_onTile_uid (u : Ulg) (g : UlgTile → UlgTile) : (u.onTile g).uid = u.uid := rfl
@[simp] theorem ulg_onTile_time (u : Ulg) (g : UlgTile → UlgTile) : (u.onTile g).time = u.time := rfl
@[simp] theorem ulg_onTile_cnt (u : Ulg) (g : UlgTile → UlgTile) : (u.onTile g).cnt = u.cnt := rfl
@[simp] theorem ulg_onTile_trc (u : Ulg) (g : UlgTile → UlgTile) : (u.onTile g).trc = u.trc := rfl
@[simp] theorem ulg_onTile_ft (u : Ulg) (g : UlgTile → UlgTile) : (u.onTile g).ft = u.ft := rfl
@[simp] theorem ulg_onTile_ep (u : Ulg) (g : UlgTile → UlgTile) : (u.onTile g).ep = u.ep := rfl
@[simp] theorem ulg_onTile_rpl (u : Ulg) (g : UlgTile → UlgTile) : (u.onTile g).rpl = u.rpl := rfl
@[simp] theorem ulg_onTile_link (u : Ulg) (g : UlgTile → UlgTile) : (u.onTile g).link = u.link := rfl
@[simp] theorem ulg_onTile_pwr (u : Ulg) (g : UlgTile → UlgTile) : (u.onTile g).pwr = u.pwr := rfl
@[simp] theorem ulg_onTile_rdata (u : Ulg) (g : UlgTile → UlgTile) : (u.onTile g).rdata = u.rdata := rfl
@[simp] theorem ulg_onTile_sent (u : Ulg) (g : UlgTile → UlgTile) : (u.onTile g).sent = u.sent := rfl
@[simp] theorem ulg_onTile_rerr (u : Ulg) (g : UlgTile → UlgTile) : (u.onTile g).rerr = u.rerr := rfl
@[simp] theorem ulg_onRpl_p (u : Ulg) (g : UlgReplay → UlgReplay) : (u.onRpl g).p = u.p := rfl
@[simp] theorem ulg_onRpl_uid (u : Ulg) (g : UlgReplay → UlgReplay) : (u.onRpl g).uid = u.uid := rfl
@[simp] theorem ulg_onRpl_time (u : Ulg) (g : UlgReplay → UlgReplay) : (u.onRpl g).time = u.time := rfl
@[simp] theorem ulg_onRpl_cnt (u : Ulg) (g : UlgReplay → UlgReplay) : (u.onRpl g).cnt = u.cnt := rfl
@[simp] theorem ulg_onRpl_trc (u : Ulg) (g : UlgReplay → UlgReplay) : (u.onRpl g).trc = u.trc := rfl
@[simp] theorem ulg_onRpl_ft (u : Ulg) (g : UlgReplay → UlgReplay) : (u.onRpl g).ft = u.ft := rfl
@[simp] theorem ulg_onRpl_tile (u : Ulg) (g : UlgReplay → UlgReplay) : (u.onRpl g).tile = u.tile := rfl
@[simp] theorem ulg_onRpl_ep (u : Ulg) (g : UlgReplay → UlgReplay) : (u.onRpl g).ep = u.ep := rfl
@[simp] theorem ulg_onRpl_link (u : Ulg) (g : UlgReplay → UlgReplay) : (u.onRpl g).link = u.link := rfl
@[simp] theorem ulg_onRpl_pwr (u : Ulg) (g : UlgReplay → UlgReplay) : (u.onRpl g).pwr = u.pwr := rfl
@[simp] theorem ulg_onRpl_rdata (u : Ulg) (g : UlgReplay → UlgReplay) : (u.onRpl g).rdata = u.rdata := rfl
@[simp] theorem ulg_onRpl_sent (u : Ulg) (g : UlgReplay → UlgReplay) : (u.onRpl g).sent = u.sent := rfl
@[simp] theorem ulg_onRpl_rerr (u : Ulg) (g : UlgReplay → UlgReplay) : (u.onRpl g).rerr = u.rerr := rfl
@[simp] theorem ulg_onPort_p (u : Ulg) (k : Nat) (g : UlgPort → UlgPort) : (u.onPort k g).p = u.p := rfl
@[simp] theorem ulg_onPort_uid (u : Ulg) (k : Nat) (g : UlgPort → UlgPort) : (u.onPort k g).uid = u.uid := rfl
@[simp] theorem ulg_onPort_time (u : Ulg) (k : Nat) (g : UlgPort → UlgPort) : (u.onPort k g).time = u.time := rfl
@[simp] theorem ulg_onPort_cnt (u : Ulg) (k : Nat) (g : UlgPort → UlgPort) : (u.onPort k g).cnt = u.cnt := rfl
@[simp] theorem ulg_onPort_trc (u : Ulg) (k : Nat) (g : UlgPort → UlgPort) : (u.onPort k g).trc = u.trc := rfl
@[simp] theorem ulg_onPort_ft (u : Ulg) (k : Nat) (g : UlgPort → UlgPort) : (u.onPort k g).ft = u.ft := rfl
@[simp] theorem ulg_onPort_tile (u : Ulg) (k : Nat) (g : UlgPort → UlgPort) : (u.onPort k g).tile = u.tile := rfl
@[simp] theorem ulg_onPort_ep (u : Ulg) (k : Nat) (g : UlgPort → UlgPort) : (u.onPort k g).ep = u.ep := rfl
@[simp] theorem ulg_onPort_rpl (u : Ulg) (k : Nat) (g : UlgPort → UlgPort) : (u.onPort k g).rpl = u.rpl := rfl
@[simp] theorem ulg_onPort_pwr (u : Ulg) (k : Nat) (g : UlgPort → UlgPort) : (u.onPort k g).pwr = u.pwr := rfl
@[simp] theorem ulg_onPort_rdata (u : Ulg) (k : Nat) (g : UlgPort → UlgPort) : (u.onPort k g).rdata = u.rdata := rfl
@[simp] theorem ulg_onPort_sent (u : Ulg) (k : Nat) (g : UlgPort → UlgPort) : (u.onPort k g).sent = u.sent := rfl
@[simp] theorem ulg_onPort_rerr (u : Ulg) (k : Nat) (g : UlgPort → UlgPort) : (u.onPort k g).rerr = u.rerr := rfl
@[simp] theorem ulg_onTrcCore_p (u : Ulg) (k : Nat) (g : TraceCore → TraceCore) : (u.onTrcCore k g).p = u.p := rfl
@[simp] theorem ulg_onTrcCore_uid (u : Ulg) (k : Nat) (g : TraceCore → TraceCore) : (u.onTrcCore k g).uid = u.uid := rfl
@[simp] theorem ulg_onTrcCore_time (u : Ulg) (k : Nat) (g : TraceCore → TraceCore) : (u.onTrcCore k g).time = u.time := rfl
@[simp] theorem ulg_onTrcCore_cnt (u : Ulg) (k : Nat) (g : TraceCore → TraceCore) : (u.onTrcCore k g).cnt = u.cnt := rfl
@[simp] theorem ulg_onTrcCore_ft (u : Ulg) (k : Nat) (g : TraceCore → TraceCore) : (u.onTrcCore k g).ft = u.ft := rfl
@[simp] theorem ulg_onTrcCore_tile (u : Ulg) (k : Nat) (g : TraceCore → TraceCore) : (u.onTrcCore k g).tile = u.tile := rfl
@[simp] theorem ulg_onTrcCore_ep (u : Ulg) (k : Nat) (g : TraceCore → TraceCore) : (u.onTrcCore k g).ep = u.ep := rfl
@[simp] theorem ulg_onTrcCore_rpl (u : Ulg) (k : Nat) (g : TraceCore → TraceCore) : (u.onTrcCore k g).rpl = u.rpl := rfl
@[simp] theorem ulg_onTrcCore_link (u : Ulg) (k : Nat) (g : TraceCore → TraceCore) : (u.onTrcCore k g).link = u.link := rfl
@[simp] theorem ulg_onTrcCore_pwr (u : Ulg) (k : Nat) (g : TraceCore → TraceCore) : (u.onTrcCore k g).pwr = u.pwr := rfl
@[simp] theorem ulg_onTrcCore_rdata (u : Ulg) (k : Nat) (g : TraceCore → TraceCore) : (u.onTrcCore k g).rdata = u.rdata := rfl
@[simp] theorem ulg_onTrcCore_sent (u : Ulg) (k : Nat) (g : TraceCore → TraceCore) : (u.onTrcCore k g).sent = u.sent := rfl
@[simp] theorem ulg_onTrcCore_rerr (u : Ulg) (k : Nat) (g : TraceCore → TraceCore) : (u.onTrcCore k g).rerr = u.rerr := rfl
@[simp] theorem ulg_onFtCore_p (u : Ulg) (k : Nat) (g : FtCore → FtCore) : (u.onFtCore k g).p = u.p := rfl
@[simp] theorem ulg_onFtCore_uid (u : Ulg) (k : Nat) (g : FtCore → FtCore) : (u.onFtCore k g).uid = u.uid := rfl
@[simp] theorem ulg_onFtCore_time (u : Ulg) (k : Nat) (g : FtCore → FtCore) : (u.onFtCore k g).time = u.time := rfl
@[simp] theorem ulg_onFtCore_cnt (u : Ulg) (k : Nat) (g : FtCore → FtCore) : (u.onFtCore k g).cnt = u.cnt := rfl
@[simp] theorem ulg_onFtCore_trc (u : Ulg) (k : Nat) (g : FtCore → FtCore) : (u.onFtCore k g).trc = u.trc := rfl
@[simp] theorem ulg_onFtCore_tile (u : Ulg) (k : Nat) (g : FtCore → FtCore) : (u.onFtCore k g).tile = u.tile := rfl
@[simp] theorem ulg_onFtCore_ep (u : Ulg) (k : Nat) (g : FtCore → FtCore) : (u.onFtCore k g).ep = u.ep := rfl
@[simp] theorem ulg_onFtCore_rpl (u : Ulg) (k : Nat) (g : FtCore → FtCore) : (u.onFtCore k g).rpl = u.rpl := rfl
@[simp] theorem ulg_onFtCore_link (u : Ulg) (k : Nat) (g : FtCore → FtCore) : (u.onFtCore k g).link = u.link := rfl
@[simp] theorem ulg_onFtCore_pwr (u : Ulg) (k : Nat) (g : FtCore → FtCore) : (u.onFtCore k g).pwr = u.pwr := rfl
@[simp] theorem ulg_onFtCore_rdata (u : Ulg) (k : Nat) (g : FtCore → FtCore) : (u.onFtCore k g).rdata = u.rdata := rfl
@[simp] theorem ulg_onFtCore_sent (u : Ulg) (k : Nat) (g : FtCore → FtCore) : (u.onFtCore k g).sent = u.sent := rfl
@[simp] theorem ulg_onFtCore_rerr (u : Ulg) (k : Nat) (g : FtCore → FtCore) : (u.onFtCore k g).rerr = u.rerr := rfl
@[simp] theorem ulg_onTimePort_p (u : Ulg) (k : Nat) (g : UlgTimePort → UlgTimePort) : (u.onTimePort k g).p = u.p := rfl
@[simp] theorem ulg_onTimePort_uid (u : Ulg) (k : Nat) (g : UlgTimePort → UlgTimePort) : (u.onTimePort k g).uid = u.uid := rfl
@[simp] theorem ulg_onTimePort_cnt (u : Ulg) (k : Nat) (g : UlgTimePort → UlgTimePort) : (u.onTimePort k g).cnt = u.cnt := rfl
@[simp] theorem ulg_onTimePort_trc (u : Ulg) (k : Nat) (g : UlgTimePort → UlgTimePort) : (u.onTimePort k g).trc = u.trc := rfl
@[simp] theorem ulg_onTimePort_ft (u : Ulg) (k : Nat) (g : UlgTimePort → UlgTimePort) : (u.onTimePort k g).ft = u.ft := rfl
@[simp] theorem ulg_onTimePort_tile (u : Ulg) (k : Nat) (g : UlgTimePort → UlgTimePort) : (u.onTimePort k g).tile = u.tile := rfl
@[simp] theorem ulg_onTimePort_ep (u : Ulg) (k : Nat) (g : UlgTimePort → UlgTimePort) : (u.onTimePort k g).ep = u.ep := rfl
@[simp] theorem ulg_onTimePort_rpl (u : Ulg) (k : Nat) (g : UlgTimePort → UlgTimePort) : (u.onTimePort k g).rpl = u.rpl := rfl
@[simp] theorem ulg_onTimePort_link (u : Ulg) (k : Nat) (g : UlgTimePort → UlgTimePort) : (u.onTimePort k g).link = u.link := rfl
@[simp] theorem ulg_onTimePort_pwr (u : Ulg) (k : Nat) (g : UlgTimePort → UlgTimePort) : (u.onTimePort k g).pwr = u.pwr := rfl
@[simp] theorem ulg_onTimePort_rdata (u : Ulg) (k : Nat) (g : UlgTimePort → UlgTimePort) : (u.onTimePort k g).rdata = u.rdata := rfl
@[simp] theorem ulg_onTimePort_sent (u : Ulg) (k : Nat) (g : UlgTimePort → UlgTimePort) : (u.onTimePort k g).sent = u.sent := rfl
@[simp] theorem ulg_onTimePort_rerr (u : Ulg) (k : Nat) (g : UlgTimePort → UlgTimePort) : (u.onTimePort k g).rerr = u.rerr := rfl
@[simp] theorem ulg_onInst_p (u : Ulg) (k : Nat) (g : FtInst → FtInst) : (u.onInst k g).p = u.p := rfl
@[simp] theorem ulg_onInst_uid (u : Ulg) (k : Nat) (g : FtInst → FtInst) : (u.onInst k g).uid = u.uid := rfl
@[simp] theorem ulg_onInst_time (u : Ulg) (k : Nat) (g : FtInst → FtInst) : (u.onInst k g).time = u.time := rfl
@[simp] theorem ulg_onInst_cnt (u : Ulg) (k : Nat) (g : FtInst → FtInst) : (u.onInst k g).cnt = u.cnt := rfl
@[simp] theorem ulg_onInst_trc (u : Ulg) (k : Nat) (g : FtInst → FtInst) : (u.onInst k g).trc = u.trc := rfl
@[simp] theorem ulg_onInst_tile (u : Ulg) (k : Nat) (g : FtInst → FtInst) : (u.onInst k g).tile = u.tile := rfl
@[simp] theorem ulg_onInst_ep (u : Ulg) (k : Nat) (g : FtInst → FtInst) : (u.onInst k g).ep = u.ep := rfl
@[simp] theorem ulg_onInst_rpl (u : Ulg) (k : Nat) (g : FtInst → FtInst) : (u.onInst k g).rpl = u.rpl := rfl
@[simp] theorem ulg_onInst_link (u : Ulg) (k : Nat) (g : FtInst → FtInst) : (u.onInst k g).link = u.link := rfl
@[simp] theorem ulg_onInst_pwr (u : Ulg) (k : Nat) (g : FtInst → FtInst) : (u.onInst k g).pwr = u.pwr := rfl
@[simp] theorem ulg_onInst_rdata (u : Ulg) (k : Nat) (g : FtInst → FtInst) : (u.onInst k g).rdata = u.rdata := rfl
@[simp] theorem ulg_onInst_rerr (u : Ulg) (k : Nat) (g : FtInst → FtInst) : (u.onInst k g).rerr = u.rerr := rfl
@[simp] theorem ulg_onInst_sent (u : Ulg) (k : Nat) (g : FtInst → FtInst) : (u.onInst k g).sent = u.sent := rfl
@[simp] theorem ulg_onDom_uid (u : Ulg) (k : Nat) (g : Dom → Dom) : (u.onDom k g).uid = u.uid := rfl
@[simp] theorem ulg_onDom_time (u : Ulg) (k : Nat) (g : Dom → Dom) : (u.onDom k g).time = u.time := rfl
@[simp] theorem ulg_onDom_cnt (u : Ulg) (k : Nat) (g : Dom → Dom) : (u.onDom k g).cnt = u.cnt := rfl
@[simp] theorem ulg_onDom_trc (u : Ulg) (k : Nat) (g : Dom → Dom) : (u.onDom k g).trc = u.trc := rfl
@[simp] theorem ulg_onDom_ft (u : Ulg) (k : Nat) (g : Dom → Dom) : (u.onDom k g).ft = u.ft := rfl
@[simp] theorem ulg_onDom_tile (u : Ulg) (k : Nat) (g : Dom → Dom) : (u.onDom k g).tile = u.tile := rfl
@[simp] theorem ulg_onDom_ep (u : Ulg) (k : Nat) (g : Dom → Dom) : (u.onDom k g).ep = u.ep := rfl
@[simp] theorem ulg_onDom_rpl (u : Ulg) (k : Nat) (g : Dom → Dom) : (u.onDom k g).rpl = u.rpl := rfl
@[simp] theorem ulg_onDom_link (u : Ulg) (k : Nat) (g : Dom → Dom) : (u.onDom k g).link = u.link := rfl
@[simp] theorem ulg_onDom_rdata (u : Ulg) (k : Nat) (g : Dom → Dom) : (u.onDom k g).rdata = u.rdata := rfl
@[simp] theorem ulg_onDom_rerr (u : Ulg) (k : Nat) (g : Dom → Dom) : (u.onDom k g).rerr = u.rerr := rfl
@[simp] theorem ulg_onDom_sent (u : Ulg) (k : Nat) (g : Dom → Dom) : (u.onDom k g).sent = u.sent := rfl
@[simp] theorem ulg_onSrcTime_p (u : Ulg) (g : UlgTime → UlgTime) : (u.onSrcTime g).p = u.p := rfl
@[simp] theorem ulg_onSrcTime_uid (u : Ulg) (g : UlgTime → UlgTime) : (u.onSrcTime g).uid = u.uid := rfl
@[simp] theorem ulg_onSrcTime_cnt (u : Ulg) (g : UlgTime → UlgTime) : (u.onSrcTime g).cnt = u.cnt := rfl
@[simp] theorem ulg_onSrcTime_trc (u : Ulg) (g : UlgTime → UlgTime) : (u.onSrcTime g).trc = u.trc := rfl
@[simp] theorem ulg_onSrcTime_ft (u : Ulg) (g : UlgTime → UlgTime) : (u.onSrcTime g).ft = u.ft := rfl
@[simp] theorem ulg_onSrcTime_tile (u : Ulg) (g : UlgTime → UlgTime) : (u.onSrcTime g).tile = u.tile := rfl
@[simp] theorem ulg_onSrcTime_ep (u : Ulg) (g : UlgTime → UlgTime) : (u.onSrcTime g).ep = u.ep := rfl
@[simp] theorem ulg_onSrcTime_rpl (u : Ulg) (g : UlgTime → UlgTime) : (u.onSrcTime g).rpl = u.rpl := rfl
@[simp] theorem ulg_onSrcTime_link (u : Ulg) (g : UlgTime → UlgTime) : (u.onSrcTime g).link = u.link := rfl
@[simp] theorem ulg_onSrcTime_pwr (u : Ulg) (g : UlgTime → UlgTime) : (u.onSrcTime g).pwr = u.pwr := rfl
@[simp] theorem ulg_onSrcTime_rdata (u : Ulg) (g : UlgTime → UlgTime) : (u.onSrcTime g).rdata = u.rdata := rfl
@[simp] theorem ulg_onSrcTime_rerr (u : Ulg) (g : UlgTime → UlgTime) : (u.onSrcTime g).rerr = u.rerr := rfl
@[simp] theorem ulg_onSrcTime_sent (u : Ulg) (g : UlgTime → UlgTime) : (u.onSrcTime g).sent = u.sent := rfl

/-! ### The whole -/
@[simp] theorem state_onAgg_ulg (s : State) (g : Agg → Agg) : (s.onAgg g).ulg = s.ulg := rfl
@[simp] theorem state_onAgg_pending (s : State) (g : Agg → Agg) : (s.onAgg g).pending = s.pending := rfl
@[simp] theorem state_onWrite_ulg (s : State) (g : Agg → Agg) : (s.onWrite g).ulg = s.ulg := rfl
@[simp] theorem state_onWrite_pending (s : State) (g : Agg → Agg) : (s.onWrite g).pending = s.pending := rfl
@[simp] theorem state_onUlg_agg (s : State) (g : Ulg → Ulg) : (s.onUlg g).agg = s.agg := rfl
@[simp] theorem state_onUlg_pending (s : State) (g : Ulg → Ulg) : (s.onUlg g).pending = s.pending := rfl
@[simp] theorem state_onAgg_agg (s : State) (g : Agg → Agg) : (s.onAgg g).agg = g s.agg := rfl
@[simp] theorem state_onUlg_ulg (s : State) (g : Ulg → Ulg) : (s.onUlg g).ulg = g s.ulg := rfl
@[simp] theorem state_withFront_agg (s : State) (c : Instr) : (s.withFront c).agg = s.agg := rfl
@[simp] theorem state_withFront_ulg (s : State) (c : Instr) : (s.withFront c).ulg = s.ulg := rfl
@[simp] theorem state_withFront_pending (s : State) (c : Instr) : (s.withFront c).pending = c :: s.pending := rfl

end Sys2Proof.Laws
end

