-- ==== Sys2Proof/Laws/Ops.lean ====
section
/-! SUPPORT. What the shared operations on registers, time and events can do. -/

namespace Sys2Proof.Laws
open Sys2Proof Sys2Proof.Machine

/-! ### Registers -/

theorem onlyAt_refl (r : Store) (fs : List Field) : r.onlyAt r fs := fun _ _ => rfl

theorem onlyAt_set (r q : Store) (fs : List Field) (f : Field) (v : Nat) (hf : f ∈ fs) (h : r.onlyAt q fs) :
    r.onlyAt (q.set f v) fs := fun g hg => by
  rw [store_get_set_other _ _ _ _ (hg f hf)]
  exact h g hg

theorem onlyAt_count (r q : Store) (fs : List Field) (f : Field) (n : Nat) (hf : f ∈ fs) (h : r.onlyAt q fs) :
    r.onlyAt (q.count f n) fs := onlyAt_set r q fs f _ hf h

theorem onlyAt_setInt (r q : Store) (fs : List Field) (f : Field) (v : Int) (hf : f ∈ fs) (h : r.onlyAt q fs) :
    r.onlyAt (q.setInt f v) fs := onlyAt_set r q fs f _ hf h

@[simp] theorem agg_put_p (a : Agg) (f : Field) (v : Nat) : (a.put f v).p = a.p.put f v := rfl
@[simp] theorem agg_count_p (a : Agg) (f : Field) (n : Nat) : (a.count f n).p = a.p.count f n := rfl
@[simp] theorem ulg_put_p (u : Ulg) (f : Field) (v : Nat) : (u.put f v).p = u.p.put f v := rfl
@[simp] theorem ulg_count_p (u : Ulg) (f : Field) (n : Nat) : (u.count f n).p = u.p.count f n := rfl

theorem agg_reg (a : Agg) (f : Field) : a.reg f = a.p.regs.get f := rfl
theorem ulg_reg (u : Ulg) (f : Field) : u.reg f = u.p.regs.get f := rfl

/-! ### Events (R412) -/

theorem part_event_eq (blk : Nat → Option Nat) (p : Part) (f : Field) (d : Option Nat) (c : Nat) :
    p.event blk f d c = match evSource blk f with
      | none => p.put f 1
      | some src => (p.put f 1).notify
          { source := src, cls := c, die := d, addr := f.off + 64 * f.idx, detail := eventWord (p.put f 1).regs f } := rfl

@[simp] theorem part_event_regs (blk : Nat → Option Nat) (p : Part) (f : Field) (d : Option Nat) (c : Nat) :
    (p.event blk f d c).regs = p.regs.set f 1 := by rw [part_event_eq]; split <;> rfl
@[simp] theorem part_event_live (blk : Nat → Option Nat) (p : Part) (f : Field) (d : Option Nat) (c : Nat) :
    (p.event blk f d c).live = p.live := by rw [part_event_eq]; split <;> rfl
@[simp] theorem part_event_staged (blk : Nat → Option Nat) (p : Part) (f : Field) (d : Option Nat) (c : Nat) :
    (p.event blk f d c).staged = p.staged := by rw [part_event_eq]; split <;> rfl
@[simp] theorem part_event_copy (blk : Nat → Option Nat) (p : Part) (f : Field) (d : Option Nat) (c : Nat) :
    (p.event blk f d c).copy = p.copy := by rw [part_event_eq]; split <;> rfl
@[simp] theorem part_event_copyNs (blk : Nat → Option Nat) (p : Part) (f : Field) (d : Option Nat) (c : Nat) :
    (p.event blk f d c).copyNs = p.copyNs := by rw [part_event_eq]; split <;> rfl
@[simp] theorem part_event_now (blk : Nat → Option Nat) (p : Part) (f : Field) (d : Option Nat) (c : Nat) :
    (p.event blk f d c).now = p.now := by rw [part_event_eq]; split <;> rfl
@[simp] theorem part_event_servo (blk : Nat → Option Nat) (p : Part) (f : Field) (d : Option Nat) (c : Nat) :
    (p.event blk f d c).servo = p.servo := by rw [part_event_eq]; split <;> rfl
@[simp] theorem part_event_tick (blk : Nat → Option Nat) (p : Part) (f : Field) (d : Option Nat) (c : Nat) :
    (p.event blk f d c).tick = p.tick := by rw [part_event_eq]; split <;> rfl
@[simp] theorem part_event_free (blk : Nat → Option Nat) (p : Part) (f : Field) (d : Option Nat) (c : Nat) :
    (p.event blk f d c).free = p.free := by rw [part_event_eq]; split <;> rfl

@[simp] theorem agg_event_p (a : Agg) (f : Field) (d : Option Nat) (c : Nat) :
    (a.event f d c).p = a.p.event evBlockAgg f d c := rfl
@[simp] theorem ulg_event_p (u : Ulg) (f : Field) (d : Option Nat) (c : Nat) :
    (u.event f d c).p = u.p.event evBlockUlg f d c := rfl

/-- All that an event does (R412): its bit, and one notification of its source. -/
theorem part_event_spec (blk : Nat → Option Nat) (p : Part) (f : Field) (d : Option Nat) (c src : Nat)
    (h : evSource blk f = some src) : p.onlyEvents (p.event blk f d c) [f] [src] := by
  refine ⟨?_, by simp, ?_, ?_⟩
  · rw [part_event_eq, h]; rfl
  · rw [part_event_regs]
    exact onlyAt_set _ _ _ _ _ (by simp) (onlyAt_refl _ _)
  · rw [part_event_eq, h]
    exact ⟨_, rfl, rfl⟩

/-- The bit that an event sets reads 1, set or not before. -/
theorem part_event_bit (blk : Nat → Option Nat) (p : Part) (f : Field) (d : Option Nat) (c : Nat) (h : f.width = 1) :
    (p.event blk f d c).regs.get f = 1 := by simp [h]

/-! ### Sending -/

/-- In safe state only queue 0 takes a frame (R19, R401). -/
theorem agg_offer_safe (a : Agg) (f : EgressFrame) (hs : a.safe = true) (hq : f.queue ≠ 0) : a.offer f = a := by
  simp [Agg.offer, Agg.judgeOffer, hs, hq]

/-- A change of a queue changes the fabric and the queue's DEPTH, and nothing else. -/
theorem agg_qPut_eq (a : Agg) (p q : Nat) (l : List FabPkt) :
    a.qPut p q l = { a with p := (a.qPut p q l).p, fab := (a.qPut p q l).fab } := rfl

theorem agg_drawPsn_eq (a : Agg) (f : EgressFrame) : (a.drawPsn f).2 = { a with fab := (a.drawPsn f).2.fab } := by
  cases f <;> rfl

theorem agg_enqueue_eq (a : Agg) (p : Nat) (f : EgressFrame) :
    a.enqueue p f = { a with p := (a.enqueue p f).p, fab := (a.enqueue p f).fab } := by cases f <;> rfl

theorem agg_tooLong_eq (a : Agg) (f : EgressFrame) :
    a.tooLong f = { a with p := (a.tooLong f).p, fab := (a.tooLong f).fab } := by
  unfold Agg.tooLong
  cases (a.portSet f).filter a.fabUp <;> rfl

/-- All that an offer touches: the fabric, and registers and notifications of the part (R400, R403). -/
theorem agg_offer_eq (a : Agg) (f : EgressFrame) : a.offer f = { a with p := (a.offer f).p, fab := (a.offer f).fab } := by
  unfold Agg.offer
  split
  · exact agg_enqueue_eq _ _ _
  · rfl
  · split <;> rfl
  · exact agg_tooLong_eq _ _
  · rfl

@[simp] theorem agg_offer_sent (a : Agg) (f : EgressFrame) : (a.offer f).sent = a.sent := by rw [agg_offer_eq]
@[simp] theorem agg_offer_time (a : Agg) (f : EgressFrame) : (a.offer f).time = a.time := by rw [agg_offer_eq]
@[simp] theorem agg_offer_shed (a : Agg) (f : EgressFrame) : (a.offer f).shed = a.shed := by rw [agg_offer_eq]
@[simp] theorem agg_offer_tly (a : Agg) (f : EgressFrame) : (a.offer f).tly = a.tly := by rw [agg_offer_eq]
@[simp] theorem agg_offer_det (a : Agg) (f : EgressFrame) : (a.offer f).det = a.det := by rw [agg_offer_eq]

/-- A frame that is placed stands at the end of its queue on the port (R400). -/
theorem agg_offer_placed (a : Agg) (f : EgressFrame) (p : Nat) (h : a.judgeOffer f = .placed p) : a.offer f = a.enqueue p f := by
  simp [Agg.offer, h]

/-- A fold of updates that each touch the part and the fabric alone touches nothing else. -/
theorem agg_fold_eq {α : Type} (g : Agg → α → Agg) (hg : ∀ a x, g a x = { a with p := (g a x).p, fab := (g a x).fab })
    (l : List α) (a : Agg) : l.foldl g a = { a with p := (l.foldl g a).p, fab := (l.foldl g a).fab } := by
  induction l generalizing a with
  | nil => rfl
  | cons x l ih =>
    rw [List.foldl_cons]
    exact (ih (g a x)).trans (by rw [hg a x])

/-- All that offering the waiting frames again touches (R400). -/
theorem agg_reoffer_eq (a : Agg) : a.reoffer = { a with p := a.reoffer.p, fab := a.reoffer.fab } := by
  unfold Agg.reoffer
  rw [agg_fold_eq _ _ a.fab.wait]
  · rfl
  · intro a f
    split
    · exact agg_enqueue_eq _ _ _
    · rfl
    · rfl
    · exact agg_tooLong_eq _ _
    · rfl

/-- All that a notice to the ring touches (R397). -/
theorem agg_ringNotice_eq (a : Agg) (l : List Byte) :
    a.ringNotice l = { a with p := (a.ringNotice l).p, fab := (a.ringNotice l).fab } :=
  agg_fold_eq _ (fun _ _ => agg_offer_eq _ _) _ a

/-- All that a JOIN touches: registers, the fabric, and the ring (R262). -/
theorem agg_joinGo_eq (a : Agg) : a.joinGo = { a with p := a.joinGo.p, fab := a.joinGo.fab, tly := a.joinGo.tly } := by
  simp only [Agg.joinGo]
  split
  · rw [agg_ringNotice_eq]
    rfl
  · rfl

/-- The same of owing one. -/
theorem agg_sendJoin_eq (a : Agg) :
    a.sendJoin = { a with p := a.sendJoin.p, fab := a.sendJoin.fab, tly := a.sendJoin.tly } := by
  unfold Agg.sendJoin
  conv_lhs => rw [agg_joinGo_eq]
  rfl

/-- A metered frame changes the levels of its meter and nothing else (R407). -/
theorem agg_meterFrame_eq (a : Agg) (m n : Nat) :
    (a.meterFrame m n).1 = { a with fab := { a.fab with meter := (a.meterFrame m n).1.fab.meter } } := by
  simp only [Agg.meterFrame]
  split
  · rfl
  · split <;> rfl

/-- Policing touches the meters, and of the part the drop counts, their events and the fill shown (R407). -/
theorem agg_police_eq (a : Agg) (p g : Nat) (rx : RxInfo) : (a.police p g rx).1 =
    { a with p := (a.police p g rx).1.p, fab := { a.fab with meter := (a.police p g rx).1.fab.meter } } := by
  have h := agg_meterFrame_eq (a.put (FAB_PORT_STATUS_RX_KIB p) rx.rxKib) (5 * p + g) rx.bytes
  simp only [Agg.police]
  generalize (a.put (FAB_PORT_STATUS_RX_KIB p) rx.rxKib).meterFrame (5 * p + g) rx.bytes = r at h ⊢
  obtain ⟨b, c⟩ := r
  obtain ⟨m, rfl⟩ : ∃ m, b = { a.put (FAB_PORT_STATUS_RX_KIB p) rx.rxKib with
    fab := { (a.put (FAB_PORT_STATUS_RX_KIB p) rx.rxKib).fab with meter := m } } := ⟨_, h⟩
  split
  · rfl
  · split
    · rfl
    · split <;> rfl

/-- What an arriving frame does: its own effect after the meters accept it, and else nothing more (R407). -/
theorem agg_metered_eq (a : Agg) (p g : Nat) (rx : RxInfo) (f : Agg → Agg) :
    a.metered p g rx f = if a.accepts p g rx then f (a.policed p g rx) else a.policed p g rx := by
  rfl

/-- A message for a control slot changes the aggregator's ports and nothing else (R141). -/
theorem agg_slotOut_eq (a : Agg) (p : Nat) (c : CtrlSlot) : a.slotOut p c = { a with die := (a.slotOut p c).die } := rfl
@[simp] theorem agg_slotOut_p (a : Agg) (p : Nat) (c : CtrlSlot) : (a.slotOut p c).p = a.p := rfl
@[simp] theorem agg_slotOut_sent (a : Agg) (p : Nat) (c : CtrlSlot) : (a.slotOut p c).sent = a.sent := rfl
/-- The same of the Uligo's ports. -/
theorem ulg_slotOut_eq (u : Ulg) (x : Nat) (c : CtrlSlot) : u.slotOut x c = { u with link := (u.slotOut x c).link } := rfl
@[simp] theorem ulg_slotOut_p (u : Ulg) (x : Nat) (c : CtrlSlot) : (u.slotOut x c).p = u.p := rfl
@[simp] theorem ulg_slotOut_sent (u : Ulg) (x : Nat) (c : CtrlSlot) : (u.slotOut x c).sent = u.sent := rfl

/-! ### Self-tests -/

/-- Two arrays write the same bits at an element exactly when their columns' faults change the same bits (R349, R350). -/
theorem testOut_eq_iff (seed j : Nat) (f g : List (Nat × Nat)) (i c : Nat) :
    testOut seed j f i c = testOut seed j g i c ↔ (assocGet f c).getD 0 = (assocGet g c).getD 0 := by
  simp [testOut]

end Sys2Proof.Laws
end

