-- ==== Sys2Proof/Laws/PerInstr.lean ====
section
/-! SUPPORT. Per command: TW_SYNC, which carries time from one part to the other, is the one command that concerns both
parts; every other concerns the one that `Instr.part` names. -/

namespace Sys2Proof.Laws.Part

/-- The command names one part, unless it is TW_SYNC. -/
def Statement (c : Instr) : Prop := c.part = none ↔ ∃ x w, c = .twSync x w

theorem tickLatch (part : PartSel) (qpEdges : List Nat) : Statement (.tickLatch part qpEdges) :=
  ⟨(fun h => nomatch h), (fun h => nomatch h)⟩
theorem islandMissing (island : Nat) : Statement (.islandMissing island) :=
  ⟨(fun h => nomatch h), (fun h => nomatch h)⟩
theorem tickActivation (part : PartSel) : Statement (.tickActivation part) :=
  ⟨(fun h => nomatch h), (fun h => nomatch h)⟩
theorem epochActivation : Statement (.epochActivation) :=
  ⟨(fun h => nomatch h), (fun h => nomatch h)⟩
theorem epochBoundary : Statement (.epochBoundary) :=
  ⟨(fun h => nomatch h), (fun h => nomatch h)⟩
theorem ptpSync (port : Fin 12) (m : PtpMsg) : Statement (.ptpSync port m) :=
  ⟨(fun h => nomatch h), (fun h => nomatch h)⟩
theorem followUp (port : Fin 12) (m : PtpMsg) : Statement (.followUp port m) :=
  ⟨(fun h => nomatch h), (fun h => nomatch h)⟩
theorem delayResp (port : Fin 12) (m : PtpMsg) : Statement (.delayResp port m) :=
  ⟨(fun h => nomatch h), (fun h => nomatch h)⟩
theorem announce (port : Fin 12) (m : PtpMsg) (a : AnnounceData) : Statement (.announce port m a) :=
  ⟨(fun h => nomatch h), (fun h => nomatch h)⟩
theorem announceReceiptTimeout (port : Fin 12) : Statement (.announceReceiptTimeout port) :=
  ⟨(fun h => nomatch h), (fun h => nomatch h)⟩
theorem delayReq (port : Fin 12) : Statement (.delayReq port) :=
  ⟨(fun h => nomatch h), (fun h => nomatch h)⟩
theorem ptpMessageDropped (port : Fin 12) (why : PtpDrop) (rx : RxInfo) : Statement (.ptpMessageDropped port why rx) :=
  ⟨(fun h => nomatch h), (fun h => nomatch h)⟩
theorem esmc (port : Fin 12) (ql : Nat) (rx : RxInfo) : Statement (.esmc port ql rx) :=
  ⟨(fun h => nomatch h), (fun h => nomatch h)⟩
theorem esmcTransmit : Statement (.esmcTransmit) :=
  ⟨(fun h => nomatch h), (fun h => nomatch h)⟩
theorem holdLimit (part : PartSel) : Statement (.holdLimit part) :=
  ⟨(fun h => nomatch h), (fun h => nomatch h)⟩
theorem twSyncSend (p : Fin 16) : Statement (.twSyncSend p) :=
  ⟨(fun h => nomatch h), (fun h => nomatch h)⟩
theorem twSync (x : Fin 2) (w : TimeWord) : Statement (.twSync x w) := ⟨fun _ => ⟨x, w, rfl⟩, fun _ => rfl⟩
theorem twFull (x : Fin 2) (w : TimeWord) : Statement (.twFull x w) :=
  ⟨(fun h => nomatch h), (fun h => nomatch h)⟩
theorem twEcho (p : Fin 16) (w : TimeWord) : Statement (.twEcho p w) :=
  ⟨(fun h => nomatch h), (fun h => nomatch h)⟩
theorem coastExpiry : Statement (.coastExpiry) :=
  ⟨(fun h => nomatch h), (fun h => nomatch h)⟩
theorem scheduledLaunch (port : Fin 12) : Statement (.scheduledLaunch port) :=
  ⟨(fun h => nomatch h), (fun h => nomatch h)⟩
theorem timeSecRead : Statement (.timeSecRead) :=
  ⟨(fun h => nomatch h), (fun h => nomatch h)⟩
theorem ulgTimeSecRead : Statement (.ulgTimeSecRead) :=
  ⟨(fun h => nomatch h), (fun h => nomatch h)⟩
theorem hostWrite (off : Nat) (value : Word) (mid : Fin 64) : Statement (.hostWrite off value mid) :=
  ⟨(fun h => nomatch h), (fun h => nomatch h)⟩
theorem pathChange (port : Fin 12) (ptype spinePort changeNs : Nat) :
    Statement (.pathChange port ptype spinePort changeNs) :=
  ⟨(fun h => nomatch h), (fun h => nomatch h)⟩
theorem countBeat (b : EvBeat) : Statement (.countBeat b) :=
  ⟨(fun h => nomatch h), (fun h => nomatch h)⟩
theorem sampleBeat (b : EvBeat) : Statement (.sampleBeat b) :=
  ⟨(fun h => nomatch h), (fun h => nomatch h)⟩
theorem ringBeat (b : EvBeat) : Statement (.ringBeat b) :=
  ⟨(fun h => nomatch h), (fun h => nomatch h)⟩
theorem reservedKindBeat (b : EvBeat) : Statement (.reservedKindBeat b) :=
  ⟨(fun h => nomatch h), (fun h => nomatch h)⟩
theorem ovsRequestTimeout (core : Fin 8192) : Statement (.ovsRequestTimeout core) :=
  ⟨(fun h => nomatch h), (fun h => nomatch h)⟩
theorem uncoreBeat (b : UevBeat) : Statement (.uncoreBeat b) :=
  ⟨(fun h => nomatch h), (fun h => nomatch h)⟩
theorem queueProbeBeat (b : QpBeat) : Statement (.queueProbeBeat b) :=
  ⟨(fun h => nomatch h), (fun h => nomatch h)⟩
theorem commandTagBeat (b : CtBeat) : Statement (.commandTagBeat b) :=
  ⟨(fun h => nomatch h), (fun h => nomatch h)⟩
theorem hang (core : Fin 8192) : Statement (.hang core) :=
  ⟨(fun h => nomatch h), (fun h => nomatch h)⟩
theorem packStart (parity : List Nat) : Statement (.packStart parity) :=
  ⟨(fun h => nomatch h), (fun h => nomatch h)⟩
theorem recordClose : Statement (.recordClose) :=
  ⟨(fun h => nomatch h), (fun h => nomatch h)⟩
theorem ringUnfreeze (core : Fin 8192) (all : Bool) : Statement (.ringUnfreeze core all) :=
  ⟨(fun h => nomatch h), (fun h => nomatch h)⟩
theorem fullNext : Statement (.fullNext) :=
  ⟨(fun h => nomatch h), (fun h => nomatch h)⟩
theorem ovsSlotWrite (slot : Fin 64) (value : Word) : Statement (.ovsSlotWrite slot value) :=
  ⟨(fun h => nomatch h), (fun h => nomatch h)⟩
theorem ovsPop (mid : Fin 64) : Statement (.ovsPop mid) :=
  ⟨(fun h => nomatch h), (fun h => nomatch h)⟩
theorem rcRead (part : PartSel) (off : Nat) (mid : Fin 64) : Statement (.rcRead part off mid) :=
  ⟨(fun h => nomatch h), (fun h => nomatch h)⟩
theorem traceBeat (b : TraceBeat) : Statement (.traceBeat b) :=
  ⟨(fun h => nomatch h), (fun h => nomatch h)⟩
theorem traceOverflowRecover (core : Fin 64) : Statement (.traceOverflowRecover core) :=
  ⟨(fun h => nomatch h), (fun h => nomatch h)⟩
theorem authExpired : Statement (.authExpired) :=
  ⟨(fun h => nomatch h), (fun h => nomatch h)⟩
theorem trcRingDataRead : Statement (.trcRingDataRead) :=
  ⟨(fun h => nomatch h), (fun h => nomatch h)⟩
theorem ftCoreDue (core : Fin 8192) : Statement (.ftCoreDue core) :=
  ⟨(fun h => nomatch h), (fun h => nomatch h)⟩
theorem yieldBeat (b : FtBeat) : Statement (.yieldBeat b) :=
  ⟨(fun h => nomatch h), (fun h => nomatch h)⟩
theorem sigLo (b : FtBeat) : Statement (.sigLo b) :=
  ⟨(fun h => nomatch h), (fun h => nomatch h)⟩
theorem sigHi (b : FtBeat) : Statement (.sigHi b) :=
  ⟨(fun h => nomatch h), (fun h => nomatch h)⟩
theorem ftSigTimeout (core : Fin 8192) : Statement (.ftSigTimeout core) :=
  ⟨(fun h => nomatch h), (fun h => nomatch h)⟩
theorem ftDeferred (core : Fin 8192) : Statement (.ftDeferred core) :=
  ⟨(fun h => nomatch h), (fun h => nomatch h)⟩
theorem pairWaitExpiry (seq : Nat) : Statement (.pairWaitExpiry seq) :=
  ⟨(fun h => nomatch h), (fun h => nomatch h)⟩
theorem ftForce (core : Fin 8192) (kernel : Nat) (seqLo : Nat) : Statement (.ftForce core kernel seqLo) :=
  ⟨(fun h => nomatch h), (fun h => nomatch h)⟩
theorem cmdBeat (b : TapBeat) : Statement (.cmdBeat b) :=
  ⟨(fun h => nomatch h), (fun h => nomatch h)⟩
theorem tileDataBeat (kind : Fin 8) (b : TapBeat) : Statement (.tileDataBeat kind b) :=
  ⟨(fun h => nomatch h), (fun h => nomatch h)⟩
theorem endBeat (b : TapBeat) : Statement (.endBeat b) :=
  ⟨(fun h => nomatch h), (fun h => nomatch h)⟩
theorem tileTimeout (tap : Fin 32) : Statement (.tileTimeout tap) :=
  ⟨(fun h => nomatch h), (fun h => nomatch h)⟩
theorem tileForce (mask : BitVec 32) : Statement (.tileForce mask) :=
  ⟨(fun h => nomatch h), (fun h => nomatch h)⟩
theorem captureBufferUe (t : CaptureTarget) : Statement (.captureBufferUe t) :=
  ⟨(fun h => nomatch h), (fun h => nomatch h)⟩
theorem trainingDone (e : LinkEnd) (lanes : BitVec 4) : Statement (.trainingDone e lanes) :=
  ⟨(fun h => nomatch h), (fun h => nomatch h)⟩
theorem trainLimit (e : LinkEnd) : Statement (.trainLimit e) :=
  ⟨(fun h => nomatch h), (fun h => nomatch h)⟩
theorem alignTimeout (e : LinkEnd) : Statement (.alignTimeout e) :=
  ⟨(fun h => nomatch h), (fun h => nomatch h)⟩
theorem alignmentLockLost (e : LinkEnd) : Statement (.alignmentLockLost e) :=
  ⟨(fun h => nomatch h), (fun h => nomatch h)⟩
theorem retryTimeout (e : LinkEnd) : Statement (.retryTimeout e) :=
  ⟨(fun h => nomatch h), (fun h => nomatch h)⟩
theorem reupHold (e : LinkEnd) : Statement (.reupHold e) :=
  ⟨(fun h => nomatch h), (fun h => nomatch h)⟩
theorem dataFlit (e : LinkEnd) (f : Flit) : Statement (.dataFlit e f) :=
  ⟨(fun h => nomatch h), (fun h => nomatch h)⟩
theorem idleFlit (e : LinkEnd) (f : Flit) : Statement (.idleFlit e f) :=
  ⟨(fun h => nomatch h), (fun h => nomatch h)⟩
theorem violDown (e : LinkEnd) : Statement (.violDown e) :=
  ⟨(fun h => nomatch h), (fun h => nomatch h)⟩
theorem replayTimeout (e : LinkEnd) : Statement (.replayTimeout e) :=
  ⟨(fun h => nomatch h), (fun h => nomatch h)⟩
theorem flitSend (e : LinkEnd) : Statement (.flitSend e) :=
  ⟨(fun h => nomatch h), (fun h => nomatch h)⟩
theorem helloSend (p : Fin 16) : Statement (.helloSend p) :=
  ⟨(fun h => nomatch h), (fun h => nomatch h)⟩
theorem hello (x : Fin 2) (resume : Bool) (reservedSet : Bool) (nonce : Nat) :
    Statement (.hello x resume reservedSet nonce) :=
  ⟨(fun h => nomatch h), (fun h => nomatch h)⟩
theorem helloAck (p : Fin 16) (a : HelloAck) : Statement (.helloAck p a) :=
  ⟨(fun h => nomatch h), (fun h => nomatch h)⟩
theorem read (x : Fin 2) (c : Cmd) : Statement (.read x c) :=
  ⟨(fun h => nomatch h), (fun h => nomatch h)⟩
theorem write (x : Fin 2) (c : Cmd) : Statement (.write x c) :=
  ⟨(fun h => nomatch h), (fun h => nomatch h)⟩
theorem commit (x : Fin 2) (c : Cmd) : Statement (.commit x c) :=
  ⟨(fun h => nomatch h), (fun h => nomatch h)⟩
theorem sessionStatus (x : Fin 2) (c : Cmd) : Statement (.sessionStatus x c) :=
  ⟨(fun h => nomatch h), (fun h => nomatch h)⟩
theorem nop (x : Fin 2) (c : Cmd) : Statement (.nop x c) :=
  ⟨(fun h => nomatch h), (fun h => nomatch h)⟩
theorem replayOpen (x : Fin 2) (c : Cmd) : Statement (.replayOpen x c) :=
  ⟨(fun h => nomatch h), (fun h => nomatch h)⟩
theorem replayLoad (x : Fin 2) (c : Cmd) : Statement (.replayLoad x c) :=
  ⟨(fun h => nomatch h), (fun h => nomatch h)⟩
theorem replayStart (x : Fin 2) (c : Cmd) : Statement (.replayStart x c) :=
  ⟨(fun h => nomatch h), (fun h => nomatch h)⟩
theorem replayStatus (x : Fin 2) (c : Cmd) : Statement (.replayStatus x c) :=
  ⟨(fun h => nomatch h), (fun h => nomatch h)⟩
theorem replayClose (x : Fin 2) (c : Cmd) : Statement (.replayClose x c) :=
  ⟨(fun h => nomatch h), (fun h => nomatch h)⟩
theorem domain (x : Fin 2) (c : Cmd) : Statement (.domain x c) :=
  ⟨(fun h => nomatch h), (fun h => nomatch h)⟩
theorem domainQuery (x : Fin 2) (c : Cmd) : Statement (.domainQuery x c) :=
  ⟨(fun h => nomatch h), (fun h => nomatch h)⟩
theorem response (p : Fin 16) (r : Resp) : Statement (.response p r) :=
  ⟨(fun h => nomatch h), (fun h => nomatch h)⟩
theorem release (p : Fin 16) : Statement (.release p) :=
  ⟨(fun h => nomatch h), (fun h => nomatch h)⟩
theorem claim (p : Fin 16) : Statement (.claim p) :=
  ⟨(fun h => nomatch h), (fun h => nomatch h)⟩
theorem streamTimeout (p : Fin 16) : Statement (.streamTimeout p) :=
  ⟨(fun h => nomatch h), (fun h => nomatch h)⟩
theorem recordCommit (p : Fin 16) (stream : Fin 16) : Statement (.recordCommit p stream) :=
  ⟨(fun h => nomatch h), (fun h => nomatch h)⟩
theorem sweepVisit : Statement (.sweepVisit) :=
  ⟨(fun h => nomatch h), (fun h => nomatch h)⟩
theorem readLoc (loc : Nat) : Statement (.readLoc loc) :=
  ⟨(fun h => nomatch h), (fun h => nomatch h)⟩
theorem lookup : Statement (.lookup) :=
  ⟨(fun h => nomatch h), (fun h => nomatch h)⟩
theorem insertStatic : Statement (.insertStatic) :=
  ⟨(fun h => nomatch h), (fun h => nomatch h)⟩
theorem delete : Statement (.delete) :=
  ⟨(fun h => nomatch h), (fun h => nomatch h)⟩
theorem ringReleased (ring : Nat) : Statement (.ringReleased ring) :=
  ⟨(fun h => nomatch h), (fun h => nomatch h)⟩
theorem shedUe (addr : Nat) : Statement (.shedUe addr) :=
  ⟨(fun h => nomatch h), (fun h => nomatch h)⟩
theorem shedRepaired : Statement (.shedRepaired) :=
  ⟨(fun h => nomatch h), (fun h => nomatch h)⟩
theorem scrub (errors : Nat) (reports : List Nat) : Statement (.scrub errors reports) :=
  ⟨(fun h => nomatch h), (fun h => nomatch h)⟩
theorem mirrorHelloSend : Statement (.mirrorHelloSend) :=
  ⟨(fun h => nomatch h), (fun h => nomatch h)⟩
theorem mirrorHello (src tag port msess : Nat) (reset : Bool) (h : MirHead := {}) :
    Statement (.mirrorHello src tag port msess reset h) :=
  ⟨(fun h => nomatch h), (fun h => nomatch h)⟩
theorem mirrorHelloAck (src tag status : Nat) (h : MirHead := {}) : Statement (.mirrorHelloAck src tag status h) :=
  ⟨(fun h => nomatch h), (fun h => nomatch h)⟩
theorem mirrorData (m : MirrorPart) : Statement (.mirrorData m) :=
  ⟨(fun h => nomatch h), (fun h => nomatch h)⟩
theorem mirrorAck (src ring ackSeq : Nat) (h : MirHead := {}) : Statement (.mirrorAck src ring ackSeq h) :=
  ⟨(fun h => nomatch h), (fun h => nomatch h)⟩
theorem mirrorResend (ring : Nat) : Statement (.mirrorResend ring) :=
  ⟨(fun h => nomatch h), (fun h => nomatch h)⟩
theorem mirrorStall : Statement (.mirrorStall) :=
  ⟨(fun h => nomatch h), (fun h => nomatch h)⟩
theorem stalled : Statement (.stalled) :=
  ⟨(fun h => nomatch h), (fun h => nomatch h)⟩
theorem mirrorRateWindow : Statement (.mirrorRateWindow) :=
  ⟨(fun h => nomatch h), (fun h => nomatch h)⟩
theorem jquery (q : JQueryMsg) : Statement (.jquery q) :=
  ⟨(fun h => nomatch h), (fun h => nomatch h)⟩
theorem janswer (a : JAnswerMsg) : Statement (.janswer a) :=
  ⟨(fun h => nomatch h), (fun h => nomatch h)⟩
theorem jqueryTimeout : Statement (.jqueryTimeout) :=
  ⟨(fun h => nomatch h), (fun h => nomatch h)⟩
theorem journalOpen : Statement (.journalOpen) :=
  ⟨(fun h => nomatch h), (fun h => nomatch h)⟩
theorem jqGo (value : Word) : Statement (.jqGo value) :=
  ⟨(fun h => nomatch h), (fun h => nomatch h)⟩
theorem jqNoAnswer : Statement (.jqNoAnswer) :=
  ⟨(fun h => nomatch h), (fun h => nomatch h)⟩
theorem fetch (f : FetchMsg) : Statement (.fetch f) :=
  ⟨(fun h => nomatch h), (fun h => nomatch h)⟩
theorem fetchEnd (qid count firstHeld : Nat) (h : MirHead := {}) : Statement (.fetchEnd qid count firstHeld h) :=
  ⟨(fun h => nomatch h), (fun h => nomatch h)⟩
theorem segmentAge (ring : Nat) : Statement (.segmentAge ring) :=
  ⟨(fun h => nomatch h), (fun h => nomatch h)⟩
theorem segmentWritten (ring : Nat) : Statement (.segmentWritten ring) :=
  ⟨(fun h => nomatch h), (fun h => nomatch h)⟩
theorem dzGo : Statement (.dzGo) :=
  ⟨(fun h => nomatch h), (fun h => nomatch h)⟩
theorem dzDone (ecc : Option Nat) : Statement (.dzDone ecc) :=
  ⟨(fun h => nomatch h), (fun h => nomatch h)⟩
theorem obsClose (round : Nat) : Statement (.obsClose round) :=
  ⟨(fun h => nomatch h), (fun h => nomatch h)⟩
theorem cover (f : RedFrame) (mask : BitVec 16) : Statement (.cover f mask) :=
  ⟨(fun h => nomatch h), (fun h => nomatch h)⟩
theorem coverLate (round : Nat) : Statement (.coverLate round) :=
  ⟨(fun h => nomatch h), (fun h => nomatch h)⟩
theorem launchRequest (port : Fin 12) (launchNs : Nat) (frames : List OutPacket) :
    Statement (.launchRequest port launchNs frames) :=
  ⟨(fun h => nomatch h), (fun h => nomatch h)⟩
theorem countResult (f : RedFrame) : Statement (.countResult f) :=
  ⟨(fun h => nomatch h), (fun h => nomatch h)⟩
theorem result (f : RedFrame) : Statement (.result f) :=
  ⟨(fun h => nomatch h), (fun h => nomatch h)⟩
theorem resultDeadline (round : Nat) : Statement (.resultDeadline round) :=
  ⟨(fun h => nomatch h), (fun h => nomatch h)⟩
theorem attemptStart (round : Nat) : Statement (.attemptStart round) :=
  ⟨(fun h => nomatch h), (fun h => nomatch h)⟩
theorem chunk (f : RedFrame) : Statement (.chunk f) :=
  ⟨(fun h => nomatch h), (fun h => nomatch h)⟩
theorem stepDeadline (round : Nat) : Statement (.stepDeadline round) :=
  ⟨(fun h => nomatch h), (fun h => nomatch h)⟩
theorem skip (n : RingNote) : Statement (.skip n) :=
  ⟨(fun h => nomatch h), (fun h => nomatch h)⟩
theorem join (n : RingNote) : Statement (.join n) :=
  ⟨(fun h => nomatch h), (fun h => nomatch h)⟩
theorem roundFailed (round : Nat) : Statement (.roundFailed round) :=
  ⟨(fun h => nomatch h), (fun h => nomatch h)⟩
theorem tallyActivation : Statement (.tallyActivation) :=
  ⟨(fun h => nomatch h), (fun h => nomatch h)⟩
theorem tickRunStart (slot : Fin 16) : Statement (.tickRunStart slot) :=
  ⟨(fun h => nomatch h), (fun h => nomatch h)⟩
theorem roundRunStart (slot : Fin 16) : Statement (.roundRunStart slot) :=
  ⟨(fun h => nomatch h), (fun h => nomatch h)⟩
theorem runEnd (slot : Fin 16) : Statement (.runEnd slot) :=
  ⟨(fun h => nomatch h), (fun h => nomatch h)⟩
theorem overrun (slot : Fin 16) : Statement (.overrun slot) :=
  ⟨(fun h => nomatch h), (fun h => nomatch h)⟩
theorem droverCoreFault (slot : Fin 16) (core : Fin 33) : Statement (.droverCoreFault slot core) :=
  ⟨(fun h => nomatch h), (fun h => nomatch h)⟩
theorem runSkip (slot : Fin 16) : Statement (.runSkip slot) :=
  ⟨(fun h => nomatch h), (fun h => nomatch h)⟩
theorem opEnd (slot : Fin 16) (o : Op) : Statement (.opEnd slot o) :=
  ⟨(fun h => nomatch h), (fun h => nomatch h)⟩
theorem opLdi (slot : Fin 16) (o : Op) : Statement (.opLdi slot o) :=
  ⟨(fun h => nomatch h), (fun h => nomatch h)⟩
theorem opLdp (slot : Fin 16) (o : Op) : Statement (.opLdp slot o) :=
  ⟨(fun h => nomatch h), (fun h => nomatch h)⟩
theorem opFeat (slot : Fin 16) (o : Op) : Statement (.opFeat slot o) :=
  ⟨(fun h => nomatch h), (fun h => nomatch h)⟩
theorem opAdd (slot : Fin 16) (o : Op) : Statement (.opAdd slot o) :=
  ⟨(fun h => nomatch h), (fun h => nomatch h)⟩
theorem opSub (slot : Fin 16) (o : Op) : Statement (.opSub slot o) :=
  ⟨(fun h => nomatch h), (fun h => nomatch h)⟩
theorem opMul (slot : Fin 16) (o : Op) : Statement (.opMul slot o) :=
  ⟨(fun h => nomatch h), (fun h => nomatch h)⟩
theorem opDiv (slot : Fin 16) (o : Op) : Statement (.opDiv slot o) :=
  ⟨(fun h => nomatch h), (fun h => nomatch h)⟩
theorem opShr (slot : Fin 16) (o : Op) : Statement (.opShr slot o) :=
  ⟨(fun h => nomatch h), (fun h => nomatch h)⟩
theorem opMin (slot : Fin 16) (o : Op) : Statement (.opMin slot o) :=
  ⟨(fun h => nomatch h), (fun h => nomatch h)⟩
theorem opMax (slot : Fin 16) (o : Op) : Statement (.opMax slot o) :=
  ⟨(fun h => nomatch h), (fun h => nomatch h)⟩
theorem opAbs (slot : Fin 16) (o : Op) : Statement (.opAbs slot o) :=
  ⟨(fun h => nomatch h), (fun h => nomatch h)⟩
theorem opClt (slot : Fin 16) (o : Op) : Statement (.opClt slot o) :=
  ⟨(fun h => nomatch h), (fun h => nomatch h)⟩
theorem opSel (slot : Fin 16) (o : Op) : Statement (.opSel slot o) :=
  ⟨(fun h => nomatch h), (fun h => nomatch h)⟩
theorem opSkipz (slot : Fin 16) (o : Op) : Statement (.opSkipz slot o) :=
  ⟨(fun h => nomatch h), (fun h => nomatch h)⟩
theorem opLds (slot : Fin 16) (o : Op) : Statement (.opLds slot o) :=
  ⟨(fun h => nomatch h), (fun h => nomatch h)⟩
theorem opSts (slot : Fin 16) (o : Op) : Statement (.opSts slot o) :=
  ⟨(fun h => nomatch h), (fun h => nomatch h)⟩
theorem opEwma (slot : Fin 16) (o : Op) : Statement (.opEwma slot o) :=
  ⟨(fun h => nomatch h), (fun h => nomatch h)⟩
theorem opCusum (slot : Fin 16) (o : Op) : Statement (.opCusum slot o) :=
  ⟨(fun h => nomatch h), (fun h => nomatch h)⟩
theorem opAcc (slot : Fin 16) (o : Op) : Statement (.opAcc slot o) :=
  ⟨(fun h => nomatch h), (fun h => nomatch h)⟩
theorem opLda (slot : Fin 16) (o : Op) : Statement (.opLda slot o) :=
  ⟨(fun h => nomatch h), (fun h => nomatch h)⟩
theorem opEachcore (slot : Fin 16) (o : Op) : Statement (.opEachcore slot o) :=
  ⟨(fun h => nomatch h), (fun h => nomatch h)⟩
theorem opBrank (slot : Fin 16) (o : Op) : Statement (.opBrank slot o) :=
  ⟨(fun h => nomatch h), (fun h => nomatch h)⟩
theorem opBquant (slot : Fin 16) (o : Op) : Statement (.opBquant slot o) :=
  ⟨(fun h => nomatch h), (fun h => nomatch h)⟩
theorem opBmom (slot : Fin 16) (o : Op) : Statement (.opBmom slot o) :=
  ⟨(fun h => nomatch h), (fun h => nomatch h)⟩
theorem opNbr (slot : Fin 16) (o : Op) : Statement (.opNbr slot o) :=
  ⟨(fun h => nomatch h), (fun h => nomatch h)⟩
theorem opPost (slot : Fin 16) (o : Op) : Statement (.opPost slot o) :=
  ⟨(fun h => nomatch h), (fun h => nomatch h)⟩
theorem opPred (slot : Fin 16) (o : Op) : Statement (.opPred slot o) :=
  ⟨(fun h => nomatch h), (fun h => nomatch h)⟩
theorem opVec (slot : Fin 16) (o : Op) : Statement (.opVec slot o) :=
  ⟨(fun h => nomatch h), (fun h => nomatch h)⟩
theorem opHedge (slot : Fin 16) (o : Op) : Statement (.opHedge slot o) :=
  ⟨(fun h => nomatch h), (fun h => nomatch h)⟩
theorem opCause (slot : Fin 16) (o : Op) : Statement (.opCause slot o) :=
  ⟨(fun h => nomatch h), (fun h => nomatch h)⟩
theorem opEmit (slot : Fin 16) (o : Op) : Statement (.opEmit slot o) :=
  ⟨(fun h => nomatch h), (fun h => nomatch h)⟩
theorem verdictDelivery (slot : Fin 16) : Statement (.verdictDelivery slot) :=
  ⟨(fun h => nomatch h), (fun h => nomatch h)⟩
theorem evidWait (slot : Fin 16) : Statement (.evidWait slot) :=
  ⟨(fun h => nomatch h), (fun h => nomatch h)⟩
theorem noticeInterrupt : Statement (.noticeInterrupt) :=
  ⟨(fun h => nomatch h), (fun h => nomatch h)⟩
theorem nqHeadWrite (value : Word) : Statement (.nqHeadWrite value) :=
  ⟨(fun h => nomatch h), (fun h => nomatch h)⟩
theorem noticeResend (op : Nat) (sub : Nat) : Statement (.noticeResend op sub) :=
  ⟨(fun h => nomatch h), (fun h => nomatch h)⟩
theorem hurdleAccept (slot : Fin 16) : Statement (.hurdleAccept slot) :=
  ⟨(fun h => nomatch h), (fun h => nomatch h)⟩
theorem hurdleDecline (slot : Fin 16) : Statement (.hurdleDecline slot) :=
  ⟨(fun h => nomatch h), (fun h => nomatch h)⟩
theorem hurdleLift (slot : Fin 16) : Statement (.hurdleLift slot) :=
  ⟨(fun h => nomatch h), (fun h => nomatch h)⟩
theorem hurdleUnanswered (slot : Fin 16) : Statement (.hurdleUnanswered slot) :=
  ⟨(fun h => nomatch h), (fun h => nomatch h)⟩
theorem restoreCold (slot : Fin 16) : Statement (.restoreCold slot) :=
  ⟨(fun h => nomatch h), (fun h => nomatch h)⟩
theorem hedgeScore (corrected : Nat) : Statement (.hedgeScore corrected) :=
  ⟨(fun h => nomatch h), (fun h => nomatch h)⟩
theorem modelLoaded (m : Fin 16) : Statement (.modelLoaded m) :=
  ⟨(fun h => nomatch h), (fun h => nomatch h)⟩
theorem modelActivate (m : Fin 16) : Statement (.modelActivate m) :=
  ⟨(fun h => nomatch h), (fun h => nomatch h)⟩
theorem retainEnd (m : Fin 16) : Statement (.retainEnd m) :=
  ⟨(fun h => nomatch h), (fun h => nomatch h)⟩
theorem sramUe (m : Fin 16) : Statement (.sramUe m) :=
  ⟨(fun h => nomatch h), (fun h => nomatch h)⟩
theorem reloaded (m : Fin 16) : Statement (.reloaded m) :=
  ⟨(fun h => nomatch h), (fun h => nomatch h)⟩
theorem passStart (a : Fin 8) : Statement (.passStart a) :=
  ⟨(fun h => nomatch h), (fun h => nomatch h)⟩
theorem passEnd (a : Fin 8) (f : PassFault) : Statement (.passEnd a f) :=
  ⟨(fun h => nomatch h), (fun h => nomatch h)⟩
theorem jobAging (job : Nat) : Statement (.jobAging job) :=
  ⟨(fun h => nomatch h), (fun h => nomatch h)⟩
theorem operandUe (a : Fin 8) (corrected : Bool) : Statement (.operandUe a corrected) :=
  ⟨(fun h => nomatch h), (fun h => nomatch h)⟩
theorem selfTestDue (a : Fin 8) : Statement (.selfTestDue a) :=
  ⟨(fun h => nomatch h), (fun h => nomatch h)⟩
theorem retire (a : Fin 8) : Statement (.retire a) :=
  ⟨(fun h => nomatch h), (fun h => nomatch h)⟩
theorem retest (a : Fin 8) : Statement (.retest a) :=
  ⟨(fun h => nomatch h), (fun h => nomatch h)⟩
theorem selftest (a : Fin 8) : Statement (.selftest a) :=
  ⟨(fun h => nomatch h), (fun h => nomatch h)⟩
theorem prevTableRelease : Statement (.prevTableRelease) :=
  ⟨(fun h => nomatch h), (fun h => nomatch h)⟩
theorem tileCheckDispatch (slot : Fin 16) : Statement (.tileCheckDispatch slot) :=
  ⟨(fun h => nomatch h), (fun h => nomatch h)⟩
theorem replayAutoOpen (slot : Fin 16) : Statement (.replayAutoOpen slot) :=
  ⟨(fun h => nomatch h), (fun h => nomatch h)⟩
theorem replayPoll (slot : Fin 16) (status : List Nat) : Statement (.replayPoll slot status) :=
  ⟨(fun h => nomatch h), (fun h => nomatch h)⟩
theorem rplExpired (slot : Fin 16) : Statement (.rplExpired slot) :=
  ⟨(fun h => nomatch h), (fun h => nomatch h)⟩
theorem replayRunTimeout : Statement (.replayRunTimeout) :=
  ⟨(fun h => nomatch h), (fun h => nomatch h)⟩
theorem epochDecision (slot : Fin 16) : Statement (.epochDecision slot) :=
  ⟨(fun h => nomatch h), (fun h => nomatch h)⟩
theorem epochHold (slot : Fin 16) : Statement (.epochHold slot) :=
  ⟨(fun h => nomatch h), (fun h => nomatch h)⟩
theorem taintDelivery (slot : Fin 16) : Statement (.taintDelivery slot) :=
  ⟨(fun h => nomatch h), (fun h => nomatch h)⟩
theorem clearDelivery (slot : Fin 16) : Statement (.clearDelivery slot) :=
  ⟨(fun h => nomatch h), (fun h => nomatch h)⟩
theorem needTaint (slot : Fin 16) (recipient : Nat) (dseq : Nat) : Statement (.needTaint slot recipient dseq) :=
  ⟨(fun h => nomatch h), (fun h => nomatch h)⟩
theorem fleeceExport (slot : Fin 16) : Statement (.fleeceExport slot) :=
  ⟨(fun h => nomatch h), (fun h => nomatch h)⟩
theorem fleeceResend (slot : Fin 16) : Statement (.fleeceResend slot) :=
  ⟨(fun h => nomatch h), (fun h => nomatch h)⟩
theorem seLift (slot : Fin 16) : Statement (.seLift slot) :=
  ⟨(fun h => nomatch h), (fun h => nomatch h)⟩
theorem seCloseCase (slot : Fin 16) : Statement (.seCloseCase slot) :=
  ⟨(fun h => nomatch h), (fun h => nomatch h)⟩
theorem seRestoreTimeout (slot : Fin 16) : Statement (.seRestoreTimeout slot) :=
  ⟨(fun h => nomatch h), (fun h => nomatch h)⟩
theorem ryconFPacket (d : WireDefect) (k : Packet) : Statement (.ryconFPacket d k) :=
  ⟨(fun h => nomatch h), (fun h => nomatch h)⟩
theorem noticeReceived (n : NoticeMsg) : Statement (.noticeReceived n) :=
  ⟨(fun h => nomatch h), (fun h => nomatch h)⟩
theorem transportAck (src cls incarn : Nat) (psns : List Nat) : Statement (.transportAck src cls incarn psns) :=
  ⟨(fun h => nomatch h), (fun h => nomatch h)⟩
theorem retransmit (port : Fin 12) (psn : Nat) (cls : Nat) (dst : Nat) : Statement (.retransmit port psn cls dst) :=
  ⟨(fun h => nomatch h), (fun h => nomatch h)⟩
theorem ackSend (src cls : Nat) : Statement (.ackSend src cls) :=
  ⟨(fun h => nomatch h), (fun h => nomatch h)⟩
theorem neighborSolicitation (port : Fin 12) (target source : Nat) (rx : RxInfo) :
    Statement (.neighborSolicitation port target source rx) :=
  ⟨(fun h => nomatch h), (fun h => nomatch h)⟩
theorem echoRequest (port : Fin 12) (source ident seq : Nat) (data : List Byte) (rx : RxInfo) :
    Statement (.echoRequest port source ident seq data rx) :=
  ⟨(fun h => nomatch h), (fun h => nomatch h)⟩
theorem packetEnqueue (o : OutPacket) : Statement (.packetEnqueue o) :=
  ⟨(fun h => nomatch h), (fun h => nomatch h)⟩
theorem frameStart (port : Fin 12) : Statement (.frameStart port) :=
  ⟨(fun h => nomatch h), (fun h => nomatch h)⟩
theorem shaperRefill : Statement (.shaperRefill) :=
  ⟨(fun h => nomatch h), (fun h => nomatch h)⟩
theorem fabricPortDown (port : Fin 12) (lanes : BitVec 8) : Statement (.fabricPortDown port lanes) :=
  ⟨(fun h => nomatch h), (fun h => nomatch h)⟩
theorem faultOccurrence (part : PartSel) (r : FaultReport) : Statement (.faultOccurrence part r) :=
  ⟨(fun h => nomatch h), (fun h => nomatch h)⟩
theorem hfltAssert (n : Fin 1024) (level : Bool) (cycles : Nat) : Statement (.hfltAssert n level cycles) :=
  ⟨(fun h => nomatch h), (fun h => nomatch h)⟩
theorem sheepdog (part : PartSel) : Statement (.sheepdog part) :=
  ⟨(fun h => nomatch h), (fun h => nomatch h)⟩
theorem quiesceTimeout (dom : Option Nat) : Statement (.quiesceTimeout dom) :=
  ⟨(fun h => nomatch h), (fun h => nomatch h)⟩
theorem exitStart (part : PartSel) : Statement (.exitStart part) :=
  ⟨(fun h => nomatch h), (fun h => nomatch h)⟩
theorem safeExit (part : PartSel) : Statement (.safeExit part) :=
  ⟨(fun h => nomatch h), (fun h => nomatch h)⟩
theorem heartbeatLoss (part : PartSel) : Statement (.heartbeatLoss part) :=
  ⟨(fun h => nomatch h), (fun h => nomatch h)⟩
theorem ceRateHourEnd (part : PartSel) : Statement (.ceRateHourEnd part) :=
  ⟨(fun h => nomatch h), (fun h => nomatch h)⟩
theorem fltAck (part : PartSel) (fseq : Nat) : Statement (.fltAck part fseq) :=
  ⟨(fun h => nomatch h), (fun h => nomatch h)⟩
theorem exit (part : PartSel) : Statement (.exit part) :=
  ⟨(fun h => nomatch h), (fun h => nomatch h)⟩
theorem enterSafe (part : PartSel) : Statement (.enterSafe part) :=
  ⟨(fun h => nomatch h), (fun h => nomatch h)⟩
theorem clearFirst (part : PartSel) : Statement (.clearFirst part) :=
  ⟨(fun h => nomatch h), (fun h => nomatch h)⟩
theorem fltInject (part : PartSel) (source : Nat) (cls : Fin 4) : Statement (.fltInject part source cls) :=
  ⟨(fun h => nomatch h), (fun h => nomatch h)⟩
theorem fltPoll (slot : Fin 16) : Statement (.fltPoll slot) :=
  ⟨(fun h => nomatch h), (fun h => nomatch h)⟩
theorem ulgFltPop (fseq : Nat) : Statement (.ulgFltPop fseq) :=
  ⟨(fun h => nomatch h), (fun h => nomatch h)⟩
theorem lockstepMismatch (pair : Fin 2) (addr : Nat) : Statement (.lockstepMismatch pair addr) :=
  ⟨(fun h => nomatch h), (fun h => nomatch h)⟩
theorem pairSwitch : Statement (.pairSwitch) :=
  ⟨(fun h => nomatch h), (fun h => nomatch h)⟩
theorem pairSelfTestDone (pair : Fin 2) (pass : Bool) : Statement (.pairSelfTestDone pair pass) :=
  ⟨(fun h => nomatch h), (fun h => nomatch h)⟩
theorem rowBad (owner : SramOwner) (inst row : Nat) (hour : Option Nat) : Statement (.rowBad owner inst row hour) :=
  ⟨(fun h => nomatch h), (fun h => nomatch h)⟩
theorem repairLogAppend (readBack : Bool) : Statement (.repairLogAppend readBack) :=
  ⟨(fun h => nomatch h), (fun h => nomatch h)⟩
theorem agingCheck (part : PartSel) (m : List AgeSample) : Statement (.agingCheck part m) :=
  ⟨(fun h => nomatch h), (fun h => nomatch h)⟩
theorem revoke (eseq : Nat) : Statement (.revoke eseq) :=
  ⟨(fun h => nomatch h), (fun h => nomatch h)⟩
theorem domainRequest (value : Word) : Statement (.domainRequest value) :=
  ⟨(fun h => nomatch h), (fun h => nomatch h)⟩
theorem quiesceAccept (part : PartSel) (d : Nat) : Statement (.quiesceAccept part d) :=
  ⟨(fun h => nomatch h), (fun h => nomatch h)⟩
theorem quiesceDeny (part : PartSel) (d : Nat) : Statement (.quiesceDeny part d) :=
  ⟨(fun h => nomatch h), (fun h => nomatch h)⟩
theorem domainTransitionComplete (part : PartSel) (d : Nat) : Statement (.domainTransitionComplete part d) :=
  ⟨(fun h => nomatch h), (fun h => nomatch h)⟩
theorem pdReq (grp : Fin 16) (tgt : Fin 4) : Statement (.pdReq grp tgt) :=
  ⟨(fun h => nomatch h), (fun h => nomatch h)⟩
theorem pdReqRelease : Statement (.pdReqRelease) :=
  ⟨(fun h => nomatch h), (fun h => nomatch h)⟩
theorem pfail : Statement (.pfail) :=
  ⟨(fun h => nomatch h), (fun h => nomatch h)⟩
theorem mainReturn : Statement (.mainReturn) :=
  ⟨(fun h => nomatch h), (fun h => nomatch h)⟩
theorem arm (cellMv : Nat) (cellOk : Bool) : Statement (.arm cellMv cellOk) :=
  ⟨(fun h => nomatch h), (fun h => nomatch h)⟩
theorem tailFlushed : Statement (.tailFlushed) :=
  ⟨(fun h => nomatch h), (fun h => nomatch h)⟩
theorem flushLimit : Statement (.flushLimit) :=
  ⟨(fun h => nomatch h), (fun h => nomatch h)⟩
theorem sealed : Statement (.sealed) :=
  ⟨(fun h => nomatch h), (fun h => nomatch h)⟩
theorem cut (cellMv : Nat) : Statement (.cut cellMv) :=
  ⟨(fun h => nomatch h), (fun h => nomatch h)⟩
theorem cellTest (dropMv : Nat) : Statement (.cellTest dropMv) :=
  ⟨(fun h => nomatch h), (fun h => nomatch h)⟩
theorem slotOn (slot : Fin 16) : Statement (.slotOn slot) :=
  ⟨(fun h => nomatch h), (fun h => nomatch h)⟩
theorem slotOff (slot : Fin 16) : Statement (.slotOff slot) :=
  ⟨(fun h => nomatch h), (fun h => nomatch h)⟩
theorem slotClear (slot : Fin 16) : Statement (.slotClear slot) :=
  ⟨(fun h => nomatch h), (fun h => nomatch h)⟩
theorem slotSample (slot : Fin 16) (code : Nat) (en fltN : Bool) : Statement (.slotSample slot code en fltN) :=
  ⟨(fun h => nomatch h), (fun h => nomatch h)⟩
theorem slotFlt (slot : Fin 16) : Statement (.slotFlt slot) :=
  ⟨(fun h => nomatch h), (fun h => nomatch h)⟩
theorem rampEnd (slot : Fin 16) : Statement (.rampEnd slot) :=
  ⟨(fun h => nomatch h), (fun h => nomatch h)⟩
theorem backoffEnd (slot : Fin 16) : Statement (.backoffEnd slot) :=
  ⟨(fun h => nomatch h), (fun h => nomatch h)⟩
theorem drainTimeout (slot : Fin 16) : Statement (.drainTimeout slot) :=
  ⟨(fun h => nomatch h), (fun h => nomatch h)⟩
theorem reset (twinSel ftm supplies : Bool) : Statement (.reset twinSel ftm supplies) :=
  ⟨(fun h => nomatch h), (fun h => nomatch h)⟩
theorem uligoReset (ftm bistFail : Bool) : Statement (.uligoReset ftm bistFail) :=
  ⟨(fun h => nomatch h), (fun h => nomatch h)⟩
theorem sfdpDone (d : Sfdp) : Statement (.sfdpDone d) :=
  ⟨(fun h => nomatch h), (fun h => nomatch h)⟩
theorem validateDone (k0 k1 : SigCheck) : Statement (.validateDone k0 k1) :=
  ⟨(fun h => nomatch h), (fun h => nomatch h)⟩
theorem imageCommit : Statement (.imageCommit) :=
  ⟨(fun h => nomatch h), (fun h => nomatch h)⟩
theorem cfgCommit : Statement (.cfgCommit) :=
  ⟨(fun h => nomatch h), (fun h => nomatch h)⟩
theorem commitApply (part : PartSel) : Statement (.commitApply part) :=
  ⟨(fun h => nomatch h), (fun h => nomatch h)⟩
theorem adopt (write : Bool) (len : Nat) (k : SigCheck) : Statement (.adopt write len k) :=
  ⟨(fun h => nomatch h), (fun h => nomatch h)⟩
theorem flashErase (slot : Fin 2) : Statement (.flashErase slot) :=
  ⟨(fun h => nomatch h), (fun h => nomatch h)⟩
theorem flashProgram (slot : Fin 2) (len : Nat) : Statement (.flashProgram slot len) :=
  ⟨(fun h => nomatch h), (fun h => nomatch h)⟩
theorem flashDone (ok : Bool) : Statement (.flashDone ok) :=
  ⟨(fun h => nomatch h), (fun h => nomatch h)⟩
theorem upush (slot : Fin 16) : Statement (.upush slot) :=
  ⟨(fun h => nomatch h), (fun h => nomatch h)⟩
theorem push (slot : Fin 16) (cause : Nat) : Statement (.push slot cause) :=
  ⟨(fun h => nomatch h), (fun h => nomatch h)⟩
theorem smbStatus : Statement (.smbStatus) :=
  ⟨(fun h => nomatch h), (fun h => nomatch h)⟩
theorem smbImage : Statement (.smbImage) :=
  ⟨(fun h => nomatch h), (fun h => nomatch h)⟩
theorem smbFirstError : Statement (.smbFirstError) :=
  ⟨(fun h => nomatch h), (fun h => nomatch h)⟩
theorem smbEnterSafe (key : Byte) : Statement (.smbEnterSafe key) :=
  ⟨(fun h => nomatch h), (fun h => nomatch h)⟩
theorem smbReset (key : Byte) : Statement (.smbReset key) :=
  ⟨(fun h => nomatch h), (fun h => nomatch h)⟩
theorem functionLevelReset : Statement (.functionLevelReset) :=
  ⟨(fun h => nomatch h), (fun h => nomatch h)⟩
theorem proxyRead (slot : Fin 16) (off : Nat) (wide : Bool) : Statement (.proxyRead slot off wide) :=
  ⟨(fun h => nomatch h), (fun h => nomatch h)⟩
theorem proxyWrite (slot : Fin 16) (off : Nat) (value : Word) (wide : Bool) : Statement (.proxyWrite slot off value wide) :=
  ⟨(fun h => nomatch h), (fun h => nomatch h)⟩
theorem proxyCommit (slot : Fin 16) : Statement (.proxyCommit slot) :=
  ⟨(fun h => nomatch h), (fun h => nomatch h)⟩
theorem proxyTmo (slot : Fin 16) : Statement (.proxyTmo slot) :=
  ⟨(fun h => nomatch h), (fun h => nomatch h)⟩
theorem apertureWrite (off : Nat) (bytes : List Byte) : Statement (.apertureWrite off bytes) :=
  ⟨(fun h => nomatch h), (fun h => nomatch h)⟩
theorem rplDataRead : Statement (.rplDataRead) :=
  ⟨(fun h => nomatch h), (fun h => nomatch h)⟩
theorem registerWrite (part : PartSel) (path : WritePath) (off : Nat) (value : Word) :
    Statement (.registerWrite part path off value) :=
  ⟨(fun h => nomatch h), (fun h => nomatch h)⟩
theorem hbmTrainingLoss (stack : Fin 6) : Statement (.hbmTrainingLoss stack) :=
  ⟨(fun h => nomatch h), (fun h => nomatch h)⟩
theorem thermalClockStep (die : Fin 2) (hottest : Int) : Statement (.thermalClockStep die hottest) :=
  ⟨(fun h => nomatch h), (fun h => nomatch h)⟩
theorem hbmThrottle (stack : Fin 6) (celsius : Int) : Statement (.hbmThrottle stack celsius) :=
  ⟨(fun h => nomatch h), (fun h => nomatch h)⟩
theorem ftRetestExpired (slot : Fin 16) : Statement (.ftRetestExpired slot) :=
  ⟨(fun h => nomatch h), (fun h => nomatch h)⟩
theorem hfltRelease (n : Fin 1024) (level : Bool) (cycles : Nat) : Statement (.hfltRelease n level cycles) :=
  ⟨(fun h => nomatch h), (fun h => nomatch h)⟩
theorem disarm (cellMv : Nat) (cellOk : Bool) : Statement (.disarm cellMv cellOk) :=
  ⟨(fun h => nomatch h), (fun h => nomatch h)⟩
theorem pcieUe : Statement (.pcieUe) :=
  ⟨(fun h => nomatch h), (fun h => nomatch h)⟩
theorem fabricPortUp (port : Fin 12) (lanes : BitVec 8) : Statement (.fabricPortUp port lanes) :=
  ⟨(fun h => nomatch h), (fun h => nomatch h)⟩
theorem eeecLocked : Statement (.eeecLocked) :=
  ⟨(fun h => nomatch h), (fun h => nomatch h)⟩
theorem hostPortBadAccess (off : Nat) (write : Bool) (mid : Fin 64) : Statement (.hostPortBadAccess off write mid) :=
  ⟨(fun h => nomatch h), (fun h => nomatch h)⟩
theorem bar0UnmappedAccess (off : Nat) (write : Bool) : Statement (.bar0UnmappedAccess off write) :=
  ⟨(fun h => nomatch h), (fun h => nomatch h)⟩
theorem discoverStart (failed : List (Fin 32 × Fin 33)) : Statement (.discoverStart failed) :=
  ⟨(fun h => nomatch h), (fun h => nomatch h)⟩
theorem suppliesUp : Statement (.suppliesUp) :=
  ⟨(fun h => nomatch h), (fun h => nomatch h)⟩

end Sys2Proof.Laws.Part
end

