-- ==== Sys2Proof/Tests/Slice0.lean ====
section
/-! SUPPORT. Tests: what WellFormed refuses, the worked example of R332, and for every statement that has hypotheses the
states and operands that meet them: for each clause its hypotheses, at values that the spec's limits bound. -/

namespace Sys2Proof.Tests

open Sys2Proof Sys2Proof.Machine

-- The witnesses are checked one after another: each waits for the kernel, and a thread for each that waits takes more
-- memory than the check allows.
set_option Elab.async false

/-! ### Well-formed commands -/

theorem test_wf_fits :
    Instr.wf (.esmc 3 255 {}) = true ∧
    Instr.wf (.esmc 3 256 {}) = false := by decide +kernel

theorem test_wf_ptp :
    Instr.wf (.ptpSync 0 { correction := -(2 ^ 63) }) = true ∧
    Instr.wf (.ptpSync 0 { correction := 2 ^ 63 }) = false := by decide +kernel

theorem test_wf_announce :
    Instr.wf (.announce 0 {} { stepsRemoved := 65535 }) = true ∧
    Instr.wf (.announce 0 {} { stepsRemoved := 65536 }) = false := by decide +kernel

theorem test_wf_time_word :
    Instr.wf (.twFull 0 { depart := 2 ^ 64 }) = true ∧
    Instr.wf (.twSync 0 { depart := 2 ^ 64 }) = false := by decide +kernel

theorem test_wf_flit :
    Instr.wf (.dataFlit (.agg 0) { plen := 1, payload := [0] }) = true ∧
    Instr.wf (.dataFlit (.agg 0) { plen := 229, payload := List.replicate 229 0 }) = false := by decide +kernel

theorem test_wf_flit_plen :
    Instr.wf (.idleFlit (.agg 0) {}) = true ∧
    Instr.wf (.idleFlit (.agg 0) { plen := 1 }) = false := by decide +kernel

theorem test_wf_cmd :
    Instr.wf (.write 0 { data := List.replicate 26 0 }) = true ∧
    Instr.wf (.write 0 { data := List.replicate 27 0 }) = false := by decide +kernel

theorem test_wf_resp :
    Instr.wf (.response 0 { status := 255 }) = true ∧
    Instr.wf (.response 0 { status := 256 }) = false := by decide +kernel

theorem test_wf_hello_ack :
    Instr.wf (.helloAck 0 { sessTag := 65535 }) = true ∧
    Instr.wf (.helloAck 0 { sessTag := 65536 }) = false := by decide +kernel

theorem test_wf_mirror :
    Instr.wf (.mirrorData { src := 16383, ring := 0, ringSeq := 0, offset := 0, total := 0, bytes := [] }) = true ∧
    Instr.wf (.mirrorData { src := 16384, ring := 0, ringSeq := 0, offset := 0, total := 0, bytes := [] }) = false := by decide +kernel

theorem test_wf_port :
    Instr.wf (.mirrorHello 0 0 11 0 false) = true ∧
    Instr.wf (.mirrorHello 0 0 12 0 false) = false := by decide +kernel

theorem test_wf_jquery :
    Instr.wf (.jquery { src := 0, qid := 0, mode := 255, subject := 0, firstOp := 0, count := 0 }) = true ∧
    Instr.wf (.jquery { src := 0, qid := 0, mode := 256, subject := 0, firstOp := 0, count := 0 }) = false := by decide +kernel

theorem test_wf_janswer :
    Instr.wf (.janswer { qid := 0, result := 0, heldFrom := 0, coveredTo := 0, codes := [3] }) = true ∧
    Instr.wf (.janswer { qid := 0, result := 0, heldFrom := 0, coveredTo := 0, codes := [4] }) = false := by decide +kernel

theorem test_wf_die :
    Instr.wf (.fetch { src := 0, qid := 0, fleetDie := 2 ^ 17 - 1, cls := 0, firstIdent := 0, lastIdent := 0 }) = true ∧
    Instr.wf (.fetch { src := 0, qid := 0, fleetDie := 2 ^ 17, cls := 0, firstIdent := 0, lastIdent := 0 }) = false := by decide +kernel

theorem test_wf_block :
    Instr.wf (.result { blocks := [{ n := 2 ^ 32 - 1 }] }) = true ∧
    Instr.wf (.result { blocks := [{ buckets := List.replicate 129 0 }] }) = false := by decide +kernel

theorem test_wf_frame :
    Instr.wf (.chunk { blocks := List.replicate 14 {} }) = true ∧
    Instr.wf (.chunk { blocks := List.replicate 15 {} }) = false := by decide +kernel

theorem test_wf_note :
    Instr.wf (.skip { head := { attempt := 255 } }) = true ∧
    Instr.wf (.skip { head := { attempt := 256 } }) = false := by decide +kernel

theorem test_wf_op :
    Instr.wf (.opAdd 0 { imm := -(2 ^ 31) }) = true ∧
    Instr.wf (.opAdd 0 { imm := 2 ^ 31 }) = false := by decide +kernel

theorem test_wf_packet :
    Instr.wf (.ryconFPacket .none { port := 0, rx := { bytes := 9216 } }) = true ∧
    Instr.wf (.ryconFPacket .none { port := 0, rx := { bytes := 9217 } }) = false := by decide +kernel

theorem test_wf_notice :
    Instr.wf (.noticeReceived { ntype := 255, src := 0, origAgg := 0, origOp := 0, fleetDie := 0 }) = true ∧
    Instr.wf (.noticeReceived { ntype := 256, src := 0, origAgg := 0, origOp := 0, fleetDie := 0 }) = false := by decide +kernel

theorem test_wf_out_packet :
    Instr.wf (.packetEnqueue { payload := List.replicate 8192 0 }) = true ∧
    Instr.wf (.packetEnqueue { payload := List.replicate 8200 0 }) = false := by decide +kernel

theorem test_wf_occurrence :
    Instr.wf (.faultOccurrence .agg (.hardware { source := 65535 })) = true ∧
    Instr.wf (.faultOccurrence .agg (.hardware { source := 65536 })) = false := by decide +kernel

theorem test_wf_lanes :
    Instr.wf (.fabricPortUp 0 0x0F) = true ∧
    Instr.wf (.fabricPortUp 0 0x3C) = false := by decide +kernel

/-! ### The worked example of R332 -/

/-- The element of the worked example: the products of the four blocks, each block's other products zero. -/
def elem332 : ElemIn := { groups := [2 ^ 25, 3, -(2 ^ 25)].map (fun n => (Val.fin n (-1), false)) ++ [(Val.fin 1 (-2), false)], cin := none }

/-- The element's bits under an order, in bfloat16 from a binary32 accumulator. -/
def bits332 (order lanes : Nat) : Nat :=
  let p : Profile := { order := order, lanesLog2 := lanes, accFmt := 0xB }
  refBits p 0xA (element p 0xA elem332).1

/-- The spec's table: one element under four orders. -/
theorem test_element_orders :
    bits332 0 0 = 0x4010 ∧ bits332 1 0 = 0x4000 ∧ bits332 2 1 = 0x3FE0 ∧ bits332 3 0 = 0x3FE0 := by decide +kernel

/-! ### States and operands that meet the hypotheses -/

def nextOf (o : Host.Outcome State Fault Refusal) (s : State) : State :=
  match o with
  | .next t => t
  | _ => s

/-- Registers with fields written. -/
def fill (r : Store) (l : List (Field × Nat)) : Store := l.foldl (fun r e => r.set e.1 e.2) r

/-- The reset state with registers and live settings of the aggregator written, and the aggregator changed. -/
def aW (regs : List (Field × Nat) := []) (live : List (Field × Nat) := []) (f : Agg → Agg := id) : State :=
  State.reset.onAgg fun a => f { a with p := { a.p with regs := fill a.p.regs regs, live := fill a.p.live live } }

/-- The same for the Uligo. -/
def uW (regs : List (Field × Nat) := []) (live : List (Field × Nat) := []) (f : Ulg → Ulg := id) : State :=
  State.reset.onUlg fun u => f { u with p := { u.p with regs := fill u.p.regs regs, live := fill u.p.live live } }

/-- A part whose servo is in a state, at an instant in ns. -/
def tm (p : Part) (st ns : Nat) : Part := { p with servo := { p.servo with state := st }, now := ns * 2 ^ 56 }

/-- The aggregator with its time set. -/
def aT (st ns : Nat) (a : Agg) : Agg := { a with p := tm a.p st ns }

/-- The Uligo with its time set. -/
def uT (st ns : Nat) (u : Ulg) : Ulg := { u with p := tm u.p st ns }

/-- Operations whose BEGIN has been mirrored, and ring 4 with one mirrored record. -/
def mirJ (ops : List Nat) (a : Agg) : Agg := { a with shed := { a.shed with
  journal := ops.map fun n => { op := n, origOp := n, seq := n }, begun := ops
  ring := [(4, { mode := 1, writeSeq := 1, writeOff := 160, recs := [{ seq := 0, len := 120, die := some 5, mirror := true, acked := true, mirrored := true }] }),
    (65534, { mode := 1, recs := ops.map fun n => { seq := n, len := 72, mirror := true, acked := true, mirrored := true } })] } }


def w01a : State := aW [] [(PTP_CFG_PORT_EN, 4095)] fun a => { aT 2 5000 a with
  time := { a.time with ptp := [(1, { master := some {}, twoStep := some (7, 100, 0), req := some (7, 300), sync := some (10, 50) })] } }

def w01b : State := (aW [(SYNCE_STATUS_SRC_PORT, 3), (PTP_PORT_STATE_ST 2, 3), (PTP_PORT_STATE_ST 5, 4)] [] (aT 4 5000)).onUlg (uT 4 5000)
def w01c : State := aW [(PTP_PORT_STATE_ST 2, 3)] [] (aT 2 5000)

def w01d : State := aW [(DP_STATUS_STATE 3, 3)] [] fun a => { aT 2 5000 a with time := { a.time with tw := [(3, { seq := 255, count := 1023 })] } }
def w01e : State := uW [] [] fun u => { uT 2 50000000 u with time := { u.time with src := some 0 } }
def w01f : State := uW [] [] fun u => { uT 2 5000 u with time := { u.time with src := some 0, port := [(1, { offAt := some (5000 * 2 ^ 56), offset := 3 })] } }

def w01g : State := (aW [] [] fun a => { aT 2 5000 a with p := { tm a.p 2 5000 with tick := { wait := some (50, 20, 4000) } } }).onUlg fun u =>
  { uT 2 5000 u with p := { tm u.p 2 5000 with tick := { wait := some (50, 20, 4000) } }, ep := { wait := some (200, 4000) } }

def ev0 : EvBeat := { cluster := 3, core := 5, data := 0x0303030303030303, par := 0 }
def ev1 : EvBeat := { cluster := 3, core := 5, data := 0x0303030303030303, par := 1 }
def w02a : State := uW [] [(ULG_CNT_CFG_CLUSTERS, 8), (ULG_CNT_CFG_UNCORE_BUSES, 4)] fun u => { u with
  cnt := { u.cnt with counters := [(8 * (64 * 3 + 5) + 2, 2 ^ 48 - 1)] } }


def w02b : State := uW [] [(ULG_CNT_CFG_CLUSTERS, 8), (ULG_CNT_CFG_QUEUES, 64)] fun u => { u with
  cnt := { u.cnt with request := [(197, some (2, 77))], depth := [(18, 4)] } }

def w02c : State := uW [] [(ULG_CNT_CFG_HANG_TICKS, 3), (ULG_CNT_CFG_CLUSTERS, 2)] fun u => { u with
  cnt := { u.cnt with rings := [(5, { hangTicks := 3, entries := [(1, 2, 3)] }), (6, { frozen := true, refused := 9 })]
                      fifo := [(7, [⟨1, 7, 5, 44, 99⟩, ⟨2, 7, 5, 45, 98⟩])], due := some { tick := 12, clusters := 2 } } }
def w02d : State := uW [] [(ULG_CNT_CFG_CLUSTERS, 2)] fun u => { u with
  cnt := { u.cnt with pack := some { l := { tick := 12, clusters := 2 } } } }
def tb0 : TraceBeat := { core := 2, kind := 1, ncond := 0, taken := 0, pc := 3, target := 3, priv := 0, par := true }
def tb1 : TraceBeat := { core := 2, kind := 0, ncond := 2, taken := 3, pc := 3, target := 0, priv := 0, par := true }
def w03a : State := uW [(ULG_TRC_CFG_EN, 1), (ULG_TRC_CORE_EN_EN, 2 ^ 64 - 1), (ULG_TRC_CFG_SYNC_INTERVAL, 0), (ULG_TRC_CFG_MODE, 0),
   (ULG_TRC_RING_PTR_OFFSET, 131071)] [(ULG_TRC_AUTH_PRIV_OK, 1)] fun u => { uT 2 1000000 u with
  trc := { u.trc with core := [(2, { syncDue := 0 }), (9, { overflowing := true, dropped := 17 })] } }
def w03b : State := uW [(ULG_TICK_NOW_TICK, 50)] [(ULG_TRC_AUTH_PRIV_OK, 1), (ULG_TRC_AUTH_EXPIRY, 20)] fun u => u

def w03c : State := uW [] [(ULG_FT_CFG_EN, 1), (ULG_CNT_CFG_CLUSTERS, 8), (ULG_FT_CFG_DEFER_LIMIT, 9), (ULG_FT_KTAB_EN 2, 1), (ULG_FT_KTAB_ID 2, 7), (ULG_FT_KTAB_MAX_US 2, 40)] fun u => { uT 2 1000000 u with
  ft := { u.ft with core := [(197, { state := 1 })] } }
def fb0 (op : Nat) : FtBeat := { cluster := 3, core := 5, data := 60000, par := ftParity op { cluster := 3, core := 5, data := 60000, par := false } }

def i03 : FtInst := { id := 4, seq := 3, kernel := 1, maxUs := 100, coreA := 197 }
def i03b : FtInst := { i03 with coreA := 90, coreB := some 197, sigA := some (60000 * 2 ^ 64 + 7) }
def w03d : State := uW [] [(ULG_CNT_CFG_CLUSTERS, 8)] fun u => { uT 2 1000000 u with
  ft := { u.ft with core := [(197, { run := some 4, sigLo := some 7 })], inst := [i03] } }
def w03e : State := uW [] [(ULG_CNT_CFG_CLUSTERS, 8)] fun u => { uT 2 3000000000 u with
  ft := { u.ft with core := [(197, { run := some 4, sigLo := some 7 })], inst := [i03b] } }
def w03f : State := uW [] [(ULG_CNT_CFG_CLUSTERS, 8)] fun u => { uT 2 3000000000 u with
  ft := { u.ft with inst := [{ i03 with sigA := some 5 }] } }


def d03 : Nat := 31 * 2 ^ 18 + 9 * 2 ^ 28 + 9 * 2 ^ 32 + 11 * 2 ^ 40
def par03 : Nat := (((List.range 32).filter fun k => parityOf 8 (d03 / 2 ^ (8 * k) % 256)).map (2 ^ ·)).sum
def tap0 : TapBeat := { tap := 4, data := BitVec.ofNat 256 d03, par := BitVec.ofNat 32 par03 }
def tap1 : TapBeat := { tap := 4, data := 0, par := 0 }
def o03 : OpenTile := { desc := d03, reserved := tileRecordLen d03, beats := [] }
def o03b : OpenTile := { o03 with beats := List.replicate (tileBeats d03) (6, 0) }
def w03g : State := uW [] [(ULG_TILE_CFG_EN, 1), (ULG_TILE_CFG_TAPS, 8), (ULG_TILE_CFG_LOG2N, 0)] fun u => { uT 2 3000000000 u with
  tile := { u.tile with count := [(4, 9)] } }
def w03h : State := uW [(ULG_TILE_FORCE_TAP, 5)] [(ULG_TILE_CFG_EN, 1), (ULG_TILE_CFG_TAPS, 8)] fun u => { uT 2 3000000000 u with
  tile := { u.tile with tile := [(4, some o03)], reserved := tileRecordLen d03 } }
def w03i : State := uW [] [(ULG_TILE_CFG_EN, 1), (ULG_TILE_CFG_TAPS, 8)] fun u => { uT 2 3000000000 u with
  tile := { u.tile with tile := [(4, some o03b)], reserved := tileRecordLen d03 } }
def w04a : State := aW [(CFG_STATUS_STATE, 4), (DP_STATUS_STATE 3, 1)] [(DP_CFG_EN 3, 1)] (aT 2 5000)
def w04b (st sess : Nat) : State := aW [(CFG_STATUS_STATE, 4), (DP_STATUS_STATE 3, st), (DP_STATUS_SESSION 3, sess)] [(DP_CFG_EN 3, 1)] fun a => { aT 2 5000 a with
  die := [(3, { l := { violRun := 16, nakOwed := true, unacked := [{ fseq := 9 }, { fseq := 10 }], txSeq := 11, retryAt := 77 } })] }
def w04u (st sess : Nat) : State := uW [(ULG_LINK_STATUS_STATE 1, st), (ULG_LINK_STATUS_SESSION 1, sess)] [] fun u => { uT 2 5000 u with
  link := { u.link with port := [(1, { l := { violRun := 16, nakOwed := true, unacked := [{ fseq := 9 }, { fseq := 10 }], txSeq := 11 }
                                       respQ := [{ opcode := 6, seq := 3 }] })] } }

def fl04 : Flit := { fseq := 0, ackSeq := 9 }
def dl04 : List TxFlit := [{ fseq := 9 }]
def lf04 : List TxFlit := [{ fseq := 10 }]
def w04c : State := aW [(DP_STATUS_STATE 3, 3), (DP_STATUS_SESSION 3, 2), (DP_NONCE_NONCE 3, 0x1234567)] [(DP_CFG_EN 3, 1)] fun a => { aT 2 5000 a with
  die := [(3, { l := { unacked := [{ fseq := 10 }], txSeq := 255 }, cmds := [{ seq := 1, sent := true }, { seq := 2, opcode := 2, addr := 8, data := [5], count := 1 }] })] }

def w04d : State := aW [(DP_STATUS_STATE 3, 2)] [(DP_CFG_EN 3, 1)] fun a => { aT 2 5000 a with die := [(3, { l := { prevTag := 7 } })] }
def w04e : State := uW [(ULG_LINK_STATUS_STATE 1, 2), (ULG_LINK_STATUS_SESSION 1, 3), (ULG_LINK_NONCE_NONCE 1, 0x99990007)] [] fun u => { uT 2 5000 u with
  uid := 77, link := { u.link with port := [(1, { next := 9, cache := [{ opcode := 6, seq := 8 }] })] } }
def w04f : State := aW [(DP_STATUS_STATE 3, 2), (DP_STATUS_SESSION 3, 1), (DP_NONCE_NONCE 3, 0x99990007)] [(DP_CFG_EN 3, 1)] fun a => { aT 2 5000 a with
  die := [(3, { l := { prevTag := 7, rxNext := 9, txSeq := 5 } })] }

def c04 : Cmd := { seq := 9, count := 1, addr := 0x130, arg := 1, data := [0x55] }
def w04g : State := uW [(ULG_LINK_STATUS_STATE 1, 3), (ULG_LINK_STATUS_SESSION 1, 2), (ULG_LINK_NONCE_NONCE 1, 0x99990007)] [] fun u => { uT 2 5000 u with
  uid := 77, link := { u.link with port := [(1, { next := 9, cache := [{ opcode := 6, seq := 8 }] })] } }
def w04h : State := { w04g with ulg := { w04g.ulg with p := { w04g.ulg.p with staged := [(ULG_TICK_CFG_TICK_US.key, 1)] } } }
def o04 : Cmd := { seq := 9, count := 7, addr := 0, arg := 0, data := [5, 7 + 2 * 2 ^ 16 + 500 * 2 ^ 32, tileImageLen d03 + 32 * 2 ^ 32, d03] }
def w04i (st : Nat) : State := uW [(ULG_LINK_STATUS_STATE 1, 3), (ULG_LINK_STATUS_SESSION 1, 2), (ULG_RPL_STATUS_STATE, st)] [] fun u => { uT 2 5000 u with
  rpl := { u.rpl with imgLen := 24, words := [5, 6], runs := 1 }, tile := { u.tile with reserved := 100 }
  link := { u.link with port := [(1, { next := 9 })] } }
def w04j : State := uW [(ULG_LINK_STATUS_STATE 1, 3), (ULG_LINK_STATUS_SESSION 1, 2), (ULG_RPL_STATUS_STATE, 1)] [] fun u => { uT 2 5000 u with
  rpl := { u.rpl with imgLen := 16, words := [5, 6] }, link := { u.link with port := [(1, { next := 9 })] } }

def w04k : State := aW [(DP_STATUS_STATE 3, 3), (DP_STATUS_SESSION 3, 2), (CFG_STATUS_STATE, 4)] [(DP_CFG_EN 3, 1)] fun a => { aT 2 5000 a with
  die := [(3, { cmds := [{ seq := 4 }, { seq := 5 }], upSince := some 40 })], role := [(2, 1)], img := { dies := [{}, {}, { fleetDie := some 5, role := 1, port := 3, uid := 88 }] } }
def r05 : IngRec := { bytes := List.replicate 120 0, len := 120, slot := 2, die := 5, cls := 2, ring := 4, port := 3 }
def e05 : StEntry := { uid := 88, cls := 3, static := true, hit := true, port := 3, ring := 4 }
def img05 : Image := { dies := [{}, {}, { fleetDie := some 5, role := 1, port := 3, uid := 88 }] }
def w05a (last : Nat) : State := aW [(CFG_STATUS_STATE, 4), (SHED_MIR_STATUS_STATE, 2)]
  [(SHED_RING_CFG_EN 4, 1), (SHED_RING_CFG_BASE_4K 4, 1024), (SHED_RING_CFG_SIZE_4K 4, 16)] fun a => { aT 2 5000 a with
  img := img05, ing := { a.ing with ready := [(rxKey 3 4, [r05])], last := [(8 * 2 + 4, some last)] }, shed := { a.shed with ring := [(4, { mode := 1 })] } }
def w05z : State := aW [(CFG_STATUS_STATE, 4), (SHED_MIR_STATUS_STATE, 2)]
  [(SHED_RING_CFG_EN 4, 1), (SHED_RING_CFG_BASE_4K 4, 1024), (SHED_RING_CFG_SIZE_4K 4, 16)] fun a => { aT 2 5000 a with
  img := img05, ing := { a.ing with ready := [(rxKey 3 4, [r05])] }, shed := { a.shed with ring := [(4, { mode := 1 })] } }
def w05b : State := aW [(CFG_STATUS_STATE, 4), (ING_ST_DATA0_UID, 88), (ING_ST_DATA1_CLASS, 3)] [(ING_CFG_SWEEP_MS, 100)] fun a => { aT 2 5000 a with
  ing := { a.ing with table := [(0, some { e05 with uid := 44, static := false, hit := false, aged := true }), (21, some e05)] }, shed := { a.shed with ring := [(4, { mode := 3, writeSeq := 5, cursors := [(0, some 5)] })] } }
def w05c : State := aW [(CFG_STATUS_STATE, 4), (ING_ST_DATA0_UID, 89), (ING_ST_DATA1_CLASS, 3), (ING_ST_DATA1_PORT, 3), (ING_ST_DATA1_RING, 4)]
  [(SHED_RING_CFG_EN 4, 1), (SHED_RING_CFG_BASE_4K 4, 1024), (SHED_RING_CFG_SIZE_4K 4, 16)] (aT 2 5000)
def q06 : RingRec := { seq := 0, cls := 1, die := some 5, ident := 9, off := 0, len := 120, mirror := true }
def w06a : State := aW [(CFG_STATUS_STATE, 4), (SHED_ECC_FIRST_VALID, 1), (SHED_MIR_STATUS_STATE, 2), (CFG_APERTURE_BASE_4G, 0)]
  [(SHED_CFG_UE_LIMIT, 5), (SHED_CFG_SCRUB_H, 24), (SHED_RING_CFG_EN 4, 1), (SHED_RING_CFG_BASE_4K 4, 1024), (SHED_RING_CFG_SIZE_4K 4, 16), (SHED_MIR_CFG_PARTNER, 3)] fun a => { aT 2 5000 a with
  shed := { a.shed with ring := [(4, { mode := 1, writeSeq := 1, writeOff := 160, recs := [{ q06 with acked := true, mirrored := true }] })], repair := [] } }
def w06b : State := aW [] [(SHED_RING_CFG_EN 4, 1), (SHED_RING_CFG_BASE_4K 4, 1024), (SHED_RING_CFG_SIZE_4K 4, 16)] fun a => { aT 2 5000 a with
  shed := { a.shed with ring := [(4, { mode := 1, writeSeq := 1, writeOff := 56, recs := [{ q06 with len := 16 }] })], repair := [(4, 0)] } }
def copy06 : List Byte := zeros 40 ++ withTrailer (zeros 8)
def w06c : State := aW [(CFG_STATUS_STATE, 4)] [(SHED_REGION_KIND 3, 8), (SHED_REGION_BASE_256M 3, 1), (SHED_REGION_SIZE_256M 3, 2)] (aT 2 5000)

def w06d (st : Nat) : State := aW [(SHED_MIR_STATUS_STATE, st)] [(SHED_MIR_CFG_EN, 1), (SHED_MIR_CFG_OWN_TAG, 7), (SHED_MIR_CFG_PARTNER_TAG, 8), (SHED_MIR_CFG_PARTNER, 3), (SHED_MIR_CFG_LIMIT_GBPS, 1)] fun a => { aT 2 5000 a with
  shed := { a.shed with winBytes := 200000, ring := [(4, { mode := 1, writeSeq := 1, writeOff := 160, recs := [q06] })], tail := [{ ring := 4, seq := 0, len := 160 }] } }

def w06e : State := aW [] [(SHED_MIR_CFG_EN, 1), (SHED_MIR_CFG_OWN_TAG, 7), (SHED_MIR_SRC_SRC0, 12), (SHED_MIR_SRC_SRC0_EN, 1)] fun a => { aT 2 5000 a with
  shed := { a.shed with src := [(12, { accepted := true, next := [(65534, some (2 ^ 32 - 1))] })]
                        copies := [{ src := 12, die := some 5, cls := 1, ident := 9, len := 8 }, { src := 12, die := some 5, cls := 1, ident := 19, len := 8 }] } }
def f06 : FetchAsk := { qid := 5, use := .repair 4 0, die := 5, cls := 1, sentNs := 9 }
def w06f : State := aW [] [] fun a => { aT 2 5000 a with shed := { a.shed with fetches := [f06], repair := [(4, 0)] } }

def w06g : State := aW [(CFG_STATUS_STATE, 4), (CFG_STATUS_AGG_ID, 2), (SHED_MIR_STATUS_STATE, 2)] [(SHED_MIR_CFG_PARTNER, 3)] fun a => { aT 2 (100000 * 10 ^ 9) a with
  shed := { a.shed with query := some { qid := 5 } } }
def w06h : State := aW [(CFG_STATUS_STATE, 4), (CFG_STATUS_AGG_ID, 2), (SHED_MIR_STATUS_STATE, 2)] [(SHED_MIR_CFG_PARTNER, 3)] fun a => { aT 2 (100000 * 10 ^ 9) a with
  shed := { a.shed with covered := some 77 } }

def g06 : SegRec := { ring := 4, firstSeq := 0, seqs := [0], rawLen := 160 }
def w06i (cl : Bool) : State := aW [(CFG_STATUS_STATE, 4), (SHED_ARCH_STATUS_SEG_SEQ, 2 ^ 32 - 1)] [(SHED_REGION_KIND 3, 2), (SHED_REGION_BASE_256M 3, 1), (SHED_REGION_SIZE_256M 3, 2), (SHED_ARCH_CFG_EN, 1), (SHED_RING_CFG_EN 4, 1), (SHED_RING_CFG_BASE_4K 4, 1024), (SHED_RING_CFG_SIZE_4K 4, 16)] fun a => { aT 2 5000 a with
  shed := { a.shed with segs := [{ g06 with closed := cl }], ring := [(4, { mode := 1, writeSeq := 1, writeOff := 160, recs := [q06] })] } }
def w06j : State := aW [(CFG_STATUS_STATE, 4), (SHED_DZ_STATUS_BUSY, 1)] [] (aT 2 5000)
def w07a (id : Nat) (rs : List TRound) : State := aW [(CFG_STATUS_STATE, 4), (CFG_STATUS_AGG_ID, id), (FAB_PORT_STATUS_UP 2, 1)] [(TALLY_CFG_EN, 1), (TALLY_RING_CFG_ATTEMPTS, 2)] fun a => { aT 2 5000000 a with
  tly := { a.tly with rounds := rs, set := { a.tly.set with aggs := 4 } } }
def l07 (s : State) (l : Launch) : State := s.onAgg fun a => { a with fab := { a.fab with launches := [l] } }
def r07r : TRound := { round := 5, closeNs := 5000000, count := some (3, 4, 0), set := { keys := 4 } }
def f07r : RedFrame := { round := 5, members := 3, dies := 4, group := 0, compact := true, nkeys := (groupKeys true 4 0).length, blocks := (groupKeys true 4 0).map fun k => { key := k, oct := r07r.set.oct k } }

def r07 : TRound := { round := 5, closeNs := 4000000, ring := true, set := { aggs := 4, keys := 8, row := 4 } }
def r07b : TRound := { r07 with started := true }
def r07c : TRound := { r07 with started := true, stopped := true, attempt := 1 }
def n07 : RingNote := { head := { src := 1, round := 5, attempt := 0 }, member := 2, sendNs := 77, fromRound := 9 }
def d07 : Nat × Nat × Nat × Nat := ((r07b.shape 0).due 1).headD (0,0,0,0)
def f07 : RedFrame := { round := 5, group := 1, src := d07.2.1, actFor := d07.2.2.1, setDigest := (r07b.shape 0).digest, nkeys := (sliceKeys 8 4 d07.2.2.2).length, blocks := (sliceKeys 8 4 d07.2.2.2).map fun k => { key := k, oct := r07b.set.oct k } }
def op08 : Op := { dst := 1, src1 := 2, src2 := 3, mode := 0, imm := 4 }
/-- The run of die slot 2 that executes the one operation `o` of opcode `opc`, with registers `v`. -/
def run08 (opc : Nat) (o : Op) (v : Tab Int) (f : Run → Run := id) : Run :=
  f { ops := [opc + (o.dst : Nat) * 2 ^ 8 + (o.src1 : Nat) * 2 ^ 13 + (o.src2 : Nat) * 2 ^ 18 + (o.mode : Nat) * 2 ^ 23 + twos 32 o.imm * 2 ^ 32, 0], tick := 50, coreEntry := 2, roundEntry := 2, v := v }
def img08 : Image := { dies := [{}, {}, { fleetDie := some 5, role := 1, port := 3, uid := 88 }] }
def w08 (r : Run) (live : List (Field × Nat) := []) (f : DieDet → DieDet := id) (g : Agg → Agg := id) : State :=
  aW [(CFG_STATUS_STATE, 4), (SHED_MIR_STATUS_STATE, 2), (SHED_JRN_STATUS_OPEN, 1), (DET_DIE_STATUS_STATE 2, 2)] ([(DET_CFG_EN, 1), (DET_DIE_CFG_HOME 2, 1)] ++ live) fun a => g { aT 2 5000000 a with
  img := img08, det := { a.det with die := [(2, f { run := some r })] } }
def x08 (opc : Nat) (o : Op) (v : Tab Int) (f : Run → Run := id) : State := w08 (run08 opc o v f)
def v08 : Tab Int := [(1, 5), (2, -9), (3, 7)]

def ec08 (r : Run) : Run := { r with coreEntry := 1 }
def ecD (d : DieDet) : DieDet := { d with hist := [{ tick := 50, clusters := 2, seq := 1 }] }
def o46 : Op := { op08 with imm := 46 }
def bl08 : Block := { key := 4, n := 2, sum := 30, sumSq := 500, zeroN := 2 }
def bell08 (a : Agg) : Agg := { a with tly := { a.tly with results := [{ round := 5, blocks := [bl08] }] } }
def vp08 : Tab Int := [(2, 9)]
def y08 (opc : Nat) : State := w08 (run08 opc op08 vp08) [] id bell08
def h08 (a : Agg) : Agg := { (a.put (HDG_SLOT_STATUS_STATE 4) 3) with hdg := { slot := [(4, { cur := some { crc := 6 } })] } }

def z08 (d : DieDet) (regs : List (Field × Nat) := []) (g : Agg → Agg := id) : State :=
  aW ([(CFG_STATUS_STATE, 4), (SHED_MIR_STATUS_STATE, 2), (SHED_JRN_STATUS_OPEN, 1), (DET_DIE_STATUS_STATE 2, 2), (DET_NQ_CFG_EN, 1), (DET_NQ_CFG_SIZE_LOG2, 6), (SHED_JRN_NEXT_OP, 90)] ++ regs)
    [(DET_CFG_EN, 1), (DET_DIE_CFG_EN 2, 1), (DET_DIE_CFG_HOME 2, 1), (DET_CFG_VERDICT_RING, 4), (SHED_RING_CFG_EN 4, 1), (SHED_RING_CFG_BASE_4K 4, 1024), (SHED_RING_CFG_SIZE_4K 4, 16),
      (DET_STRAG_CFG_LOCAL_TICKS, 0), (DET_CFG_CKPT_TICKS, 0), (SHED_REGION_KIND 3, 5), (SHED_REGION_BASE_256M 3, 1), (SHED_REGION_SIZE_256M 3, 2)] fun a => g { mirJ [77] (aT 2 5000000 a) with
  img := img08, det := { a.det with die := [(2, d)] } }
def dd08 : DieDet := { hist := [{ tick := 50, clusters := 2, seq := 0, ring := 4, commitNs := 4900000 }], jobs := [(50, false)], words := [(1, 9)], cwords := [(3, 4)] }
def dd08r : DieDet := { dd08 with jobs := [], rounds := [(7, 1000)], lastNs := 5000000, lastTick := 50 }
def rr08 : Run := { tick := 50, ended := true, words := [(1, 10)], cwords := [(3, 5)] }
def em08 : Emit := { slot := 3, kind := 1, sev := 200, rule := 5 }

def hv08 : HeldVerdict := { ident := 50 * 256, kind := 1, ring := 4, seq := 0, op := some 77 }
def nt08 : NoticeTo := { agg := 9, sentNs := 4000000 }
def dv08 (x : NoticeTo) : Delivery := { op := 77, kind := 1, slot := 2, die := 5, host := 1, toAggs := [x] }
def hu08 : Hurdle := { op := 77, ident := 50 * 256, kind := 1, askNs := some 4000000 }

def pkg09 : List Byte := withTrailer ([0x51, 1, 0, 0, 1, 0, 0, 0, 1, 0, 0, 0, 1, 0, 0, 0] ++ zeros 8 ++ leBytes 4 16 ++ leBytes 4 64 ++ zeros 4 ++ leBytes 4 88 ++ zeros 24 ++ zeros 16)
def crc09 : Nat := leAt pkg09 80 4
def cp09 : HdgCopy := { crc := crc09, addr := 0x10000000, bytes := pkg09, off := 0, size := 4096 }
def s09 (st : Nat) (m : HdgSlot) (q : List HdgReq := []) (g : Agg → Agg := id) : State :=
  aW [(CFG_STATUS_STATE, 4), (SHED_MIR_STATUS_STATE, 2), (SHED_JRN_STATUS_OPEN, 1), (DET_DIE_STATUS_STATE 2, 2), (HDG_SLOT_STATUS_STATE 4, st)]
    [(HDG_CFG_EN, 1), (HDG_CFG_RETAIN_TICKS, 3), (SHED_REGION_KIND 0, 8), (SHED_REGION_BASE_256M 0, 1), (SHED_REGION_SIZE_256M 0, 1)] fun a => g ({ mirJ [77] (aT 2 5000000 a) with
  img := img08, det := { a.det with die := [(2, { run := some { hedge := some 3 } })] }, hdg := { slot := [(4, m)], queue := q } } : Agg)
def mem09 (a : Agg) : Agg := a.shedWrite 0x10000000 pkg09
def q09 : HdgReq := { die := 2, model := 4, copy := cp09 }

def v10 (f : AggVrf → AggVrf) (regs : List (Field × Nat) := []) (g : Agg → Agg := id) : State :=
  aW ([(CFG_STATUS_STATE, 4), (VRF_ARR_STATUS_MHZ 1, 1500), (VRF_ARR_STATUS_MHZ 0, 1500)] ++ regs) [(VRF_CFG_EN, 1), (VRF_PRIO_AGE_US, 100), (VRF_ST_CFG_ST_PERIOD_MS, 10)] fun a => g ({ mirJ [77] (aT 2 5000000 a) with
  img := img08, vrf := f a.vrf } : Agg)
def j10 : VJob := { id := 7, work := .predict 2 50 pkg09, cls := 2, sinceNs := 4000000 }

def s11 (d : DieSE) (regs : List (Field × Nat) := []) (live : List (Field × Nat) := []) (g : Agg → Agg := id) : State :=
  aW ([(CFG_STATUS_STATE, 4), (SHED_MIR_STATUS_STATE, 2), (SHED_JRN_STATUS_OPEN, 1), (SHED_JRN_NEXT_OP, 90), (SE_DIE_STATUS_STATE 2, 2), (SE_DIE_EPOCH_CUR_MS 2, 100), (DET_DIE_STATUS_STATE 2, 2), (DET_NQ_CFG_EN, 1), (DET_NQ_CFG_SIZE_LOG2, 6)] ++ regs)
    ([(SE_CFG_EN, 1), (SE_CFG_MIN_TILES, 1), (SE_TAG_CFG_DIE_TAGS, 8), (SE_RPL_CFG_AUTO, 1), (SE_RPL_CFG_RUNS, 3), (SE_RPL_CFG_WAIT_MS, 10), (VRF_CFG_EN, 1), (VRF_PRIO_VERIFY_CLASS, 1), (DET_CFG_VERDICT_RING, 4), (SHED_RING_CFG_EN 4, 1), (SHED_RING_CFG_BASE_4K 4, 1024), (SHED_RING_CFG_SIZE_4K 4, 16),
      (SHED_REGION_KIND 3, 5), (SHED_REGION_BASE_256M 3, 1), (SHED_REGION_SIZE_256M 3, 2)] ++ live) fun a => g ({ mirJ [77] (aT 2 5000000 a) with
  img := { img08 with members := [0] }, se := { a.se with die := [(2, d)] } } : Agg)
def tw11 : TileWait := { captureSeq := 9, epoch := 3 }
def c11 : SeCase := { seq := 4, bytes := zeros 128, hostCrc := 0x1234, endNs := 4000000 }
def r11 : SeReplay := { caseSeq := 4, op := 77, runs := 1, phase := 3, startNs := 4000000 }
def f11 : SeCase := { c11 with tile := false, bytes := [], forceNs := 4000000, kernel := 2 }
def a11 : FetchAsk := { qid := 5, use := .errors 2, die := 5, cls := 1, sentNs := 4000000 }

def hn (t : State) : List Byte := match t.agg.sent.find? (fun x => match x with | .hostNotice _ _ => true | _ => false) with
  | some (.hostNotice _ e) => e
  | _ => (((t.agg.fab.queue.flatMap (·.2)).filter fun k => k.o.rclass = 3).head?).elim [] (·.o.payload)
def hh (t : State) : List Byte := match t.agg.sent.find? (fun x => match x with | .hostNotice _ _ => true | _ => false) with | some (.hostNotice _ e) => e | _ => []
def er11 (fl : Nat) : EpochRec := { dseq := 4, flags := fl, first := 3, last := 3, ring := 4, seq := 0, op := some 77, kind := 1 }
def fp11 : FleecePend := { caseSeq := 4, kind := 0xC, body := zeros 160, ring := 4, seq := 0, op := some 77 }
def nf11 : NoticeTo := { agg := 9, record := true, sentNs := 4000000 }
def df11 : Delivery := { op := 77, kind := 6, slot := 2, die := 5, host := 1, body := zeros 160, toAggs := [nf11] }

def s12 (f : AggFab → AggFab) (regs : List (Field × Nat) := []) (live : List (Field × Nat) := []) : State :=
  aW ([(CFG_STATUS_STATE, 4), (FAB_PORT_STATUS_UP 2, 1), (FAB_PORT_STATUS_LANES 2, 255), (FAB_STATUS_INCARN, 6)] ++ regs) ([(FAB_PORT_CFG_QMAX_KIB 2, 64), (FAB_TXN_CFG_RETRIES, 3), (FAB_PORT_CFG_EN 2, 1), (FAB_SHP_RATE_MBPS 1, 1000), (FAB_SHP_BURST_KIB 1, 8), (FAB_SHP_CFG_REFILL_NS, 1500)] ++ live) fun a =>
    { aT 2 5000000 a with img := { img08 with members := [0, 9] }, fab := f a.fab }
def k12 : Packet := { port := 2, spineSrc := true, src := 9, psn := 5, incarn := 1 }
def w12 : Option RxWin := match judgePsn ((s12 id).agg.fab.win.get (8 * 9 + 1)) 1 5 with | .accept w => some w | _ => none
def o12 : OutPacket := { dst := 9, payload := zeros 8 }
def x12 (n : Nat) : Txn := { pkt := { f := .rycon o12, psn := 3, bytes := 200 }, port := 2, sentNs := 4000000, retx := n }

def q12 : FabPkt := { f := .rycon o12, psn := 3, bytes := 200 }

def s13 (f : Part → Part) (regs : List (Field × Nat) := []) (live : List (Field × Nat) := []) (g : Agg → Agg := id) : State :=
  aW ([(CFG_STATUS_STATE, 4), (FLT_PAIR_STATUS_P1_STATE, 1)] ++ regs) ([(FLT_CFG_RECOVER_MAX, 2), (FLT_CFG_RECOVER_WIN_S, 60), (FLT_CFG_SHEEPDOG_US, 100), (FLT_CFG_SAFE_US, 100), (FLT_CFG_QUIET_MS, 1), (FLT_CFG2_FLT_RING, 4), (SHED_RING_CFG_EN 4, 1), (SHED_RING_CFG_BASE_4K 4, 1024), (SHED_RING_CFG_SIZE_4K 4, 16)] ++ live) fun a =>
    g ({ (aT 2 5000000 a) with img := img08, p := f (tm a.p 2 5000000) } : Agg)
def u13 (f : Part → Part) (regs : List (Field × Nat) := []) (live : List (Field × Nat) := []) (g : Ulg → Ulg := id) : State :=
  uW regs ([(ULG_FLT_CFG_RECOVER_MAX, 2), (ULG_FLT_CFG_RECOVER_WIN_S, 60), (ULG_FLT_CFG_SHEEPDOG_US, 100)] ++ live) fun u => g ({ (uT 2 5000000 u) with p := f (tm u.p 2 5000000) } : Ulg)
def src13 (k : Nat) : Nat := if k = 0 then 0x904 else 0x700

def pd13 : Pend := { fseq := 3, source := 0x905, cls := 1, stamp := 4000000 }
def cp (f : Collector → Collector) (p : Part) : Part := p.onCol f

def re13 : RepairEntry := { etype := 6, unit := 5, place := 4 }
def l13 (a : Agg) : Agg := { a with rprQueue := [re13], conf := { a.conf with flash := { a.conf.flash with rpr := [(1, { header := rprHeader 3 0 })] } } }
def m13 : AgeSample := { island := 3, slackPs := 50, fusedPs := 55 }

def s14 (f : AggPwr → AggPwr) (regs : List (Field × Nat) := []) (live : List (Field × Nat) := []) (g : Agg → Agg := id) : State :=
  aW ([(CFG_STATUS_STATE, 4), (SHED_MIR_STATUS_STATE, 2), (SHED_JRN_STATUS_OPEN, 1), (SHED_JRN_NEXT_OP, 90)] ++ regs) ([(PWR_CFG_GASP_EN, 1), (PWR_CFG_ARM_MV, 3000), (PWR_CFG_WARN_MV, 2500), (PWR_CFG_FLUSH_LIMIT_MS, 10), (PWR_CFG_TEST_DROP, 3), (PWR_DOM_CFG_OFF_OK 9, 1)] ++ live) fun a =>
    g ({ mirJ [77] (aT 2 5000000 a) with img := img08, pwr := f a.pwr } : Agg)
def d14 (d : Nat) (x : Dom) (p : AggPwr) : AggPwr := { p with dom := [(d, x)] }
def u14 (f : UlgPwr → UlgPwr) (regs : List (Field × Nat) := []) (live : List (Field × Nat) := []) (g : Ulg → Ulg := id) : State :=
  uW regs ([(ULG_PD_CFG_HS_EN, 1)] ++ live) fun u => g ({ (uT 2 5000000 u) with pwr := f u.pwr } : Ulg)
def lk14 : State := uW [(ULG_LINK_STATUS_STATE 1, 3), (ULG_LINK_STATUS_SESSION 1, 2), (ULG_LINK_NONCE_NONCE 1, 0x99990007)] [] fun u => { uT 2 5000 u with
  uid := 77, link := { u.link with port := [(1, { next := 9 })] } }
def c14 : Cmd := { seq := 9, addr := 0, arg := 0x105 }
def q14 (n : Nat) : DomReq := { tgt := n, from_ := 3 }

def fl14 : AggPwr → AggPwr := fun p => { p with flush := { armed := true, slot := 2, gen := 5 } }

def t14 (st : Nat) (c : SlotCh := {}) (regs : List (Field × Nat) := []) : State :=
  s14 (fun p => { p with slot := [(2, c)] }) ([(SLOT_STATUS_OWNER 2, 1), (SLOT_STATUS_STATE 2, st)] ++ regs) [(SLOT_CFG_TRIP_N, 2), (SLOT_CFG_RETRY_MAX, 3), (SLOT_CFG_BACKOFF_MS, 5), (SLOT_ENV0_I_ON 2, 100), (SLOT_ENV1_I_OFF 2, 10), (SLOT_ENV1_REF_TGT 2, 700), (SLOT_ENV0_RAMP_US 2, 40), (SLOT_ENV1_DRAIN_US 2, 40), (SHED_REGION_KIND 3, 5), (SHED_REGION_BASE_256M 3, 1), (SHED_REGION_SIZE_256M 3, 2)]

def img15 (regs : List Byte) : List Byte :=
  let h := leBytes 4 0x47584932 ++ leBytes 2 1 ++ zeros 2 ++ leBytes 4 7 ++ leBytes 4 (304 + regs.length) ++ leBytes 2 5 ++ leBytes 2 2 ++ zeros 4 ++ zeros 16 ++ leBytes 4 128 ++ leBytes 4 (208 + regs.length) ++ zeros 76
  let sec (t l c : Nat) : List Byte := leBytes 4 t ++ leBytes 4 208 ++ leBytes 4 l ++ leBytes 4 c
  h ++ leBytes 4 (crc32c h) ++ sec 1 0 0 ++ sec 2 0 0 ++ sec 3 0 0 ++ sec 10 0 0 ++ sec 4 regs.length (crc32c regs) ++ regs
/-- Registers that every COMMIT needs: the regions of KIND 1 to 7, and an enabled fault ring. -/
def regs15 : List (Nat × Nat) := ((List.range 7).map fun i => (0x40100 + 8 * i, i + 1 + (4 * i) * 2 ^ 4 + 4 * 2 ^ 16)) ++ [(0x40048, 16 * 2 ^ 27 + 2 ^ 54)]
def regB15 (l : List (Nat × Nat)) : List Byte := (l.map fun e => leBytes 8 e.1 ++ leBytes 8 e.2).flatten
def good15 : List Byte := img15 (regB15 regs15)
/-- The same as fields. -/
def base15 : List (Field × Nat) := ((List.range 7).map fun i => [(SHED_REGION_KIND i, i + 1), (SHED_REGION_BASE_256M i, 4 * i), (SHED_REGION_SIZE_256M i, 4)]).flatten ++ [(SHED_RING_CFG_SIZE_4K 0, 16), (SHED_RING_CFG_EN 0, 1)]
def len15 : Nat := good15.length
def com15 (f : Part → Part := id) (regs : List (Field × Nat) := []) : State := aW regs [] fun a => { a with p := f { tm a.p 2 5000000 with staged := fill [] base15, tick := { lastNs := some 4900000 } } }
def bad15 : List Byte := img15 (leBytes 8 TICK_CFG_TICK_US.off ++ zeros 8)
def s15 (regs : List (Field × Nat) := []) (f : AggCfg → AggCfg := id) (g : Agg → Agg := id) (live : List (Field × Nat) := []) : State :=
  aW regs live fun a => g ({ aT 2 5000000 a with conf := f a.conf } : Agg)
def fl15 (k : Nat) (b : List Byte) (t : List Nat) (c : AggCfg) : AggCfg := { c with flash := { c.flash with img := [(k, b)] }, tried := t }

def rf15 (s : State) (k : Nat) : Breach := match s.agg.imageTry (readImage (s.agg.slotImage k)) k with | .inr r => r | _ => (99, 99)
def ok15 (s : State) (k : Nat) : Agg := match s.agg.imageTry (readImage (s.agg.slotImage k)) k with | .inl r => r | _ => {}
def l15a : State := s15 [(CFG_STATUS_STATE, 3), (CFG_IMG_INFO_CODE1, 1)] (fl15 0 bad15 [0])
def l15b : State := s15 [(CFG_STATUS_STATE, 3), (CFG_IMG_INFO_CODE1, 0)] (fl15 0 bad15 [0])
def l15c : State := s15 [(CFG_STATUS_STATE, 3), (CFG_IMG_INFO_CODE1, 0)] (fl15 0 good15 [0])
def pre15 (w : Bool) (a : Agg) : Agg := ((a.put CFG_ADOPT_GO 1).put CFG_ADOPT_WRITE (if w then 1 else 0)).put CFG_ADOPT_LEN len15
def l15d : State := s15 [(CFG_STATUS_STATE, 5)] id fun a => a.shedWrite 0 good15
def ad15 (w : Bool) : Agg := match (pre15 w l15d.agg).imageTry (readImage (l15d.agg.shedRead 0 len15)) 2 with | .inl r => r | _ => {}

def st15 (p : Part) : Part := { p with staged := [(TICK_CFG_TICK_US.key, 0)] }
def onP (f : Part → Part) (a : Agg) : Agg := { a with p := f a.p }
def s15e : State := s15 [] id (onP st15)
def u15 : State := uW [(ULG_COMMIT_STATUS_PENDING, 1)] [] fun u => { uT 2 5000000 u with p := { tm u.p 2 5000000 with tick := { lastNs := some 4900000 }, copy := some [(ULG_TICK_CFG_TICK_US.key, 200)], copyNs := 4000000 } }

def smb (t : State) : List Byte := match t.agg.sent.head? with | some (.smbus l) => l | _ => []

def p15 (push : Push) (f : AggCfg → AggCfg := id) (st : Nat := 4) : State :=
  aW [(CFG_STATUS_STATE, st), (SHED_MIR_STATUS_STATE, 2), (SHED_JRN_STATUS_OPEN, 1), (SHED_JRN_NEXT_OP, 90), (DP_STATUS_ROLE 3, 1), (DP_STATUS_SESSION 3, 2), (DP_CMD_STATUS_NEXT_SEQ 3, 40)]
    [(SHED_REGION_KIND 3, 5), (SHED_REGION_BASE_256M 3, 1), (SHED_REGION_SIZE_256M 3, 2)] fun a => { mirJ [77] (aT 2 5000000 a) with img := img08, conf := f { a.conf with push := [(2, push)] } }

def s16 : State := { (aW [] [] (aT 2 5000000)).onUlg (uT 2 5000000) with pending := [.pfail, .pfail] }
def s16b : State := { s16 with pending := [.hfltAssert 3 true 9, .exit .ulg] }

/-- A source that is fenced. -/
def fenced06 (s : State) : State := s.onAgg fun a => { a with shed := { a.shed with src := a.shed.src.upd 12 fun r => { r with fenced := true } } }
/-- A source whose rings go on at these RING_SEQs. -/
def nextSrc (l : Tab (Option Nat)) : State := w06e.onAgg fun a => { a with shed := { a.shed with src := [(12, { accepted := true, next := l })] } }
/-- The copy of a record of 16 bytes: its descriptor and its bytes. -/
def copyG : List Byte :=
  let d := withTrailer (zeros 8)
  leBytes 1 0xD1 ++ zeros 1 ++ leBytes 1 1 ++ zeros 1 ++ leBytes 4 5 ++ leBytes 8 9 ++ zeros 24 ++ d
/-- The record of ring 4 is being fetched for its repair, and these records have come. -/
def w06r (l : List (List Byte)) : State := w06b.onAgg fun a => { a with shed := { a.shed with fetches := [f06], fetched := l } }
def ft03 (i : FtInst) : State := uW [] [(ULG_CNT_CFG_CLUSTERS, 8)] fun u => { uT 2 3000000000 u with
  ft := { u.ft with core := [(197, { run := some 4, sigLo := some 7 })], inst := [i] } }
def bell (b : Block) (r : Run) : Run := { r with result := some { round := 5, blocks := [b] } }
/-- A live setting written. -/
def setLive (e : Field × Nat) (s : State) : State := s.onAgg fun a => { a with p := { a.p with live := fill a.p.live [e] } }
def nm08 : NoticeMsg := { ntype := 3, src := 9, origAgg := 9, origOp := 4, fleetDie := 50, dseq := 2 }
def r07d : TRound := { round := 5, closeNs := 4000000, dataNs := 9000000, op := some 77 }
def ld09 : HdgSlot := { crc := crc09, addr := 0x10000000 }
def st10 : SelfTest := { id := 9, arrays := [1, 2] }
/-- Port 1 of the Uligo, whose session takes command 9, with a domain under way and responses that wait. -/
def lkD (d : Nat) (x : Dom) (q : List Resp) : State := lk14.onUlg fun u => { u with
  pwr := { u.pwr with dom := [(d, x)] }, link := { u.link with port := [(1, { next := 9, respQ := q })] } }

def bad15s : State := s15 [(CFG_STATUS_STATE, 5)] id fun a => a.shedWrite 0 bad15

/-- What an adoption of the bytes at 0 of the Shed starts from. -/
def adopt15 (s : State) (n : Nat) : Agg := s.agg.adopting false n
def adoptTry (s : State) (n : Nat) : Agg ⊕ Breach := (adopt15 s n).imageTry (readImage (s.agg.shedRead 0 n)) 2
def adoptR (s : State) (n : Nat) : Breach := match adoptTry s n with | .inr r => r | _ => (99, 99)
def adoptL (s : State) (n : Nat) : Agg := match adoptTry s n with | .inl b => b | _ => {}

/-- The Uligo of die slot 2 answers a read of its fault collector. -/
def f13 (u : CmdUse) : State := s13 id [(DP_STATUS_SESSION 3, 2)] [] fun a => { a with
  role := [(2, 1)], die := [(3, { uid := some 88, cmds := [{ seq := 1, sent := true, use := u }] })] }
def st10r : SelfTest := { id := 9, kind := 1, target := 1, arrays := [1] }
def p10r : Pass := { job := { j10 with work := .selfTest 9, again := true }, startNs := 4900000 }
/-- A repair log that is full. -/
def l13f (a : Agg) : Agg := { l13 a with conf := { a.conf with flash := { a.conf.flash with rpr := [(1, { header := rprHeader 3 0, places := List.replicate 2041 none })] } } }
/-- A trace core whose FIFO holds these beats. -/
def w03l (n : Nat) : State := uW [(ULG_TRC_CFG_EN, 1), (ULG_TRC_CORE_EN_EN, 2 ^ 64 - 1)] [(ULG_TRC_AUTH_PRIV_OK, 1)] fun u => { uT 2 1000000 u with
  trc := { u.trc with core := [(2, { overflowing := true, level := n })] } }

theorem witness_PtpMessagesHaveTheirEffect :
    (∃ (s : State) (port : Fin 12) (m : PtpMsg), s.agg.accepts (↑port : Nat) 0 m.rx = true ∧ ptpEnabled s.agg (↑port :
      Nat) = true ∧ ptpOurs s.agg m = true ∧ -7 ≤ m.logInterval ∧ m.logInterval ≤ -3 ∧ (s.agg.time.ptp.get (↑port :
      Nat)).master.isSome = true ∧ m.twoStep = false) ∧
    (∃ (s : State) (port : Fin 12) (m : PtpMsg), s.agg.accepts (↑port : Nat) 0 m.rx = true ∧ ptpEnabled s.agg (↑port :
      Nat) = true ∧ ptpOurs s.agg m = true ∧ -7 ≤ m.logInterval ∧ m.logInterval ≤ -3 ∧ (s.agg.time.ptp.get (↑port :
      Nat)).master.isSome = true ∧ m.twoStep = true) ∧
    (∃ (s : State) (port : Fin 12) (m : PtpMsg) (t2 : Int) (x : Int), s.agg.accepts (↑port : Nat) 0 m.rx = true ∧
      ptpEnabled s.agg (↑port : Nat) = true ∧ ptpOurs s.agg m = true ∧ (s.agg.time.ptp.get (↑port : Nat)).twoStep =
      some (m.seqId, t2, x)) ∧
    (∃ (s : State) (port : Fin 12) (m : PtpMsg) (t3 : Int) (t1 : Int) (t2 : Int), s.agg.accepts (↑port : Nat) 0 m.rx =
      true ∧ ptpEnabled s.agg (↑port : Nat) = true ∧ ptpOurs s.agg m = true ∧ m.mine = true ∧ (s.agg.time.ptp.get
      (↑port : Nat)).req = some (m.seqId, t3) ∧ (s.agg.time.ptp.get (↑port : Nat)).sync = some (t1, t2)) ∧
    (∃ (s : State) (port : Fin 12) (m : PtpMsg), s.agg.accepts (↑port : Nat) 0 m.rx = true ∧ ptpEnabled s.agg (↑port :
      Nat) = true ∧ ptpOurs s.agg m = true) ∧
    (∃ (s : State) (port : Fin 12) (m : PtpMsg) (d : AnnounceData) (c : Instr), s.agg.accepts (↑port : Nat) 0 m.rx =
      false ∧ c ∈ [Instr.ptpSync port m, Instr.followUp port m, Instr.delayResp port m, Instr.announce port m d]) ∧
    (∃ (s : State) (port : Fin 12), ptpEnabled s.agg (↑port : Nat) = true ∧ s.agg.safe = false) ∧
    (∃ (s : State) (port : Fin 12) (rx : RxInfo), s.agg.accepts (↑port : Nat) 0 rx = true) := by
  refine ⟨⟨w01a, 1, {seqId := 9, stamp := 1000}, ?_⟩,
    ⟨w01a, 1, {seqId := 9, stamp := 1000, twoStep := true}, ?_⟩,
    ⟨w01a, 1, {seqId := 7, stamp := 1000}, 100, 0, ?_⟩,
    ⟨w01a, 1, {seqId := 7, stamp := 1000}, 300, 10, 50, ?_⟩,
    ⟨w01a, 1, {seqId := 9, stamp := 1000}, ?_⟩,
    ⟨w01a, 1, { rx := { bytes := 9216, rxKib := 4096 } }, {}, (.ptpSync 1 { rx := { bytes := 9216, rxKib := 4096 } }), ?_⟩,
    ⟨w01a, 1, ?_⟩,
    ⟨w01a, 1, {}, ?_⟩⟩ <;>
    decide +kernel

theorem witness_FrequencyAndHoldover :
    (∃ (s : State) (port : Fin 12) (rx : RxInfo), s.agg.accepts (↑port : Nat) 0 rx = true) ∧
    (∃ (s : State), s.agg.safe = true) ∧
    (∃ (s : State), s.agg.reg SYNCE_STATUS_SRC_PORT ≠ 15) ∧
    (∃ (s : State), s.agg.p.servo.state = 4) ∧
    (∃ (s : State), s.ulg.p.servo.state = 4) ∧
    (∃ (s : State) (port : Fin 12), s.agg.reg (PTP_PORT_STATE_ST (↑port : Nat)) = 3 ∧ s.agg.p.servo.state = 2) ∧
    (∃ (s : State) (port : Fin 12), s.agg.reg (PTP_PORT_STATE_ST (↑port : Nat)) = 4) ∧
    (∃ (s : State) (port : Fin 12), s.agg.reg (PTP_PORT_STATE_ST (↑port : Nat)) ≠ 3 ∧ s.agg.reg (PTP_PORT_STATE_ST
      (↑port : Nat)) ≠ 4) ∧
    (∃ (pt : Nat), pt ≠ 1) := by
  refine ⟨⟨w01a, 1, {}, ?_⟩,
    ⟨(s13 (cp fun c => { c with safeAt := some 4000000 }) [(FLT_STATUS_STATE, 1)]), ?_⟩,
    ⟨w01b, ?_⟩,
    ⟨w01b, ?_⟩,
    ⟨w01b, ?_⟩,
    ⟨w01c, 2, ?_⟩,
    ⟨w01b, 5, ?_⟩,
    ⟨w01a, 1, ?_⟩,
    ⟨0, ?_⟩⟩ <;>
    decide +kernel

theorem witness_TimeWordsHaveTheirEffect :
    (∃ (s : State) (p : Fin 16), (s.agg.p.servo.state < 2 ∨ s.agg.reg (DP_STATUS_STATE (↑p : Nat)) ≠ 3 ∧ s.agg.reg
      (DP_STATUS_STATE (↑p : Nat)) ≠ 4)) ∧
    (∃ (s : State) (p : Fin 16) (a : Agg), a = s.agg.twDue (↑p : Nat) ∧ 2 ≤ s.agg.p.servo.state ∧ (s.agg.reg
      (DP_STATUS_STATE (↑p : Nat)) = 3 ∨ s.agg.reg (DP_STATUS_STATE (↑p : Nat)) = 4)) ∧
    (∃ (w : TimeWord), w.reservedSet = true) ∧
    (∃ (s : State) (w : TimeWord), w.reservedSet = false ∧ s.ulg.p.servo.state = 0) ∧
    (∃ (s : State) (w : TimeWord), w.reservedSet = false ∧ s.ulg.p.servo.state ≠ 0 ∧ (w.echoValid = false ∨ w.dUpSat =
      true)) ∧
    (∃ (s : State) (x : Fin 2) (w : TimeWord) (t1 : Int) (t2 : Int) (off : Int), w.reservedSet = false ∧
      s.ulg.p.servo.state ≠ 0 ∧ w.echoValid = true ∧ w.dUpSat = false ∧ w.echoSeq ≠ w.seq ∧ List.find? (fun e =>
      decide (e.1 = w.echoSeq)) (s.ulg.time.port.get (↑x : Nat)).words = some (w.echoSeq, t1, t2) ∧ off = (t2 - t1 -
      w.dUp - ulgAsym s.ulg (↑x : Nat)) / 2) ∧
    (∃ (s : State) (w : TimeWord), w.reservedSet = false ∧ s.ulg.p.servo.state ≠ 0) ∧
    (∃ (s : State), s.ulg.time.src = none) ∧
    (∃ (s : State) (y : Nat) (n : Nat), s.ulg.time.src = some y ∧ n = (((s.ulg.time.port.get y).lastAt).elim
      s.ulg.p.now fun at_ => max s.ulg.p.now (at_ + s.ulg.cfg ULG_TIME_CFG_COAST_US * 1000 * 2 ^ 56)) ∧ portFresh ({
      s.ulg with p := { s.ulg.p with now := n } }) (1 - y) = true) ∧
    (∃ (s : State) (y : Nat) (n : Nat), s.ulg.time.src = some y ∧ n = (((s.ulg.time.port.get y).lastAt).elim
      s.ulg.p.now fun at_ => max s.ulg.p.now (at_ + s.ulg.cfg ULG_TIME_CFG_COAST_US * 1000 * 2 ^ 56)) ∧ portFresh ({
      s.ulg with p := { s.ulg.p with now := n } }) (1 - y) = false) := by
  refine ⟨⟨w01a, 3, ?_⟩,
    ⟨w01d, 3, (w01d.agg.twDue (↑3 : Nat)), ?_⟩,
    ⟨{ reservedSet := true }, ?_⟩,
    ⟨w01a, {seq := 254, depart := 4000 * 65536}, ?_⟩,
    ⟨w01b, {seq := 254, depart := 4000 * 65536}, ?_⟩,
    ⟨(uW [] [] fun u => { uT 2 5000 u with time := { u.time with port := [(0, { words := [(9, 100, 200)] })] } }), 0, { seq := 10, echoValid := true, echoSeq := 9 }, 100, 200, 50, ?_⟩,
    ⟨w01b, {seq := 254, depart := 4000 * 65536}, ?_⟩,
    ⟨w01a, ?_⟩,
    ⟨w01f, 0, 360287970189639680000, ?_⟩,
    ⟨w01e, 0, 3602879701896396800000000, ?_⟩⟩ <;>
    decide +kernel

theorem witness_TicksAndEpochsAdvance :
    (∃ (s : State), s.agg.p.timed = true ∧ (s.agg.p.copy.isSome = true → s.agg.p.copyDue = false)) ∧
    (∃ (s : State), s.ulg.p.timed = true ∧ (s.ulg.p.copy.isSome = true → s.ulg.p.copyDue = false)) ∧
    (∃ (s : State) (us : Nat) (n : Nat) (act : Nat), s.agg.p.tick.wait = some (us, n, act) ∧ act ≤ s.agg.p.nowNs ∧
      Option.all (fun x => decide (act ≤ x)) s.agg.p.tick.lastNs = true) ∧
    (∃ (s : State) (us : Nat) (n : Nat) (act : Nat), s.ulg.p.tick.wait = some (us, n, act) ∧ act ≤ s.ulg.p.nowNs ∧
      Option.all (fun x => decide (act ≤ x)) s.ulg.p.tick.lastNs = true) ∧
    (∃ (s : State), s.ulg.p.timed = true) ∧
    (∃ (s : State) (ms : Nat) (act : Nat), s.ulg.p.timed = true ∧ s.ulg.ep.wait = some (ms, act) ∧ act ≤
      s.ulg.p.nowNs) := by
  refine ⟨⟨w01a, ?_⟩,
    ⟨w01b, ?_⟩,
    ⟨w01g, 50, 20, 4000, ?_⟩,
    ⟨w01g, 50, 20, 4000, ?_⟩,
    ⟨w01b, ?_⟩,
    ⟨w01g, 200, 4000, ?_⟩⟩ <;>
    decide +kernel

theorem witness_HostPortCannotMoveTime :
    (∃ (off : Nat), off ∈ [304, 312, 320, 336, 344]) ∧
    (∃ (off : Nat), off ∈ [568, 576, 592, 608, 664, 1048, 1072, 1344, 2312, 2624, 2672, 3088]) := by
  refine ⟨⟨0x130, ?_⟩,
    ⟨568, ?_⟩⟩ <;>
    decide +kernel

theorem witness_CountBeatsAddExactly :
    (∃ (s : State) (b : EvBeat), s.ulg.domainOn ((↑b.cluster : Nat) / 8) = true ∧ (↑b.cluster : Nat) < s.ulg.cfg
      ULG_CNT_CFG_CLUSTERS ∧ b.full = false ∧ beatParityBad b.data b.par = false) ∧
    (∃ (s : State) (b : UevBeat), s.ulg.domainOn domUncore = true ∧ (↑b.bus : Nat) < s.ulg.cfg
      ULG_CNT_CFG_UNCORE_BUSES ∧ b.full = false ∧ beatParityBad b.data b.par = false) := by
  refine ⟨⟨w01a, ev0, ?_⟩,
    ⟨w01a, {bus := 1, grp := 2, data := 0x0303030303030303, par := 0}, ?_⟩⟩ <;>
    decide +kernel

theorem witness_ParityDropsTheWholeBeat :
    (∃ (s : State) (b : EvBeat), s.ulg.domainOn ((↑b.cluster : Nat) / 8) = true ∧ (↑b.cluster : Nat) < s.ulg.cfg
      ULG_CNT_CFG_CLUSTERS ∧ b.full = false ∧ beatParityBad b.data b.par = true) := by
  refine ⟨w01a, ev1, ?_⟩ <;>
    decide +kernel

theorem witness_CountingInputsHaveTheirEffect :
    (∃ (s : State) (b : EvBeat) (slot : Nat) (stamp : Nat), s.ulg.dropEvBeat b 1 = none ∧ s.ulg.cnt.request.get (64 *
      (↑b.cluster : Nat) + (↑b.core : Nat)) = some (slot, stamp) ∧ (s.ulg.cnt.fifo.get (s.ulg.reg
      (ULG_OVS_SLOT_CTRL_CORE slot))).length < 16) ∧
    (∃ (s : State) (b : EvBeat), s.ulg.dropEvBeat b 2 = none ∧ 0 < beatByte b.data 0 ∧ beatByte b.data 0 < 128 ∧
      (s.ulg.cnt.rings.get (64 * (↑b.cluster : Nat) + (↑b.core : Nat))).frozen = false) ∧
    (∃ (s : State) (b : EvBeat), s.ulg.dropEvBeat b 3 = none) ∧
    (∃ (s : State) (core : Fin 8192), (s.ulg.cnt.request.get (↑core : Nat)).isSome = true) ∧
    (∃ (s : State) (b : QpBeat), s.ulg.domainOn domUncore = true ∧ b.full = false ∧ 16 * (↑b.bus : Nat) + (↑b.id :
      Nat) < s.ulg.cfg ULG_CNT_CFG_QUEUES ∧ b.par = qpParity b) ∧
    (∃ (s : State) (b : CtBeat), b.full = false ∧ b.par = ctParity b ∧ b.all = false ∧ (↑b.cluster : Nat) < s.ulg.cfg
      ULG_CNT_CFG_CLUSTERS) := by
  refine ⟨⟨w02b, ev0, 2, 77, ?_⟩,
    ⟨w01a, ev0, ?_⟩,
    ⟨w01a, ev0, ?_⟩,
    ⟨w02b, 197, ?_⟩,
    ⟨w01a, {bus := 1, id := 2, push := true, pop := false, depth := 5, age := 0, par := false}, ?_⟩,
    ⟨w01a, {cluster := 3, all := false, layer := 3, op := 0, par := false}, ?_⟩⟩ <;>
    decide +kernel

theorem witness_RingsRecordsAndReads :
    (∃ (s : State) (core : Fin 8192), 0 < s.ulg.cfg ULG_CNT_CFG_HANG_TICKS ∧ s.ulg.cfg ULG_CNT_CFG_HANG_TICKS ≤
      (s.ulg.cnt.rings.get (↑core : Nat)).hangTicks ∧ (s.ulg.cnt.rings.get (↑core : Nat)).hung = false) ∧
    (∃ (s : State) (core : Fin 8192), (s.ulg.cnt.rings.get (↑core : Nat)).frozen = true) ∧
    (∃ (s : State) (mid : Fin 64) (e : OvsEntry) (rest : List OvsEntry), s.ulg.cnt.fifo.get (↑mid : Nat) = e :: rest) ∧
    (∃ (s : State) (l : Latched) (buf : Nat), s.ulg.cnt.due = some l ∧ s.ulg.cnt.pack = none ∧ s.ulg.freeBuffer = some
      buf) ∧
    (∃ (s : State) (j : PackJob), s.ulg.cnt.pack = some j) ∧
    (∃ (off : Nat), off ≠ 65536) ∧
    (∃ (off : Nat), hostReadBad (off % 65536) = false ∧ off % 65536 ∉ [256, 600, 640, 1080, 2320]) ∧
    (∃ (off : Nat), hostReadBad off = true) ∧
    (∃ (off : Nat), inWindow off = false) := by
  refine ⟨⟨w02c, 5, ?_⟩,
    ⟨w02c, 6, ?_⟩,
    ⟨w02c, 7, ⟨1, 7, 5, 44, 99⟩, [⟨2, 7, 5, 45, 98⟩], ?_⟩,
    ⟨w02c, { tick := 12, clusters := 2 }, 0, ?_⟩,
    ⟨w02d, { l := { tick := 12, clusters := 2 } }, ?_⟩,
    ⟨0, ?_⟩,
    ⟨0x130, ?_⟩,
    ⟨0, ?_⟩,
    ⟨0x200000, ?_⟩⟩ <;>
    decide +kernel

theorem witness_TraceHasItsEffect :
    (∃ (s : State) (b : TraceBeat), s.ulg.domainOn 17 = true ∧ (s.ulg.trc.core.get (↑b.core : Nat)).fifoFull b = true) ∧
    (∃ (s : State) (b : TraceBeat), s.ulg.domainOn 17 = true ∧ (s.ulg.trc.core.get (↑b.core : Nat)).overflowing =
      false ∧ (s.ulg.trc.core.get (↑b.core : Nat)).fifoFull b = false ∧ b.par = traceParity b ∧ traceViolation b =
      false ∧ s.ulg.trcEnabled (↑b.core : Nat) = true ∧ s.ulg.privPasses (↑b.priv : Nat) = true ∧ s.ulg.addressPasses
      (↑b.core : Nat) b.pc.toNat = true ∧ (∀ k < 8, s.ulg.reg (ULG_TRC_CMP_EN (↑b.core : Nat) k) = 0) ∧
      (s.ulg.trc.core.get (↑b.core : Nat)).syncDue = 0 ∧ s.ulg.reg ULG_TRC_CFG_SYNC_INTERVAL = 0 ∧ s.ulg.reg
      ULG_TRC_CFG_MODE = 0 ∧ s.ulg.reg ULG_TRC_CFG_STOP_ON_FULL = 0 ∧ (s.ulg.trc.core.get (↑b.core : Nat)).nbits = 0 ∧
      b.kind = 1) ∧
    (∃ (s : State) (b : TraceBeat), s.ulg.domainOn 17 = true ∧ (s.ulg.trc.core.get (↑b.core : Nat)).overflowing =
      false ∧ (s.ulg.trc.core.get (↑b.core : Nat)).fifoFull b = false ∧ b.par = traceParity b ∧ traceViolation b =
      false ∧ s.ulg.trcEnabled (↑b.core : Nat) = true ∧ s.ulg.privPasses (↑b.priv : Nat) = true ∧ s.ulg.addressPasses
      (↑b.core : Nat) b.pc.toNat = true ∧ (∀ k < 8, s.ulg.reg (ULG_TRC_CMP_EN (↑b.core : Nat) k) = 0) ∧
      (s.ulg.trc.core.get (↑b.core : Nat)).syncDue = 0 ∧ s.ulg.reg ULG_TRC_CFG_SYNC_INTERVAL = 0 ∧ s.ulg.reg
      ULG_TRC_CFG_MODE = 0 ∧ s.ulg.reg ULG_TRC_CFG_STOP_ON_FULL = 0 ∧ (s.ulg.trc.core.get (↑b.core : Nat)).nbits = 0 ∧
      b.kind = 0) ∧
    (∃ (s : State) (core : Fin 64), (s.ulg.trc.core.get (↑core : Nat)).overflowing = true ∧ s.ulg.reg ULG_TRC_CFG_MODE
      = 0) ∧
    (∃ (s : State), s.ulg.cfg ULG_TRC_AUTH_EXPIRY < s.ulg.reg ULG_TICK_NOW_TICK % 2 ^ 48 ∧ s.ulg.trc.expired = false ∧
      (s.ulg.cfgOn ULG_TRC_AUTH_PRIV_OK = true ∨ s.ulg.cfgOn ULG_TRC_AUTH_SECURE_OK = true)) := by
  refine ⟨⟨(w03l 32), { tb0 with left := 32 }, ?_⟩,
    ⟨w03a, tb0, ?_⟩,
    ⟨w03a, tb1, ?_⟩,
    ⟨w03a, 9, ?_⟩,
    ⟨w03b, ?_⟩⟩ <;>
    decide +kernel

theorem witness_FieldTestSchedule :
    (∃ (s : State) (core : Fin 8192), s.ulg.cfgOn ULG_FT_CFG_EN = true ∧ (↑core : Nat) < 64 * s.ulg.cfg
      ULG_CNT_CFG_CLUSTERS ∧ s.ulg.p.timed = true ∧ s.ulg.domainOn 18 = true) ∧
    (∃ (s : State) (b : FtBeat), s.ulg.mayYield b ∧ s.ulg.kernels ≠ [] ∧ s.ulg.ft.inst.length < 64 ∧ (∀ i ∈
      s.ulg.ft.inst, i.oneResult = true → i.coreA / 64 = (↑b.cluster : Nat)) ∧ (s.ulg.kernels.getD (s.ulg.reg
      ULG_FT_SEQ_SEQ % s.ulg.kernels.length) (0, 0)).2 ≤ b.data.toNat % 65536) ∧
    (∃ (s : State) (b : FtBeat) (i : FtInst), s.ulg.mayYield b ∧ List.find? (fun i' => i'.oneResult && i'.coreA / 64
      != (↑b.cluster : Nat)) s.ulg.ft.inst = some i ∧ i.maxUs ≤ b.data.toNat % 65536) ∧
    (∃ (b : FtBeat), b.opReserved = false ∧ b.par ≠ ftParity 0 b) ∧
    (∃ (s : State) (core : Fin 8192), (s.ulg.ft.core.get (↑core : Nat)).state = 1 ∧ (s.ulg.ft.core.get (↑core :
      Nat)).defers < 255 ∧ (s.ulg.ft.core.get (↑core : Nat)).defers + 1 < s.ulg.cfg ULG_FT_CFG_DEFER_LIMIT) ∧
    (∃ (s : State) (core : Fin 8192) (kernel : Nat) (lo : Nat), (↑core : Nat) < 64 * s.ulg.cfg ULG_CNT_CFG_CLUSTERS ∧
      (s.ulg.kernels.any fun e => decide (e.1 = kernel)) = true ∧ (2 ^ 32 ≤ s.ulg.reg ULG_FT_SEQ_SEQ ∨ lo ≤ s.ulg.reg
      ULG_FT_SEQ_SEQ) ∧ lo < 2 ^ 32) := by
  refine ⟨⟨w03c, 197, ?_⟩,
    ⟨w03c, (fb0 0), ?_⟩,
    ⟨(uW [] [(ULG_FT_CFG_EN, 1), (ULG_CNT_CFG_CLUSTERS, 8)] fun u => { uT 2 1000000 u with ft := { u.ft with core := [(197, { state := 1 })], inst := [{ i03 with coreA := 5, sigA := some 5 }] } }), (fb0 0), { i03 with coreA := 5, sigA := some 5 }, ?_⟩,
    ⟨{ fb0 0 with par := !(fb0 0).par }, ?_⟩,
    ⟨w03c, 197, ?_⟩,
    ⟨w03c, 197, 7, 0, ?_⟩⟩ <;>
    first
    | decide +kernel
    | ((repeat' apply And.intro) <;> first
        | decide +kernel
        | rfl)

theorem witness_FieldTestResults :
    (∃ (s : State) (b : FtBeat), s.ulg.domainOn 18 = true ∧ b.opReserved = false ∧ b.par = ftParity 1 b ∧
      s.ulg.rplRuns (64 * (↑b.cluster : Nat) + (↑b.core : Nat)) = false ∧ (s.ulg.ft.core.get (64 * (↑b.cluster : Nat)
      + (↑b.core : Nat))).run.isSome = true) ∧
    (∃ (s : State) (b : FtBeat) (lo : Nat) (i : FtInst), s.ulg.domainOn 18 = true ∧ b.opReserved = false ∧ b.par =
      ftParity 2 b ∧ s.ulg.rplRuns (64 * (↑b.cluster : Nat) + (↑b.core : Nat)) = false ∧ (s.ulg.ft.core.get (64 *
      (↑b.cluster : Nat) + (↑b.core : Nat))).run = some i.id ∧ (s.ulg.ft.core.get (64 * (↑b.cluster : Nat) + (↑b.core
      : Nat))).sigLo = some lo ∧ List.find? (fun j => decide (j.id = i.id)) s.ulg.ft.inst = some i ∧ i.sigA = none) ∧
    (∃ (s : State) (b : FtBeat) (lo : Nat) (i : FtInst), s.ulg.domainOn 18 = true ∧ b.opReserved = false ∧ b.par =
      ftParity 2 b ∧ s.ulg.rplRuns (64 * (↑b.cluster : Nat) + (↑b.core : Nat)) = false ∧ (s.ulg.ft.core.get (64 *
      (↑b.cluster : Nat) + (↑b.core : Nat))).run = some i.id ∧ (s.ulg.ft.core.get (64 * (↑b.cluster : Nat) + (↑b.core
      : Nat))).sigLo = some lo ∧ List.find? (fun j => decide (j.id = i.id)) s.ulg.ft.inst = some i ∧ i.sigA = some
      (b.data.toNat * 2 ^ 64 + lo) ∧ i.sigB = none ∧ i.coreB = some (64 * (↑b.cluster : Nat) + (↑b.core : Nat))) ∧
    (∃ (s : State) (b : FtBeat) (lo : Nat) (i : FtInst) (a : Nat), s.ulg.domainOn 18 = true ∧ b.opReserved = false ∧
      b.par = ftParity 2 b ∧ s.ulg.rplRuns (64 * (↑b.cluster : Nat) + (↑b.core : Nat)) = false ∧ (s.ulg.ft.core.get
      (64 * (↑b.cluster : Nat) + (↑b.core : Nat))).run = some i.id ∧ (s.ulg.ft.core.get (64 * (↑b.cluster : Nat) +
      (↑b.core : Nat))).sigLo = some lo ∧ List.find? (fun j => decide (j.id = i.id)) s.ulg.ft.inst = some i ∧ i.sigA =
      some a ∧ a ≠ b.data.toNat * 2 ^ 64 + lo ∧ i.sigB = none ∧ i.coreB = some (64 * (↑b.cluster : Nat) + (↑b.core :
      Nat))) ∧
    (∃ (s : State) (b : FtBeat) (lo : Nat) (i : FtInst) (x : Nat), s.ulg.domainOn 18 = true ∧ b.opReserved = false ∧
      b.par = ftParity 2 b ∧ s.ulg.rplRuns (64 * (↑b.cluster : Nat) + (↑b.core : Nat)) = false ∧ (s.ulg.ft.core.get
      (64 * (↑b.cluster : Nat) + (↑b.core : Nat))).run = some i.id ∧ (s.ulg.ft.core.get (64 * (↑b.cluster : Nat) +
      (↑b.core : Nat))).sigLo = some lo ∧ List.find? (fun j => decide (j.id = i.id)) s.ulg.ft.inst = some i ∧ i.sigA =
      some (b.data.toNat * 2 ^ 64 + lo) ∧ i.sigB = some x) ∧
    (∃ (s : State) (core : Fin 8192) (i : FtInst), (s.ulg.ft.core.get (↑core : Nat)).run = some i.id ∧ List.find? (fun
      j => decide (j.id = i.id)) s.ulg.ft.inst = some i ∧ i.sigA = none) ∧
    (∃ (s : State) (i : FtInst), (List.find? (fun j => decide (j.seq = i.seq ∧ (j.oneResult = true ∨ j.awaitsArbiter =
      true))) s.ulg.ft.inst = some i) ∧ i.oneResult = true) := by
  refine ⟨⟨w03d, { fb0 0 with par := !(fb0 0).par }, ?_⟩,
    ⟨w03d, { fb0 0 with par := !(fb0 0).par }, 7, i03, ?_⟩,
    ⟨w03e, { fb0 0 with par := !(fb0 0).par }, 7, i03b, ?_⟩,
    ⟨(ft03 { i03b with sigA := some 5 }), { fb0 0 with par := !(fb0 0).par }, 7, { i03b with sigA := some 5 }, 5, ?_⟩,
    ⟨(ft03 { i03b with sigA := some (60000 * 2 ^ 64 + 7), sigB := some 9 }), { fb0 0 with par := !(fb0 0).par }, 7, { i03b with sigA := some (60000 * 2 ^ 64 + 7), sigB := some 9 }, 9, ?_⟩,
    ⟨w03d, 197, i03, ?_⟩,
    ⟨w03f, { i03 with sigA := some 5 }, ?_⟩⟩ <;>
    decide +kernel

theorem witness_TileCapture :
    (∃ (s : State) (b : TapBeat), s.ulg.domainOn 19 = true ∧ tapParityBad b = false ∧ descValid b.data.toNat = true ∧
      s.ulg.cfgOn ULG_TILE_CFG_EN = true ∧ (↑b.tap : Nat) < s.ulg.cfg ULG_TILE_CFG_TAPS ∧ s.ulg.reg
      ULG_FLT_STATUS_STATE = 0 ∧ s.ulg.p.timed = true ∧ s.ulg.seedSelects (↑b.tap : Nat) (s.ulg.tile.count.get (↑b.tap
      : Nat)) = true ∧ s.ulg.tile.tile.get (↑b.tap : Nat) = none ∧ s.ulg.tile.reserved + tileRecordLen b.data.toNat ≤
      6 * 2 ^ 20) ∧
    (∃ (s : State) (kind : Fin 8) (b : TapBeat) (o : OpenTile), s.ulg.domainOn 19 = true ∧ s.ulg.tile.tile.get (↑b.tap
      : Nat) = some o ∧ tapParityBad b = false ∧ (↑kind : Nat) = tileKindAt (tilePlan o.desc) o.beats.length ∧
      o.beats.length < tileBeats o.desc) ∧
    (∃ (s : State) (b : TapBeat) (o : OpenTile), s.ulg.domainOn 19 = true ∧ s.ulg.tile.tile.get (↑b.tap : Nat) = some
      o ∧ o.beats.length = tileBeats o.desc) ∧
    (∃ (s : State) (tap : Fin 32) (o : OpenTile), s.ulg.tile.tile.get (↑tap : Nat) = some o) := by
  refine ⟨⟨w03g, tap0, ?_⟩,
    ⟨w03h, 1, tap0, o03, ?_⟩,
    ⟨w03i, tap0, o03b, ?_⟩,
    ⟨w03h, 4, o03, ?_⟩⟩ <;>
    decide +kernel

theorem witness_LinkStatesFollowTheirEvents :
    (∃ (s : State) (e : LinkEnd), (s.endReg e fun x => x.state) ≤ 1 ∧ s.endEnabled e = true) ∧
    (∃ (s : State) (e : LinkEnd), (s.endReg e fun x => x.state) ≤ 1 ∧ s.endEnabled e = true ∧ s.endClosing e = false) ∧
    (∃ (s : State) (e : LinkEnd), (s.endReg e fun x => x.state) = 2 ∧ s.endClosing e = false) ∧
    (∃ (s : State) (e : LinkEnd), (s.endReg e fun x => x.state) = 4 ∧ s.endClosing e = false) ∧
    (∃ (s : State) (e : LinkEnd), ((s.endReg e fun x => x.state) = 3 ∨ (s.endReg e fun x => x.state) = 4) ∧ 16 ≤
      (s.endPort e).violRun ∧ s.endClosing e = false) ∧
    (∃ (s : State) (e : LinkEnd), (s.endReg e fun x => x.state) = 3) ∧
    (∃ (s : State) (e : LinkEnd), (s.endReg e fun x => x.state) = 4) ∧
    (∃ (s : State) (e : LinkEnd), (s.endReg e fun x => x.state) = 5 ∧ s.endEnabled e = true) := by
  refine ⟨⟨w01a, (.ulg 1), ?_⟩,
    ⟨w01a, (.ulg 1), ?_⟩,
    ⟨(w04b 2 1), (.agg 3), ?_⟩,
    ⟨(w04b 4 2), (.agg 3), ?_⟩,
    ⟨(w04b 3 2), (.agg 3), ?_⟩,
    ⟨w01d, (.agg 3), ?_⟩,
    ⟨(w04b 4 2), (.agg 3), ?_⟩,
    ⟨(w04b 5 0), (.agg 3), ?_⟩⟩ <;>
    decide +kernel

theorem witness_FlitsAreTakenInOrder :
    (∃ (s : State) (e : LinkEnd) (f : Flit), ((s.endReg e fun x => x.state) = 3 ∨ (s.endReg e fun x => x.state) = 4) ∧
      f.crcGood = false) ∧
    (∃ (s : State) (e : LinkEnd) (f : Flit) (done : List TxFlit) (left : List TxFlit), (s.endReg e fun x => x.state) =
      3 ∧ f.crcGood = true ∧ f.ftypeOther = none ∧ f.sessTag = (s.endReg e fun x => x.nonce) % 65536 ∧ CtrlSlot.breaks
      (endIsAgg e) f.ctrl = false ∧ f.nak = false ∧ (∀ (p : Fin 16), e = LinkEnd.agg p → s.agg.reg (DP_STATUS_ROLE (↑p
      : Nat)) ≠ 1 ∧ s.agg.heldAt (↑p : Nat) ≠ 2) ∧ ackSplit (s.endPort e).unacked (s.endPort e).txSeq f.ackSeq = some
      (done, left)) ∧
    (∃ (s : State) (e : LinkEnd) (f : Flit) (done : List TxFlit) (left : List TxFlit), (s.endReg e fun x => x.state) =
      3 ∧ f.crcGood = true ∧ f.ftypeOther = none ∧ f.sessTag = (s.endReg e fun x => x.nonce) % 65536 ∧ CtrlSlot.breaks
      (endIsAgg e) f.ctrl = false ∧ f.nak = false ∧ (∀ (p : Fin 16), e = LinkEnd.agg p → s.agg.reg (DP_STATUS_ROLE (↑p
      : Nat)) ≠ 1 ∧ s.agg.heldAt (↑p : Nat) ≠ 2) ∧ ackSplit (s.endPort e).unacked (s.endPort e).txSeq f.ackSeq = some
      (done, left) ∧ f.fseq = (s.endPort e).rxNext ∧ f.fseq < 256 ∧ f.stream = 0 ∧ f.plen ≤ 228) ∧
    (∃ (s : State) (e : LinkEnd), (s.endReg e fun x => x.state) = 3 ∧ (s.endPort e).unacked ≠ []) ∧
    (∃ (s : State) (e : LinkEnd), (s.endReg e fun x => x.state) = 2) ∧
    (∃ (s : State) (e : LinkEnd) (p : Fin 16) (c : OutCmd), e = LinkEnd.agg p ∧ (s.endReg e fun x => x.state) = 3 ∧
      (s.endPort e).unacked.length < 64 ∧ List.find? (fun c' => !c'.sent) (s.agg.die.get (↑p : Nat)).cmds = some c) ∧
    (∃ (s : State) (e : LinkEnd) (x : Fin 2) (r : Resp) (rest : List Resp), e = LinkEnd.ulg x ∧ (s.endReg e fun x =>
      x.state) = 3 ∧ (s.endPort e).unacked.length < 64 ∧ (s.ulg.link.port.get (↑x : Nat)).respQ = r :: rest) := by
  refine ⟨⟨w01d, (.agg 3), { crcGood := false }, ?_⟩,
    ⟨(w04b 3 2), (.agg 3), fl04, dl04, lf04, ?_⟩,
    ⟨(w04b 3 2), (.agg 3), fl04, dl04, lf04, ?_⟩,
    ⟨(w04b 3 2), (.agg 3), ?_⟩,
    ⟨(w04b 2 1), (.agg 3), ?_⟩,
    ⟨w04c, (.agg 3), 3, { seq := 2, opcode := 2, addr := 8, data := [5], count := 1 }, ?_⟩,
    ⟨(w04u 3 2), (.ulg 1), 1, { opcode := 6, seq := 3 }, [], ?_⟩⟩ <;>
    decide +kernel

theorem witness_SessionsOpenAndResume :
    (∃ (s : State) (p : Fin 16), s.agg.reg (DP_STATUS_STATE (↑p : Nat)) = 2 ∧ s.agg.reg (DP_STATUS_SESSION (↑p : Nat))
      = 0) ∧
    (∃ (s : State) (x : Fin 2) (nonce : Nat), nonce < 2 ^ 64 ∧ s.ulg.reg (ULG_LINK_STATUS_STATE (↑x : Nat)) = 2 ∧
      s.ulg.reg (ULG_LINK_STATUS_SESSION (↑x : Nat)) = 0) ∧
    (∃ (s : State) (x : Fin 2), s.ulg.reg (ULG_LINK_STATUS_STATE (↑x : Nat)) = 2 ∧ s.ulg.reg (ULG_LINK_STATUS_SESSION
      (↑x : Nat)) = 3 ∧ s.ulg.reg (ULG_LINK_STATUS_FULL_REQ (↑x : Nat)) = 0) ∧
    (∃ (s : State) (p : Fin 16) (k : HelloAck), k.reservedSet = false ∧ s.agg.reg (DP_STATUS_STATE (↑p : Nat)) = 2 ∧
      s.agg.reg (DP_STATUS_SESSION (↑p : Nat)) = 1 ∧ k.sessTag = s.agg.reg (DP_NONCE_NONCE (↑p : Nat)) % 65536 ∧
      (s.agg.die.get (↑p : Nat)).l.resuming = false ∧ k.unknown = false ∧ k.fullReq = false ∧ k.resumed = false) := by
  refine ⟨⟨w04d, 3, ?_⟩,
    ⟨(w04u 2 0), 1, 0, ?_⟩,
    ⟨w04e, 1, ?_⟩,
    ⟨w04f, 3, { dieUid := 77, sessTag := 7 }, ?_⟩⟩ <;>
    decide +kernel

theorem witness_CommandsRunOnceInOrder :
    (∃ (s : State) (x : Fin 2) (c : Cmd), s.ulg.inTurn x c) ∧
    (∃ (s : State) (x : Fin 2) (c : Cmd), s.ulg.inTurn x c ∧ c.arg % 2 = (↑x : Nat)) ∧
    (∃ (s : State) (x : Fin 2) (c : Cmd) (r : Resp), s.ulg.repeats x c r) ∧
    (∃ (s : State) (x : Fin 2) (c : Cmd) (r : Resp), s.ulg.repeats x c r ∧ s.ulg.p.timed = true) ∧
    (∃ (s : State) (x : Fin 2) (c : Cmd), s.ulg.inTurn x c ∧ badRun (Cmd.offsets c) = true) ∧
    (∃ (s : State) (x : Fin 2) (c : Cmd), s.ulg.inTurn x c ∧ badRun (Cmd.offsets c) = false) ∧
    (∃ (s : State) (x : Fin 2) (c : Cmd), s.ulg.inTurn x c ∧ s.ulg.p.timed = true ∧ s.ulg.p.copy = none ∧ firstBreach
      (s.ulg.breaches s.ulg.p.staged) = none) ∧
    (∃ (s : State) (x : Fin 2) (c : Cmd) (b : Breach), s.ulg.inTurn x c ∧ s.ulg.p.timed = true ∧ s.ulg.p.copy = none ∧
      firstBreach (s.ulg.breaches s.ulg.p.staged) = some b) ∧
    (∃ (s : State) (x : Fin 2) (l : List Byte), s.ulg.inTurn x (readCmd l) ∧ commandOf x (beAt l 0 1) (readCmd l) =
      none ∧ beAt l 0 1 ≠ 16) := by
  refine ⟨⟨w04g, 1, c04, ?_⟩,
    ⟨w04g, 1, c04, ?_⟩,
    ⟨w04g, 1, { c04 with seq := 8 }, { opcode := 6, seq := 8 }, ?_⟩,
    ⟨w04g, 1, { c04 with seq := 8 }, { opcode := 6, seq := 8 }, ?_⟩,
    ⟨w04g, 1, { c04 with addr := 0xFFF0 }, ?_⟩,
    ⟨w04g, 1, c04, ?_⟩,
    ⟨w04g, 1, c04, ?_⟩,
    ⟨w04h, 1, c04, ((firstBreach (w04h.ulg.breaches w04h.ulg.p.staged)).getD (0,0)), ?_⟩,
    ⟨(w04u 3 2), 1, copy06, ?_⟩⟩ <;>
    first
    | decide +kernel
    | ((repeat' apply And.intro) <;> first
        | decide +kernel
        | rfl)

theorem witness_ReplayCommandsHaveTheirEffect :
    (∃ (s : State) (x : Fin 2) (c : Cmd), s.ulg.inTurn x c ∧ c.addr = 0 ∧ s.ulg.reg ULG_RPL_STATUS_STATE = 0 ∧
      s.ulg.rplOpenOk c (bitsOf (c.data.getD 1 0) 0 13) (bitsOf (c.data.getD 1 0) 16 3) (bitsOf (c.data.getD 1 0) 32
      16) (c.data.getD 2 0 % 2 ^ 32) (c.data.getD 3 0 + c.data.getD 4 0 * 2 ^ 64 + c.data.getD 5 0 * 2 ^ 128 +
      c.data.getD 6 0 * 2 ^ 192) = true) ∧
    (∃ (s : State) (x : Fin 2) (c : Cmd), s.ulg.inTurn x c ∧ c.addr = 0 ∧ s.ulg.reg ULG_RPL_STATUS_STATE = 1 ∧ c.arg /
      256 = s.ulg.rpl.words.length ∧ 8 * (s.ulg.rpl.words.length + (List.take c.count c.data).length) ≤
      s.ulg.rpl.imgLen) ∧
    (∃ (s : State) (x : Fin 2) (c : Cmd), s.ulg.inTurn x c ∧ c.addr = 0 ∧ s.ulg.reg ULG_RPL_STATUS_STATE = 1 ∧ 8 *
      s.ulg.rpl.words.length = s.ulg.rpl.imgLen) ∧
    (∃ (s : State) (x : Fin 2) (c : Cmd), s.ulg.inTurn x c ∧ c.addr = 0) ∧
    (∃ (s : State) (x : Fin 2) (c : Cmd), s.ulg.inTurn x c ∧ c.addr = 0 ∧ s.ulg.reg ULG_RPL_STATUS_STATE ≠ 0) ∧
    (∃ (s : State), s.ulg.reg ULG_RPL_STATUS_STATE = 3) := by
  refine ⟨⟨w04g, 1, o04, ?_⟩,
    ⟨(w04i 1), 1, { seq := 9, arg := 2 * 256 + 1, count := 1, data := [8] }, ?_⟩,
    ⟨w04j, 1, o04, ?_⟩,
    ⟨w04g, 1, o04, ?_⟩,
    ⟨(w04i 1), 1, o04, ?_⟩,
    ⟨(w04i 3), ?_⟩⟩ <;>
    first
    | decide +kernel
    | ((repeat' apply And.intro) <;> first
        | decide +kernel
        | rfl)

theorem witness_RolesAndResponses :
    (∃ (s : State) (p : Fin 16) (c : OutCmd) (r : Resp) (rest : List OutCmd), (s.agg.die.get (↑p : Nat)).cmds = c ::
      rest ∧ c.seq = r.seq ∧ r.status ≤ 6 ∧ (∀ k ∈ rest, k.seq ≠ r.seq) ∧ c.use = CmdUse.plain ∧ (s.agg.die.get (↑p :
      Nat)).heldCmds = []) ∧
    (∃ (s : State) (p : Fin 16) (r : Resp), (6 < r.status ∨ ∀ c ∈ (s.agg.die.get (↑p : Nat)).cmds, c.seq ≠ r.seq)) ∧
    (∃ (s : State) (p : Fin 16) (slot : Nat), s.agg.reg CFG_STATUS_STATE ≠ 5 ∧ s.agg.slotServed (↑p : Nat) = some slot
      ∧ s.agg.role.get slot = 1) ∧
    (∃ (s : State) (p : Fin 16) (slot : Nat), s.agg.reg CFG_STATUS_STATE ≠ 5 ∧ s.agg.slotServed (↑p : Nat) = some slot
      ∧ s.agg.role.get slot ≠ 1) ∧
    (∃ (s : State) (p : Fin 16) (t0 : Nat), (s.agg.die.get (↑p : Nat)).upSince = some t0 ∧ s.agg.reg (DP_STATUS_STATE
      (↑p : Nat)) = 3) := by
  refine ⟨⟨w04c, 3, (match (w04c.agg.die.get (↑3 : Nat)).cmds with | (c :: _) => c | _ => default), { opcode := 1, seq := 1, data := [2 ^ 64 - 1] }, (match (w04c.agg.die.get (↑3 : Nat)).cmds with | (_ :: rest) => rest | _ => default), ?_⟩,
    ⟨w01a, 3, { opcode := 6, seq := 3 }, ?_⟩,
    ⟨w04k, 3, 2, ?_⟩,
    ⟨(w05a 0), 3, 2, ?_⟩,
    ⟨w04k, 3, 40, ?_⟩⟩ <;>
    decide +kernel

theorem witness_IngestHasItsEffect :
    (∃ (s : State) (p : Fin 16) (st : Fin 16) (r : IngRec) (rest : List IngRec), s.agg.ing.ready.get (rxKey (↑p : Nat)
      (↑st : Nat)) = r :: rest ∧ s.agg.gasp = false ∧ s.agg.judge r.slot (↑st : Nat) (parseHeader (typeOfStream (↑st :
      Nat)) r.bytes) = OrderVerdict.dup) ∧
    (∃ (s : State) (p : Fin 16) (st : Fin 16) (r : IngRec) (rest : List IngRec), s.agg.ing.ready.get (rxKey (↑p : Nat)
      (↑st : Nat)) = r :: rest ∧ s.agg.gasp = false ∧ s.agg.judge r.slot (↑st : Nat) (parseHeader (typeOfStream (↑st :
      Nat)) r.bytes) = OrderVerdict.early) ∧
    (∃ (s : State) (p : Fin 16) (st : Fin 16) (r : IngRec) (rest : List IngRec) (id : Nat) (jump : Bool),
      s.agg.ing.ready.get (rxKey (↑p : Nat) (↑st : Nat)) = r :: rest ∧ s.agg.gasp = false ∧ s.agg.judge r.slot (↑st :
      Nat) (parseHeader (typeOfStream (↑st : Nat)) r.bytes) = OrderVerdict.inOrder id jump) ∧
    (∃ (s : State) (p : Fin 16) (r : IngRec) (rest : List IngRec) (id : Nat) (jump : Bool), s.agg.ing.ready.get (rxKey
      (↑p : Nat) 4) = r :: rest ∧ s.agg.gasp = false ∧ s.agg.ringOn r.ring = true ∧ s.agg.judge r.slot 4 (parseHeader
      2 r.bytes) = OrderVerdict.inOrder id jump) ∧
    (∃ (s : State), s.agg.cfg ING_CFG_SWEEP_MS ≠ 0) ∧
    (∃ (s : State) (loc : Nat) (e : StEntry), s.agg.reg CFG_STATUS_STATE ≠ 5 ∧ s.agg.stAt loc = some e) ∧
    (∃ (s : State) (loc : Nat), s.agg.reg CFG_STATUS_STATE ≠ 5 ∧ s.agg.stAt loc = none) ∧
    (∃ (s : State) (loc : Nat) (e : StEntry), s.agg.reg CFG_STATUS_STATE ≠ 5 ∧ loc < 2 ^ ING_ST_RESULT_LOC.width ∧
      s.agg.stFind (s.agg.reg ING_ST_DATA0_UID) (s.agg.reg ING_ST_DATA1_CLASS) = some (loc, e)) ∧
    (∃ (s : State) (loc : Nat), s.agg.reg CFG_STATUS_STATE ≠ 5 ∧ (s.agg.reg ING_ST_DATA1_PORT < 28 ∨ s.agg.reg
      ING_ST_DATA1_PORT = 31) ∧ s.agg.ringOn (s.agg.reg ING_ST_DATA1_RING) = true ∧ s.agg.stFind (s.agg.reg
      ING_ST_DATA0_UID) (s.agg.reg ING_ST_DATA1_CLASS) = none ∧ s.agg.stFree (s.agg.reg ING_ST_DATA0_UID) (s.agg.reg
      ING_ST_DATA1_CLASS) = some loc) ∧
    (∃ (s : State) (ring : Nat), (s.agg.ring ring).mode = 3 ∧ (∀ c ∈ (s.agg.ring ring).consumers, (s.agg.ring
      ring).writeSeq ≤ c)) := by
  refine ⟨⟨(w05a 0), 3, 4, r05, [], ?_⟩,
    ⟨(w05a 99), 3, 4, r05, [], ?_⟩,
    ⟨w05z, 3, 4, r05, [], 0, false, ?_⟩,
    ⟨w05z, 3, r05, [], 0, false, ?_⟩,
    ⟨w01a, ?_⟩,
    ⟨w05b, 0, { e05 with uid := 44, static := false, hit := false, aged := true }, ?_⟩,
    ⟨w01a, 0, ?_⟩,
    ⟨w05b, 21, e05, ?_⟩,
    ⟨w05c, 22376, ?_⟩,
    ⟨w05b, 4, ?_⟩⟩ <;>
    decide +kernel

theorem witness_ShedErrorsAndAperture :
    (∃ (s : State) (addr : Nat), s.agg.recordsAt (addr / 64) = [] ∧ (s.agg.shed.stackErr.get (s.agg.stackOf addr)).2.2
      + 1 < s.agg.cfg SHED_CFG_UE_LIMIT ∧ s.agg.reg SHED_ECC_FIRST_VALID = 1) ∧
    (∃ (s : State) (addr : Nat) (r : Nat) (q : RingRec), s.agg.recordsAt (addr / 64) = [(r, q)] ∧ q.mirrored = true) ∧
    (∃ (s : State) (l : List Byte) (r : Nat) (seq : Nat) (rest : List (Nat × Nat)) (q : RingRec), s.agg.shed.repair =
      (r, seq) :: rest ∧ (s.agg.ring r).find seq = some q ∧ List.find? (copyOf q) s.agg.shed.fetched = some l) ∧
    (∃ (s : State) (n : Nat), s.agg.cfg SHED_CFG_SCRUB_H ≠ 0 ∧ s.agg.shed.scrubPos + 64 < s.agg.shedSize ∧
      s.agg.granuleLost (s.agg.shed.scrubPos / 64) = false ∧ s.agg.reg SHED_ECC_COUNT_CORR < 2 ^ 32 ∧ n ≤ 4) ∧
    (∃ (s : State) (n : Nat), s.agg.cfg SHED_CFG_SCRUB_H ≠ 0 ∧ s.agg.shed.scrubPos + 64 < s.agg.shedSize ∧
      s.agg.granuleLost (s.agg.shed.scrubPos / 64) = false ∧ s.agg.reg SHED_ECC_COUNT_CORR < 2 ^ 32 ∧ 4 < n ∧ n ≤ 8) ∧
    (∃ (s : State), s.agg.cfg SHED_CFG_SCRUB_H ≠ 0 ∧ s.agg.shedSize ≤ s.agg.shed.scrubPos + 64 ∧ s.agg.granuleLost
      (s.agg.shed.scrubPos / 64) = false) ∧
    (∃ (s : State) (off : Nat) (bytes : List Byte) (addr : Nat), addr = s.agg.reg CFG_APERTURE_BASE_4G * 2 ^ 32 + off
      % 2 ^ 32 ∧ (s.agg.reg CFG_STATUS_STATE = 4 ∧ s.agg.inRegion 8 addr bytes.length = true ∨ s.agg.reg
      CFG_STATUS_STATE = 5 ∧ addr + bytes.length ≤ 32 * 2 ^ 20)) ∧
    (∃ (s : State) (off : Nat) (bytes : List Byte) (addr : Nat), addr = s.agg.reg CFG_APERTURE_BASE_4G * 2 ^ 32 + off
      % 2 ^ 32 ∧ (¬(s.agg.reg CFG_STATUS_STATE = 4 ∧ s.agg.inRegion 8 addr bytes.length = true ∨ s.agg.reg
      CFG_STATUS_STATE = 5 ∧ addr + bytes.length ≤ 32 * 2 ^ 20))) := by
  refine ⟨⟨w06a, 0, ?_⟩,
    ⟨w06a, (1024 * 4096 + 8), 4, { q06 with acked := true, mirrored := true }, ?_⟩,
    ⟨(w06r [copyG]), copyG, 4, 0, [], { q06 with len := 16 }, ?_⟩,
    ⟨w01a, 0, ?_⟩,
    ⟨w01a, 7, ?_⟩,
    ⟨(aW [] [(SHED_CFG_SCRUB_H, 24)] fun a => { a with shed := { a.shed with scrubPos := a.shedSize } }), ?_⟩,
    ⟨w06c, 0x12345678, copy06, 305419896, ?_⟩,
    ⟨w01a, 0, copy06, 0, ?_⟩⟩ <;>
    decide +kernel

theorem witness_MirrorSenderHasItsEffect :
    (∃ (s : State), s.agg.safe = false ∧ (s.agg.reg SHED_MIR_STATUS_STATE = 1 ∨ s.agg.reg SHED_MIR_STATUS_STATE = 5 ∧
      s.agg.shed.resetHello = true ∧ s.agg.cfgOn SHED_MIR_CFG_EN = true) ∧ s.agg.cfg SHED_MIR_CFG_OWN_TAG ≠ s.agg.cfg
      SHED_MIR_CFG_PARTNER_TAG) ∧
    (∃ (s : State), s.agg.safe = false ∧ (s.agg.reg SHED_MIR_STATUS_STATE = 1 ∨ s.agg.reg SHED_MIR_STATUS_STATE = 5 ∧
      s.agg.shed.resetHello = true ∧ s.agg.cfgOn SHED_MIR_CFG_EN = true) ∧ s.agg.cfg SHED_MIR_CFG_OWN_TAG = s.agg.cfg
      SHED_MIR_CFG_PARTNER_TAG) ∧
    (∃ (s : State) (tag : Nat) (h : MirHead), h.taken = true ∧ s.agg.reg SHED_MIR_STATUS_STATE = 1 ∧ tag ≠ s.agg.cfg
      SHED_MIR_CFG_OWN_TAG) ∧
    (∃ (s : State) (h : MirHead) (status : Nat), h.taken = true ∧ s.agg.reg SHED_MIR_STATUS_STATE = 1 ∧ (status = 1 ∨
      status = 2)) ∧
    (∃ (s : State) (h : MirHead), h.taken = true ∧ 1 ≤ s.agg.reg SHED_MIR_STATUS_STATE ∧ s.agg.reg
      SHED_MIR_STATUS_STATE ≤ 3) ∧
    (∃ (h : MirHead), h.taken = false) ∧
    (∃ (s : State) (h : MirHead) (ring : Nat) (ackSeq : Nat) (upto : Nat), h.taken = true ∧ (s.agg.reg
      SHED_MIR_STATUS_STATE = 2 ∨ s.agg.reg SHED_MIR_STATUS_STATE = 3) ∧ s.agg.shed.journal = [] ∧ s.agg.shed.left =
      [] ∧ (∀ (slot : Nat), (s.agg.conf.push.get slot).held = none) ∧ (s.agg.ring ring).waits = [] ∧ upto = min
      (extendNear 32 ackSeq (s.agg.ring ring).writeSeq) (s.agg.ring ring).writeSeq) ∧
    (∃ (s : State) (h : MirHead) (src : Nat), h.taken = true ∧ src ≠ s.agg.partner) ∧
    (∃ (src : Nat) (ring : Nat) (seq : Nat) (l : List Byte) (fetched : Bool) (m : MirrorPart), m ∈ mirParts src ring
      seq l fetched) ∧
    (∃ (s : State) (ring : Nat) (q : RingRec) (rest : List RingRec), (s.agg.reg SHED_MIR_STATUS_STATE = 2 ∨ s.agg.reg
      SHED_MIR_STATUS_STATE = 3) ∧ (s.agg.ring ring).owed = q :: rest) ∧
    (∃ (s : State), s.agg.reg SHED_MIR_STATUS_STATE = 2 ∧ s.agg.tailBytes ≠ 0) ∧
    (∃ (s : State), s.agg.reg SHED_MIR_STATUS_STATE = 3) ∧
    (∃ (s : State), s.agg.cfg SHED_MIR_CFG_LIMIT_GBPS * 100000 < s.agg.shed.winBytes ∧ (∀ c < 256, s.agg.loRank c = 0
      ∨ s.agg.isLocalOnly c = true)) ∧
    (∃ (s : State) (c : Nat), s.agg.cfg SHED_MIR_CFG_LIMIT_GBPS * 100000 < s.agg.shed.winBytes ∧ c < 256 ∧
      s.agg.loRank c ≠ 0 ∧ s.agg.isLocalOnly c = false) ∧
    (∃ (s : State), s.agg.shed.winBytes ≤ s.agg.cfg SHED_MIR_CFG_LIMIT_GBPS * 100000) := by
  refine ⟨⟨(w06d 1), ?_⟩,
    ⟨(aW [(SHED_MIR_STATUS_STATE, 1)] [(SHED_MIR_CFG_EN, 1)] (aT 2 5000)), ?_⟩,
    ⟨(w06d 1), 0, {}, ?_⟩,
    ⟨(w06d 1), {}, 2, ?_⟩,
    ⟨(w05a 0), {}, ?_⟩,
    ⟨{ typeOther := some 0x40 }, ?_⟩,
    ⟨(w05a 0), {}, 0, 0, 0, ?_⟩,
    ⟨w01a, {}, 50, ?_⟩,
    ⟨1, 4, 7, copy06, false, { src := 1, ring := 4, ringSeq := 7, offset := 0, total := 56, bytes := copy06 }, ?_⟩,
    ⟨(w06d 2), 4, q06, [], ?_⟩,
    ⟨(w06d 2), ?_⟩,
    ⟨(w06d 3), ?_⟩,
    ⟨(aW [] [(SHED_MIR_CFG_LIMIT_GBPS, 1)] fun a => { aT 2 5000 a with shed := { a.shed with winBytes := 200000, marked := [2, 4] } }), ?_⟩,
    ⟨(w06d 1), 2, ?_⟩,
    ⟨w01a, ?_⟩⟩ <;>
    first
    | decide +kernel
    | ((repeat' apply And.intro) <;> first
        | decide +kernel
        | rfl
        | (intro _; rfl))

theorem witness_MirrorReceiverHasItsEffect :
    (∃ (s : State) (src : Nat) (tag : Nat) (reset : Bool) (h : MirHead), h.taken = true ∧ s.agg.isSource src = true ∧
      tag ≠ s.agg.cfg SHED_MIR_CFG_OWN_TAG ∧ ((s.agg.shed.src.get src).fenced = false ∨ reset = true)) ∧
    (∃ (s : State) (src : Nat) (tag : Nat) (reset : Bool) (h : MirHead), h.taken = true ∧ s.agg.isSource src = true ∧
      tag ≠ s.agg.cfg SHED_MIR_CFG_OWN_TAG ∧ (s.agg.shed.src.get src).fenced = true ∧ reset = false) ∧
    (∃ (s : State) (src : Nat) (tag : Nat) (h : MirHead), h.taken = true ∧ (s.agg.isSource src = false ∨ tag =
      s.agg.cfg SHED_MIR_CFG_OWN_TAG)) ∧
    (∃ (s : State) (m : MirrorPart), m.head.taken = true ∧ m.fetched = false ∧ (s.agg.shed.src.get m.src).fenced =
      false ∧ (s.agg.shed.src.get m.src).accepted = true ∧ m.ringSeq < 2 ^ 32 ∧ (s.agg.shed.src.get m.src).next.get
      m.ring = some m.ringSeq ∧ (s.agg.shed.src.get m.src).asm = [] ∧ m.offset = 0 ∧ m.bytes ≠ [] ∧ m.total =
      m.bytes.length ∧ m.ring = 65534 ∧ trailerGood (List.drop 40 m.bytes) = true ∧ (s.agg.shed.src.get
      m.src).journal.length < 4194304) ∧
    (∃ (s : State) (m : MirrorPart), m.head.taken = true ∧ m.fetched = false ∧ (s.agg.shed.src.get m.src).fenced =
      false ∧ (s.agg.shed.src.get m.src).accepted = true ∧ m.ringSeq < 2 ^ 32 ∧ (s.agg.shed.src.get m.src).next.get
      m.ring = some m.ringSeq ∧ (s.agg.shed.src.get m.src).asm = [] ∧ m.offset = 0 ∧ m.bytes ≠ [] ∧ m.total =
      m.bytes.length ∧ m.ring ≠ 65534 ∧ trailerGood (List.drop 40 m.bytes) = true) ∧
    (∃ (s : State) (m : MirrorPart), m.head.taken = true ∧ m.fetched = false ∧ (s.agg.shed.src.get m.src).fenced =
      false ∧ (s.agg.shed.src.get m.src).accepted = true ∧ m.ringSeq < 2 ^ 32 ∧ (s.agg.shed.src.get m.src).next.get
      m.ring = some m.ringSeq ∧ (s.agg.shed.src.get m.src).asm = [] ∧ m.offset = 0 ∧ m.bytes ≠ [] ∧ m.total =
      m.bytes.length ∧ trailerGood (List.drop 40 m.bytes) = false) ∧
    (∃ (s : State) (m : MirrorPart), m.head.taken = true ∧ m.fetched = false ∧ (s.agg.shed.src.get m.src).fenced =
      true) ∧
    (∃ (s : State) (f : FetchMsg), f.head.taken = true ∧ s.agg.shed.bad = [] ∧ (∀ c ∈ s.agg.shed.copies, 0 < c.len)) ∧
    (∃ (s : State) (f : FetchAsk) (qid : Nat) (h : MirHead) (ring : Nat) (seq : Nat) (q : RingRec), h.taken = true ∧
      s.agg.shed.fetches = [f] ∧ f.qid = qid ∧ f.use = FetchUse.repair ring seq ∧ (s.agg.ring ring).find seq = some q
      ∧ s.agg.shed.fetched.any (copyOf q) = true) ∧
    (∃ (s : State) (f : FetchAsk) (qid : Nat) (h : MirHead) (ring : Nat) (seq : Nat) (q : RingRec), h.taken = true ∧
      s.agg.shed.fetches = [f] ∧ f.qid = qid ∧ f.use = FetchUse.repair ring seq ∧ (s.agg.ring ring).find seq = some q
      ∧ s.agg.shed.fetched.any (copyOf q) = false) ∧
    (∃ (h : MirHead) (m : MirrorPart) (f : FetchMsg), h.taken = false ∧ m.head.taken = false ∧ f.head.taken = false) := by
  refine ⟨⟨w06e, 12, 0, false, {}, ?_⟩,
    ⟨(fenced06 w06e), 12, 0, false, {}, ?_⟩,
    ⟨w01a, 0, 0, {}, ?_⟩,
    ⟨w06e, { src := 12, ring := 65534, ringSeq := 2 ^ 32 - 1, offset := 0, total := 56, bytes := copy06 }, ?_⟩,
    ⟨(nextSrc [(4, some 7), (65534, some (2 ^ 32 - 1))]), { src := 12, ring := 4, ringSeq := 7, offset := 0, total := 56, bytes := copy06 }, ?_⟩,
    ⟨(nextSrc [(4, some 7), (65534, some (2 ^ 32 - 1))]), { src := 12, ring := 4, ringSeq := 7, offset := 0, total := 56, bytes := List.replicate 56 1 }, ?_⟩,
    ⟨(fenced06 w06e), { src := 12, ring := 65534, ringSeq := 2 ^ 32 - 1, offset := 0, total := 56, bytes := copy06 }, ?_⟩,
    ⟨w01a, { src := 9, qid := 0, fleetDie := 5, cls := 1, firstIdent := 0, lastIdent := 99 }, ?_⟩,
    ⟨(w06r [copyG]), f06, 5, {}, 4, 0, { q06 with len := 16 }, ?_⟩,
    ⟨(w06r []), f06, 5, {}, 4, 0, { q06 with len := 16 }, ?_⟩,
    ⟨{ typeOther := some 0x40 }, { src := 12, ring := 4, ringSeq := 7, offset := 0, total := 56, bytes := copy06, head := { version := 2 } }, { src := 9, qid := 0, fleetDie := 5, cls := 1, firstIdent := 0, lastIdent := 99, head := { version := 2 } }, ?_⟩⟩ <;>
    decide +kernel

theorem witness_JournalQueries :
    (∃ (q : JQueryMsg), q.head.taken = true ∧ q.mode ≤ 1) ∧
    (∃ (s : State) (m : JAnswerMsg) (q : JQuery), m.head.taken = true ∧ m.result ≤ 3 ∧ s.agg.shed.openQuery = none ∧
      s.agg.shed.query = some q ∧ q.qid = m.qid) ∧
    (∃ (s : State) (m : JAnswerMsg) (q : JQuery), m.head.taken = true ∧ m.result ≤ 3 ∧ s.agg.shed.query = none ∧
      s.agg.shed.openQuery = some q ∧ q.qid = m.qid) ∧
    (∃ (m : JAnswerMsg) (q : JQueryMsg), (m.head.taken = false ∨ 3 < m.result) ∧ (q.head.taken = false ∨ 1 < q.mode)) ∧
    (∃ (s : State), s.agg.openDue = true ∧ s.agg.shed.covered = none) ∧
    (∃ (s : State) (c : Nat), s.agg.openDue = true ∧ s.agg.shed.covered = some c ∧ c + 1 < 2 ^ 64 ∧ s.agg.p.nowSec < 2
      ^ 40 ∧ s.agg.shed.left = [] ∧ (∀ (slot : Nat), (s.agg.conf.push.get slot).held = none)) ∧
    (∃ (s : State) (v : Word), s.agg.reg CFG_STATUS_STATE ≠ 5 ∧ BitVec.toNat v % 2 = 1 ∧ (BitVec.toNat v / 8 % 2 ^ 11
      ≤ if BitVec.toNat v / 4 % 2 = 0 then 1024 else 32) ∧ BitVec.toNat v / 2 ^ 32 % 2 ^ 14 ≠ s.agg.reg
      CFG_STATUS_AGG_ID) ∧
    (∃ (s : State) (v : Word), s.agg.reg CFG_STATUS_STATE ≠ 5 ∧ BitVec.toNat v % 2 = 1 ∧ ((if BitVec.toNat v / 4 % 2 =
      0 then 1024 else 32) < BitVec.toNat v / 8 % 2 ^ 11)) ∧
    (∃ (s : State) (q : JQuery), s.agg.shed.query = some q) := by
  refine ⟨⟨{ src := 3, qid := 9, mode := 0, subject := 3, firstOp := 0, count := 4 }, ?_⟩,
    ⟨w06g, { qid := 5, result := 1, heldFrom := 0, coveredTo := 99, codes := [1, 2] }, { qid := 5 }, ?_⟩,
    ⟨(w06h.onAgg fun a => { a with shed := { a.shed with openQuery := some { qid := 5 } } }), { qid := 5, result := 1, heldFrom := 0, coveredTo := 99, codes := [1, 2] }, { qid := 5 }, ?_⟩,
    ⟨{ qid := 5, result := 4, heldFrom := 0, coveredTo := 99, codes := [] }, { src := 3, qid := 9, mode := 2, subject := 3, firstOp := 0, count := 4 }, ?_⟩,
    ⟨(w05a 0), ?_⟩,
    ⟨w06h, 77, ?_⟩,
    ⟨w01a, (BitVec.ofNat 64 (1 + 5 * 8 + 3 * 2 ^ 32)), ?_⟩,
    ⟨w01a, (BitVec.ofNat 64 (1 + 1025 * 8)), ?_⟩,
    ⟨w06g, { qid := 5 }, ?_⟩⟩ <;>
    first
    | decide +kernel
    | ((repeat' apply And.intro) <;> first
        | decide +kernel
        | rfl
        | (intro _; rfl))

theorem witness_ArchiveHasItsEffect :
    (∃ (s : State) (ring : Nat) (g : SegRec), List.find? (fun g' => decide (g'.ring = ring) && !g'.closed)
      s.agg.shed.segs = some g) ∧
    (∃ (s : State) (ring : Nat) (g : SegRec), List.find? (fun g' => decide (g'.ring = ring) && g'.closed &&
      g'.addr.isNone) s.agg.shed.segs = some g ∧ s.agg.gasp = false ∧ s.agg.domOn 13 = true) ∧
    (∃ (s : State), s.agg.reg CFG_STATUS_STATE ≠ 5 ∧ s.agg.reg SHED_DZ_STATUS_BUSY = 0) ∧
    (∃ (s : State), s.agg.reg SHED_DZ_STATUS_BUSY = 1 ∧ s.agg.gasp = false ∧ s.agg.domOn 13 = true) := by
  refine ⟨⟨(w06i false), 4, { g06 with closed := false }, ?_⟩,
    ⟨(w06i true), 4, { g06 with closed := true }, ?_⟩,
    ⟨w01a, ?_⟩,
    ⟨w06j, ?_⟩⟩ <;>
    decide +kernel

theorem witness_TallyRoundsHaveTheirEffect :
    (∃ (s : State) (round : Nat) (close : Nat), s.agg.cfgOn TALLY_CFG_EN = true ∧ s.agg.p.timed = true ∧ (∀ (c : Nat),
      s.agg.tly.closed = some c → laterRound round c = true) ∧ s.agg.tround round = none ∧ close = s.agg.roundClose
      round) ∧
    (∃ (s : State) (round : Nat) (close : Nat) (p : Nat) (ps : List Nat), s.agg.cfgOn TALLY_CFG_EN = true ∧
      s.agg.p.timed = true ∧ s.agg.safe = false ∧ (∀ (c : Nat), s.agg.tly.closed = some c → laterRound round c = true)
      ∧ s.agg.tly.rounds = [] ∧ close = s.agg.roundClose round ∧ (s.agg.tly.setOf round).mode ≠ 1 ∧ s.agg.redPorts = p
      :: ps ∧ s.agg.fab.launches = [] ∧ s.agg.reg SHED_JRN_NEXT_OP ≤ s.agg.opBound ∧ (∀ (us : Nat), us = s.agg.cfg
      TALLY_TIMING_COUNT_US ∨ us = s.agg.cfg TALLY_TIMING_DATA_US → max s.agg.p.nowNs (close + s.agg.cfg
      TALLY_TIMING_OBS_US * 1000) + 100 ≤ close + us * 1000)) ∧
    (∃ (s : State) (f : RedFrame), f.reserved = false ∧ s.agg.id % 2 = 1 ∧ f.src = s.agg.id - 1 ∧ s.agg.tround f.round
      = none) ∧
    (∃ (s : State) (f : RedFrame) (r : TRound), f.reserved = false ∧ s.agg.id % 2 = 1 ∧ f.src = s.agg.id - 1 ∧
      s.agg.tround f.round = some r ∧ r.cover = none) ∧
    (∃ (s : State) (f : RedFrame), (f.reserved = true ∨ s.agg.id % 2 = 0 ∨ f.src ≠ s.agg.id - 1)) ∧
    (∃ (s : State) (round : Nat) (r : TRound), s.agg.id % 2 = 1 ∧ s.agg.tround round = some r ∧ r.cover = none) ∧
    (∃ (s : State) (port : Fin 12) (ns : Nat) (n : Nat), n = (List.filter (fun x => decide (x.port = (↑port : Nat)))
      s.agg.fab.launches).length ∧ n < 4 ∧ s.agg.p.nowNs + 100 ≤ ns) ∧
    (∃ (s : State) (port : Fin 12) (n : Nat), n = (List.filter (fun x => decide (x.port = (↑port : Nat)))
      s.agg.fab.launches).length ∧ 4 ≤ n) ∧
    (∃ (s : State) (port : Fin 12) (ns : Nat) (n : Nat), n = (List.filter (fun x => decide (x.port = (↑port : Nat)))
      s.agg.fab.launches).length ∧ n < 4 ∧ ns < s.agg.p.nowNs + 100) ∧
    (∃ (s : State) (port : Fin 12) (l : Launch) (os : List OutPacket), s.agg.nextLaunch (↑port : Nat) = some l ∧
      s.agg.p.timed = true ∧ s.agg.safe = false ∧ s.agg.fabUp (↑port : Nat) = true ∧ l.kind = LaunchKind.frames os) ∧
    (∃ (s : State) (port : Fin 12) (l : Launch) (k : Nat) (r : TRound), s.agg.nextLaunch (↑port : Nat) = some l ∧
      s.agg.p.timed = true ∧ s.agg.safe = false ∧ s.agg.fabUp (↑port : Nat) = true ∧ l.kind = LaunchKind.count k ∧
      s.agg.tround k = some r ∧ r.out = false ∧ s.agg.p.nowNs ≤ r.dataNs ∧ l.ns ≤ r.dataNs ∧ s.agg.contribMirrored r =
      true) ∧
    (∃ (s : State) (port : Fin 12) (l : Launch) (k : Nat) (r : TRound), s.agg.nextLaunch (↑port : Nat) = some l ∧
      s.agg.p.timed = true ∧ s.agg.safe = false ∧ s.agg.fabUp (↑port : Nat) = true ∧ l.kind = LaunchKind.count k ∧
      s.agg.tround k = some r ∧ r.out = false ∧ s.agg.p.nowNs ≤ r.dataNs ∧ l.ns ≤ r.dataNs ∧ s.agg.contribMirrored r =
      false) ∧
    (∃ (s : State) (port : Fin 12) (l : Launch) (k : Nat) (r : TRound) (i : Nat), s.agg.nextLaunch (↑port : Nat) =
      some l ∧ s.agg.p.timed = true ∧ s.agg.safe = false ∧ s.agg.fabUp (↑port : Nat) = true ∧ l.kind = LaunchKind.data
      k ∧ s.agg.tround k = some r ∧ r.out = false ∧ (r.mismatch = false) ∧ r.started = true ∧ s.agg.p.nowNs ≤ r.dataNs
      ∧ l.ns ≤ r.dataNs ∧ (∀ p ∈ r.ports, s.agg.fabUp p = true) ∧ List.findIdx? (fun p => p == (↑port : Nat)) r.ports
      = some i) ∧
    (∃ (s : State) (f : RedFrame) (r : TRound), f.reserved = false ∧ s.agg.tround f.round = some r ∧ r.ring = false ∧
      r.count = none ∧ f.keyset % 2 ^ 64 = f.members * r.keyset % 2 ^ 64) ∧
    (∃ (s : State) (f : RedFrame) (r : TRound), f.reserved = false ∧ s.agg.tround f.round = some r ∧ r.ring = false ∧
      r.count = none ∧ f.keyset % 2 ^ 64 ≠ f.members * r.keyset % 2 ^ 64) ∧
    (∃ (s : State) (f : RedFrame) (r : TRound), f.reserved = false ∧ s.agg.tround f.round = some r ∧ r.ring = false ∧
      r.groupGood f = true ∧ (f.blocks.any fun x => x.badIdentity) = false ∧ List.find? (fun e => decide (e.1 =
      f.group)) r.results = none) ∧
    (∃ (s : State) (f : RedFrame) (r : TRound), f.reserved = false ∧ s.agg.tround f.round = some r ∧ r.ring = false ∧
      (r.groupGood f = false ∨ (f.blocks.any fun x => x.badIdentity) = true)) ∧
    (∃ (s : State) (f : RedFrame), f.reserved = false ∧ s.agg.tround f.round = none) ∧
    (∃ (f : RedFrame), f.reserved = true) ∧
    (∃ (s : State) (round : Nat) (r : TRound), s.agg.tround round = some r ∧ r.ring = false) ∧
    (∃ (s : State), s.agg.p.timed = false) ∧
    (∃ (s : State) (k : Nat), s.agg.tly.waitRound = some k ∧ s.agg.p.timed = true) := by
  refine ⟨⟨(w07a 2 []), 0, 1000000, ?_⟩,
    ⟨(w07a 2 []), 5, 6000000, 2, [], ?_⟩,
    ⟨(w07a 3 []), { src := 2, round := 5 }, ?_⟩,
    ⟨(w07a 3 [{ round := 5, closeNs := 4000000 }]), { src := 2, round := 5 }, { round := 5, closeNs := 4000000 }, ?_⟩,
    ⟨w01a, { round := 5, members := 3, dies := 4, keyset := 0 }, ?_⟩,
    ⟨(w07a 3 [{ round := 5, closeNs := 4000000 }]), 5, { round := 5, closeNs := 4000000 }, ?_⟩,
    ⟨w01a, 1, 0xFFF1, 0, ?_⟩,
    ⟨((w07a 2 []).onAgg fun a => { a with fab := { a.fab with launches := List.replicate 4 ⟨2, 6000000, .frames [{ rclass := 2, payload := zeros 8 }]⟩ } }), 2, 4, ?_⟩,
    ⟨w01a, 1, 0, 0, ?_⟩,
    ⟨(l07 (w07a 3 []) ⟨2, 6000000, .frames [{ rclass := 2, payload := zeros 8 }]⟩), 2, ⟨2, 6000000, .frames [{ rclass := 2, payload := zeros 8 }]⟩, [{ rclass := 2, payload := zeros 8 }], ?_⟩,
    ⟨(l07 ((w07a 2 [r07d]).onAgg (mirJ [77])) ⟨2, 6000000, .count 5⟩), 2, ⟨2, 6000000, .count 5⟩, 5, r07d, ?_⟩,
    ⟨(l07 (w07a 2 [r07d]) ⟨2, 6000000, .count 5⟩), 2, ⟨2, 6000000, .count 5⟩, 5, r07d, ?_⟩,
    ⟨(l07 (w07a 2 [{ r07d with started := true, ports := [2] }]) ⟨2, 6000000, .data 5⟩), 2, ⟨2, 6000000, .data 5⟩, 5, { r07d with started := true, ports := [2] }, 0, ?_⟩,
    ⟨(w07a 3 [{ round := 5, closeNs := 4000000 }]), { round := 5, members := 3, dies := 4, keyset := 0 }, { round := 5, closeNs := 4000000 }, ?_⟩,
    ⟨(w07a 3 [{ round := 5, closeNs := 4000000 }]), { round := 5, members := 3, keyset := 5 }, { round := 5, closeNs := 4000000 }, ?_⟩,
    ⟨(w07a 3 [r07r]), f07r, r07r, ?_⟩,
    ⟨(w07a 3 [{ round := 5, closeNs := 4000000 }]), { round := 5, members := 3, dies := 4, keyset := 0 }, { round := 5, closeNs := 4000000 }, ?_⟩,
    ⟨w01a, { round := 5, members := 3, dies := 4, keyset := 0 }, ?_⟩,
    ⟨{ reserved := true }, ?_⟩,
    ⟨(w07a 3 [{ round := 5, closeNs := 4000000 }]), 5, { round := 5, closeNs := 4000000 }, ?_⟩,
    ⟨State.reset, ?_⟩,
    ⟨((w07a 3 []).onAgg fun a => { a with tly := { a.tly with waitRound := some 7 } }), 7, ?_⟩⟩ <;>
    first
    | decide +kernel
    | ((repeat' apply And.intro) <;> first
        | decide +kernel
        | rfl
        | (rintro us (rfl | rfl) <;> decide +kernel))

theorem witness_RingFallbackHasItsEffect :
    (∃ (s : State) (round : Nat) (r : TRound), s.agg.tround round = some r ∧ r.ring = true ∧ r.started = false ∧ 0 <
      r.set.attempts) ∧
    (∃ (s : State) (round : Nat) (r : TRound), s.agg.tround round = some r ∧ r.ring = true ∧ r.started = true ∧
      r.stopped = true ∧ r.attempt + 1 < r.set.attempts) ∧
    (∃ (s : State) (f : RedFrame) (r : TRound) (d : (Nat × Nat × Nat × Nat) × RedFrame), f.reserved = false ∧
      s.agg.tround f.round = some r ∧ r.ring = true ∧ r.started = true ∧ f.attempt = r.attempt ∧ f.keyset = r.keyset ∧
      f.setDigest = (r.shape s.agg.id).digest ∧ r.stopped = false ∧ r.step < f.group ∧ (∀ x ∈ r.inbox, r.step <
      x.group ∧ x.group ≠ f.group) ∧ r.chunkOf ((r.shape s.agg.id).due f.group) f = some d ∧ f.nkeys = f.blocks.length
      ∧ (∀ b ∈ f.blocks, b.oct = r.set.oct b.key) ∧ (f.blocks.any fun x => x.badIdentity) = false ∧ (r.shape
      s.agg.id).due r.step ≠ []) ∧
    (∃ (s : State) (f : RedFrame) (r : TRound), f.reserved = false ∧ s.agg.tround f.round = some r ∧ r.ring = true ∧
      r.started = true ∧ f.attempt = r.attempt ∧ f.keyset = r.keyset ∧ f.setDigest = (r.shape s.agg.id).digest ∧
      (r.chunkOf ((r.shape s.agg.id).due f.group) f = none ∨ f.nkeys ≠ f.blocks.length ∨ (f.blocks.any fun x =>
      x.badIdentity) = true)) ∧
    (∃ (s : State) (f : RedFrame) (r : TRound), f.reserved = false ∧ s.agg.tround f.round = some r ∧ (r.ring = false ∨
      r.started = false ∨ f.attempt ≠ r.attempt ∨ f.keyset ≠ r.keyset ∨ f.setDigest ≠ (r.shape s.agg.id).digest)) ∧
    (∃ (s : State) (round : Nat) (r : TRound) (d : Nat × Nat × Nat × Nat), s.agg.safe = false ∧ s.agg.tround round =
      some r ∧ r.ring = true ∧ r.started = true ∧ r.stopped = false ∧ (r.shape s.agg.id).alive s.agg.id = true ∧ d ∈
      (r.shape s.agg.id).due r.step ∧ r.arrived d = none) ∧
    (∃ (s : State) (n : RingNote), n.head.reserved = false ∧ n.member < s.agg.tly.set.aggs) ∧
    (∃ (s : State) (n : RingNote), n.head.reserved = false ∧ n.head.src < s.agg.tly.set.aggs) ∧
    (∃ (s : State) (n : RingNote), (n.head.reserved = true ∨ s.agg.tly.set.aggs ≤ n.member ∧ s.agg.tly.set.aggs ≤
      n.head.src)) ∧
    (∃ (s : State) (round : Nat) (r : TRound), s.agg.tround round = some r) := by
  refine ⟨⟨(w07a 0 [r07]), 5, r07, ?_⟩,
    ⟨(w07a 0 [{ r07c with attempt := 0 }]), 5, { r07c with attempt := 0 }, ?_⟩,
    ⟨(w07a 0 [r07b]), f07, r07b, (match r07b.chunkOf ((r07b.shape (w07a 0 [r07b]).agg.id).due f07.group) f07 with | (some d) => d | _ => default), ?_⟩,
    ⟨(w07a 0 [r07b]), { f07 with nkeys := 9 }, r07b, ?_⟩,
    ⟨(w07a 3 [{ round := 5, closeNs := 4000000 }]), { round := 5, members := 3, dies := 4, keyset := 0 }, { round := 5, closeNs := 4000000 }, ?_⟩,
    ⟨(w07a 0 [r07b]), 5, r07b, (((r07b.shape 0).due 0).headD (0,0,0,0)), ?_⟩,
    ⟨(w07a 2 []), n07, ?_⟩,
    ⟨(w07a 2 []), n07, ?_⟩,
    ⟨w01a, n07, ?_⟩,
    ⟨(w07a 3 [{ round := 5, closeNs := 4000000 }]), 5, { round := 5, closeNs := 4000000 }, ?_⟩⟩ <;>
    decide +kernel

theorem witness_OperationsComputeTheirValues :
    (∃ (s : State) (slot : Fin 16) (o : Op) (r : Run), s.agg.executes (↑slot : Nat) 1 o r) ∧
    (∃ (s : State) (slot : Fin 16) (o : Op) (r : Run) (x : Int), s.agg.executes (↑slot : Nat) 2 o r ∧ 0 ≤ o.imm ∧
      r.params[o.imm.toNat]? = some x) ∧
    (∃ (s : State) (slot : Fin 16) (o : Op) (r : Run), s.agg.executes (↑slot : Nat) 2 o r ∧ (o.imm < 0 ∨
      r.params[o.imm.toNat]? = none)) ∧
    (∃ (s : State) (slot : Fin 16) (o : Op) (r : Run), s.agg.executes (↑slot : Nat) 4 o r) ∧
    (∃ (s : State) (slot : Fin 16) (o : Op) (r : Run), s.agg.executes (↑slot : Nat) 5 o r) ∧
    (∃ (s : State) (slot : Fin 16) (o : Op) (r : Run), s.agg.executes (↑slot : Nat) 6 o r) ∧
    (∃ (s : State) (slot : Fin 16) (o : Op) (r : Run) (q : Int), s.agg.executes (↑slot : Nat) 7 o r ∧ -2 ^ 63 < q ∧ q
      < 2 ^ 63 ∧ r.get (↑o.src2 : Nat) ≠ 0 ∧ (0 < r.get (↑o.src2 : Nat) → q * r.get (↑o.src2 : Nat) ≤ r.get (↑o.src1 :
      Nat) ∧ r.get (↑o.src1 : Nat) < (q + 1) * r.get (↑o.src2 : Nat)) ∧ (r.get (↑o.src2 : Nat) < 0 → r.get (↑o.src1 :
      Nat) ≤ q * r.get (↑o.src2 : Nat) ∧ (q + 1) * r.get (↑o.src2 : Nat) < r.get (↑o.src1 : Nat))) ∧
    (∃ (s : State) (slot : Fin 16) (o : Op) (r : Run), s.agg.executes (↑slot : Nat) 7 o r ∧ r.get (↑o.src2 : Nat) = 0) ∧
    (∃ (s : State) (slot : Fin 16) (o : Op) (r : Run) (q : Nat) (n : Nat), s.agg.executes (↑slot : Nat) 8 o r ∧ n < 64
      ∧ r.get (↑o.src2 : Nat) % 64 = (↑n : Int) ∧ r.get (↑o.src1 : Nat) = (↑q : Int)) ∧
    (∃ (s : State) (slot : Fin 16) (o : Op) (r : Run) (q : Nat) (n : Nat), s.agg.executes (↑slot : Nat) 8 o r ∧ n < 64
      ∧ r.get (↑o.src2 : Nat) % 64 = (↑n : Int) ∧ r.get (↑o.src1 : Nat) = Int.negSucc q) ∧
    (∃ (s : State) (slot : Fin 16) (o : Op) (r : Run), s.agg.executes (↑slot : Nat) 9 o r) ∧
    (∃ (s : State) (slot : Fin 16) (o : Op) (r : Run), s.agg.executes (↑slot : Nat) 10 o r) ∧
    (∃ (s : State) (slot : Fin 16) (o : Op) (r : Run), s.agg.executes (↑slot : Nat) 11 o r) ∧
    (∃ (s : State) (slot : Fin 16) (o : Op) (r : Run), s.agg.executes (↑slot : Nat) 12 o r) ∧
    (∃ (s : State) (slot : Fin 16) (o : Op) (r : Run), s.agg.executes (↑slot : Nat) 13 o r) ∧
    (∃ (s : State) (slot : Fin 16) (o : Op) (r : Run), s.agg.executes (↑slot : Nat) 14 o r ∧ r.get (↑o.src1 : Nat) ≠
      0) ∧
    (∃ (s : State) (slot : Fin 16) (o : Op) (r : Run), s.agg.executes (↑slot : Nat) 14 o r ∧ r.get (↑o.src1 : Nat) = 0
      ∧ r.core = none) ∧
    (∃ (s : State) (slot : Fin 16) (o : Op) (r : Run) (k : Nat), s.agg.executes (↑slot : Nat) 14 o r ∧ r.get (↑o.src1
      : Nat) = 0 ∧ r.core = some k) := by
  refine ⟨⟨(x08 0x01 op08 v08), 2, op08, (run08 0x01 op08 v08), ?_⟩,
    ⟨(x08 0x02 op08 v08 fun r => {r with params := [1,2,3,4,55]}), 2, op08, (run08 0x02 op08 v08 fun r => {r with params := [1,2,3,4,55]}), 55, ?_⟩,
    ⟨(x08 0x02 op08 v08), 2, op08, (run08 0x02 op08 v08), ?_⟩,
    ⟨(x08 0x04 op08 v08), 2, op08, (run08 0x04 op08 v08), ?_⟩,
    ⟨(x08 0x05 op08 v08), 2, op08, (run08 0x05 op08 v08), ?_⟩,
    ⟨(x08 0x06 op08 v08), 2, op08, (run08 0x06 op08 v08), ?_⟩,
    ⟨(x08 0x07 op08 v08), 2, op08, (run08 0x07 op08 v08), (-2), ?_⟩,
    ⟨(x08 0x07 op08 [(1, 5), (2, -9)]), 2, op08, (run08 0x07 op08 [(1, 5), (2, -9)]), ?_⟩,
    ⟨(x08 0x08 op08 [(2, 900), (3, 3)]), 2, op08, (run08 0x08 op08 [(2, 900), (3, 3)]), 900, 3, ?_⟩,
    ⟨(x08 0x08 op08 v08), 2, op08, (run08 0x08 op08 v08), 0x8, 7, ?_⟩,
    ⟨(x08 0x09 op08 v08), 2, op08, (run08 0x09 op08 v08), ?_⟩,
    ⟨(x08 0x0A op08 v08), 2, op08, (run08 0x0A op08 v08), ?_⟩,
    ⟨(x08 0x0B op08 v08), 2, op08, (run08 0x0B op08 v08), ?_⟩,
    ⟨(x08 0x0C op08 v08), 2, op08, (run08 0x0C op08 v08), ?_⟩,
    ⟨(x08 0x0D op08 v08), 2, op08, (run08 0x0D op08 v08), ?_⟩,
    ⟨(x08 0x0E op08 v08), 2, op08, (run08 0x0E op08 v08), ?_⟩,
    ⟨(x08 0x0E op08 [(1, 5)]), 2, op08, (run08 0x0E op08 [(1, 5)]), ?_⟩,
    ⟨(x08 0x0E op08 [(1, 5)] fun r => { r with core := some 3 }), 2, op08, (run08 0x0E op08 [(1, 5)] fun r => { r with core := some 3 }), 3, ?_⟩⟩ <;>
    first
    | decide +kernel
    | ((repeat' apply And.intro) <;> first
        | decide +kernel
        | rfl)

theorem witness_OperationsReadAndWriteTheRun :
    (∃ (s : State) (slot : Fin 16) (o : Op) (r : Run) (x : Int), s.agg.executes (↑slot : Nat) 3 o r ∧ s.agg.featureOf
      (↑slot : Nat) r o.imm = some x) ∧
    (∃ (s : State) (slot : Fin 16) (o : Op) (r : Run), s.agg.executes (↑slot : Nat) 3 o r ∧ s.agg.featureOf (↑slot :
      Nat) r o.imm = none) ∧
    (∃ (s : State) (slot : Fin 16) (o : Op) (r : Run), s.agg.executes (↑slot : Nat) 16 o r) ∧
    (∃ (s : State) (slot : Fin 16) (o : Op) (r : Run), s.agg.executes (↑slot : Nat) 17 o r) ∧
    (∃ (s : State) (slot : Fin 16) (o : Op) (r : Run) (n : Nat) (w : Int) (y : Int) (x : Int), s.agg.executes (↑slot :
      Nat) 18 o r ∧ r.word o.imm.toNat = w ∧ r.get (↑o.src1 : Nat) = y ∧ n < 64 ∧ r.get (↑o.src2 : Nat) % 64 = (↑n :
      Int) ∧ x = max (1 - 2 ^ 63) (min (2 ^ 63 - 1) (w + max (1 - 2 ^ 63) (min (2 ^ 63 - 1) (y - w)) / 2 ^ n))) ∧
    (∃ (s : State) (slot : Fin 16) (o : Op) (r : Run) (x : Int), s.agg.executes (↑slot : Nat) 19 o r ∧ x = max 0 (min
      (2 ^ 63 - 1) (r.word o.imm.toNat + r.get (↑o.src1 : Nat) - r.get (↑o.src2 : Nat)))) ∧
    (∃ (s : State) (slot : Fin 16) (o : Op) (r : Run), s.agg.executes (↑slot : Nat) 24 o r ∧ o.mode = 1) ∧
    (∃ (s : State) (slot : Fin 16) (o : Op) (r : Run), s.agg.executes (↑slot : Nat) 24 o r ∧ o.mode = 2) ∧
    (∃ (s : State) (slot : Fin 16) (o : Op) (r : Run) (z : Int), s.agg.executes (↑slot : Nat) 24 o r ∧ o.mode = 0 ∧ -2
      ^ 63 ≤ z ∧ z < 2 ^ 63 ∧ (z - (r.acc.get o.imm.toNat + r.get (↑o.src1 : Nat))) % 2 ^ 64 = 0) ∧
    (∃ (s : State) (slot : Fin 16) (o : Op) (r : Run), s.agg.executes (↑slot : Nat) 24 o r ∧ 2 < (↑o.mode : Nat)) ∧
    (∃ (s : State) (slot : Fin 16) (o : Op) (r : Run), s.agg.executes (↑slot : Nat) 25 o r) ∧
    (∃ (s : State) (slot : Fin 16) (o : Op) (r : Run), s.agg.executes (↑slot : Nat) 26 o r ∧ r.coreEntry <
      r.roundEntry ∧ 0 < s.agg.runCores (↑slot : Nat) r) ∧
    (∃ (s : State) (slot : Fin 16) (o : Op) (r : Run), s.agg.executes (↑slot : Nat) 26 o r ∧ r.core = none ∧
      (r.roundEntry ≤ r.coreEntry ∨ s.agg.runCores (↑slot : Nat) r = 0)) ∧
    (∃ (s : State) (slot : Fin 16) (o : Op) (r : Run), r.bellBlock o.imm = none ∧ s.agg.executes (↑slot : Nat) 32 o r) ∧
    (∃ (s : State) (slot : Fin 16) (o : Op) (r : Run), r.bellBlock o.imm = none ∧ s.agg.executes (↑slot : Nat) 33 o r) ∧
    (∃ (s : State) (slot : Fin 16) (o : Op) (r : Run), r.bellBlock o.imm = none ∧ s.agg.executes (↑slot : Nat) 34 o r) ∧
    (∃ (s : State) (slot : Fin 16) (o : Op) (r : Run) (b : Block) (x : Int), r.bellBlock o.imm = some b ∧
      s.agg.executes (↑slot : Nat) 32 o r ∧ rankOf (r.get (↑o.src1 : Nat)) b = some x) ∧
    (∃ (s : State) (slot : Fin 16) (o : Op) (r : Run) (b : Block) (x : Int), r.bellBlock o.imm = some b ∧
      s.agg.executes (↑slot : Nat) 33 o r ∧ quantOf (r.get (↑o.src1 : Nat)) b = some x) ∧
    (∃ (s : State) (slot : Fin 16) (o : Op) (r : Run) (b : Block) (x : Int), r.bellBlock o.imm = some b ∧
      s.agg.executes (↑slot : Nat) 34 o r ∧ momentOf (↑o.mode : Nat) b = some x) ∧
    (∃ (s : State) (slot : Fin 16) (o : Op) (r : Run) (b : Block), r.bellBlock o.imm = some b ∧ s.agg.executes (↑slot
      : Nat) 32 o r ∧ rankOf (r.get (↑o.src1 : Nat)) b = none) ∧
    (∃ (s : State) (slot : Fin 16) (o : Op) (r : Run) (b : Block), r.bellBlock o.imm = some b ∧ s.agg.executes (↑slot
      : Nat) 33 o r ∧ quantOf (r.get (↑o.src1 : Nat)) b = none) ∧
    (∃ (s : State) (slot : Fin 16) (o : Op) (r : Run) (b : Block), r.bellBlock o.imm = some b ∧ s.agg.executes (↑slot
      : Nat) 34 o r ∧ momentOf (↑o.mode : Nat) b = none) ∧
    (∃ (s : State) (slot : Fin 16) (o : Op) (r : Run) (x : Int), s.agg.executes (↑slot : Nat) 35 o r ∧ nbrStat
      (↑o.mode : Nat) (r.nbrValues (↑slot : Nat) o.imm.toNat) = some x) ∧
    (∃ (s : State) (slot : Fin 16) (o : Op) (r : Run), s.agg.executes (↑slot : Nat) 35 o r ∧ nbrStat (↑o.mode : Nat)
      (r.nbrValues (↑slot : Nat) o.imm.toNat) = none) ∧
    (∃ (s : State) (slot : Fin 16) (o : Op) (r : Run), s.agg.executes (↑slot : Nat) 36 o r) ∧
    (∃ (s : State) (slot : Fin 16) (o : Op) (r : Run) (x : Int), s.agg.executes (↑slot : Nat) 40 o r ∧ 0 ≤ o.imm ∧
      r.pred[o.imm.toNat]? = some (some x)) ∧
    (∃ (s : State) (slot : Fin 16) (o : Op) (r : Run), s.agg.executes (↑slot : Nat) 40 o r ∧ (o.imm < 0 ∨
      r.pred[o.imm.toNat]? = none ∨ r.pred[o.imm.toNat]? = some none)) ∧
    (∃ (s : State) (slot : Fin 16) (o : Op) (r : Run), s.agg.executes (↑slot : Nat) 41 o r ∧ 0 ≤ o.imm ∧ o.imm < 256) ∧
    (∃ (s : State) (slot : Fin 16) (o : Op) (r : Run), s.agg.executes (↑slot : Nat) 48 o r) ∧
    (∃ (s : State) (slot : Fin 16) (o : Op) (r : Run), s.agg.executes (↑slot : Nat) 49 o r ∧ (r.get (↑o.src1 : Nat) =
      0 ∨ s.agg.suppressed (↑slot : Nat) r (o.imm % 65536).toNat = true)) ∧
    (∃ (s : State) (slot : Fin 16) (o : Op) (r : Run), s.agg.executes (↑slot : Nat) 49 o r ∧ r.get (↑o.src1 : Nat) ≠ 0
      ∧ s.agg.suppressed (↑slot : Nat) r (o.imm % 65536).toNat = false ∧ r.emits.length < 15) ∧
    (∃ (s : State) (slot : Fin 16) (o : Op) (r : Run), s.agg.executes (↑slot : Nat) 49 o r ∧ r.get (↑o.src1 : Nat) ≠ 0
      ∧ s.agg.suppressed (↑slot : Nat) r (o.imm % 65536).toNat = false ∧ 15 ≤ r.emits.length) ∧
    (∃ (s : State) (slot : Fin 16) (o : Op) (r : Run), s.agg.executes (↑slot : Nat) 0 o r ∧ r.core = none) ∧
    (∃ (s : State) (slot : Fin 16) (o : Op) (r : Run) (k : Nat), s.agg.executes (↑slot : Nat) 0 o r ∧ r.core = some k
      ∧ k + 1 < s.agg.runCores (↑slot : Nat) r) ∧
    (∃ (s : State) (slot : Fin 16) (o : Op) (r : Run) (k : Nat), s.agg.executes (↑slot : Nat) 0 o r ∧ r.core = some k
      ∧ s.agg.runCores (↑slot : Nat) r ≤ k + 1) ∧
    (∃ (s : State) (slot : Fin 16) (o : Op) (r : Run), s.agg.executes (↑slot : Nat) 42 o r ∧ (o.imm < 0 ∨ 16 ≤ o.imm ∨
      s.agg.hdgCopy o.imm.toNat r.tick = none)) ∧
    (∃ (s : State) (slot : Fin 16) (o : Op) (r : Run) (c : HdgCopy), s.agg.executes (↑slot : Nat) 42 o r ∧ 0 ≤ o.imm ∧
      o.imm < 16 ∧ s.agg.hdgCopy o.imm.toNat r.tick = some c ∧ (s.agg.cfg HDG_CFG_EN = 0 ∨ s.agg.domOn 12 = false)) ∧
    (∃ (s : State) (slot : Fin 16) (o : Op) (r : Run) (c : HdgCopy), s.agg.executes (↑slot : Nat) 42 o r ∧ 0 ≤ o.imm ∧
      o.imm < 16 ∧ s.agg.hdgCopy o.imm.toNat r.tick = some c ∧ s.agg.cfg HDG_CFG_EN ≠ 0 ∧ s.agg.domOn 12 = true) := by
  refine ⟨⟨(w08 (run08 3 o46 v08 fun r => {r with ftest := 6}) [] ecD), 2, o46, (run08 3 o46 v08 fun r => {r with ftest := 6}), 6, ?_⟩,
    ⟨(x08 0x03 { op08 with imm := -1 } v08), 2, { op08 with imm := -1 }, (run08 0x03 { op08 with imm := -1 } v08), ?_⟩,
    ⟨(x08 0x10 op08 v08), 2, op08, (run08 0x10 op08 v08), ?_⟩,
    ⟨(x08 0x11 op08 v08), 2, op08, (run08 0x11 op08 v08), ?_⟩,
    ⟨(x08 0x12 op08 v08), 2, op08, (run08 0x12 op08 v08), 7, 0, (-9), (-1), ?_⟩,
    ⟨(x08 0x13 op08 v08), 2, op08, (run08 0x13 op08 v08), 0, ?_⟩,
    ⟨(x08 0x18 {op08 with mode := 1} v08), 2, {op08 with mode := 1}, (run08 0x18 {op08 with mode := 1} v08), ?_⟩,
    ⟨(x08 0x18 {op08 with mode := 2} v08), 2, {op08 with mode := 2}, (run08 0x18 {op08 with mode := 2} v08), ?_⟩,
    ⟨(x08 0x18 op08 v08), 2, op08, (run08 0x18 op08 v08), (-9), ?_⟩,
    ⟨(x08 0x18 { op08 with mode := 3 } v08), 2, { op08 with mode := 3 }, (run08 0x18 { op08 with mode := 3 } v08), ?_⟩,
    ⟨(x08 0x19 op08 v08), 2, op08, (run08 0x19 op08 v08), ?_⟩,
    ⟨(w08 (run08 0x1A op08 v08 ec08) [] ecD), 2, op08, (run08 0x1A op08 v08 ec08), ?_⟩,
    ⟨(x08 0x1A op08 v08), 2, op08, (run08 0x1A op08 v08), ?_⟩,
    ⟨(x08 0x20 op08 v08), 2, op08, (run08 0x20 op08 v08), ?_⟩,
    ⟨(x08 0x21 op08 v08), 2, op08, (run08 0x21 op08 v08), ?_⟩,
    ⟨(x08 0x22 op08 v08), 2, op08, (run08 0x22 op08 v08), ?_⟩,
    ⟨(x08 0x20 op08 vp08 (bell bl08)), 2, op08, (run08 0x20 op08 vp08 (bell bl08)), bl08, 65536, ?_⟩,
    ⟨(x08 0x21 op08 vp08 (bell bl08)), 2, op08, (run08 0x21 op08 vp08 (bell bl08)), bl08, 0, ?_⟩,
    ⟨(x08 0x22 op08 vp08 (bell bl08)), 2, op08, (run08 0x22 op08 vp08 (bell bl08)), bl08, 15, ?_⟩,
    ⟨(x08 0x20 op08 vp08 (bell {key := 4})), 2, op08, (run08 0x20 op08 vp08 (bell {key := 4})), { key := 4 }, ?_⟩,
    ⟨(x08 0x21 op08 vp08 (bell {key := 4})), 2, op08, (run08 0x21 op08 vp08 (bell {key := 4})), { key := 4 }, ?_⟩,
    ⟨(x08 0x22 op08 vp08 (bell {key := 4})), 2, op08, (run08 0x22 op08 vp08 (bell {key := 4})), { key := 4 }, ?_⟩,
    ⟨(x08 0x23 op08 vp08), 2, op08, (run08 0x23 op08 vp08), (-1), ?_⟩,
    ⟨(x08 0x23 { op08 with mode := 4 } v08), 2, { op08 with mode := 4 }, (run08 0x23 { op08 with mode := 4 } v08), ?_⟩,
    ⟨(x08 0x24 op08 v08), 2, op08, (run08 0x24 op08 v08), ?_⟩,
    ⟨(x08 0x28 op08 v08 fun r => {r with pred := [none, none, none, none, some 6]}), 2, op08, (run08 0x28 op08 v08 fun r => {r with pred := [none, none, none, none, some 6]}), 6, ?_⟩,
    ⟨(x08 0x28 op08 v08), 2, op08, (run08 0x28 op08 v08), ?_⟩,
    ⟨(x08 0x29 op08 v08), 2, op08, (run08 0x29 op08 v08), ?_⟩,
    ⟨(x08 0x30 {op08 with imm := 0x1234} v08), 2, {op08 with imm := 0x1234}, (run08 0x30 {op08 with imm := 0x1234} v08), ?_⟩,
    ⟨(x08 0x31 op08 [(3, 1)]), 2, op08, (run08 0x31 op08 [(3, 1)]), ?_⟩,
    ⟨(x08 0x31 op08 v08), 2, op08, (run08 0x31 op08 v08), ?_⟩,
    ⟨(x08 0x31 op08 v08 fun r => {r with emits := List.replicate 15 {}}), 2, op08, (run08 0x31 op08 v08 fun r => {r with emits := List.replicate 15 {}}), ?_⟩,
    ⟨(x08 0 op08 v08), 2, op08, (run08 0 op08 v08), ?_⟩,
    ⟨(w08 (run08 0 op08 v08 fun r => { r with core := some 3, coreEntry := 0, cpc := 0 }) [] ecD), 2, op08, (run08 0 op08 v08 fun r => { r with core := some 3, coreEntry := 0, cpc := 0 }), 3, ?_⟩,
    ⟨(x08 0x00 op08 v08 fun r => { r with core := some 200, coreEntry := 1 }), 2, op08, (run08 0x00 op08 v08 fun r => { r with core := some 200, coreEntry := 1 }), 200, ?_⟩,
    ⟨(x08 0x2A op08 v08), 2, op08, (run08 0x2A op08 v08), ?_⟩,
    ⟨(w08 (run08 0x2A op08 v08) [(HDG_CFG_EN, 0)] id h08), 2, op08, (run08 0x2A op08 v08), { crc := 6 }, ?_⟩,
    ⟨(w08 (run08 0x2A op08 vp08) [(HDG_CFG_EN, 1)] id h08), 2, op08, (run08 0x2A op08 vp08), { crc := 6 }, ?_⟩⟩ <;>
    first
    | decide +kernel
    | ((repeat' apply And.intro) <;> first
        | decide +kernel
        | rfl)

theorem witness_RunsStartAndEnd :
    (∃ (s : State) (slot : Fin 16) (tick : Nat) (b : Bool) (rest : List (Nat × Bool)), (s.agg.dieDet (↑slot :
      Nat)).jobs = (tick, b) :: rest ∧ (s.agg.dieDet (↑slot : Nat)).run = none ∧ s.agg.gasp = false ∧ s.agg.runsOn
      (↑slot : Nat) = true ∧ s.agg.roundDue (↑slot : Nat) = none ∧ (b = true ∨ s.agg.reg (DET_DIE_STATUS_STATE (↑slot
      : Nat)) ≠ 1 ∧ ∀ (f : TickFeat), (s.agg.dieDet (↑slot : Nat)).at_ tick = some f → s.agg.p.nowNs ≤ f.commitNs + 2
      * f.us * 1000) ∧ (∀ e ∈ s.agg.det.retiring, e.1 ≠ s.agg.homeOf (↑slot : Nat)) ∧ (s.agg.dieDet (↑slot :
      Nat)).copying = false) ∧
    (∃ (s : State) (slot : Fin 16) (tick : Nat) (b : Bool) (rest : List (Nat × Bool)), (s.agg.dieDet (↑slot :
      Nat)).jobs = (tick, b) :: rest ∧ (s.agg.dieDet (↑slot : Nat)).run = none ∧ s.agg.gasp = false ∧ s.agg.runsOn
      (↑slot : Nat) = true ∧ s.agg.roundDue (↑slot : Nat) = none ∧ (b = true ∨ s.agg.reg (DET_DIE_STATUS_STATE (↑slot
      : Nat)) ≠ 1 ∧ ∀ (f : TickFeat), (s.agg.dieDet (↑slot : Nat)).at_ tick = some f → s.agg.p.nowNs ≤ f.commitNs + 2
      * f.us * 1000) ∧ (∀ e ∈ s.agg.det.retiring, e.1 ≠ s.agg.homeOf (↑slot : Nat)) ∧ (s.agg.dieDet (↑slot :
      Nat)).copying = true) ∧
    (∃ (s : State) (slot : Fin 16) (k : Nat) (ns : Nat), s.agg.roundDue (↑slot : Nat) = some (k, ns) ∧ (s.agg.dieDet
      (↑slot : Nat)).run = none ∧ s.agg.gasp = false ∧ s.agg.runsOn (↑slot : Nat) = true ∧ s.agg.tround k = none ∧ (∀
      e ∈ s.agg.det.retiring, e.1 ≠ s.agg.homeOf (↑slot : Nat)) ∧ (s.agg.dieDet (↑slot : Nat)).copying = false) ∧
    (∃ (s : State) (slot : Fin 16) (k : Nat) (ns : Nat), s.agg.roundDue (↑slot : Nat) = some (k, ns) ∧ (s.agg.dieDet
      (↑slot : Nat)).run = none ∧ s.agg.gasp = false ∧ s.agg.runsOn (↑slot : Nat) = true ∧ s.agg.tround k = none ∧ (∀
      e ∈ s.agg.det.retiring, e.1 ≠ s.agg.homeOf (↑slot : Nat)) ∧ (s.agg.dieDet (↑slot : Nat)).copying = true) ∧
    (∃ (s : State) (slot : Fin 16) (r : Run) (die : Nat), (s.agg.dieDet (↑slot : Nat)).run = some r ∧ s.agg.dieOfSlot
      (↑slot : Nat) = some die ∧ r.ended = true ∧ s.agg.inBudget (↑slot : Nat) r = true) ∧
    (∃ (s : State) (slot : Fin 16) (r : Run) (die : Nat) (e : Emit), (s.agg.dieDet (↑slot : Nat)).run = some r ∧
      s.agg.dieOfSlot (↑slot : Nat) = some die ∧ r.ended = true ∧ s.agg.inBudget (↑slot : Nat) r = true ∧ r.round =
      none ∧ r.restore = false ∧ r.posts = [] ∧ r.emits = [e] ∧ s.agg.cfg DET_STRAG_CFG_LOCAL_TICKS = 0 ∧ s.agg.cfg
      DET_CFG_CKPT_TICKS = 0 ∧ (∀ f ∈ (s.agg.dieDet (↑slot : Nat)).hist, ∀ (q : RingRec), s.agg.sampleRec f = some q →
      q.localOnly = false) ∧ s.agg.ringFits (s.agg.cfg DET_CFG_VERDICT_RING) 128 = true) ∧
    (∃ (s : State) (slot : Fin 16) (r : Run) (die : Nat) (e : Emit), (s.agg.dieDet (↑slot : Nat)).run = some r ∧
      s.agg.dieOfSlot (↑slot : Nat) = some die ∧ r.ended = true ∧ s.agg.inBudget (↑slot : Nat) r = true ∧ r.round =
      none ∧ r.restore = false ∧ r.posts = [] ∧ r.emits = [e] ∧ s.agg.cfg DET_STRAG_CFG_LOCAL_TICKS = 0 ∧ s.agg.cfg
      DET_CFG_CKPT_TICKS = 0 ∧ (∀ f ∈ (s.agg.dieDet (↑slot : Nat)).hist, ∀ (q : RingRec), s.agg.sampleRec f = some q →
      q.localOnly = false) ∧ s.agg.ringFits (s.agg.cfg DET_CFG_VERDICT_RING) 128 = false) ∧
    (∃ (s : State) (slot : Fin 16) (r : Run), (s.agg.dieDet (↑slot : Nat)).run = some r ∧ (s.agg.inBudget (↑slot :
      Nat) r = false ∨ r.hedge.isSome = true)) ∧
    (∃ (s : State) (slot : Fin 16) (r : Run) (core : Fin 33), (s.agg.dieDet (↑slot : Nat)).run = some r ∧ (∀ (n :
      Nat), s.agg.det.coreFault.get (33 * r.cluster + (↑core : Nat)) = some n → n + s.agg.cfg FLT_CFG2_CORE_WIN_S *
      1000000000 < s.agg.p.nowNs) ∧ (s.agg.dieDet (↑slot : Nat)).unhomed = false ∧ (s.agg.dieDet (↑slot :
      Nat)).copying = false ∧ (∀ e ∈ s.agg.det.retiring, e.1 ≠ s.agg.homeOf (↑slot : Nat))) ∧
    (∃ (s : State) (slot : Fin 16) (r : Run) (core : Fin 33) (n : Nat), (s.agg.dieDet (↑slot : Nat)).run = some r ∧
      s.agg.det.coreFault.get (33 * r.cluster + (↑core : Nat)) = some n ∧ s.agg.p.nowNs ≤ n + s.agg.cfg
      FLT_CFG2_CORE_WIN_S * 1000000000) ∧
    (∃ (s : State) (slot : Fin 16) (tick : Nat) (rest : List (Nat × Bool)), (s.agg.dieDet (↑slot : Nat)).jobs = (tick,
      false) :: rest ∧ (s.agg.dieDet (↑slot : Nat)).run = none) ∧
    (∃ (s : State) (slot : Fin 16), s.agg.reg (DET_DIE_STATUS_STATE (↑slot : Nat)) = 1 ∧ (s.agg.dieDet (↑slot :
      Nat)).run = none ∧ ((s.agg.dieDet (↑slot : Nat)).jobs.any fun j => j.2) = false) := by
  refine ⟨⟨(z08 dd08), 2, 50, false, [], ?_⟩,
    ⟨(z08 { dd08 with copying := true }), 2, 50, false, [], ?_⟩,
    ⟨(z08 dd08r), 2, 7, 1000, ?_⟩,
    ⟨(z08 { dd08r with copying := true }), 2, 7, 1000, ?_⟩,
    ⟨(z08 { dd08 with run := some rr08 }), 2, rr08, 5, ?_⟩,
    ⟨(z08 { dd08 with run := some { rr08 with emits := [em08] } }), 2, { rr08 with emits := [em08] }, 5, em08, ?_⟩,
    ⟨(setLive (DET_CFG_VERDICT_RING, 5) (z08 { dd08 with run := some { rr08 with emits := [em08] } })), 2, { rr08 with emits := [em08] }, 5, em08, ?_⟩,
    ⟨(z08 { dd08 with run := some { rr08 with ended := false, hedge := some 3 } }), 2, { rr08 with ended := false, hedge := some 3 }, ?_⟩,
    ⟨(x08 0x01 op08 v08), 2, (run08 0x01 op08 v08), 4, ?_⟩,
    ⟨(z08 { dd08 with run := some rr08 } [] fun a => { a with det := { a.det with coreFault := [(4, some 4000000)] } }), 2, rr08, 4, 4000000, ?_⟩,
    ⟨(z08 dd08), 2, 50, [], ?_⟩,
    ⟨(z08 { dd08 with jobs := [] } [(DET_DIE_STATUS_STATE 2, 1)]), 2, ?_⟩⟩ <;>
    decide +kernel

theorem witness_NoticesAndHurdles :
    (∃ (s : State) (slot : Fin 16) (die : Nat) (v : HeldVerdict) (rest : List HeldVerdict) (op : Nat), s.agg.dieOfSlot
      (↑slot : Nat) = some die ∧ (s.agg.dieDet (↑slot : Nat)).held = v :: rest ∧ v.op = some op ∧ (∀ x ∈ rest,
      x.op.isSome = true) ∧ (s.agg.dieDet (↑slot : Nat)).hurdle = none ∧ (∀ e ∈ s.agg.det.hurdleWait, e.1 ≠ (↑slot :
      Nat)) ∧ s.agg.reg (DET_DIE_STATUS_STATE (↑slot : Nat)) ≠ 1 ∧ s.agg.verdictReady v = true ∧ (∀ d ∈
      s.agg.det.deliv, d.op ≠ op) ∧ s.agg.det.wait = [] ∧ s.agg.nqRoom = true) ∧
    (∃ (s : State) (slot : Fin 16) (die : Nat) (v : HeldVerdict) (rest : List HeldVerdict) (op : Nat), s.agg.dieOfSlot
      (↑slot : Nat) = some die ∧ (s.agg.dieDet (↑slot : Nat)).held = v :: rest ∧ v.op = some op ∧ (∀ x ∈ rest,
      x.op.isSome = true) ∧ (s.agg.dieDet (↑slot : Nat)).hurdle = none ∧ (∀ e ∈ s.agg.det.hurdleWait, e.1 ≠ (↑slot :
      Nat)) ∧ s.agg.reg (DET_DIE_STATUS_STATE (↑slot : Nat)) ≠ 1 ∧ s.agg.verdictReady v = true ∧ (∀ d ∈
      s.agg.det.deliv, d.op ≠ op) ∧ s.agg.det.wait = [] ∧ s.agg.reg DET_NQ_CFG_EN = 0 ∧ s.agg.subscribers v.paddock
      false = []) ∧
    (∃ (s : State) (slot : Fin 16) (v : HeldVerdict), List.find? (fun v' => !v'.late) (s.agg.dieDet (↑slot :
      Nat)).held = some v) ∧
    (∃ (s : State), s.agg.bit DET_NQ_CFG_EN = true ∧ s.agg.nqUnread ≠ 0) ∧
    (∃ (s : State) (value : Word), s.agg.reg CFG_STATUS_STATE ≠ 5 ∧ s.agg.beyondTail (BitVec.toNat value % 2 ^ 32) =
      true) ∧
    (∃ (s : State) (value : Word), s.agg.reg CFG_STATUS_STATE ≠ 5 ∧ s.agg.beyondTail (BitVec.toNat value % 2 ^ 32) =
      false ∧ s.agg.det.wait = []) ∧
    (∃ (s : State) (op : Nat) (i : Nat) (d : Delivery) (x : NoticeTo), s.agg.deliv op = some d ∧ d.host ≠ 0 ∧
      d.toAggs[i]? = some x ∧ x.acked = false ∧ x.gaveUp = false ∧ x.resends < 8) ∧
    (∃ (s : State) (op : Nat) (i : Nat) (d : Delivery) (x : NoticeTo), s.agg.deliv op = some d ∧ d.host ≠ 0 ∧
      d.toAggs[i]? = some x ∧ x.acked = false ∧ x.gaveUp = false ∧ 8 ≤ x.resends) ∧
    (∃ (s : State) (n : NoticeMsg), s.agg.noticeKnown n = false ∧ n.ntype = 3 ∧ s.agg.det.wait = [] ∧ s.agg.nqRoom =
      true) ∧
    (∃ (n : NoticeMsg), (n.ntype = 0 ∨ 6 < n.ntype)) ∧
    (∃ (s : State) (n : NoticeMsg), 1 ≤ n.ntype ∧ n.ntype ≤ 6 ∧ s.agg.noticeKnown n = true ∧ s.agg.noticeWaits n =
      true) ∧
    (∃ (s : State) (n : NoticeMsg), 1 ≤ n.ntype ∧ n.ntype ≤ 6 ∧ s.agg.noticeKnown n = true ∧ s.agg.noticeWaits n =
      false) ∧
    (∃ (s : State) (n : NoticeMsg), s.agg.noticeKnown n = false ∧ n.ntype = 4 ∧ n.lastTaint ≠ 0 ∧ s.agg.taintKnown
      n.fleetDie n.lastTaint = false) ∧
    (∃ (s : State) (n : NoticeMsg), s.agg.noticeKnown n = false ∧ 1 ≤ n.ntype ∧ n.ntype ≤ 6 ∧ n.ntype ≠ 3 ∧ (n.ntype =
      4 → n.lastTaint = 0 ∨ s.agg.taintKnown n.fleetDie n.lastTaint = true)) ∧
    (∃ (s : State) (slot : Fin 16) (h : Hurdle), (s.agg.dieDet (↑slot : Nat)).hurdle = some h ∧ s.agg.hurdleState
      (↑slot : Nat) = 1 ∧ s.agg.reg CFG_STATUS_STATE ≠ 5) ∧
    (∃ (s : State) (slot : Fin 16) (h : Hurdle) (n : Nat), (s.agg.dieDet (↑slot : Nat)).hurdle = some h ∧ h.askNs =
      some n ∧ s.agg.hurdleState (↑slot : Nat) = 1) ∧
    (∃ (s : State) (slot : Fin 16), s.agg.reg CFG_STATUS_STATE ≠ 5 ∧ 2 ≤ s.agg.hurdleState (↑slot : Nat)) := by
  refine ⟨⟨(z08 { dd08 with held := [hv08] }), 2, 5, hv08, [], 77, ?_⟩,
    ⟨(z08 { dd08 with jobs := [], held := [hv08] } [(DET_NQ_CFG_EN, 0)]), 2, 5, hv08, [], 77, ?_⟩,
    ⟨(z08 { dd08 with held := [hv08] }), 2, hv08, ?_⟩,
    ⟨(z08 dd08 [(DET_NQ_TAIL_INDEX, 3)] fun a => { a with det := { a.det with irqNs := some 4999999 } }), ?_⟩,
    ⟨w01a, (BitVec.ofNat 64 (1 + 5 * 8 + 3 * 2 ^ 32)), ?_⟩,
    ⟨(z08 dd08 [(DET_NQ_TAIL_INDEX, 3)] fun a => { a with det := { a.det with irqNs := some 4999999 } }), 2, ?_⟩,
    ⟨(z08 dd08 [] fun a => { a with det := { a.det with deliv := [dv08 nt08] } }), 77, 0, (dv08 nt08), nt08, ?_⟩,
    ⟨(z08 dd08 [] fun a => { a with det := { a.det with deliv := [dv08 { nt08 with resends := 8 }] } }), 77, 0, (dv08 { nt08 with resends := 8 }), { nt08 with resends := 8 }, ?_⟩,
    ⟨(z08 dd08), { ntype := 3, src := 9, origAgg := 9, origOp := 4, fleetDie := 50, dseq := 2 }, ?_⟩,
    ⟨{ ntype := 7, src := 9, origAgg := 9, origOp := 4, fleetDie := 50 }, ?_⟩,
    ⟨(z08 {} [] fun a => { a with det := { a.det with taken := [(3, 9, 4, 50, 2)], wait := [.received [(9, 0)] (takenEntry nm08)] } }), { ntype := 3, src := 9, origAgg := 9, origOp := 4, fleetDie := 50, dseq := 2 }, ?_⟩,
    ⟨(z08 {} [] fun a => { a with det := { a.det with taken := [(3, 9, 4, 50, 2)] } }), { ntype := 3, src := 9, origAgg := 9, origOp := 4, fleetDie := 50, dseq := 2 }, ?_⟩,
    ⟨w01a, { ntype := 4, src := 9, origAgg := 9, origOp := 4, fleetDie := 50, dseq := 3, lastTaint := 2 }, ?_⟩,
    ⟨w01a, { ntype := 2, src := 9, origAgg := 9, origOp := 8, fleetDie := 50 }, ?_⟩,
    ⟨(z08 { dd08 with hurdle := some hu08 } [(DET_DIE_STATUS_HURDLE 2, 1)] fun a => { a with det := { a.det with deliv := [dv08 nt08] } }), 2, hu08, ?_⟩,
    ⟨(z08 { dd08 with hurdle := some hu08 } [(DET_DIE_STATUS_HURDLE 2, 1)] fun a => { a with det := { a.det with deliv := [dv08 nt08] } }), 2, hu08, 4000000, ?_⟩,
    ⟨(z08 { dd08 with hurdle := some hu08 } [(DET_DIE_STATUS_HURDLE 2, 3)]), 2, ?_⟩⟩ <;>
    decide +kernel

set_option maxRecDepth 8000 in
theorem witness_HedgeHasItsEffect :
    (∃ (s : State) (q : HdgReq) (rest : List HdgReq) (r : Run) (d : Nat), s.agg.hdg.queue = q :: rest ∧ s.agg.gasp =
      false ∧ (s.agg.dieDet q.die).run = some r ∧ r.hedge = some d ∧ r.core = none ∧ s.agg.cfg HDG_CFG_EN ≠ 0 ∧
      s.agg.domOn 12 = true ∧ s.agg.hdgState q.model ≠ 5) ∧
    (∃ (s : State) (q : HdgReq) (rest : List HdgReq) (r : Run) (d : Nat) (flags : Nat), s.agg.hdg.queue = q :: rest ∧
      s.agg.gasp = false ∧ (s.agg.dieDet q.die).run = some r ∧ r.hedge = some d ∧ r.core = none ∧ (s.agg.cfg
      HDG_CFG_EN ≠ 0 ∧ s.agg.domOn 12 = true ∧ s.agg.hdgState q.model = 5 ∧ flags = 128 ∨ (s.agg.cfg HDG_CFG_EN = 0 ∨
      s.agg.domOn 12 = false) ∧ flags = 0)) ∧
    (∃ (s : State), (s.agg.hdg.queue = [] ∨ s.agg.gasp = true)) ∧
    (∃ (s : State) (m : Fin 16) (h : HdgSlot) (f : Field), s.agg.hdg.slot.get (↑m : Nat) = h ∧ s.agg.hdgState (↑m :
      Nat) = 1 ∧ h.prev < 8 ∧ (s.agg.pkgAt h.addr h.crc = none ∧ f = HDG_EVENT_LOAD_REFUSED ∨ (∃ l, s.agg.pkgAt h.addr
      h.crc = some l ∧ s.agg.bankPlace (pkgBank l) = none) ∧ f = HDG_EVENT_NO_SPACE)) ∧
    (∃ (s : State) (m : Fin 16) (h : HdgSlot) (l : List Byte) (off : Nat), s.agg.hdg.slot.get (↑m : Nat) = h ∧
      s.agg.hdgState (↑m : Nat) = 1 ∧ h.prev < 8 ∧ s.agg.pkgAt h.addr h.crc = some l ∧ s.agg.bankPlace (pkgBank l) =
      some off ∧ h.op = none ∧ s.agg.jrnReady = false) ∧
    (∃ (s : State) (m : Fin 16) (h : HdgSlot) (l : List Byte) (off : Nat) (op : Nat), s.agg.hdg.slot.get (↑m : Nat) =
      h ∧ s.agg.hdgState (↑m : Nat) = 1 ∧ h.prev < 8 ∧ s.agg.pkgAt h.addr h.crc = some l ∧ s.agg.bankPlace (pkgBank l)
      = some off ∧ h.op = some op ∧ s.agg.beginMirrored op = false) ∧
    (∃ (s : State) (m : Fin 16) (h : HdgSlot) (l : List Byte) (off : Nat) (op : Nat), s.agg.hdg.slot.get (↑m : Nat) =
      h ∧ s.agg.hdgState (↑m : Nat) = 1 ∧ h.prev < 8 ∧ s.agg.pkgAt h.addr h.crc = some l ∧ s.agg.bankPlace (pkgBank l)
      = some off ∧ h.op = some op ∧ s.agg.beginMirrored op = true ∧ h.actTick ≠ 0 ∧ s.agg.tickNs h.actTick ≤
      s.agg.p.nowNs) ∧
    (∃ (s : State) (m : Fin 16) (h : HdgSlot) (l : List Byte) (off : Nat) (op : Nat), s.agg.hdg.slot.get (↑m : Nat) =
      h ∧ s.agg.hdgState (↑m : Nat) = 1 ∧ h.prev < 8 ∧ s.agg.pkgAt h.addr h.crc = some l ∧ s.agg.bankPlace (pkgBank l)
      = some off ∧ h.op = some op ∧ s.agg.beginMirrored op = true ∧ (h.actTick = 0 ∨ s.agg.p.nowNs < s.agg.tickNs
      h.actTick)) ∧
    (∃ (s : State) (m : Fin 16), s.agg.hdgState (↑m : Nat) ≠ 1) ∧
    (∃ (s : State) (m : Fin 16) (h : HdgSlot), s.agg.hdg.slot.get (↑m : Nat) = h ∧ s.agg.hdgState (↑m : Nat) = 2) ∧
    (∃ (s : State) (m : Fin 16) (h : HdgSlot), s.agg.hdg.slot.get (↑m : Nat) = h ∧ s.agg.hdgState (↑m : Nat) = 1 ∧
      h.prev < 8 ∧ h.actTick ≠ 0) ∧
    (∃ (s : State) (m : Fin 16) (h : HdgSlot) (n : Nat), s.agg.hdg.slot.get (↑m : Nat) = h ∧ s.agg.hdgState (↑m : Nat)
      = 3 ∧ h.emptyAt = some n) ∧
    (∃ (s : State) (m : Fin 16) (h : HdgSlot), s.agg.hdg.slot.get (↑m : Nat) = h ∧ (s.agg.hdgState (↑m : Nat) = 0 ∨
      s.agg.hdgState (↑m : Nat) = 1 ∧ h.actTick = 0 ∨ s.agg.hdgState (↑m : Nat) = 3 ∧ h.emptyAt = none ∨ 4 ≤
      s.agg.hdgState (↑m : Nat))) ∧
    (∃ (s : State) (m : Fin 16) (h : HdgSlot), s.agg.hdg.slot.get (↑m : Nat) = h ∧ (s.agg.hdgState (↑m : Nat) ≠ 4 ∨ ∃
      q ∈ s.agg.hdg.queue, q.model = (↑m : Nat) ∧ some q.copy = h.kept)) ∧
    (∃ (s : State) (m : Fin 16) (h : HdgSlot), s.agg.hdg.slot.get (↑m : Nat) = h ∧ s.agg.hdgState (↑m : Nat) = 4 ∧ (∀
      q ∈ s.agg.hdg.queue, q.model = (↑m : Nat) → some q.copy ≠ h.kept)) ∧
    (∃ (s : State) (m : Fin 16) (h : HdgSlot), s.agg.hdg.slot.get (↑m : Nat) = h ∧ ((h.copies = [] ∧ ∀ q ∈
      s.agg.hdg.queue, q.model ≠ (↑m : Nat)) ∨ s.agg.hdgState (↑m : Nat) = 5)) ∧
    (∃ (s : State) (m : Fin 16) (h : HdgSlot), s.agg.hdg.slot.get (↑m : Nat) = h ∧ (h.copies ≠ [] ∨ ∃ q ∈
      s.agg.hdg.queue, q.model = (↑m : Nat)) ∧ s.agg.hdgState (↑m : Nat) ≠ 5 ∧ h.op = none ∧ h.again = []) ∧
    (∃ (s : State) (m : Fin 16) (h : HdgSlot), s.agg.hdg.slot.get (↑m : Nat) = h ∧ (s.agg.hdgState (↑m : Nat) ≠ 5 ∨
      h.cur = none)) ∧
    (∃ (s : State) (m : Fin 16) (h : HdgSlot) (c : HdgCopy) (l : List Byte), s.agg.hdg.slot.get (↑m : Nat) = h ∧
      s.agg.hdgState (↑m : Nat) = 5 ∧ h.cur = some c ∧ s.agg.pkgAt c.addr c.crc = some l) ∧
    (∃ (s : State) (m : Fin 16) (h : HdgSlot) (c : HdgCopy), s.agg.hdg.slot.get (↑m : Nat) = h ∧ s.agg.hdgState (↑m :
      Nat) = 5 ∧ h.cur = some c ∧ s.agg.pkgAt c.addr c.crc = none) := by
  refine ⟨⟨(s09 3 { cur := some cp09 } [q09]), q09, [], { hedge := some 3 }, 3, ?_⟩,
    ⟨(s09 5 { cur := some cp09 } [q09]), q09, [], { hedge := some 3 }, 3, 128, ?_⟩,
    ⟨w01a, ?_⟩,
    ⟨(s09 1 { prev := 3, cur := some cp09, addr := 0x10000000, crc := 5 } [] mem09), 4, ((s09 1 { prev := 3, cur := some cp09, addr := 0x10000000, crc := 5 } [] mem09).agg.hdg.slot.get (↑4 : Nat)), HDG_EVENT_LOAD_REFUSED, ?_⟩,
    ⟨(s09 1 ld09 [] fun a => (mem09 a).put SHED_JRN_STATUS_OPEN 0), 4, ld09, pkg09, 0, ?_⟩,
    ⟨(s09 1 { ld09 with op := some 99 } [] mem09), 4, { ld09 with op := some 99 }, pkg09, 0, 99, ?_⟩,
    ⟨(s09 1 { ld09 with op := some 77, actTick := 1 } [] mem09), 4, { ld09 with op := some 77, actTick := 1 }, pkg09, 0, 77, ?_⟩,
    ⟨(s09 1 { prev := 0, addr := 0x10000000, crc := crc09, op := some 77 } [] mem09), 4, { ld09 with op := some 77 }, pkg09, 0, 77, ?_⟩,
    ⟨w01a, 3, ?_⟩,
    ⟨(s09 2 { next := some cp09, actTick := 60 }), 4, { next := some cp09, actTick := 60 }, ?_⟩,
    ⟨(s09 1 { ld09 with op := some 77, actTick := 1 } [] mem09), 4, { ld09 with op := some 77, actTick := 1 }, ?_⟩,
    ⟨(s09 3 { cur := some cp09, emptyAt := some 60 }), 4, { cur := some cp09, emptyAt := some 60 }, 60, ?_⟩,
    ⟨w01a, 3, {}, ?_⟩,
    ⟨w01a, 3, {}, ?_⟩,
    ⟨(s09 4 { cur := some cp09, kept := some { cp09 with off := 4096 }, swapTick := 55 }), 4, { cur := some cp09, kept := some { cp09 with off := 4096 }, swapTick := 55 }, ?_⟩,
    ⟨w01a, 3, {}, ?_⟩,
    ⟨(w08 (run08 0x2A op08 vp08) [(HDG_CFG_EN, 1)] id h08), 4, { cur := some { crc := 6 } }, ?_⟩,
    ⟨w01a, 3, {}, ?_⟩,
    ⟨(s09 5 { cur := some { cp09 with bytes := [] } } [] mem09), 4, { cur := some { cp09 with bytes := [] } }, { cp09 with bytes := [] }, pkg09, ?_⟩,
    ⟨(s09 5 { cur := some cp09 } [q09]), 4, { cur := some cp09 }, cp09, ?_⟩⟩ <;>
    decide +kernel

set_option maxRecDepth 8000 in
theorem witness_VerifierHasItsEffect :
    (∃ (s : State) (x : Fin 8) (j : VJob), s.agg.allPlaced ∧ s.agg.safe = false ∧ s.agg.gasp = false ∧
      (s.agg.vrf.arr.get (↑x : Nat)).repair = none ∧ s.agg.jobFor (↑x : Nat) = some j ∧ s.agg.computes j ∧
      (s.agg.vrf.arr.get (↑x : Nat)).job = none) ∧
    (∃ (s : State) (x : Fin 8) (j : VJob) (p : Pass), s.agg.allPlaced ∧ s.agg.safe = false ∧ s.agg.gasp = false ∧
      (s.agg.vrf.arr.get (↑x : Nat)).repair = none ∧ s.agg.jobFor (↑x : Nat) = some j ∧ s.agg.computes j ∧
      (s.agg.vrf.arr.get (↑x : Nat)).job = some p ∧ s.agg.inService (↑x : Nat) = true ∧ bitAt (s.agg.cfg
      VRF_CFG_ARR_EN) (↑x : Nat) = true ∧ s.agg.domOn (↑x : Nat) = true) ∧
    (∃ (s : State) (x : Fin 8), s.agg.allPlaced ∧ (s.agg.safe = true ∨ s.agg.gasp = true ∨ (s.agg.vrf.arr.get (↑x :
      Nat)).repair.isSome = true ∨ s.agg.jobFor (↑x : Nat) = none)) ∧
    (∃ (s : State) (x : Fin 8) (p : Pass) (rest : List Pass), (s.agg.vrf.arr.get (↑x : Nat)).passes = p :: rest) ∧
    (∃ (s : State) (x : Fin 8) (p : Pass) (rest : List Pass) (slot : Nat) (tick : Nat) (l : List Byte),
      (s.agg.vrf.arr.get (↑x : Nat)).passes = p :: rest ∧ p.more = [] ∧ (s.agg.vrf.arr.get (↑x : Nat)).repair = none ∧
      s.agg.allPlaced ∧ s.agg.inService (↑x : Nat) = true ∧ bitAt (s.agg.cfg VRF_CFG_ARR_EN) (↑x : Nat) = true ∧
      s.agg.domOn (↑x : Nat) = true ∧ p.job.work = VWork.predict slot tick l) ∧
    (∃ (s : State) (x : Fin 8) (f : PassFault) (p : Pass) (rest : List Pass) (q : SelfTest) (y : Nat),
      (s.agg.vrf.arr.get (↑x : Nat)).passes = p :: rest ∧ p.more = [] ∧ (s.agg.vrf.arr.get (↑x : Nat)).repair = none ∧
      s.agg.allPlaced ∧ s.agg.inService (↑x : Nat) = true ∧ bitAt (s.agg.cfg VRF_CFG_ARR_EN) (↑x : Nat) = true ∧
      s.agg.domOn (↑x : Nat) = true ∧ p.job.work = VWork.selfTest q.id ∧ s.agg.testOf q.id = some q ∧ q.kind = 0 ∧
      q.results = [] ∧ y ≠ (↑x : Nat) ∧ q.arrays = [(↑x : Nat), y] ∧ f.columns = []) ∧
    (∃ (s : State) (x : Fin 8) (f : PassFault) (p : Pass) (rest : List Pass) (q : SelfTest) (y : Nat),
      (s.agg.vrf.arr.get (↑x : Nat)).passes = p :: rest ∧ p.more = [] ∧ (s.agg.vrf.arr.get (↑x : Nat)).repair = none ∧
      s.agg.allPlaced ∧ s.agg.inService (↑x : Nat) = true ∧ bitAt (s.agg.cfg VRF_CFG_ARR_EN) (↑x : Nat) = true ∧
      s.agg.domOn (↑x : Nat) = true ∧ p.job.work = VWork.selfTest q.id ∧ s.agg.testOf q.id = some q ∧ q.kind = 0 ∧
      q.results = [(y, [])] ∧ y < 8 ∧ y ≠ (↑x : Nat) ∧ q.arrays = [y, (↑x : Nat)] ∧ f.columns = [] ∧ (∀ k ∈
      s.agg.vrf.jobs, k.work ≠ VWork.selfTest q.id)) ∧
    (∃ (s : State) (x : Fin 8), (s.agg.vrf.arr.get (↑x : Nat)).passes = []) ∧
    (∃ (s : State) (j : VJob), List.find? (fun k => decide (k.id = j.id)) s.agg.vrf.jobs = some j ∧ (s.agg.cfg
      VRF_PRIO_AGE_US = 0 ∨ j.cls < 2)) ∧
    (∃ (s : State) (j : VJob), List.find? (fun k => decide (k.id = j.id)) s.agg.vrf.jobs = some j ∧ s.agg.allPlaced ∧
      s.agg.cfg VRF_PRIO_AGE_US ≠ 0 ∧ 2 ≤ j.cls) ∧
    (∃ (s : State) (n : Nat), (∀ j ∈ s.agg.vrf.jobs, j.id ≠ n)) ∧
    (∃ (s : State) (x : Fin 8), (s.agg.vrf.arr.get (↑x : Nat)).job = none) ∧
    (∃ (s : State) (x : Fin 8) (p : Pass), (s.agg.vrf.arr.get (↑x : Nat)).job = some p) ∧
    (∃ (s : State) (x : Fin 8) (p : Pass), (s.agg.vrf.arr.get (↑x : Nat)).job = some p ∧ (∀ k ∈ p.job :: p.more,
      k.again = false) ∧ (s.agg.vrf.arr.get (↑x : Nat)).repair = none ∧ s.agg.reg (VRF_ARR_STATUS_STATE (↑x : Nat)) ≠
      2 ∧ s.agg.allPlaced) ∧
    (∃ (s : State) (x : Fin 8) (p : Pass) (k : VJob) (more : List VJob), (s.agg.vrf.arr.get (↑x : Nat)).job = some p ∧
      (∀ k ∈ p.job :: p.more, ∃ u tick l, k.work = VWork.predict u tick l) ∧ (s.agg.vrf.arr.get (↑x : Nat)).repair =
      none ∧ s.agg.reg (VRF_ARR_STATUS_STATE (↑x : Nat)) ≠ 2 ∧ s.agg.allPlaced ∧ List.filter (fun x' => !x'.again)
      (p.job :: p.more) = k :: more) ∧
    (∃ (s : State) (x : Fin 8) (p : Pass), (s.agg.vrf.arr.get (↑x : Nat)).job = some p ∧ (∀ k ∈ p.job :: p.more, ∃ u
      tick l, k.work = VWork.predict u tick l) ∧ (s.agg.vrf.arr.get (↑x : Nat)).repair = none ∧ s.agg.reg
      (VRF_ARR_STATUS_STATE (↑x : Nat)) ≠ 2 ∧ s.agg.allPlaced ∧ List.filter (fun x' => !x'.again) (p.job :: p.more) =
      [] ∧ s.agg.inService (↑x : Nat) = true ∧ bitAt (s.agg.cfg VRF_CFG_ARR_EN) (↑x : Nat) = true ∧ s.agg.domOn (↑x :
      Nat) = true) ∧
    (∃ (s : State) (x : Fin 8) (p : Pass) (id : Nat) (q : SelfTest), (s.agg.vrf.arr.get (↑x : Nat)).job = some p ∧
      p.job.work = VWork.selfTest id ∧ p.job.again = true ∧ p.more = [] ∧ s.agg.testOf id = some q ∧ q.kind = 1) ∧
    (∃ (s : State) (x : Fin 8) (y : Nat) (rest : List Nat) (per : Nat), s.agg.allPlaced ∧ s.agg.inService (↑x : Nat) =
      true ∧ s.agg.nextArrays (↑x : Nat) [] = y :: rest ∧ per = s.agg.cfg VRF_ST_CFG_ST_PERIOD_MS * 1000000 ∧ per ≠ 0) ∧
    (∃ (s : State) (x : Fin 8) (y : Nat) (rest : List Nat), s.agg.allPlaced ∧ s.agg.inService (↑x : Nat) = true ∧
      s.agg.nextArrays (↑x : Nat) [] = y :: rest ∧ s.agg.reg CFG_STATUS_STATE ≠ 5) ∧
    (∃ (s : State) (x : Fin 8), s.agg.allPlaced ∧ s.agg.inService (↑x : Nat) = true ∧ s.agg.nextArrays (↑x : Nat) [] =
      [] ∧ s.agg.reg CFG_STATUS_STATE ≠ 5) ∧
    (∃ (s : State), s.agg.cfg VRF_ST_CFG_ST_PERIOD_MS = 0) ∧
    (∃ (s : State) (x : Fin 8) (y : Nat) (z : Nat) (rest : List Nat), s.agg.reg CFG_STATUS_STATE ≠ 5 ∧ s.agg.reg
      (VRF_ARR_STATUS_STATE (↑x : Nat)) = 2 ∧ s.agg.nextArrays (↑x : Nat) [] = y :: z :: rest ∧ s.agg.allPlaced ∧ (∀ q
      ∈ s.agg.vrf.tests, q.id ≠ s.agg.vrf.nextTest)) ∧
    (∃ (s : State) (x : Fin 8), s.agg.reg CFG_STATUS_STATE ≠ 5 ∧ s.agg.reg (VRF_ARR_STATUS_STATE (↑x : Nat)) ≠ 2) ∧
    (∃ (s : State) (x : Fin 8), s.agg.reg CFG_STATUS_STATE ≠ 5 ∧ s.agg.reg (VRF_ARR_STATUS_STATE (↑x : Nat)) ≠ 2 ∧
      (s.agg.vrf.arr.get (↑x : Nat)).since = [] ∧ s.agg.rerunsOf (↑x : Nat) = [] ∧ (∀ (k : VJob), (k ∈ s.agg.vrf.jobs
      ∨ ∃ p ∈ (s.agg.vrf.arr.get (↑x : Nat)).passes, k ∈ p.job :: p.more) → ∃ y < 8, y ≠ (↑x : Nat) ∧ s.agg.eligible k
      y = true)) ∧
    (∃ (s : State), s.agg.reg CFG_STATUS_STATE = 5) ∧
    (∃ (s : State), s.agg.prevNeeded = true) ∧
    (∃ (s : State), s.agg.prevNeeded = false) := by
  refine ⟨⟨(v10 fun v => { v with jobs := [j10] }), 1, j10, ?_⟩,
    ⟨(v10 fun v => { v with arr := [(1, { job := some { job := { j10 with id := 6 }, startNs := 4900000 } })], jobs := [j10] }), 1, j10, { job := { j10 with id := 6 }, startNs := 4900000 }, ?_⟩,
    ⟨w01a, 1, ?_⟩,
    ⟨(v10 fun v => { v with arr := [(1, { job := some { job := { j10 with work := .predict 2 60 (zeros 64) }, startNs := 4900000 } })] }), 1, (match ((v10 fun v => { v with arr := [(1, { job := some { job := { j10 with work := .predict 2 60 (zeros 64) }, startNs := 4900000 } })] }).agg.vrf.arr.get (↑1 : Nat)).passes with | (p :: _) => p | _ => default), [], ?_⟩,
    ⟨(v10 fun v => { v with arr := [(1, { job := some { job := { j10 with work := .predict 2 60 (zeros 64) }, startNs := 4900000 } })] }), 1, (match ((v10 fun v => { v with arr := [(1, { job := some { job := { j10 with work := .predict 2 60 (zeros 64) }, startNs := 4900000 } })] }).agg.vrf.arr.get (↑1 : Nat)).passes with | (p :: _) => p | _ => default), [], 2, 60, (zeros 64), ?_⟩,
    ⟨(v10 fun v => { v with tests := [st10], arr := [(1, { job := some { job := { j10 with work := .selfTest 9 }, startNs := 4900000 } })] }), 1, {}, { job := { j10 with work := .selfTest 9 }, startNs := 4900000 }, [], st10, 2, ?_⟩,
    ⟨(v10 fun v => { v with tests := [{ st10 with arrays := [2, 1], results := [(2, [])] }], arr := [(1, { job := some { job := { j10 with work := .selfTest 9 }, startNs := 4900000 } })] }), 1, {}, { job := { j10 with work := .selfTest 9 }, startNs := 4900000 }, [], { st10 with arrays := [2, 1], results := [(2, [])] }, 2, ?_⟩,
    ⟨w01a, 1, ?_⟩,
    ⟨(v10 fun v => { v with jobs := [{ j10 with cls := 1 }] }), { j10 with cls := 1 }, ?_⟩,
    ⟨(v10 fun v => { v with jobs := [j10] }), j10, ?_⟩,
    ⟨w01a, 0, ?_⟩,
    ⟨w01a, 1, ?_⟩,
    ⟨(v10 fun v => { v with arr := [(1, { job := some { job := { j10 with work := .predict 2 60 (zeros 64) }, startNs := 4900000 } })] }), 1, (match ((v10 fun v => { v with arr := [(1, { job := some { job := { j10 with work := .predict 2 60 (zeros 64) }, startNs := 4900000 } })] }).agg.vrf.arr.get (↑1 : Nat)).job with | (some p) => p | _ => default), ?_⟩,
    ⟨(v10 fun v => { v with arr := [(1, { job := some { job := { j10 with work := .predict 2 60 (zeros 64) }, startNs := 4900000 } })] }), 1, (match ((v10 fun v => { v with arr := [(1, { job := some { job := { j10 with work := .predict 2 60 (zeros 64) }, startNs := 4900000 } })] }).agg.vrf.arr.get (↑1 : Nat)).job with | (some p) => p | _ => default), ?_⟩,
    ⟨(v10 fun v => { v with arr := [(1, { job := some { job := { j10 with work := .predict 2 60 (zeros 64) }, startNs := 4900000 } })] }), 1, (match ((v10 fun v => { v with arr := [(1, { job := some { job := { j10 with work := .predict 2 60 (zeros 64) }, startNs := 4900000 } })] }).agg.vrf.arr.get (↑1 : Nat)).job with | (some p) => p | _ => default), { j10 with work := .predict 2 60 (zeros 64) }, [], ?_⟩,
    ⟨(v10 fun v => { v with arr := [(1, { job := some { job := { j10 with again := true }, startNs := 4900000 } })] }), 1, { job := { j10 with again := true }, startNs := 4900000 }, ?_⟩,
    ⟨(v10 fun v => { v with tests := [st10r], arr := [(1, { job := some p10r })] }), 1, p10r, 9, st10r, ?_⟩,
    ⟨(v10 fun v => { v with jobs := [j10] }), 1, 2, [3, 4, 5, 6, 7, 0], 10000000, ?_⟩,
    ⟨(v10 fun v => { v with jobs := [j10] }), 1, 2, [3, 4, 5, 6, 7, 0], ?_⟩,
    ⟨(v10 id (([0, 2, 3, 4, 5, 6, 7] : List Nat).map fun y => (VRF_ARR_STATUS_STATE y, 2))), 1, ?_⟩,
    ⟨(aW [] [(VRF_ST_CFG_ST_PERIOD_MS, 0)]), ?_⟩,
    ⟨(v10 (fun v => { v with nextTest := 3 }) [(VRF_ARR_STATUS_STATE 1, 2)]), 1, 2, 3, [4, 5, 6, 7, 0], ?_⟩,
    ⟨w01a, 1, ?_⟩,
    ⟨w01a, 1, ?_⟩,
    ⟨(s15 [(CFG_STATUS_STATE, 5)]), ?_⟩,
    ⟨(v10 fun v => { v with profPrev := some ([], 4000000), checks := [{ endNs := 3000000 }] }), ?_⟩,
    ⟨w01a, ?_⟩⟩ <;>
    first
    | decide +kernel
    | ((repeat' apply And.intro) <;> first
        | decide +kernel
        | rfl
        | (unfold Agg.allPlaced; decide +kernel)
        | trivial
        | (rintro k (h | ⟨p, h, -⟩) <;> exact absurd h List.not_mem_nil)
        | (intro k h; obtain rfl := List.mem_singleton.1 h; exact ⟨_, _, _, rfl⟩))

theorem witness_SilentErrorsAreFoundAndDecided :
    (∃ (s : State) (slot : Fin 16) (die : Nat) (w : TileWait) (rest : List TileWait) (tag : Nat) (x : Nat) (k : Nat),
      s.agg.dieOfSlot (↑slot : Nat) = some die ∧ s.agg.cfgOn SE_CFG_EN = true ∧ s.agg.tagsHeld (↑slot : Nat) <
      s.agg.cfg SE_TAG_CFG_DIE_TAGS ∧ s.agg.reg (SE_DIE_STATUS_STATE (↑slot : Nat)) ≠ 1 ∧ k < 16 ∧ (s.agg.se.turn + k)
      % 16 = (↑slot : Nat) ∧ (∀ i < k, s.agg.tileMayTake ((s.agg.se.turn + i) % 16) = false) ∧ (s.agg.seDie (↑slot :
      Nat)).wait = w :: rest ∧ s.agg.freeTag = some tag ∧ s.agg.allPlaced ∧ x < 8 ∧ s.agg.inService x = true) ∧
    (∃ (s : State) (slot : Fin 16) (die : Nat), s.agg.dieOfSlot (↑slot : Nat) = some die ∧ (s.agg.cfgOn SE_CFG_EN =
      false ∨ s.agg.cfg SE_TAG_CFG_DIE_TAGS ≤ s.agg.tagsHeld (↑slot : Nat) ∨ (s.agg.seDie (↑slot : Nat)).wait = [] ∨
      s.agg.reg (SE_DIE_STATUS_STATE (↑slot : Nat)) = 1 ∨ s.agg.freeTag = none ∨ ∃ i < ((↑slot : Nat) + 16 -
      s.agg.se.turn % 16) % 16, s.agg.tileMayTake ((s.agg.se.turn + i) % 16) = true)) ∧
    (∃ (s : State) (slot : Fin 16) (die : Nat) (c : SeCase), s.agg.dieOfSlot (↑slot : Nat) = some die ∧ (s.agg.seDie
      (↑slot : Nat)).rpl = none ∧ (∀ e ∈ s.agg.shed.left, e.1.kind ≠ 10) ∧ List.find? (fun c' => c'.tile && decide
      (c'.bytes ≠ [])) (s.agg.seDie (↑slot : Nat)).cases = some c ∧ s.agg.cfgOn SE_RPL_CFG_AUTO = true ∧
      s.agg.jrnReady = true) ∧
    (∃ (s : State) (slot : Fin 16) (die : Nat) (c : SeCase), s.agg.dieOfSlot (↑slot : Nat) = some die ∧ (s.agg.seDie
      (↑slot : Nat)).rpl = none ∧ (∀ e ∈ s.agg.shed.left, e.1.kind ≠ 10) ∧ List.find? (fun c' => c'.tile && decide
      (c'.bytes ≠ [])) (s.agg.seDie (↑slot : Nat)).cases = some c ∧ (s.agg.cfgOn SE_RPL_CFG_AUTO = false ∨
      s.agg.jrnReady = false)) ∧
    (∃ (s : State) (slot : Fin 16) (die : Nat), s.agg.dieOfSlot (↑slot : Nat) = some die ∧ (s.agg.seDie (↑slot :
      Nat)).rpl = none ∧ (∀ e ∈ s.agg.shed.left, e.1.kind ≠ 10) ∧ (∀ c ∈ (s.agg.seDie (↑slot : Nat)).cases, c.tile =
      false ∨ c.bytes = [])) ∧
    (∃ (s : State) (slot : Fin 16) (die : Nat) (r : SeReplay) (c : SeCase), s.agg.dieOfSlot (↑slot : Nat) = some die ∧
      (s.agg.seDie (↑slot : Nat)).rpl = some r ∧ (s.agg.seDie (↑slot : Nat)).rplCase = some c ∧ r.phase = 0 ∧
      s.agg.beginMirrored r.op = true) ∧
    (∃ (s : State) (slot : Fin 16) (die : Nat) (r : SeReplay) (c : SeCase), s.agg.dieOfSlot (↑slot : Nat) = some die ∧
      (s.agg.seDie (↑slot : Nat)).rpl = some r ∧ (s.agg.seDie (↑slot : Nat)).rplCase = some c ∧ (r.phase ≠ 0 ∨
      s.agg.beginMirrored r.op = false)) ∧
    (∃ (s : State) (slot : Fin 16) (die : Nat) (r : SeReplay) (c : SeCase), s.agg.dieOfSlot (↑slot : Nat) = some die ∧
      (s.agg.seDie (↑slot : Nat)).rpl = some r ∧ (s.agg.seDie (↑slot : Nat)).rplCase = some c ∧ r.phase ≠ 3) ∧
    (∃ (s : State) (slot : Fin 16) (die : Nat) (r : SeReplay) (c : SeCase), s.agg.dieOfSlot (↑slot : Nat) = some die ∧
      (s.agg.seDie (↑slot : Nat)).rpl = some r ∧ (s.agg.seDie (↑slot : Nat)).rplCase = some c ∧ r.phase = 3) ∧
    (∃ (s : State) (slot : Fin 16) (die : Nat) (r : SeReplay) (c : SeCase) (w : Nat) (ws : List Nat) (n : Nat) (ok :
      List Nat), s.agg.dieOfSlot (↑slot : Nat) = some die ∧ (s.agg.seDie (↑slot : Nat)).rpl = some r ∧ (s.agg.seDie
      (↑slot : Nat)).rplCase = some c ∧ r.phase = 3 ∧ n = min (w / 8 % 8) (ws.length / 2) ∧ ok = List.map (fun i =>
      ws[2 * i]?.getD 0 % 2 ^ 32) (List.filter (fun i => !bitAt w (56 + i)) (List.range n)) ∧ (w % 8 ≠ 4 ∨ ok = [])) ∧
    (∃ (s : State) (slot : Fin 16) (die : Nat) (r : SeReplay) (c : SeCase) (w : Nat) (ws : List Nat) (n : Nat) (ok :
      List Nat) (kind : Nat), s.agg.dieOfSlot (↑slot : Nat) = some die ∧ (s.agg.seDie (↑slot : Nat)).rpl = some r ∧
      (s.agg.seDie (↑slot : Nat)).rplCase = some c ∧ r.phase = 3 ∧ n = min (w / 8 % 8) (ws.length / 2) ∧ ok = List.map
      (fun i => ws[2 * i]?.getD 0 % 2 ^ 32) (List.filter (fun i => !bitAt w (56 + i)) (List.range n)) ∧ w % 8 = 4 ∧
      (c.hostCrc ∈ ok ∧ kind = 11 ∨ c.hostCrc ∉ ok ∧ ok ≠ [] ∧ (∀ v ∈ ok, v = c.refCrc ∨ c.bound = true) ∧ kind = 10 ∨
      c.hostCrc ∉ ok ∧ (∃ v ∈ ok, v ≠ c.refCrc ∧ c.bound = false) ∧ kind = 12)) ∧
    (∃ (s : State) (slot : Fin 16) (die : Nat) (c : SeCase), s.agg.dieOfSlot (↑slot : Nat) = some die ∧ List.find?
      (fun c' => !c'.tile) (s.agg.seDie (↑slot : Nat)).cases = some c) ∧
    (∃ (s : State) (slot : Fin 16) (die : Nat), s.agg.dieOfSlot (↑slot : Nat) = some die ∧ (∀ c ∈ (s.agg.seDie (↑slot
      : Nat)).cases, c.tile = true)) ∧
    (∃ (s : State) (slot : Fin 16) (die : Nat) (e : Nat) (later : List Nat), s.agg.dieOfSlot (↑slot : Nat) = some die
      ∧ ((s.agg.epochsBegan (↑slot : Nat)).seDie (↑slot : Nat)).epochs = e :: later ∧ (s.agg.epochsBegan (↑slot :
      Nat)).epochReady (↑slot : Nat) = true) ∧
    (∃ (s : State) (slot : Fin 16) (die : Nat) (e : Nat) (later : List Nat), s.agg.dieOfSlot (↑slot : Nat) = some die
      ∧ ((s.agg.epochsBegan (↑slot : Nat)).seDie (↑slot : Nat)).epochs = e :: later ∧ (s.agg.epochsBegan (↑slot :
      Nat)).epochReady (↑slot : Nat) = false) ∧
    (∃ (s : State) (slot : Fin 16) (die : Nat) (e : Nat) (later : List Nat), s.agg.dieOfSlot (↑slot : Nat) = some die
      ∧ ((s.agg.epochsBegan (↑slot : Nat)).seDie (↑slot : Nat)).epochs = e :: later ∧ s.agg.cfgOn SE_CFG_EN = true ∧
      s.agg.reg (SE_DIE_STATUS_STATE (↑slot : Nat)) = 2 ∧ (s.agg.seDie (↑slot : Nat)).cases = []) ∧
    (∃ (s : State) (slot : Fin 16) (die : Nat) (f : FetchAsk), s.agg.dieOfSlot (↑slot : Nat) = some die ∧ (List.find?
      (fun f' => decide (f'.use = FetchUse.errors (↑slot : Nat) ∨ f'.use = FetchUse.tiles (↑slot : Nat)))
      s.agg.shed.fetches = some f)) ∧
    (∃ (s : State) (slot : Fin 16) (die : Nat), s.agg.dieOfSlot (↑slot : Nat) = some die ∧ (∀ f ∈ s.agg.shed.fetches,
      f.use ≠ FetchUse.errors (↑slot : Nat) ∧ f.use ≠ FetchUse.tiles (↑slot : Nat))) := by
  refine ⟨⟨(s11 { wait := [tw11] }), 2, 5, tw11, [], 0, 0, 2, ?_⟩,
    ⟨w04k, 2, 5, ?_⟩,
    ⟨(s11 { cases := [c11] }), 2, 5, c11, ?_⟩,
    ⟨(s11 { cases := [c11] } [] [(SE_RPL_CFG_AUTO, 0)]), 2, 5, c11, ?_⟩,
    ⟨w04k, 2, 5, ?_⟩,
    ⟨(s11 { cases := [c11], rpl := some { r11 with phase := 0 } }), 2, 5, { r11 with phase := 0 }, c11, ?_⟩,
    ⟨(s11 { cases := [c11], rpl := some r11 }), 2, 5, r11, c11, ?_⟩,
    ⟨(s11 { cases := [c11], rpl := some { r11 with phase := 0 } }), 2, 5, { r11 with phase := 0 }, c11, ?_⟩,
    ⟨(s11 { cases := [c11], rpl := some r11 }), 2, 5, r11, c11, ?_⟩,
    ⟨(s11 { cases := [c11], rpl := some r11 }), 2, 5, r11, c11, 0, [100], 0, (List.map (fun i => [100][2 * i]?.getD 0 % 2 ^ 32) (List.filter (fun i => !bitAt 0 (56 + i)) (List.range 0))), ?_⟩,
    ⟨(s11 { cases := [c11], rpl := some r11 }), 2, 5, r11, c11, 20, [3, 4, 5, 6, 7, 0], 2, (List.map (fun i => [3, 4, 5, 6, 7, 0][2 * i]?.getD 0 % 2 ^ 32) (List.filter (fun i => !bitAt 20 (56 + i)) (List.range 2))), 12, ?_⟩,
    ⟨(s11 { cases := [f11] }), 2, 5, f11, ?_⟩,
    ⟨w04k, 2, 5, ?_⟩,
    ⟨(s11 { epochs := [7, 0], counts := [(7, (2, 0))] }), 2, 5, 7, [0], ?_⟩,
    ⟨(s11 { wait := [tw11] }), 2, 5, 0, (match (((s11 { wait := [tw11] }).agg.epochsBegan (↑2 : Nat)).seDie (↑2 : Nat)).epochs with | (_ :: later) => later | _ => default), ?_⟩,
    ⟨(s11 { wait := [tw11] }), 2, 5, 0, (match (((s11 { wait := [tw11] }).agg.epochsBegan (↑2 : Nat)).seDie (↑2 : Nat)).epochs with | (_ :: later) => later | _ => default), ?_⟩,
    ⟨(s11 {} [(SE_DIE_STATUS_STATE 2, 1)] [] fun a => { a with shed := { a.shed with fetches := [a11] } }), 2, 5, a11, ?_⟩,
    ⟨w04k, 2, 5, ?_⟩⟩ <;>
    first
    | decide +kernel
    | ((repeat' apply And.intro) <;> first
        | decide +kernel
        | rfl
        | (unfold Agg.allPlaced; decide +kernel))

theorem witness_TaintsClearsAndFleece :
    (∃ (s : State) (slot : Fin 16) (die : Nat) (r : EpochRec) (op : Nat) (entry : List Byte), s.agg.dieOfSlot (↑slot :
      Nat) = some die ∧ (∀ x ∈ (s.agg.seDie (↑slot : Nat)).recs, x.op.isSome = true ∨ x.dropped = true ∨ x.begun =
      true) ∧ r.op = some op ∧ (∀ d ∈ s.agg.det.deliv, d.op ≠ op) ∧ s.agg.det.wait = [] ∧ entry = epochEntry die
      (s.agg.paddockOf (↑slot : Nat)) r (s.agg.jrnOfOp op) ∧ List.find? (fun r' => bitAt r'.flags 0 && !r'.begun &&
      s.agg.epochMirrored die r') (s.agg.seDie (↑slot : Nat)).recs = some r) ∧
    (∃ (s : State) (slot : Fin 16) (die : Nat) (r : EpochRec) (op : Nat) (entry : List Byte), s.agg.dieOfSlot (↑slot :
      Nat) = some die ∧ (∀ x ∈ (s.agg.seDie (↑slot : Nat)).recs, x.op.isSome = true ∨ x.dropped = true ∨ x.begun =
      true) ∧ r.op = some op ∧ (∀ d ∈ s.agg.det.deliv, d.op ≠ op) ∧ s.agg.det.wait = [] ∧ entry = epochEntry die
      (s.agg.paddockOf (↑slot : Nat)) r (s.agg.jrnOfOp op) ∧ List.find? (fun r' => !bitAt r'.flags 0 && !r'.begun &&
      !r'.dropped) (s.agg.seDie (↑slot : Nat)).recs = some r ∧ s.agg.epochMirrored die r = true ∧ (∀ x ∈ (s.agg.seDie
      (↑slot : Nat)).recs, bitAt x.flags 0 = true → r.dseq < x.dseq ∨ s.agg.taintDone die x = true)) ∧
    (∃ (s : State) (slot : Fin 16) (die : Nat) (r : EpochRec) (op : Nat) (entry : List Byte), s.agg.dieOfSlot (↑slot :
      Nat) = some die ∧ (∀ x ∈ (s.agg.seDie (↑slot : Nat)).recs, x.op.isSome = true ∨ x.dropped = true ∨ x.begun =
      true) ∧ r.op = some op ∧ (∀ d ∈ s.agg.det.deliv, d.op ≠ op) ∧ s.agg.det.wait = [] ∧ entry = epochEntry die
      (s.agg.paddockOf (↑slot : Nat)) r (s.agg.jrnOfOp op) ∧ List.find? (fun r' => !bitAt r'.flags 0 && !r'.begun &&
      !r'.dropped) (s.agg.seDie (↑slot : Nat)).recs = some r ∧ (s.agg.epochMirrored die r = false ∨ ∃ x ∈ (s.agg.seDie
      (↑slot : Nat)).recs, bitAt x.flags 0 = true ∧ x.dseq ≤ r.dseq ∧ s.agg.taintDone die x = false)) ∧
    (∃ (s : State) (slot : Fin 16) (die : Nat) (r : EpochRec) (dseq : Nat), s.agg.dieOfSlot (↑slot : Nat) = some die ∧
      List.find? (fun r' => bitAt r'.flags 0 && decide (r'.dseq = dseq)) (s.agg.seDie (↑slot : Nat)).recs = some r ∧
      (∀ x ∈ r :: List.filter (fun c => !bitAt c.flags 0 && c.begun && decide (c.lastTaint = dseq)) (s.agg.seDie
      (↑slot : Nat)).recs, s.agg.epochOp die x ≠ none)) ∧
    (∃ (s : State) (slot : Fin 16) (die : Nat) (r : EpochRec) (dseq : Nat), s.agg.dieOfSlot (↑slot : Nat) = some die ∧
      List.find? (fun r' => bitAt r'.flags 0 && decide (r'.dseq = dseq)) (s.agg.seDie (↑slot : Nat)).recs = some r ∧
      s.agg.epochOp die r = none) ∧
    (∃ (s : State) (slot : Fin 16) (die : Nat) (dseq : Nat), s.agg.dieOfSlot (↑slot : Nat) = some die ∧ (∀ r ∈
      (s.agg.seDie (↑slot : Nat)).recs, bitAt r.flags 0 = true → r.dseq ≠ dseq)) ∧
    (∃ (s : State) (slot : Fin 16) (die : Nat) (f : FleecePend) (op : Nat) (rest : List FleecePend) (entry : List
      Byte), s.agg.dieOfSlot (↑slot : Nat) = some die ∧ (s.agg.seDie (↑slot : Nat)).fleece = f :: rest ∧ (∀ x ∈ f ::
      rest, x.op.isSome = true) ∧ f.op = some op ∧ entry = fleeceEntry die (s.agg.paddockOf (↑slot : Nat)) f
      (s.agg.jrnOfOp op) ∧ (f.copied = true ∨ s.agg.mirrored f.ring f.seq = true) ∧ s.agg.beginMirrored op = true ∧ (∀
      d ∈ s.agg.det.deliv, d.op ≠ op) ∧ s.agg.det.wait = []) ∧
    (∃ (s : State) (slot : Fin 16) (die : Nat) (f : FleecePend) (op : Nat) (rest : List FleecePend) (entry : List
      Byte), s.agg.dieOfSlot (↑slot : Nat) = some die ∧ (s.agg.seDie (↑slot : Nat)).fleece = f :: rest ∧ (∀ x ∈ f ::
      rest, x.op.isSome = true) ∧ f.op = some op ∧ entry = fleeceEntry die (s.agg.paddockOf (↑slot : Nat)) f
      (s.agg.jrnOfOp op) ∧ (f.copied = false ∧ s.agg.mirrored f.ring f.seq = false ∨ s.agg.beginMirrored op = false)) ∧
    (∃ (s : State) (slot : Fin 16) (die : Nat), s.agg.dieOfSlot (↑slot : Nat) = some die ∧ (s.agg.seDie (↑slot :
      Nat)).fleece = []) ∧
    (∃ (s : State) (slot : Fin 16) (die : Nat) (d : Delivery) (i : Nat) (x : NoticeTo), s.agg.dieOfSlot (↑slot : Nat)
      = some die ∧ List.find? (fun d' => decide (d'.kind = 6) && decide (d'.slot = (↑slot : Nat)) && d'.toAggs.any fun
      t => t.record && !t.acked && !t.gaveUp) s.agg.det.deliv = some d ∧ s.agg.deliv d.op = some d ∧ i = List.findIdx
      (fun t => t.record) d.toAggs ∧ d.toAggs[i]? = some x ∧ x.acked = false ∧ x.gaveUp = false ∧ d.host ≠ 0 ∧
      x.resends < 8) ∧
    (∃ (s : State) (slot : Fin 16) (die : Nat) (d : Delivery) (i : Nat) (x : NoticeTo), s.agg.dieOfSlot (↑slot : Nat)
      = some die ∧ List.find? (fun d' => decide (d'.kind = 6) && decide (d'.slot = (↑slot : Nat)) && d'.toAggs.any fun
      t => t.record && !t.acked && !t.gaveUp) s.agg.det.deliv = some d ∧ s.agg.deliv d.op = some d ∧ i = List.findIdx
      (fun t => t.record) d.toAggs ∧ d.toAggs[i]? = some x ∧ x.acked = false ∧ x.gaveUp = false ∧ d.host ≠ 0 ∧ 8 ≤
      x.resends) ∧
    (∃ (s : State) (slot : Fin 16) (die : Nat), s.agg.dieOfSlot (↑slot : Nat) = some die ∧ (∀ d ∈ s.agg.det.deliv,
      d.kind = 6 → d.slot = (↑slot : Nat) → ∀ x ∈ d.toAggs, x.record = false ∨ x.acked = true ∨ x.gaveUp = true)) ∧
    (∃ (s : State) (slot : Fin 16) (die : Nat) (l : List EpochRec), s.agg.dieOfSlot (↑slot : Nat) = some die ∧
      s.agg.reg CFG_STATUS_STATE ≠ 5 ∧ l = List.filter (s.agg.seDie (↑slot : Nat)).isOpen (s.agg.seDie (↑slot :
      Nat)).recs ∧ s.agg.reg (SE_DIE_STATUS_STATE (↑slot : Nat)) ≠ 1) ∧
    (∃ (s : State) (slot : Fin 16) (die : Nat) (l : List EpochRec), s.agg.dieOfSlot (↑slot : Nat) = some die ∧
      s.agg.reg CFG_STATUS_STATE ≠ 5 ∧ l = List.filter (s.agg.seDie (↑slot : Nat)).isOpen (s.agg.seDie (↑slot :
      Nat)).recs ∧ s.agg.reg (SE_DIE_STATUS_STATE (↑slot : Nat)) = 1) ∧
    (∃ (s : State) (slot : Fin 16) (die : Nat), s.agg.dieOfSlot (↑slot : Nat) = some die ∧ s.agg.reg CFG_STATUS_STATE
      = 5) ∧
    (∃ (s : State) (slot : Fin 16) (die : Nat) (c : SeCase) (rest : List SeCase) (first : Nat), s.agg.dieOfSlot (↑slot
      : Nat) = some die ∧ s.agg.reg CFG_STATUS_STATE ≠ 5 ∧ (s.agg.seDie (↑slot : Nat)).cases = c :: rest ∧ first =
      epAdd c.epoch ((↑(s.agg.cfg SE_CFG_LINGER) : Int) + 1)) ∧
    (∃ (s : State) (slot : Fin 16) (die : Nat), s.agg.dieOfSlot (↑slot : Nat) = some die ∧ (s.agg.reg CFG_STATUS_STATE
      = 5 ∨ (s.agg.seDie (↑slot : Nat)).cases = [])) := by
  refine ⟨⟨(s11 { dseq := 5, recs := [er11 5] }), 2, 5, (er11 5), 77, (epochEntry 5 ((s11 { dseq := 5, recs := [er11 5] }).agg.paddockOf (↑2 : Nat)) (er11 5) ((s11 { dseq := 5, recs := [er11 5] }).agg.jrnOfOp 77)), ?_⟩,
    ⟨(s11 { dseq := 5, recs := [er11 0] }), 2, 5, (er11 0), 77, (epochEntry 5 ((s11 { dseq := 5, recs := [er11 0] }).agg.paddockOf (↑2 : Nat)) (er11 0) ((s11 { dseq := 5, recs := [er11 0] }).agg.jrnOfOp 77)), ?_⟩,
    ⟨(s11 { recs := [{ er11 0 with seq := 9 }] }), 2, 5, { er11 0 with seq := 9 }, 77, (epochEntry 5 ((s11 { recs := [{ er11 0 with seq := 9 }] }).agg.paddockOf (↑2 : Nat)) { er11 0 with seq := 9 } ((s11 { recs := [{ er11 0 with seq := 9 }] }).agg.jrnOfOp 77)), ?_⟩,
    ⟨(s11 { dseq := 5, recs := [er11 5] }), 2, 5, (er11 5), 4, ?_⟩,
    ⟨(s11 { dseq := 5, recs := [{ er11 1 with op := none }] }), 2, 5, { er11 1 with op := none }, 4, ?_⟩,
    ⟨w04k, 2, 5, 0, ?_⟩,
    ⟨(s11 { fleece := [fp11] }), 2, 5, fp11, 77, [], (fleeceEntry 5 ((s11 { fleece := [fp11] }).agg.paddockOf (↑2 : Nat)) fp11 ((s11 { fleece := [fp11] }).agg.jrnOfOp 77)), ?_⟩,
    ⟨(s11 { fleece := [{ fp11 with seq := 9 }] }), 2, 5, { fp11 with seq := 9 }, 77, [], (fleeceEntry 5 ((s11 { fleece := [{ fp11 with seq := 9 }] }).agg.paddockOf (↑2 : Nat)) { fp11 with seq := 9 } ((s11 { fleece := [{ fp11 with seq := 9 }] }).agg.jrnOfOp 77)), ?_⟩,
    ⟨w04k, 2, 5, ?_⟩,
    ⟨(s11 {} [] [] fun a => { a with det := { a.det with deliv := [df11] } }), 2, 5, df11, 0, nf11, ?_⟩,
    ⟨(s11 {} [] [] fun a => { a with det := { a.det with deliv := [{ df11 with toAggs := [{ nf11 with resends := 8 }] }] } }), 2, 5, { df11 with toAggs := [{ nf11 with resends := 8 }] }, 0, { nf11 with resends := 8 }, ?_⟩,
    ⟨w04k, 2, 5, ?_⟩,
    ⟨w04k, 2, 5, [], ?_⟩,
    ⟨(s11 {} [(SE_DIE_STATUS_STATE 2, 1)] [] fun a => { a with shed := { a.shed with fetches := [a11] } }), 2, 5, [], ?_⟩,
    ⟨(p15 {} id 5), 2, 5, ?_⟩,
    ⟨(s11 { cases := [c11] }), 2, 5, c11, [], 2, ?_⟩,
    ⟨w04k, 2, 5, ?_⟩⟩ <;>
    decide +kernel

theorem witness_PacketsAreTakenAndAcknowledged :
    (∃ (s : State) (k : Packet) (d : WireDefect), (d = WireDefect.pause ∨ d = WireDefect.etherType ∨ d ≠
      WireDefect.fcs ∧ (s.agg.reaches k.dstAddr = false ∨ d = WireDefect.icmp ∨ d ≠ WireDefect.ipForm ∧ k.udpPort ≠
      s.agg.cfg FAB_CFG_UDP_PORT ∧ k.udpPort ≠ 319 ∧ k.udpPort ≠ 320))) ∧
    (∃ (s : State) (k : Packet) (d : WireDefect), d ∉ [WireDefect.fcs, WireDefect.pause, WireDefect.etherType,
      WireDefect.ipForm, WireDefect.icmp] ∧ s.agg.reaches k.dstAddr = true ∧ k.udpPort ≠ s.agg.cfg FAB_CFG_UDP_PORT ∧
      (k.udpPort = 319 ∨ k.udpPort = 320)) ∧
    (∃ (s : State) (k : Packet) (d : WireDefect), s.agg.reaches k.dstAddr = true ∧ (d = WireDefect.ipForm ∨ d ∉
      [WireDefect.fcs, WireDefect.pause, WireDefect.etherType, WireDefect.icmp] ∧ k.udpPort = s.agg.cfg
      FAB_CFG_UDP_PORT ∧ (d = WireDefect.udpChecksum ∨ s.agg.packetDefect k d = true))) ∧
    (∃ (s : State) (k : Packet) (g : Nat), s.agg.reaches k.dstAddr = true ∧ k.udpPort = s.agg.cfg FAB_CFG_UDP_PORT ∧
      s.agg.packetDefect k WireDefect.none = false ∧ g = meterGroup k.rclass k.ackClass ∧ s.agg.accepts (↑k.port :
      Nat) g k.rx = false) ∧
    (∃ (s : State) (k : Packet) (g : Nat), s.agg.reaches k.dstAddr = true ∧ k.udpPort = s.agg.cfg FAB_CFG_UDP_PORT ∧
      s.agg.packetDefect k WireDefect.none = false ∧ g = meterGroup k.rclass k.ackClass ∧ s.agg.accepts (↑k.port :
      Nat) g k.rx = true) ∧
    (∃ (s : State) (port : Fin 12) (psn : Nat) (cls : Nat) (dst : Nat) (mine : Txn → Bool), (∀ (x : Txn), mine x =
      true ↔ x.port = (↑port : Nat) ∧ x.queued = false ∧ x.pkt.psn = psn ∧ x.pkt.o.rclass = cls ∧ x.pkt.o.dst = dst) ∧
      List.find? mine s.agg.fab.txn = none) ∧
    (∃ (s : State) (port : Fin 12) (psn : Nat) (cls : Nat) (dst : Nat) (mine : Txn → Bool) (x : Txn), (∀ (x : Txn),
      mine x = true ↔ x.port = (↑port : Nat) ∧ x.queued = false ∧ x.pkt.psn = psn ∧ x.pkt.o.rclass = cls ∧ x.pkt.o.dst
      = dst) ∧ List.find? mine s.agg.fab.txn = some x ∧ x.retx < s.agg.cfg FAB_TXN_CFG_RETRIES) ∧
    (∃ (s : State) (port : Fin 12) (psn : Nat) (cls : Nat) (dst : Nat) (mine : Txn → Bool) (x : Txn), (∀ (x : Txn),
      mine x = true ↔ x.port = (↑port : Nat) ∧ x.queued = false ∧ x.pkt.psn = psn ∧ x.pkt.o.rclass = cls ∧ x.pkt.o.dst
      = dst) ∧ List.find? mine s.agg.fab.txn = some x ∧ s.agg.cfg FAB_TXN_CFG_RETRIES ≤ x.retx) ∧
    (∃ (s : State) (src : Nat) (cls : Nat), ((∀ k ∈ s.agg.fab.acks, k.src ≠ src ∨ k.cls ≠ cls) ∨ s.agg.safe = true ∧
      cls ≠ 3)) ∧
    (∃ (s : State) (src : Nat) (cls : Nat) (k : AckPend), List.find? (fun k' => decide (k'.src = src) && decide
      (k'.cls = cls)) s.agg.fab.acks = some k ∧ (s.agg.safe = false ∨ cls = 3)) ∧
    (∃ (s : State) (target : Nat), target ≠ s.agg.ownAddress) ∧
    (∃ (s : State) (port : Fin 12) (rx : RxInfo), s.agg.accepts (↑port : Nat) 4 rx = true) ∧
    (∃ (s : State) (port : Fin 12) (rx : RxInfo), s.agg.accepts (↑port : Nat) 4 rx = false) := by
  refine ⟨⟨w01a, k12, .pause, ?_⟩,
    ⟨w01a, { k12 with udpPort := 319, dstAddr := (s12 id).agg.ownAddress, srcAddr := (s12 id).agg.spineAddress }, .fcrc, ?_⟩,
    ⟨w01a, k12, .fcrc, ?_⟩,
    ⟨w01a, { k12 with dstAddr := (s12 id).agg.ownAddress, srcAddr := (s12 id).agg.spineAddress, rx := { bytes := 9216, rxKib := 4096 } }, 3, ?_⟩,
    ⟨w01a, k12, 3, ?_⟩,
    ⟨(s12 id), 2, 3, 1, 9, (fun x => decide (x.port = 2 ∧ x.queued = false ∧ x.pkt.psn = 3 ∧ x.pkt.o.rclass = 1 ∧ x.pkt.o.dst = 9)), ?_⟩,
    ⟨(s12 fun f => { f with txn := [x12 0] }), 2, 3, 1, 9, (fun x => decide (x.port = 2 ∧ x.queued = false ∧ x.pkt.psn = 3 ∧ x.pkt.o.rclass = 1 ∧ x.pkt.o.dst = 9)), (x12 0), ?_⟩,
    ⟨(s12 fun f => { f with txn := [x12 3] }), 2, 3, 1, 9, (fun x => decide (x.port = 2 ∧ x.queued = false ∧ x.pkt.psn = 3 ∧ x.pkt.o.rclass = 1 ∧ x.pkt.o.dst = 9)), (x12 3), ?_⟩,
    ⟨w01a, 0, 0, ?_⟩,
    ⟨(s12 fun f => { f with acks := [{ src := 9, cls := 1, incarn := 1, psns := [5, 6] }] }), 9, 1, { src := 9, cls := 1, incarn := 1, psns := [5, 6] }, ?_⟩,
    ⟨w01a, 50, ?_⟩,
    ⟨w01a, 1, {}, ?_⟩,
    ⟨w01a, 1, { bytes := 9216, rxKib := 4096 }, ?_⟩⟩ <;>
    first
    | decide +kernel
    | ((repeat' apply And.intro) <;> first
        | decide +kernel
        | rfl
        | (intro x; exact decide_eq_true_iff))

theorem witness_QueuesAndPorts :
    (∃ (s : State) (o : OutPacket) (p : Nat) (k : Nat), (s.agg.safe = false ∨ o.queue = 0) ∧ s.agg.placeAt o.queue
      (s.agg.placeable (EgressFrame.rycon o)) = some p ∧ (k = (8 * if o.spine = true then 2 ^ 14 else o.dst) +
      o.rclass) ∧ s.agg.roomAt p o.queue (s.agg.lengthOf (EgressFrame.rycon o)) = true) ∧
    (∃ (s : State) (o : OutPacket) (p : Nat) (k : Nat), (s.agg.safe = false ∨ o.queue = 0) ∧ s.agg.placeAt o.queue
      (s.agg.placeable (EgressFrame.rycon o)) = some p ∧ (k = (8 * if o.spine = true then 2 ^ 14 else o.dst) +
      o.rclass) ∧ s.agg.roomAt p o.queue (s.agg.lengthOf (EgressFrame.rycon o)) = false) ∧
    (∃ (s : State) (o : OutPacket), (s.agg.safe = false ∨ o.queue = 0) ∧ s.agg.placeAt o.queue (s.agg.placeable
      (EgressFrame.rycon o)) = none ∧ (∀ p ∈ s.agg.portSet (EgressFrame.rycon o), s.agg.fabUp p = false)) ∧
    (∃ (s : State) (o : OutPacket), (s.agg.safe = false ∨ o.queue = 0) ∧ s.agg.placeAt o.queue (s.agg.placeable
      (EgressFrame.rycon o)) = none ∧ (∃ p ∈ s.agg.portSet (EgressFrame.rycon o), s.agg.fabUp p = true)) ∧
    (∃ (s : State) (o : OutPacket), s.agg.safe = true ∧ o.queue ≠ 0) ∧
    (∃ (s : State) (port : Fin 12) (q : Nat) (k : FabPkt) (rest : List FabPkt), s.agg.reg (FAB_PORT_STATUS_UP (↑port :
      Nat)) = 1 ∧ (∀ x < 8, s.agg.headBlock (↑port : Nat) x ≠ HeadBlock.txn) ∧ List.find? (fun x => decide
      (s.agg.headBlock (↑port : Nat) x = HeadBlock.go)) (List.range 8) = some q ∧ s.agg.fab.queue.get (8 * (↑port :
      Nat) + q) = k :: rest) ∧
    (∃ (s : State) (port : Fin 12), s.agg.reg (FAB_PORT_STATUS_UP (↑port : Nat)) = 1 ∧ (∀ x < 8, s.agg.headBlock
      (↑port : Nat) x ≠ HeadBlock.txn) ∧ (∀ x < 8, s.agg.headBlock (↑port : Nat) x ≠ HeadBlock.go)) ∧
    (∃ (s : State) (port : Fin 12) (q : Nat) (k : FabPkt) (rest : List FabPkt), s.agg.reg (FAB_PORT_STATUS_UP (↑port :
      Nat)) = 1 ∧ q < 8 ∧ s.agg.headBlock (↑port : Nat) q = HeadBlock.txn ∧ s.agg.fab.queue.get (8 * (↑port : Nat) +
      q) = k :: rest ∧ (∀ x ∈ s.agg.placeable k.f, x ≠ (↑port : Nat) → 65536 ≤ s.agg.txnOn x ∨ s.agg.roomAt x q
      k.bytes = false)) ∧
    (∃ (s : State) (port : Fin 12), s.agg.bit (FAB_PORT_STATUS_UP (↑port : Nat)) = false) ∧
    (∃ (s : State) (port : Fin 12) (lanes : BitVec 8) (used : Nat), used = s.agg.fab.lanes.get (↑port : Nat) ∧
      (lanes.toNat &&& used = used ∨ s.agg.bit (FAB_PORT_STATUS_UP (↑port : Nat)) = false)) ∧
    (∃ (s : State) (port : Fin 12) (lanes : BitVec 8) (used : Nat), used = s.agg.fab.lanes.get (↑port : Nat) ∧
      lanes.toNat &&& used ≠ used ∧ s.agg.reg (FAB_PORT_STATUS_UP (↑port : Nat)) = 1) ∧
    (∃ (s : State) (port : Fin 12) (lanes : BitVec 8) (m : Nat) (ok : Prop), m = s.agg.fabTrains (↑port : Nat) lanes ∧
      (ok ↔ m ≠ 0 ∧ s.agg.cfgOn (FAB_PORT_CFG_EN (↑port : Nat)) = true ∧ s.agg.domOn (16 + (↑port : Nat)) = true ∧
      s.agg.reg CFG_STATUS_STATE ≠ 5) ∧ s.agg.cfg (FAB_PORT_CFG_MODE (↑port : Nat)) = 0 ∧ lanes = 255) ∧
    (∃ (s : State) (port : Fin 12) (lanes : BitVec 8) (m : Nat) (ok : Prop), m = s.agg.fabTrains (↑port : Nat) lanes ∧
      (ok ↔ m ≠ 0 ∧ s.agg.cfgOn (FAB_PORT_CFG_EN (↑port : Nat)) = true ∧ s.agg.domOn (16 + (↑port : Nat)) = true ∧
      s.agg.reg CFG_STATUS_STATE ≠ 5) ∧ s.agg.cfg (FAB_PORT_CFG_MODE (↑port : Nat)) = 0 ∧ lanes ≠ 255 ∧ s.agg.cfgOn
      (FAB_PORT_CFG_DEGRADE_OK (↑port : Nat)) = true) ∧
    (∃ (s : State) (port : Fin 12) (lanes : BitVec 8) (m : Nat) (ok : Prop), m = s.agg.fabTrains (↑port : Nat) lanes ∧
      (ok ↔ m ≠ 0 ∧ s.agg.cfgOn (FAB_PORT_CFG_EN (↑port : Nat)) = true ∧ s.agg.domOn (16 + (↑port : Nat)) = true ∧
      s.agg.reg CFG_STATUS_STATE ≠ 5) ∧ s.agg.cfg (FAB_PORT_CFG_MODE (↑port : Nat)) = 0 ∧ lanes ≠ 255 ∧ s.agg.cfgOn
      (FAB_PORT_CFG_DEGRADE_OK (↑port : Nat)) = false) ∧
    (∃ (s : State) (port : Fin 12) (lanes : BitVec 8) (m : Nat) (ok : Prop), m = s.agg.fabTrains (↑port : Nat) lanes ∧
      (ok ↔ m ≠ 0 ∧ s.agg.cfgOn (FAB_PORT_CFG_EN (↑port : Nat)) = true ∧ s.agg.domOn (16 + (↑port : Nat)) = true ∧
      s.agg.reg CFG_STATUS_STATE ≠ 5) ∧ s.agg.cfg (FAB_PORT_CFG_MODE (↑port : Nat)) = 1) ∧
    (∃ (s : State) (port : Fin 12) (lanes : BitVec 8) (m : Nat) (ok : Prop), m = s.agg.fabTrains (↑port : Nat) lanes ∧
      (ok ↔ m ≠ 0 ∧ s.agg.cfgOn (FAB_PORT_CFG_EN (↑port : Nat)) = true ∧ s.agg.domOn (16 + (↑port : Nat)) = true ∧
      s.agg.reg CFG_STATUS_STATE ≠ 5) ∧ s.agg.cfg (FAB_PORT_CFG_MODE (↑port : Nat)) = 2) ∧
    (∃ (s : State) (port : Fin 12) (lanes : BitVec 8) (m : Nat) (ok : Prop), m = s.agg.fabTrains (↑port : Nat) lanes ∧
      (ok ↔ m ≠ 0 ∧ s.agg.cfgOn (FAB_PORT_CFG_EN (↑port : Nat)) = true ∧ s.agg.domOn (16 + (↑port : Nat)) = true ∧
      s.agg.reg CFG_STATUS_STATE ≠ 5) ∧ ok) ∧
    (∃ (s : State) (port : Fin 12) (lanes : BitVec 8) (m : Nat) (ok : Prop), m = s.agg.fabTrains (↑port : Nat) lanes ∧
      (ok ↔ m ≠ 0 ∧ s.agg.cfgOn (FAB_PORT_CFG_EN (↑port : Nat)) = true ∧ s.agg.domOn (16 + (↑port : Nat)) = true ∧
      s.agg.reg CFG_STATUS_STATE ≠ 5) ∧ ¬ok) := by
  refine ⟨⟨(w07a 2 []), o12, 2, 73, ?_⟩,
    ⟨(s12 id [] [(FAB_PORT_CFG_QMAX_KIB 2, 0)]), o12, 2, 73, ?_⟩,
    ⟨w01a, o12, ?_⟩,
    ⟨(s12 id [] [(FAB_CAL_CFG_DEFAULT_GATE 2, 1)]), o12, ?_⟩,
    ⟨(s13 (cp fun c => { c with safeAt := some 4000000 }) [(FLT_STATUS_STATE, 1)]), o12, ?_⟩,
    ⟨(s12 fun f => { f with queue := [(17, [q12])] }), 2, 1, q12, [], ?_⟩,
    ⟨(w07a 2 []), 2, ?_⟩,
    ⟨(s12 fun f => { f with queue := [(17, [{ q12 with psn := 4 }])], txn := List.replicate 65536 (x12 0) }), 2, 1, { q12 with psn := 4 }, [], ?_⟩,
    ⟨w01a, 1, ?_⟩,
    ⟨w01a, 1, 0x7F, 0, ?_⟩,
    ⟨(s12 fun f => { f with lanes := [(2, 255)] }), 2, 0x7F, 255, ?_⟩,
    ⟨w01a, 1, 0xFF, 255, True, ?_⟩,
    ⟨w01a, 1, 0x7F, 15, True, ?_⟩,
    ⟨(s12 id [] [(FAB_PORT_CFG_MODE 2, 0), (FAB_PORT_CFG_DEGRADE_OK 2, 0)]), 2, 0x7F, 0, False, ?_⟩,
    ⟨(s12 id [] [(FAB_PORT_CFG_MODE 2, 1)]), 2, 0x7F, 15, True, ?_⟩,
    ⟨(s12 id [] [(FAB_PORT_CFG_MODE 2, 2)]), 2, 0x7F, 0, False, ?_⟩,
    ⟨w01a, 1, 0x7F, 15, True, ?_⟩,
    ⟨(s15 [(CFG_STATUS_STATE, 5)]), 1, 0x7F, 15, False, ?_⟩⟩ <;>
    decide +kernel

theorem witness_OccurrencesAreRecorded :
    (∃ (s : State) (h : HwOccurrence) (k : Nat), (s.agg.voted.rateClass (hwOcc h)).2 = k ∧ k < 4) ∧
    (∃ (s : State), s.agg.p.col.notified = []) ∧
    (∃ (s : State) (o : Occ), nextOcc (fun o' => (s.agg.rateClass o').2) s.agg.p.col.notified = some o) ∧
    (∃ (s : State), s.ulg.p.col.notified = []) ∧
    (∃ (s : State) (o : Occ), nextOcc s.ulg.occClass s.ulg.p.col.notified = some o) ∧
    (∃ (s : State) (h : HwOccurrence) (k : Nat), s.ulg.voted.occClass (hwOcc h) = k ∧ k < 4) ∧
    (∃ (s : State) (n : Fin 1024) (level : Bool) (cycles : Nat), (s.ulg.cfgOn (ULG_HFLT_CFG_EN (↑n : Nat)) = false ∨
      s.ulg.bit (ULG_HFLT_STATE_LEVEL (↑n : Nat)) = true ∨ level = s.ulg.cfgOn (ULG_HFLT_CFG_POL (↑n : Nat)) ∨ cycles
      < s.ulg.cfg (ULG_HFLT_CFG_FILT (↑n : Nat)) + 1)) ∧
    (∃ (s : State) (n : Fin 1024) (level : Bool) (cycles : Nat), s.ulg.cfgOn (ULG_HFLT_CFG_EN (↑n : Nat)) = true ∧
      s.ulg.bit (ULG_HFLT_STATE_LEVEL (↑n : Nat)) = false ∧ level ≠ s.ulg.cfgOn (ULG_HFLT_CFG_POL (↑n : Nat)) ∧
      s.ulg.cfg (ULG_HFLT_CFG_FILT (↑n : Nat)) + 1 ≤ cycles) ∧
    (∃ (s : State) (n : Fin 1024) (level : Bool) (cycles : Nat), (s.ulg.cfgOn (ULG_HFLT_CFG_EN (↑n : Nat)) = false ∨
      level ≠ s.ulg.cfgOn (ULG_HFLT_CFG_POL (↑n : Nat)) ∨ cycles < s.ulg.cfg (ULG_HFLT_CFG_FILT (↑n : Nat)) + 1)) ∧
    (∃ (s : State) (n : Fin 1024) (level : Bool) (cycles : Nat), s.ulg.cfgOn (ULG_HFLT_CFG_EN (↑n : Nat)) = true ∧
      level = s.ulg.cfgOn (ULG_HFLT_CFG_POL (↑n : Nat)) ∧ s.ulg.cfg (ULG_HFLT_CFG_FILT (↑n : Nat)) + 1 ≤ cycles) := by
  refine ⟨⟨w01a, { source := 0x0904, addr := 77 }, 0, ?_⟩,
    ⟨w01a, ?_⟩,
    ⟨(nextOf (s16.steps 2) s16), (match nextOcc (fun o' => ((nextOf (s16.steps 2) s16).agg.rateClass o').2) (nextOf (s16.steps 2) s16).agg.p.col.notified with | (some o) => o | _ => default), ?_⟩,
    ⟨w01a, ?_⟩,
    ⟨(u13 (cp fun c => { c with notified := [{ source := 0x202 }] })), { source := 0x202 }, ?_⟩,
    ⟨w01a, { source := 0x0904, addr := 77 }, 0, ?_⟩,
    ⟨w01a, 5, false, 0, ?_⟩,
    ⟨(u13 id [] [(ULG_HFLT_CFG_EN 5, 1)]), 5, true, 50, ?_⟩,
    ⟨w01a, 5, false, 0, ?_⟩,
    ⟨(u13 id [] [(ULG_HFLT_CFG_EN 5, 1)]), 5, false, 50, ?_⟩⟩ <;>
    decide +kernel

theorem witness_FaultCommandsHaveTheirEffect :
    (∃ (q : Nat), q < 2 ^ 32) ∧
    (∃ (s : State), (∀ r ∈ s.agg.p.col.pending, r.cls ≠ 1)) ∧
    (∃ (s : State) (r : Pend), List.find? (fun r' => decide (r'.cls = 1)) s.agg.p.col.pending = some r ∧ r.source ≠ 4
      ∧ s.agg.p.col.pending.length ≤ 512) ∧
    (∃ (s : State), (∀ r ∈ s.ulg.p.col.pending, r.cls ≠ 1)) ∧
    (∃ (s : State) (r : Pend), List.find? (fun r' => decide (r'.cls = 1)) s.ulg.p.col.pending = some r ∧ r.source ≠ 4
      ∧ s.ulg.p.col.pending.length ≤ 32 ∧ s.ulg.p.col.upFrom.isSome = true) ∧
    (∃ (s : State) (r : Pend), List.find? (fun r' => decide (r'.cls = 1)) s.ulg.p.col.pending = some r ∧ r.source ≠ 4
      ∧ s.ulg.p.col.pending.length ≤ 32 ∧ s.ulg.p.col.upFrom = none ∧ s.ulg.upTime < r.up + s.ulg.cfg
      ULG_FLT_CFG_SHEEPDOG_US * 1000) ∧
    (∃ (s : State) (n : Nat), n = s.agg.p.recoveries (s.agg.cfg FLT_CFG_RECOVER_WIN_S) ∧ (s.agg.reg FLT_STATUS_STATE =
      0 ∨ s.agg.reg FLT_STATUS_STATE = 2)) ∧
    (∃ (s : State), (s.agg.reg FLT_STATUS_STATE = 1 ∨ 3 ≤ s.agg.reg FLT_STATUS_STATE)) ∧
    (∃ (s : State) (n : Nat), n = s.ulg.p.recoveries (s.ulg.cfg ULG_FLT_CFG_RECOVER_WIN_S) ∧ (s.ulg.reg
      ULG_FLT_STATUS_STATE = 0 ∨ s.ulg.reg ULG_FLT_STATUS_STATE = 2)) ∧
    (∃ (s : State), (s.ulg.reg ULG_FLT_STATUS_STATE = 1 ∨ 3 ≤ s.ulg.reg ULG_FLT_STATUS_STATE)) ∧
    (∃ (s : State) (dom : Option Nat) (n : Nat), ((∃ d, dom = some d ∧ List.find? (fun e => decide (e.1 = d))
      s.agg.p.col.moving = some (d, some n)) ∨ (∀ (d : Nat), dom = some d → ∀ e ∈ s.agg.p.col.moving, e.1 ≠ d) ∧
      s.agg.p.col.safeAt = some n) ∧ s.agg.safe = true) ∧
    (∃ (s : State) (dom : Option Nat), (s.agg.safe = false ∨ (∃ d, dom = some d ∧ List.find? (fun e => decide (e.1 =
      d)) s.agg.p.col.moving = some (d, none)) ∨ (∀ (d : Nat), dom = some d → ∀ e ∈ s.agg.p.col.moving, e.1 ≠ d) ∧
      s.agg.p.col.safeAt = none)) ∧
    (∃ (s : State) (a : Agg), a = s.agg.voted ∧ a.reg FLT_STATUS_STATE = 1 ∧ a.exitClear = true ∧ a.cfgOn
      FLT_CFG_AUTO_EXIT = true) ∧
    (∃ (s : State) (a : Agg), a = s.agg.voted ∧ a.reg FLT_STATUS_STATE = 1 ∧ a.exitClear = true ∧ a.quietNs ≤
      a.p.nowNs) ∧
    (∃ (s : State) (a : Agg), a = s.agg.voted ∧ (a.reg FLT_STATUS_STATE ≠ 1 ∨ a.exitClear = false ∨ a.p.nowNs <
      a.quietNs)) ∧
    (∃ (s : State) (a : Agg), a = s.agg.voted ∧ (a.reg FLT_STATUS_STATE ≠ 1 ∨ a.exitClear = false ∨ a.cfgOn
      FLT_CFG_AUTO_EXIT = false)) ∧
    (∃ (s : State) (a : Agg), a = s.agg.voted ∧ (a.p.col.pending ≠ [] ∨ (∃ x ∈ a.p.col.levels, 2 ≤ a.occClass { source
      := x }) ∨ a.reg FLT_PAIR_STATUS_P0_STATE ≠ 0 ∧ a.reg FLT_PAIR_STATUS_P1_STATE ≠ 0)) ∧
    (∃ (s : State) (u : Ulg), u = s.ulg.voted ∧ u.reg ULG_FLT_STATUS_STATE = 1 ∧ u.exitClear = true ∧ u.cfgOn
      ULG_FLT_CFG_AUTO_EXIT = true) ∧
    (∃ (s : State) (u : Ulg), u = s.ulg.voted ∧ u.reg ULG_FLT_STATUS_STATE = 1 ∧ u.exitClear = true ∧ u.quietNs ≤
      u.p.nowNs) ∧
    (∃ (s : State) (u : Ulg), u = s.ulg.voted ∧ (u.reg ULG_FLT_STATUS_STATE ≠ 1 ∨ u.exitClear = false ∨ u.p.nowNs <
      u.quietNs)) ∧
    (∃ (s : State) (u : Ulg), u = s.ulg.voted ∧ (u.reg ULG_FLT_STATUS_STATE ≠ 1 ∨ u.exitClear = false ∨ u.cfgOn
      ULG_FLT_CFG_AUTO_EXIT = false)) ∧
    (∃ (s : State) (u : Ulg), u = s.ulg.voted ∧ (u.p.col.pending ≠ [] ∨ ∃ x ∈ u.p.col.levels, 2 ≤ u.occClass { source
      := x })) ∧
    (∃ (s : State), s.agg.reg FLT_STATUS_STATE = 2 ∧ s.agg.p.col.notified = []) ∧
    (∃ (s : State), s.ulg.reg ULG_FLT_STATUS_STATE = 2 ∧ s.ulg.p.col.notified = []) ∧
    (∃ (s : State), s.agg.reg FLT_STATUS_STATE ≠ 2) ∧
    (∃ (s : State), s.ulg.reg ULG_FLT_STATUS_STATE ≠ 2) ∧
    (∃ (s : State), s.agg.bit FLT_STATUS_FTM = true) ∧
    (∃ (s : State), s.agg.bit FLT_STATUS_FTM = false) ∧
    (∃ (s : State), s.ulg.bit ULG_FLT_STATUS_FTM = true) ∧
    (∃ (s : State), s.ulg.bit ULG_FLT_STATUS_FTM = false) ∧
    (∃ (s : State), s.ulg.p.col.log = []) ∧
    (∃ (s : State) (r : FltRec) (l : List FltRec), s.ulg.p.col.log = r :: l ∧ r.fseq < 2 ^ 32) ∧
    (∃ (s : State) (r : FltRec) (l : List FltRec) (q : Nat), s.ulg.p.col.log = r :: l ∧ r.fseq < 2 ^ 32 ∧ q < 2 ^ 32 ∧
      q ≠ r.fseq) ∧
    (∃ (s : State) (slot : Fin 16) (die : Nat) (p : Nat), s.agg.dieOfSlot (↑slot : Nat) = some die ∧ p =
      s.agg.portOfSlot (↑slot : Nat) ∧ (s.agg.role.get (↑slot : Nat) ≠ 1 ∨ s.agg.reg (DP_STATUS_SESSION p) ≠ 2)) ∧
    (∃ (s : State) (slot : Fin 16) (die : Nat) (p : Nat), s.agg.dieOfSlot (↑slot : Nat) = some die ∧ p =
      s.agg.portOfSlot (↑slot : Nat) ∧ s.agg.role.get (↑slot : Nat) = 1 ∧ s.agg.reg (DP_STATUS_SESSION p) = 2) ∧
    (∃ (s : State) (slot : Fin 16) (die : Nat) (p : Nat) (x : Fin 16) (c : OutCmd) (rest : List OutCmd) (r : Resp) (w
      : Nat), s.agg.dieOfSlot (↑slot : Nat) = some die ∧ p = s.agg.portOfSlot (↑slot : Nat) ∧ s.agg.role.get (↑slot :
      Nat) = 1 ∧ s.agg.reg (DP_STATUS_SESSION p) = 2 ∧ p = (↑x : Nat) ∧ (s.agg.die.get p).cmds = c :: rest ∧ c.seq =
      r.seq ∧ (∀ k ∈ rest, k.seq ≠ r.seq) ∧ r.status = 0 ∧ (s.agg.die.get p).heldCmds = [] ∧ (s.agg.die.get
      p).mustPush = false ∧ rest.length < 61 ∧ c.use = CmdUse.fltStatus (↑slot : Nat) ∧ r.data = [w] ∧ w / 2 ^
      ULG_FLT_STATUS_LOG_LEVEL.lsb % 2 ^ ULG_FLT_STATUS_LOG_LEVEL.width ≠ 0) ∧
    (∃ (s : State) (slot : Fin 16) (die : Nat) (p : Nat) (x : Fin 16) (c : OutCmd) (rest : List OutCmd) (r : Resp) (l
      : List Byte) (u : Nat), s.agg.dieOfSlot (↑slot : Nat) = some die ∧ p = s.agg.portOfSlot (↑slot : Nat) ∧
      s.agg.role.get (↑slot : Nat) = 1 ∧ s.agg.reg (DP_STATUS_SESSION p) = 2 ∧ p = (↑x : Nat) ∧ (s.agg.die.get p).cmds
      = c :: rest ∧ c.seq = r.seq ∧ (∀ k ∈ rest, k.seq ≠ r.seq) ∧ r.status = 0 ∧ (s.agg.die.get p).heldCmds = [] ∧
      (s.agg.die.get p).mustPush = false ∧ rest.length < 61 ∧ c.use = CmdUse.fltEntry (↑slot : Nat) ∧ r.data.length =
      4 ∧ l = (List.map (fun x' => leBytes 8 x') r.data).flatten ∧ leAt l 0 4 = u) := by
  refine ⟨⟨0, ?_⟩,
    ⟨w01a, ?_⟩,
    ⟨(s13 (cp fun c => { c with pending := [pd13] })), pd13, ?_⟩,
    ⟨w01a, ?_⟩,
    ⟨(u13 (cp fun c => { c with pending := [pd13], upFrom := some 4000000 })), pd13, ?_⟩,
    ⟨(u13 (cp fun c => { c with pending := [pd13] })), pd13, ?_⟩,
    ⟨w01a, 0, ?_⟩,
    ⟨(s13 (cp fun c => { c with safeAt := some 4000000 }) [(FLT_STATUS_STATE, 1)]), ?_⟩,
    ⟨w01a, 0, ?_⟩,
    ⟨(u13 id [(ULG_FLT_STATUS_STATE, 1)] [(ULG_FLT_CFG_AUTO_EXIT, 1)]), ?_⟩,
    ⟨(s13 (cp fun c => { c with safeAt := some 4000000 }) [(FLT_STATUS_STATE, 1)]), none, 4000000, ?_⟩,
    ⟨w01a, none, ?_⟩,
    ⟨(s13 (cp fun c => { c with safeAt := some 4000000 }) [(FLT_STATUS_STATE, 1)]), ((s13 (cp fun c => { c with safeAt := some 4000000 }) [(FLT_STATUS_STATE, 1)]).agg.voted), ?_⟩,
    ⟨(s13 (cp fun c => { c with safeAt := some 4000000 }) [(FLT_STATUS_STATE, 1)]), ((s13 (cp fun c => { c with safeAt := some 4000000 }) [(FLT_STATUS_STATE, 1)]).agg.voted), ?_⟩,
    ⟨w01a, w01a.agg.voted, ?_⟩,
    ⟨w01a, w01a.agg.voted, ?_⟩,
    ⟨(s13 (cp fun c => { c with pending := [pd13] })), ((s13 (cp fun c => { c with pending := [pd13] })).agg.voted), ?_⟩,
    ⟨(u13 id [(ULG_FLT_STATUS_STATE, 1)] [(ULG_FLT_CFG_AUTO_EXIT, 1)]), ((u13 id [(ULG_FLT_STATUS_STATE, 1)] [(ULG_FLT_CFG_AUTO_EXIT, 1)]).ulg.voted), ?_⟩,
    ⟨(u13 id [(ULG_FLT_STATUS_STATE, 1)] [(ULG_FLT_CFG_AUTO_EXIT, 1)]), ((u13 id [(ULG_FLT_STATUS_STATE, 1)] [(ULG_FLT_CFG_AUTO_EXIT, 1)]).ulg.voted), ?_⟩,
    ⟨w01a, {}, ?_⟩,
    ⟨w01a, {}, ?_⟩,
    ⟨(u13 (cp fun c => { c with pending := [pd13], upFrom := some 4000000 })), ((u13 (cp fun c => { c with pending := [pd13], upFrom := some 4000000 })).ulg.voted), ?_⟩,
    ⟨(s13 id [(FLT_STATUS_STATE, 2)]), ?_⟩,
    ⟨(u13 id [(ULG_FLT_STATUS_STATE, 2)]), ?_⟩,
    ⟨w01a, ?_⟩,
    ⟨w01a, ?_⟩,
    ⟨(s13 id [(FLT_STATUS_FTM, 1)]), ?_⟩,
    ⟨w01a, ?_⟩,
    ⟨(u13 id [(ULG_FLT_STATUS_FTM, 1)]), ?_⟩,
    ⟨w01a, ?_⟩,
    ⟨w01a, ?_⟩,
    ⟨(u13 (cp fun c => { c with log := [{ fseq := 3 }, { fseq := 4 }] })), { fseq := 3 }, [{ fseq := 4 }], ?_⟩,
    ⟨(u13 (cp fun c => { c with log := [{ fseq := 3 }, { fseq := 4 }] })), { fseq := 3 }, [{ fseq := 4 }], 0, ?_⟩,
    ⟨(w05a 0), 2, 5, 3, ?_⟩,
    ⟨w04k, 2, 5, 3, ?_⟩,
    ⟨(f13 (.fltStatus 2)), 2, 5, 3, 3, { seq := 1, sent := true, use := .fltStatus 2 }, [], ({ opcode := 1, seq := 1, data := [2 ^ 64 - 1] } : Resp), 18446744073709551615, ?_⟩,
    ⟨(f13 (.fltEntry 2)), 2, 5, 3, 3, { seq := 1, sent := true, use := .fltEntry 2 }, [], ({ opcode := 1, seq := 1, data := [5, 6, 7, 8] } : Resp), ((List.map (fun x' => leBytes 8 x') ({ opcode := 1, seq := 1, data := [5, 6, 7, 8] } : Resp).data).flatten), 5, ?_⟩⟩ <;>
    first
    | decide +kernel
    | ((repeat' apply And.intro) <;> first
        | decide +kernel
        | rfl)

theorem witness_PartsAreRepairedAndRetired :
    (∃ (s : State) (pair : Fin 2), 2 ≤ s.agg.reg (pairField (↑pair : Nat))) ∧
    (∃ (s : State) (pair : Fin 2) (other : Fin 2), other ≠ pair ∧ s.agg.reg (pairField (↑pair : Nat)) < 2) ∧
    (∃ (s : State), s.agg.flt.switch = false) ∧
    (∃ (s : State) (k : Fin 2), s.agg.flt.switch = true ∧ s.agg.reg (pairField (↑k : Nat)) = 1 ∧ (∀ (j : Fin 2), j ≠ k
      → s.agg.reg (pairField (↑j : Nat)) ≠ 1)) ∧
    (∃ (s : State), s.agg.flt.switch = true ∧ (∀ (k : Fin 2), s.agg.reg (pairField (↑k : Nat)) ≠ 1)) ∧
    (∃ (s : State) (pair : Fin 2), s.agg.reg (pairField (↑pair : Nat)) = 2) ∧
    (∃ (s : State) (pair : Fin 2), s.agg.reg (pairField (↑pair : Nat)) ≠ 2) ∧
    (∃ (s : State) (n : Nat), n ≤ s.agg.cfg FLT_CFG2_ROW_CE) ∧
    (∃ (s : State) (hour : Option Nat), (∀ (n : Nat), hour = some n → s.agg.cfg FLT_CFG2_ROW_CE < n)) ∧
    (∃ (s : State), s.agg.rprQueue = []) ∧
    (∃ (s : State) (e : RepairEntry) (rest : List RepairEntry) (k : Nat), s.agg.rprQueue = e :: rest ∧ k =
      s.agg.rprLive.getD 1 ∧ s.agg.rprCompacts = true) ∧
    (∃ (s : State) (e : RepairEntry) (rest : List RepairEntry) (k : Nat), s.agg.rprQueue = e :: rest ∧ s.agg.rprLive =
      some k ∧ s.agg.rprCompacts = false ∧ (s.agg.rprSector k).places.length < rprPlaces) ∧
    (∃ (s : State), s.agg.cfg FLT_AGE_CFG_PERIOD_H = 0) ∧
    (∃ (s : State), s.ulg.cfg ULG_FLT_AGE_CFG_PERIOD_H = 0) ∧
    (∃ (s : State) (m : AgeSample) (h : Nat), h = s.agg.cfg FLT_AGE_CFG_PERIOD_H ∧ m.island < 79 ∧ h ≠ 0) ∧
    (∃ (s : State) (h : Nat), h = s.ulg.cfg ULG_FLT_AGE_CFG_PERIOD_H ∧ h ≠ 0) := by
  refine ⟨⟨(s13 id [(FLT_PAIR_STATUS_P0_STATE, 2)]), 0, ?_⟩,
    ⟨w01a, 1, 0, ?_⟩,
    ⟨w01a, ?_⟩,
    ⟨(s13 id [(FLT_PAIR_STATUS_P0_STATE, 2)] [] fun a => { a with flt := { a.flt with switch := true } }), 1, ?_⟩,
    ⟨(s13 id [(FLT_PAIR_STATUS_P0_STATE, 2), (FLT_PAIR_STATUS_P1_STATE, 2)] [] fun a => { a with flt := { a.flt with switch := true } }), ?_⟩,
    ⟨(s13 id [(FLT_PAIR_STATUS_P0_STATE, 2)]), 0, ?_⟩,
    ⟨w01a, 1, ?_⟩,
    ⟨w01a, 0, ?_⟩,
    ⟨w01a, none, ?_⟩,
    ⟨w01a, ?_⟩,
    ⟨(s13 id [] [] l13f), re13, [], 1, ?_⟩,
    ⟨(s13 id [] [] l13), re13, [], 1, ?_⟩,
    ⟨(aW [] [(FLT_AGE_CFG_PERIOD_H, 0)]), ?_⟩,
    ⟨(uW [] [(ULG_FLT_AGE_CFG_PERIOD_H, 0)]), ?_⟩,
    ⟨w01a, m13, 24, ?_⟩,
    ⟨w01a, 24, ?_⟩⟩ <;>
    decide +kernel

theorem witness_DomainsChangeState :
    (∃ (s : State) (value : Word) (d : Nat) (tgt : Nat) (x : Dom), d = BitVec.toNat value % 256 ∧ tgt = BitVec.toNat
      value / 256 % 4 ∧ x = s.agg.pwr.dom.get d ∧ (s.agg.reg CFG_STATUS_STATE = 5 ∨ bitAt (BitVec.toNat value) 10 =
      false)) ∧
    (∃ (s : State) (value : Word) (d : Nat) (tgt : Nat) (x : Dom), d = BitVec.toNat value % 256 ∧ tgt = BitVec.toNat
      value / 256 % 4 ∧ x = s.agg.pwr.dom.get d ∧ s.agg.reg CFG_STATUS_STATE ≠ 5 ∧ bitAt (BitVec.toNat value) 10 =
      true ∧ aggDomain d = true ∧ tgt < 3 ∧ (x.asked.isSome = true ∨ x.running.isSome = true)) ∧
    (∃ (s : State) (value : Word) (d : Nat) (tgt : Nat) (x : Dom) (w : Nat), d = BitVec.toNat value % 256 ∧ tgt =
      BitVec.toNat value / 256 % 4 ∧ x = s.agg.pwr.dom.get d ∧ s.agg.reg CFG_STATUS_STATE ≠ 5 ∧ bitAt (BitVec.toNat
      value) 10 = true ∧ (aggDomain d = false ∨ 3 ≤ tgt ∨ x.asked = none ∧ x.running = none) ∧ s.agg.domRefusal d tgt
      = some w) ∧
    (∃ (s : State) (value : Word) (d : Nat) (tgt : Nat) (x : Dom), d = BitVec.toNat value % 256 ∧ tgt = BitVec.toNat
      value / 256 % 4 ∧ x = s.agg.pwr.dom.get d ∧ s.agg.reg CFG_STATUS_STATE ≠ 5 ∧ bitAt (BitVec.toNat value) 10 =
      true ∧ (aggDomain d = false ∨ 3 ≤ tgt ∨ x.asked = none ∧ x.running = none) ∧ s.agg.domRefusal d tgt = none ∧
      s.agg.reg (PWR_DOM_STATUS_STATE d) = tgt) ∧
    (∃ (s : State) (value : Word) (d : Nat) (tgt : Nat) (x : Dom), d = BitVec.toNat value % 256 ∧ tgt = BitVec.toNat
      value / 256 % 4 ∧ x = s.agg.pwr.dom.get d ∧ s.agg.reg CFG_STATUS_STATE ≠ 5 ∧ bitAt (BitVec.toNat value) 10 =
      true ∧ (aggDomain d = false ∨ 3 ≤ tgt ∨ x.asked = none ∧ x.running = none) ∧ s.agg.domRefusal d tgt = none ∧
      s.agg.reg (PWR_DOM_STATUS_STATE d) ≠ tgt) ∧
    (∃ (s : State) (d : Nat), (s.agg.pwr.dom.get d).asked = none) ∧
    (∃ (s : State) (d : Nat) (x : Dom) (r : DomReq), s.agg.pwr.dom.get d = x ∧ x.asked = some r ∧ s.agg.domQuiet d =
      false) ∧
    (∃ (s : State) (d : Nat) (x : Dom) (r : DomReq), s.agg.pwr.dom.get d = x ∧ x.asked = some r ∧ s.agg.domQuiet d =
      true) ∧
    (∃ (s : State) (d : Nat) (x : Dom) (r : DomReq), s.agg.pwr.dom.get d = x ∧ x.asked = some r ∧ x.pending = none) ∧
    (∃ (s : State) (d : Nat) (x : Dom) (r : DomReq) (q : DomReq), s.agg.pwr.dom.get d = x ∧ x.asked = some r ∧
      x.pending = some q ∧ s.agg.reg (PWR_DOM_STATUS_STATE d) = q.tgt) ∧
    (∃ (s : State) (d : Nat), (s.agg.pwr.dom.get d).running = none) ∧
    (∃ (s : State) (d : Nat) (x : Dom) (r : DomReq), s.agg.pwr.dom.get d = x ∧ x.running = some r ∧ x.pending = none ∧
      r.tgt < 3) ∧
    (∃ (s : State) (x : Fin 2) (c : Cmd) (d : Nat) (tgt : Nat) (m : Dom), s.ulg.inTurn x c ∧ d = c.arg % 256 ∧ tgt =
      c.arg / 256 % 4 ∧ m = s.ulg.pwr.dom.get d ∧ c.addr ≠ 0) ∧
    (∃ (s : State) (x : Fin 2) (c : Cmd) (d : Nat) (tgt : Nat) (m : Dom) (w : Nat), s.ulg.inTurn x c ∧ d = c.arg % 256
      ∧ tgt = c.arg / 256 % 4 ∧ m = s.ulg.pwr.dom.get d ∧ c.addr = 0 ∧ tgt < 3 ∧ (22 ≤ d ∨ m.asked = none ∧ m.running
      = none) ∧ s.ulg.domRefusal d tgt = some w) ∧
    (∃ (s : State) (x : Fin 2) (c : Cmd) (d : Nat) (tgt : Nat) (m : Dom), s.ulg.inTurn x c ∧ d = c.arg % 256 ∧ tgt =
      c.arg / 256 % 4 ∧ m = s.ulg.pwr.dom.get d ∧ c.addr = 0 ∧ tgt < 3 ∧ (22 ≤ d ∨ m.asked = none ∧ m.running = none)
      ∧ s.ulg.domRefusal d tgt = none ∧ s.ulg.reg (ULG_PD_STATUS_ST d) = tgt) ∧
    (∃ (s : State) (x : Fin 2) (c : Cmd) (d : Nat) (tgt : Nat) (m : Dom), s.ulg.inTurn x c ∧ d = c.arg % 256 ∧ tgt =
      c.arg / 256 % 4 ∧ m = s.ulg.pwr.dom.get d ∧ c.addr = 0 ∧ tgt < 3 ∧ (22 ≤ d ∨ m.asked = none ∧ m.running = none)
      ∧ s.ulg.domRefusal d tgt = none ∧ s.ulg.reg (ULG_PD_STATUS_ST d) ≠ tgt) ∧
    (∃ (s : State) (x : Fin 2) (c : Cmd) (d : Nat) (tgt : Nat) (m : Dom), s.ulg.inTurn x c ∧ d = c.arg % 256 ∧ tgt =
      c.arg / 256 % 4 ∧ m = s.ulg.pwr.dom.get d ∧ c.addr = 0 ∧ tgt < 3 ∧ d < 22 ∧ (m.asked.isSome = true ∨
      m.running.isSome = true) ∧ m.pending = none) ∧
    (∃ (s : State) (x : Fin 2) (c : Cmd) (d : Nat) (tgt : Nat) (m : Dom) (i : Instr), s.ulg.inTurn x c ∧ d = c.arg %
      256 ∧ tgt = c.arg / 256 % 4 ∧ m = s.ulg.pwr.dom.get d ∧ (i = Instr.domainQuery x c ∨ i = Instr.domain x c ∧ tgt
      = 3)) ∧
    (∃ (s : State) (d : Nat), (s.ulg.pwr.dom.get d).asked = none) ∧
    (∃ (s : State) (d : Nat) (m : Dom) (r : DomReq), s.ulg.pwr.dom.get d = m ∧ m.asked = some r ∧ s.ulg.domQuiet d =
      false) ∧
    (∃ (s : State) (d : Nat) (m : Dom) (r : DomReq), s.ulg.pwr.dom.get d = m ∧ m.asked = some r ∧ s.ulg.domQuiet d =
      true) ∧
    (∃ (s : State) (d : Nat) (m : Dom) (r : DomReq), s.ulg.pwr.dom.get d = m ∧ m.asked = some r ∧ m.pending = none) ∧
    (∃ (s : State) (d : Nat), (s.ulg.pwr.dom.get d).running = none) ∧
    (∃ (s : State) (d : Nat) (m : Dom) (r : DomReq), s.ulg.pwr.dom.get d = m ∧ m.running = some r ∧ m.pending = none ∧
      r.tgt < 3 ∧ d < 22 ∧ 20 ≤ d ∧ r.tgt ≠ 0 ∧ s.ulg.respWaits (d - 20) = true) ∧
    (∃ (s : State) (d : Nat) (m : Dom) (r : DomReq), s.ulg.pwr.dom.get d = m ∧ m.running = some r ∧ m.pending = none ∧
      r.tgt < 3 ∧ d < 22 ∧ (d < 20 ∨ r.tgt = 0 ∨ s.ulg.respWaits (d - 20) = false)) ∧
    (∃ (s : State) (grp : Fin 16) (m : Dom), m = s.ulg.pwr.dom.get (↑grp : Nat) ∧ s.ulg.pwr.req = true) ∧
    (∃ (s : State) (grp : Fin 16) (m : Dom), m = s.ulg.pwr.dom.get (↑grp : Nat) ∧ s.ulg.pwr.req = false) := by
  refine ⟨⟨w01a, (BitVec.ofNat 64 (1 + 5 * 8 + 3 * 2 ^ 32)), 41, 0, {}, ?_⟩,
    ⟨(s14 (d14 9 { running := some { tgt := 2 } })), (BitVec.ofNat 64 (0x400 + 0x209)), 9, 2, { running := some { tgt := 2 } }, ?_⟩,
    ⟨(s13 (cp fun c => { c with safeAt := some 4000000 }) [(FLT_STATUS_STATE, 1)]), 0x409, 9, 0, {}, 4, ?_⟩,
    ⟨w01a, 0x409, 9, 0, {}, ?_⟩,
    ⟨w01a, (BitVec.ofNat 64 (0x400 + 0x209)), 9, 2, {}, ?_⟩,
    ⟨w01a, 0, ?_⟩,
    ⟨(s14 (d14 1 { asked := some { tgt := 1 } }) [] [] fun a => { a with vrf := { a.vrf with arr := [(1, { job := some {} })] } }), 1, { asked := some { tgt := 1 } }, { tgt := 1 }, ?_⟩,
    ⟨(s14 (d14 9 { asked := some { tgt := 1 } })), 9, { asked := some { tgt := 1 } }, { tgt := 1 }, ?_⟩,
    ⟨(s14 (d14 9 { asked := some { tgt := 1 } })), 9, { asked := some { tgt := 1 } }, { tgt := 1 }, ?_⟩,
    ⟨(s14 (d14 9 { asked := some { tgt := 1 }, pending := some { tgt := 0 } })), 9, { asked := some { tgt := 1 }, pending := some { tgt := 0 } }, { tgt := 1 }, { tgt := 0 }, ?_⟩,
    ⟨w01a, 0, ?_⟩,
    ⟨(s14 (d14 9 { running := some { tgt := 2 } })), 9, { running := some { tgt := 2 } }, { tgt := 2 }, ?_⟩,
    ⟨w04g, 1, c04, 1, 0, {}, ?_⟩,
    ⟨w04g, 1, { seq := 9, arg := 2 * 256 + 1, count := 1, data := [8] }, 1, 2, {}, 3, ?_⟩,
    ⟨w04g, 1, o04, 0, 0, {}, ?_⟩,
    ⟨w04g, 1, c14, 5, 1, {}, ?_⟩,
    ⟨(lkD 5 { asked := some { tgt := 1 } } []), 1, c14, 5, 1, { asked := some { tgt := 1 } }, ?_⟩,
    ⟨w04g, 1, c14, 5, 1, {}, (.domainQuery 1 c14), ?_⟩,
    ⟨w01a, 0, ?_⟩,
    ⟨((u14 fun p => { p with dom := [(0x12, { asked := some { tgt := 1 } })] }).onUlg fun u => { u with ft := { u.ft with core := [(197, { run := some 4 })] } }), 18, { asked := some { tgt := 1 } }, { tgt := 1 }, ?_⟩,
    ⟨(u14 fun p => { p with dom := [(5, { asked := some (q14 0) })], req := true }), 5, ((u14 fun p => { p with dom := [(5, { asked := some (q14 0) })], req := true }).ulg.pwr.dom.get 5), (q14 0), ?_⟩,
    ⟨(u14 fun p => { p with dom := [(5, { asked := some (q14 0) })], req := true }), 5, ((u14 fun p => { p with dom := [(5, { asked := some (q14 0) })], req := true }).ulg.pwr.dom.get 5), (q14 0), ?_⟩,
    ⟨w01a, 0, ?_⟩,
    ⟨(lkD 21 { running := some { tgt := 1 } } [{}]), 21, { running := some { tgt := 1 } }, { tgt := 1 }, ?_⟩,
    ⟨(u14 fun p => { p with dom := [(5, { running := some (q14 0) })], req := true }), 5, { running := some (q14 0) }, (q14 0), ?_⟩,
    ⟨(u14 fun p => { p with dom := [(5, { asked := some (q14 0) })], req := true }), 3, {}, ?_⟩,
    ⟨w01a, 3, {}, ?_⟩⟩ <;>
    first
    | decide +kernel
    | ((repeat' apply And.intro) <;> first
        | decide +kernel
        | rfl)

theorem witness_LastGaspRuns :
    (∃ (s : State) (mv : Nat) (ok : Bool) (good : Prop), mv < 2 ^ 16 ∧ (good ↔ s.agg.cfgOn PWR_CFG_GASP_EN = true ∧ ok
      = true ∧ s.agg.cfg PWR_CFG_ARM_MV ≤ mv ∧ (s.agg.flushPages (s.agg.reg PWR_STATUS_NEXT_SLOT)).erased = true)) ∧
    (∃ (s : State), (s.agg.reg PWR_STATUS_FLUSH = 0 ∨ s.agg.reg PWR_STATUS_FLUSH = 1)) ∧
    (∃ (s : State), 2 ≤ s.agg.reg PWR_STATUS_FLUSH) ∧
    (∃ (s : State), s.agg.reg PWR_STATUS_FLUSH = 2 ∧ s.agg.tailLeft = []) ∧
    (∃ (s : State), (s.agg.reg PWR_STATUS_FLUSH ≠ 2 ∨ s.agg.tailLeft ≠ [])) ∧
    (∃ (s : State), s.agg.reg PWR_STATUS_FLUSH = 2) ∧
    (∃ (s : State), s.agg.reg PWR_STATUS_FLUSH ≠ 2) ∧
    (∃ (s : State), s.agg.reg PWR_STATUS_FLUSH = 3 ∧ s.agg.bit PWR_STATUS_MAIN_OK = false) ∧
    (∃ (s : State), s.agg.reg PWR_STATUS_FLUSH = 3 ∧ s.agg.bit PWR_STATUS_MAIN_OK = true) ∧
    (∃ (s : State), s.agg.reg PWR_STATUS_FLUSH ≠ 3) ∧
    (∃ (s : State), s.agg.reg PWR_STATUS_FLUSH = 4) ∧
    (∃ (s : State), (s.agg.reg PWR_STATUS_FLUSH = 2 ∨ s.agg.reg PWR_STATUS_FLUSH = 3)) ∧
    (∃ (s : State), s.agg.reg PWR_STATUS_FLUSH < 2) ∧
    (∃ (s : State), s.agg.reg PWR_STATUS_FLUSH = 5 ∧ s.agg.pwr.flush.slot < 2) ∧
    (∃ (s : State) (mv : Nat), mv < 2 ^ 16 ∧ s.agg.cfg PWR_CFG_WARN_MV < mv) ∧
    (∃ (s : State) (mv : Nat), mv < 2 ^ 16 ∧ mv ≤ s.agg.cfg PWR_CFG_WARN_MV ∧ (s.agg.reg PWR_STATUS_FLUSH = 2 ∨
      s.agg.reg PWR_STATUS_FLUSH = 3) ∧ s.agg.bit PWR_STATUS_MAIN_OK = false) ∧
    (∃ (s : State) (mv : Nat), mv < 2 ^ 16 ∧ mv ≤ s.agg.cfg PWR_CFG_WARN_MV ∧ (s.agg.reg PWR_STATUS_FLUSH < 2 ∨ 3 <
      s.agg.reg PWR_STATUS_FLUSH ∨ s.agg.bit PWR_STATUS_MAIN_OK = true)) ∧
    (∃ (s : State), (s.agg.reg CFG_STATUS_STATE = 5 ∨ 2 ≤ s.agg.reg PWR_STATUS_FLUSH)) ∧
    (∃ (s : State), s.agg.reg CFG_STATUS_STATE ≠ 5 ∧ s.agg.reg PWR_STATUS_FLUSH ≤ 1) := by
  refine ⟨⟨w01a, 0xFFF1, true, True, ?_⟩,
    ⟨w01a, ?_⟩,
    ⟨(s14 id [(PWR_STATUS_FLUSH, 2)]), ?_⟩,
    ⟨(s14 id [(PWR_STATUS_FLUSH, 2)]), ?_⟩,
    ⟨w01a, ?_⟩,
    ⟨(s14 id [(PWR_STATUS_FLUSH, 2)]), ?_⟩,
    ⟨w01a, ?_⟩,
    ⟨(s14 fl14 [(PWR_STATUS_FLUSH, 3), (PWR_STATUS_MAIN_OK, 0)]), ?_⟩,
    ⟨(s14 fl14 [(PWR_STATUS_FLUSH, 3), (PWR_STATUS_MAIN_OK, 1)]), ?_⟩,
    ⟨w01a, ?_⟩,
    ⟨(s14 fl14 [(PWR_STATUS_FLUSH, 4), (PWR_STATUS_MAIN_OK, 0)]), ?_⟩,
    ⟨(s14 id [(PWR_STATUS_FLUSH, 2)]), ?_⟩,
    ⟨w01a, ?_⟩,
    ⟨(s14 id [(PWR_STATUS_FLUSH, 5)]), ?_⟩,
    ⟨w01a, 0xFFF1, ?_⟩,
    ⟨(s14 id [(PWR_STATUS_FLUSH, 2)]), 0, ?_⟩,
    ⟨w01a, 0, ?_⟩,
    ⟨(s14 id [(PWR_STATUS_FLUSH, 2)]), ?_⟩,
    ⟨w01a, ?_⟩⟩ <;>
    decide +kernel

theorem witness_SlotsFollowTheirRequests :
    (∃ (s : State) (slot : Fin 16) (op : Nat), op = s.agg.reg SHED_JRN_NEXT_OP ∧ (s.agg.reg CFG_STATUS_STATE = 5 ∨
      s.agg.owns (↑slot : Nat) = false ∨ s.agg.jrnReady = false)) ∧
    (∃ (s : State) (slot : Fin 16) (op : Nat), op = s.agg.reg SHED_JRN_NEXT_OP ∧ s.agg.reg CFG_STATUS_STATE ≠ 5 ∧
      s.agg.owns (↑slot : Nat) = true ∧ s.agg.jrnReady = true ∧ s.agg.shed.fenceOp ≤ op ∧ s.agg.safe = true) ∧
    (∃ (s : State) (slot : Fin 16) (op : Nat), op = s.agg.reg SHED_JRN_NEXT_OP ∧ s.agg.reg CFG_STATUS_STATE ≠ 5 ∧
      s.agg.owns (↑slot : Nat) = true ∧ s.agg.jrnReady = true ∧ s.agg.shed.fenceOp ≤ op ∧ s.agg.safe = false) ∧
    (∃ (s : State) (slot : Fin 16) (op : Nat) (k : Nat), op = s.agg.reg SHED_JRN_NEXT_OP ∧ k ≤ s.agg.cfg
      (SLOT_ENV0_RAMP_US (↑slot : Nat)) ∧ 0 < s.agg.cfg (SLOT_ENV0_RAMP_US (↑slot : Nat)) ∧ s.agg.slotSt (↑slot : Nat)
      = 1) ∧
    (∃ (s : State) (op : Nat) (code : Nat), op = s.agg.reg SHED_JRN_NEXT_OP ∧ code < 4096) ∧
    (∃ (s : State) (op : Nat), op = s.agg.reg SHED_JRN_NEXT_OP) ∧
    (∃ (s : State) (slot : Fin 16) (op : Nat), op = s.agg.reg SHED_JRN_NEXT_OP ∧ (s.agg.slotSt (↑slot : Nat) ≠ 1 ∨
      s.agg.owns (↑slot : Nat) = false ∨ (s.agg.slotCh (↑slot : Nat)).ok < s.agg.cfg SLOT_CFG_TRIP_N)) ∧
    (∃ (s : State) (slot : Fin 16) (op : Nat), op = s.agg.reg SHED_JRN_NEXT_OP ∧ s.agg.slotSt (↑slot : Nat) = 1 ∧
      s.agg.owns (↑slot : Nat) = true ∧ s.agg.cfg SLOT_CFG_TRIP_N ≤ (s.agg.slotCh (↑slot : Nat)).ok) ∧
    (∃ (s : State) (slot : Fin 16) (op : Nat), op = s.agg.reg SHED_JRN_NEXT_OP ∧ (s.agg.slotSt (↑slot : Nat) ≠ 4 ∨
      s.agg.owns (↑slot : Nat) = false ∨ s.agg.slotsHeld = true)) ∧
    (∃ (s : State) (slot : Fin 16) (op : Nat), op = s.agg.reg SHED_JRN_NEXT_OP ∧ s.agg.slotSt (↑slot : Nat) = 4 ∧
      s.agg.owns (↑slot : Nat) = true ∧ s.agg.slotsHeld = false) ∧
    (∃ (s : State) (slot : Fin 16) (op : Nat), op = s.agg.reg SHED_JRN_NEXT_OP ∧ (s.agg.slotSt (↑slot : Nat) ≠ 3 ∨
      s.agg.owns (↑slot : Nat) = false)) ∧
    (∃ (s : State) (slot : Fin 16) (op : Nat), op = s.agg.reg SHED_JRN_NEXT_OP ∧ s.agg.slotSt (↑slot : Nat) = 3 ∧
      s.agg.owns (↑slot : Nat) = true) := by
  refine ⟨⟨w01a, 3, 0, ?_⟩,
    ⟨(t14 0 {} [(FLT_STATUS_STATE, 1)]), 2, 90, ?_⟩,
    ⟨(t14 4), 2, 90, ?_⟩,
    ⟨(t14 1 { ok := 2 }), 2, 90, 0, ?_⟩,
    ⟨w01a, 0, 0, ?_⟩,
    ⟨w01a, 0, ?_⟩,
    ⟨w01a, 3, 0, ?_⟩,
    ⟨(t14 1 { ok := 2 }), 2, 90, ?_⟩,
    ⟨w01a, 3, 0, ?_⟩,
    ⟨(t14 4), 2, 90, ?_⟩,
    ⟨w01a, 3, 0, ?_⟩,
    ⟨(t14 3), 2, 90, ?_⟩⟩ <;>
    decide +kernel

theorem witness_ResetLeavesResetValues :
    ((s15).agg.conf.flashOp = none ∧ ∀ f ∈ pinFields, (s15).agg.reg f < 2 ^ f.width) ∧
    (∃ op k b, (s15 [] fun c => { c with flashOp := some (1, 0, []) }).agg.conf.flashOp = some (op, k, b)) := by
  refine ⟨?_, 1, 0, [], ?_⟩ <;> decide +kernel

/-- A machine with one command, whose event rings are empty. -/
def ringState : State := { State.reset with pending := [.pfail] }

set_option maxRecDepth 8000 in
theorem witness_LoaderStatesFollowTheirEvents :
    (∃ (s : State), (s.agg.reg CFG_STATUS_STATE ≠ 0 ∨ s.agg.conf.held = true ∨ s.agg.safe = true)) ∧
    (∃ (s : State), s.agg.reg CFG_STATUS_STATE = 0 ∧ s.agg.conf.held = false ∧ s.agg.safe = false ∧
      s.agg.repairsApply.reg (pairField 0) ≠ 0 ∧ s.agg.repairsApply.reg (pairField 1) ≠ 0) ∧
    (∃ (s : State), s.agg.reg CFG_STATUS_STATE = 0 ∧ s.agg.conf.held = false ∧ s.agg.safe = false ∧
      (s.agg.repairsApply.reg (pairField 0) = 0 ∨ s.agg.repairsApply.reg (pairField 1) = 0)) ∧
    (∃ (s : State), s.agg.reg CFG_STATUS_STATE ≠ 1) ∧
    (∃ (s : State) (d : Sfdp), s.agg.reg CFG_STATUS_STATE = 1 ∧ d.valid = true ∧ 512 ≤ d.mbit ∧ d.erase4k = true ∧
      d.erase64k = true ∧ d.addr4 = true) ∧
    (∃ (s : State) (d : Sfdp), s.agg.reg CFG_STATUS_STATE = 1 ∧ (d.valid = false ∨ d.mbit < 512 ∨ d.erase4k = false ∨
      d.erase64k = false ∨ d.addr4 = false)) ∧
    (∃ (s : State), s.agg.reg CFG_STATUS_STATE ≠ 2) ∧
    (∃ (s : State) (k0 : SigCheck) (k1 : SigCheck) (c0 : Nat) (c1 : Nat), c0 = s.agg.imageCode (s.agg.slotImage 0) k0
      ∧ c1 = s.agg.imageCode (s.agg.slotImage 1) k1 ∧ s.agg.reg CFG_STATUS_STATE = 2) ∧
    (∃ (s : State), (s.agg.reg CFG_STATUS_STATE ≠ 3 ∨ s.agg.conf.tried = [])) ∧
    (∃ (s : State) (k : Nat) (rest : List Nat) (r : Breach), s.agg.reg CFG_STATUS_STATE = 3 ∧ s.agg.conf.tried = k ::
      rest ∧ s.agg.imageTry (readImage (s.agg.slotImage k)) k = Sum.inr r ∧ (rest ≠ [] ∨ s.agg.reg (cfgCode (1 - k)) ≠
      0)) ∧
    (∃ (s : State) (k : Nat) (rest : List Nat) (r : Breach), s.agg.reg CFG_STATUS_STATE = 3 ∧ s.agg.conf.tried = k ::
      rest ∧ s.agg.imageTry (readImage (s.agg.slotImage k)) k = Sum.inr r ∧ rest = [] ∧ s.agg.reg (cfgCode (1 - k)) =
      0) ∧
    (∃ (s : State) (k : Nat) (rest : List Nat) (b : Agg), s.agg.reg CFG_STATUS_STATE = 3 ∧ s.agg.conf.tried = k ::
      rest ∧ s.agg.imageTry (readImage (s.agg.slotImage k)) k = Sum.inl b) ∧
    (∃ (s : State) (len : Nat), (s.agg.reg CFG_STATUS_STATE ≠ 5 ∨ imgMax < len)) ∧
    (∃ (s : State) (write : Bool) (len : Nat) (k : SigCheck) (a : Agg) (code : Nat), s.agg.reg CFG_STATUS_STATE = 5 ∧
      len ≤ imgMax ∧ a = s.agg.adopting write len ∧ code = a.imageCode (s.agg.shedRead 0 len) k ∧ code ≠ 0) ∧
    (∃ (s : State) (write : Bool) (len : Nat) (k : SigCheck) (a : Agg) (code : Nat) (r : Breach), s.agg.reg
      CFG_STATUS_STATE = 5 ∧ len ≤ imgMax ∧ a = s.agg.adopting write len ∧ code = a.imageCode (s.agg.shedRead 0 len) k
      ∧ code = 0 ∧ a.imageTry (readImage (s.agg.shedRead 0 len)) 2 = Sum.inr r) ∧
    (∃ (s : State) (write : Bool) (len : Nat) (k : SigCheck) (a : Agg) (code : Nat) (b : Agg), s.agg.reg
      CFG_STATUS_STATE = 5 ∧ len ≤ imgMax ∧ a = s.agg.adopting write len ∧ code = a.imageCode (s.agg.shedRead 0 len) k
      ∧ code = 0 ∧ a.imageTry (readImage (s.agg.shedRead 0 len)) 2 = Sum.inl b) := by
  refine ⟨⟨w04a, ?_⟩,
    ⟨(s15 [(CFG_STATUS_STATE, 0), (FLT_PAIR_STATUS_P0_STATE, 2), (FLT_PAIR_STATUS_P1_STATE, 2)]), ?_⟩,
    ⟨w01a, ?_⟩,
    ⟨w01a, ?_⟩,
    ⟨(s15 [(CFG_STATUS_STATE, 1)]), { valid := true, mbit := 512, erase4k := true, erase64k := true, addr4 := true }, ?_⟩,
    ⟨(s15 [(CFG_STATUS_STATE, 1)]), { valid := true, mbit := 256, erase4k := true, erase64k := true, addr4 := true }, ?_⟩,
    ⟨w01a, ?_⟩,
    ⟨(s15 [(CFG_STATUS_STATE, 2)]), .good, .good, 1, 1, ?_⟩,
    ⟨w01a, ?_⟩,
    ⟨l15a, 0, (match l15a.agg.conf.tried with | (_ :: rest) => rest | _ => default), (rf15 l15a 0), ?_⟩,
    ⟨l15b, 0, [], (rf15 l15a 0), ?_⟩,
    ⟨l15c, 0, (match l15c.agg.conf.tried with | (_ :: rest) => rest | _ => default), (ok15 l15c 0), ?_⟩,
    ⟨w01a, 0, ?_⟩,
    ⟨(s15 [(CFG_STATUS_STATE, 5)]), false, 0, .good, ((s15 [(CFG_STATUS_STATE, 5)]).agg.adopting false 0), 1, ?_⟩,
    ⟨bad15s, false, bad15.length, .good, (adopt15 bad15s bad15.length), 0, (adoptR bad15s bad15.length), ?_⟩,
    ⟨l15d, false, len15, .good, (adopt15 l15d len15), 0, (adoptL l15d len15), ?_⟩⟩ <;>
    decide +kernel

theorem witness_CommitsTakeEffectWhole :
    (∃ (s : State), s.agg.p.copy.isSome = true) ∧
    (∃ (s : State), s.agg.p.copy = none ∧ (s.agg.reg PWR_STATUS_FLUSH = 2 ∨ s.agg.reg PWR_STATUS_FLUSH = 3)) ∧
    (∃ (s : State) (off : Nat) (why : Nat), s.agg.p.copy = none ∧ s.agg.reg PWR_STATUS_FLUSH ≠ 2 ∧ s.agg.reg
      PWR_STATUS_FLUSH ≠ 3 ∧ firstBreach (s.agg.breaches s.agg.p.staged) = some (off, why)) ∧
    (∃ (s : State), s.agg.p.copy = none ∧ s.agg.reg PWR_STATUS_FLUSH ≠ 2 ∧ s.agg.reg PWR_STATUS_FLUSH ≠ 3 ∧
      firstBreach (s.agg.breaches s.agg.p.staged) = none ∧ s.agg.p.timed = true) ∧
    (∃ (s : State), s.agg.p.copy = none ∧ s.agg.reg PWR_STATUS_FLUSH ≠ 2 ∧ s.agg.reg PWR_STATUS_FLUSH ≠ 3 ∧
      firstBreach (s.agg.breaches s.agg.p.staged) = none ∧ s.agg.p.timed = false) ∧
    (∃ (s : State) (c : Store), s.agg.p.copy = some c ∧ s.agg.p.copyDue = true) ∧
    (∃ (s : State), (s.agg.p.copy = none ∨ s.agg.p.copyDue = false)) ∧
    (∃ (s : State) (c : Store), s.ulg.p.copy = some c ∧ s.ulg.p.copyDue = true) ∧
    (∃ (s : State), (s.ulg.p.copy = none ∨ s.ulg.p.copyDue = false)) := by
  refine ⟨⟨(s15 [] id (onP fun p => { p with copy := some [] })), ?_⟩,
    ⟨(s14 id [(PWR_STATUS_FLUSH, 2)]), ?_⟩,
    ⟨w01a, 262216, 2, ?_⟩,
    ⟨com15, ?_⟩,
    ⟨(com15 fun p => { p with servo := { p.servo with state := 0 } }), ?_⟩,
    ⟨(com15 (fun p => { p with copy := some [(TICK_CFG_TICK_US.key, 200)], copyNs := 4000000 }) [(CFG_COMMIT_STATUS_PENDING, 1)]), [(TICK_CFG_TICK_US.key, 200)], ?_⟩,
    ⟨w01a, ?_⟩,
    ⟨u15, [(ULG_TICK_CFG_TICK_US.key, 200)], ?_⟩,
    ⟨w01a, ?_⟩⟩ <;>
    decide +kernel

theorem witness_FlashHostAndTemperature :
    (∃ (s : State) (slot : Fin 2), s.agg.bit CFG_FLASH_STATUS_BUSY = false ∧ s.agg.reg CFG_IMG_INFO_LIVE ≠ (↑slot :
      Nat)) ∧
    (∃ (s : State) (slot : Fin 2), s.agg.bit CFG_FLASH_STATUS_BUSY = false ∧ s.agg.reg CFG_IMG_INFO_LIVE = (↑slot :
      Nat)) ∧
    (∃ (s : State), s.agg.bit CFG_FLASH_STATUS_BUSY = true) ∧
    (∃ (s : State), s.agg.conf.flashOp = none) ∧
    (∃ (s : State) (op : Nat) (slot : Nat) (b : List Byte), s.agg.conf.flashOp = some (op, slot, b) ∧ (op = 1 ∨ op =
      2)) ∧
    (∃ (key : Byte), key = 165) ∧
    (∃ (key : Byte), key ≠ 165) ∧
    (∃ (s : State) (die : Fin 2) (h : Int) (cool : Bool), (cool = if s.agg.vrf.cooling.get (↑die : Nat) = true then
      decide (102 < h) else decide (105 ≤ h))) := by
  refine ⟨⟨w01a, 1, ?_⟩,
    ⟨(s15 [(CFG_IMG_INFO_LIVE, 1)]), 1, ?_⟩,
    ⟨(s15 [(CFG_FLASH_STATUS_BUSY, 1)]), ?_⟩,
    ⟨w01a, ?_⟩,
    ⟨(s15 [(CFG_FLASH_STATUS_BUSY, 1)] fun c => { c with flashOp := some (2, 0, [1, 2, 3]) }), 2, 0, [1, 2, 3], ?_⟩,
    ⟨0xA5, ?_⟩,
    ⟨0xA4, ?_⟩,
    ⟨w01a, 1, 100, false, ?_⟩⟩ <;>
    decide +kernel

theorem witness_PushesProxiesAndWrites :
    (∃ (s : State) (slot : Fin 16) (p : Nat), p = s.agg.portOfSlot (↑slot : Nat) ∧ s.agg.pushOwner (↑slot : Nat) =
      false) ∧
    (∃ (s : State) (slot : Fin 16) (p : Nat), p = s.agg.portOfSlot (↑slot : Nat) ∧ s.agg.pushOwner (↑slot : Nat) =
      true ∧ ((s.agg.conf.push.get (↑slot : Nat)).running = true ∨ s.agg.jrnReady = false)) ∧
    (∃ (s : State) (slot : Fin 16) (p : Nat) (cause : Nat), p = s.agg.portOfSlot (↑slot : Nat) ∧ s.agg.pushOwner
      (↑slot : Nat) = true ∧ (s.agg.conf.push.get (↑slot : Nat)).running = false ∧ s.agg.jrnReady = true ∧ (cause = 5
      ∨ cause = 2 ∧ (s.agg.die.get p).l.resuming = true)) ∧
    (∃ (s : State) (slot : Fin 16) (p : Nat) (cause : Nat), p = s.agg.portOfSlot (↑slot : Nat) ∧ s.agg.pushOwner
      (↑slot : Nat) = true ∧ (s.agg.conf.push.get (↑slot : Nat)).running = false ∧ s.agg.jrnReady = true ∧ cause ≠ 5 ∧
      (cause ≠ 2 ∨ (s.agg.die.get p).l.resuming = false)) ∧
    (∃ (s : State) (slot : Fin 16) (p : Nat), p = s.agg.portOfSlot (↑slot : Nat) ∧ s.agg.pushOwner (↑slot : Nat) =
      true ∧ (s.agg.conf.push.get (↑slot : Nat)).running = false ∧ s.agg.jrnReady = true) ∧
    (∃ (s : State) (slot : Fin 16) (p : Nat) (off : Nat) (wide : Bool), p = s.agg.portOfSlot (↑slot : Nat) ∧ (wide =
      false ∨ off % 8 ≠ 0)) ∧
    (∃ (s : State) (slot : Fin 16) (p : Nat) (off : Nat), p = s.agg.portOfSlot (↑slot : Nat) ∧ 65528 ≤ off ∧ off % 8 =
      0) ∧
    (∃ (s : State) (slot : Fin 16) (p : Nat) (off : Nat), p = s.agg.portOfSlot (↑slot : Nat) ∧ off < 65528 ∧ off % 8 =
      0) ∧
    (∃ (s : State) (slot : Fin 16) (p : Nat), p = s.agg.portOfSlot (↑slot : Nat) ∧ s.agg.reg CFG_STATUS_STATE = 5) ∧
    (∃ (s : State) (slot : Fin 16) (p : Nat) (off : Nat) (wide : Bool), p = s.agg.portOfSlot (↑slot : Nat) ∧ s.agg.reg
      CFG_STATUS_STATE ≠ 5 ∧ (wide = false ∨ off % 8 ≠ 0)) ∧
    (∃ (s : State) (slot : Fin 16) (p : Nat), p = s.agg.portOfSlot (↑slot : Nat) ∧ s.agg.reg CFG_STATUS_STATE ≠ 5) ∧
    (∃ (s : State) (slot : Fin 16) (p : Nat) (off : Nat), p = s.agg.portOfSlot (↑slot : Nat) ∧ s.agg.reg
      CFG_STATUS_STATE ≠ 5 ∧ (16 ≤ p ∨ s.agg.reg (DP_STATUS_SESSION p) < 2) ∧ off % 8 = 0 ∧ off ≠
      ULG_TRC_AUTH_PRIV_OK.off) ∧
    (∃ (s : State) (slot : Fin 16) (p : Nat), p = s.agg.portOfSlot (↑slot : Nat) ∧ s.agg.reg CFG_STATUS_STATE ≠ 5 ∧
      (16 ≤ p ∨ s.agg.reg (DP_STATUS_SESSION p) < 2)) ∧
    (∃ (s : State) (slot : Fin 16) (p : Nat) (off : Nat), p = s.agg.portOfSlot (↑slot : Nat) ∧ s.agg.reg
      CFG_STATUS_STATE ≠ 5 ∧ p < 16 ∧ 2 ≤ s.agg.reg (DP_STATUS_SESSION p) ∧ off < 65528 ∧ off % 8 = 0 ∧ off ≠
      ULG_TRC_AUTH_PRIV_OK.off) ∧
    (∃ (s : State) (slot : Fin 16) (p : Nat) (off : Nat), p = s.agg.portOfSlot (↑slot : Nat) ∧ s.agg.reg
      CFG_STATUS_STATE ≠ 5 ∧ p < 16 ∧ 2 ≤ s.agg.reg (DP_STATUS_SESSION p) ∧ 65528 ≤ off ∧ off % 8 = 0) ∧
    (∃ (s : State) (slot : Fin 16) (p : Nat), p = s.agg.portOfSlot (↑slot : Nat) ∧ s.agg.reg CFG_STATUS_STATE ≠ 5 ∧ p
      < 16 ∧ 2 ≤ s.agg.reg (DP_STATUS_SESSION p)) ∧
    (∃ (s : State) (slot : Fin 16) (p : Nat), p = s.agg.portOfSlot (↑slot : Nat) ∧ List.find? (fun e => decide (e.1 =
      (↑slot : Nat))) s.agg.conf.proxy = none) ∧
    (∃ (s : State) (slot : Fin 16) (p : Nat) (e : Nat × Nat), p = s.agg.portOfSlot (↑slot : Nat) ∧ List.find? (fun e'
      => decide (e'.1 = (↑slot : Nat))) s.agg.conf.proxy = some e) ∧
    (∃ (s : State) (slot : Fin 16) (p : Nat) (off : Nat), p = s.agg.portOfSlot (↑slot : Nat) ∧ inWindow off = false) ∧
    (∃ (s : State) (slot : Fin 16) (p : Nat) (off : Nat), p = s.agg.portOfSlot (↑slot : Nat) ∧ inWindow off = true ∧
      s.agg.reg CFG_STATUS_STATE = 5 ∧ off / 65536 ≠ 0 ∧ off / 65536 ≠ 11) ∧
    (∃ (s : State) (slot : Fin 16) (p : Nat), p = s.agg.portOfSlot (↑slot : Nat)) := by
  refine ⟨⟨w01a, 3, 31, ?_⟩,
    ⟨(p15 { running := true }), 2, 3, ?_⟩,
    ⟨(p15 {}), 2, 3, 5, ?_⟩,
    ⟨(p15 {}), 2, 3, 0, ?_⟩,
    ⟨(p15 {}), 2, 3, ?_⟩,
    ⟨w01a, 3, 31, 0, false, ?_⟩,
    ⟨w01a, 3, 31, 0x200000, ?_⟩,
    ⟨w01a, 3, 31, 0, ?_⟩,
    ⟨(s15 [(CFG_STATUS_STATE, 5)]), 3, 31, ?_⟩,
    ⟨w01a, 3, 31, 0, false, ?_⟩,
    ⟨w01a, 3, 31, ?_⟩,
    ⟨w01a, 3, 31, 0, ?_⟩,
    ⟨w01a, 3, 31, ?_⟩,
    ⟨w04k, 2, 3, 0, ?_⟩,
    ⟨w04k, 2, 3, 0x200000, ?_⟩,
    ⟨w04k, 2, 3, ?_⟩,
    ⟨w01a, 3, 31, ?_⟩,
    ⟨(p15 {} fun c => { c with proxy := [(2, 4900000)] }), 2, 3, (match List.find? (fun e' => decide (e'.1 = (↑2 : Nat))) (p15 {} fun c => { c with proxy := [(2, 4900000)] }).agg.conf.proxy with | (some e) => e | _ => default), ?_⟩,
    ⟨w01a, 3, 31, 0x200000, ?_⟩,
    ⟨(s15 [(CFG_STATUS_STATE, 5)]), 3, 31, (((firstBreach (s15e.agg.breaches s15e.agg.p.staged)).getD (0, 0)).1), ?_⟩,
    ⟨w01a, 3, 31, ?_⟩⟩ <;>
    decide +kernel

theorem witness_StepRunsFrontCommand :
    (∃ (s : State) (c : Instr) (rest : List Instr), s.pending = c :: rest) ∧
    (∃ (s : State), s.pending = []) := by
  refine ⟨⟨s16, .pfail, [.pfail], ?_⟩,
    ⟨w01a, ?_⟩⟩ <;>
    decide +kernel

theorem witness_PartsAreIsolated :
    (∃ (n : Nat) (s : State) (t : State), n ≤ s.pending.length ∧ State.steps n s = Host.Outcome.next t ∧ (∀ c ∈
      s.pending, c.part = some PartSel.agg)) ∧
    (∃ (n : Nat) (s : State) (t : State), n ≤ s.pending.length ∧ State.steps n s = Host.Outcome.next t ∧ (∀ c ∈
      s.pending, c.part = some PartSel.ulg)) := by
  refine ⟨⟨0, w01a, w01a, ?_⟩,
    ⟨0, w01a, w01a, ?_⟩⟩ <;>
    first
    | decide +kernel
    | ((repeat' apply And.intro) <;> first
        | decide +kernel
        | rfl)

set_option maxRecDepth 8000 in
theorem witness_CommandsOfDifferentPartsCommute :
    (∃ (c : Instr) (d : Instr) (s : State) (t : State) (v : State), c.part = some PartSel.agg ∧ d.part = some
      PartSel.ulg ∧ exec c s = Host.Outcome.next t ∧ exec d t = Host.Outcome.next v) := by
  refine ⟨(.trainLimit (.agg 3)), (.write 1 { c04 with seq := 8 }), w01a, w01a, w01a, ?_⟩ <;>
    first
    | decide +kernel
    | ((repeat' apply And.intro) <;> first
        | decide +kernel
        | rfl)

theorem witness_EventRingsHoldAtMost64 :
    (∀ k, (ringState.ulg.cnt.rings.get k).entries.length ≤ 64) ∧ step ringState = .next (nextOf (step ringState) ringState) :=
  ⟨fun _ => Nat.zero_le _, rfl⟩

theorem witness_RoundNumbersAndTheirOrder :
    (∃ (ns : Nat) (us : Nat) (ticks : Nat), 0 < us ∧ 0 < ticks ∧ ns % (us * ticks * 1000) = 0) ∧
    (∃ (us : Nat) (ticks : Nat), 0 < us ∧ 0 < ticks) ∧
    (∃ (a : Nat) (b : Nat), a < 2 ^ 32 ∧ b < 2 ^ 32) ∧
    (∃ (a : Nat) (b : Nat), a < 2 ^ 32 ∧ b < 2 ^ 32 ∧ laterRound a b = true) ∧
    (∃ (a : Nat) (b : Nat), a < 2 ^ 32 ∧ b < 2 ^ 32 ∧ a ≠ b ∧ ((↑a : Int) - (↑b : Int)) % 2 ^ 32 ≠ 2 ^ 31) := by
  refine ⟨⟨0, 50, 50, ?_⟩,
    ⟨50, 50, ?_⟩,
    ⟨0, 0, ?_⟩,
    ⟨0, (2^32-1), ?_⟩,
    ⟨0, 50, ?_⟩⟩ <;>
    decide +kernel

theorem witness_StampsExtendToTheNearest :
    (∃ (s : Nat), s < 2 ^ 32) ∧
    (∃ (s : Nat) (t : Nat) (e : Nat), s < 2 ^ 32 ∧ e % 2 ^ 32 = s ∧ e ≠ extendStamp s t) := by
  refine ⟨⟨0, ?_⟩,
    ⟨0, (2^32-1), 0, ?_⟩⟩ <;>
    decide +kernel

theorem witness_FieldsFollowTheirAccessType :
    (∃ (p : Part) (f : Field), p.reg f < 2 ^ f.width ∧ (f.acc = Acc.ro ∨ f.acc = Acc.wo ∨ f.acc = Acc.rc)) ∧
    (∃ (p : Part) (f : Field), p.reg f < 2 ^ f.width ∧ f.acc = Acc.rw) ∧
    (∃ (p : Part) (f : Field), p.reg f < 2 ^ f.width ∧ f.acc = Acc.rws) ∧
    (∃ (p : Part) (f : Field), p.reg f < 2 ^ f.width ∧ f.acc = Acc.w1c) ∧
    (∃ (p : Part) (f : Field) (k : Nat), p.reg f < 2 ^ f.width ∧ f.acc = Acc.w1c ∧ k < f.width) ∧
    (∃ (p : Part) (f : Field), p.reg f < 2 ^ f.width ∧ f.acc = Acc.w1s) ∧
    (∃ (p : Part) (f : Field) (k : Nat), p.reg f < 2 ^ f.width ∧ f.acc = Acc.w1s ∧ k < f.width) := by
  refine ⟨⟨{}, FLT_STATUS_STATE, ?_⟩,
    ⟨{}, ⟨0, 0, 0, 4, 0, .rw⟩, ?_⟩,
    ⟨{}, TICK_CFG_TICK_US, ?_⟩,
    ⟨{}, HDG_EVENT_LOAD_REFUSED, ?_⟩,
    ⟨{}, HDG_EVENT_LOAD_REFUSED, 0, ?_⟩,
    ⟨{}, ⟨0, 0, 0, 4, 0, .w1s⟩, ?_⟩,
    ⟨{}, ⟨0, 0, 0, 4, 0, .w1s⟩, 0, ?_⟩⟩ <;>
    decide +kernel

theorem witness_WireFormatsReadBack :
    (∃ (f : Flit), f.wf = true ∧ (∀ (a : HelloAck), f.ctrl = CtrlSlot.helloAck a → a.sessTag = f.sessTag)) ∧
    (∃ (c : Cmd), c.wf = true ∧ (c.data = [] ∨ c.count = c.data.length)) ∧
    (∃ (opcode : Nat) (c : Cmd), c.wf = true ∧ (c.data = [] ∨ c.count = c.data.length) ∧ opcode < 256) ∧
    (∃ (src : Nat) (dst : Nat) (msess : Nat) (tag : Nat), src < 2 ^ 14 ∧ dst < 2 ^ 16 ∧ msess < 2 ^ 32 ∧ tag < 2 ^ 16) ∧
    (∃ (src : Nat) (dst : Nat) (msess : Nat) (tag : Nat) (status : Nat), src < 2 ^ 14 ∧ dst < 2 ^ 16 ∧ msess < 2 ^ 32
      ∧ tag < 2 ^ 16 ∧ status < 256) ∧
    (∃ (src : Nat) (dst : Nat) (msess : Nat) (m : MirrorPart), src < 2 ^ 14 ∧ dst < 2 ^ 16 ∧ msess < 2 ^ 32 ∧ m.wf =
      true) ∧
    (∃ (src : Nat) (dst : Nat) (msess : Nat) (ring : Nat) (seq : Nat), src < 2 ^ 14 ∧ dst < 2 ^ 16 ∧ msess < 2 ^ 32 ∧
      ring < 2 ^ 16 ∧ seq < 2 ^ 32) ∧
    (∃ (src : Nat) (dst : Nat) (msess : Nat) (q : JQueryMsg), src < 2 ^ 14 ∧ dst < 2 ^ 16 ∧ msess < 2 ^ 32 ∧ q.wf =
      true) ∧
    (∃ (src : Nat) (dst : Nat) (msess : Nat) (a : JAnswerMsg), src < 2 ^ 14 ∧ dst < 2 ^ 16 ∧ msess < 2 ^ 32 ∧ a.wf =
      true ∧ a.codes.length < 2 ^ 32) ∧
    (∃ (src : Nat) (dst : Nat) (msess : Nat) (f : FetchMsg), src < 2 ^ 14 ∧ dst < 2 ^ 16 ∧ msess < 2 ^ 32 ∧ f.wf =
      true) ∧
    (∃ (src : Nat) (dst : Nat) (msess : Nat) (qid : Nat) (count : Nat) (first : Nat), src < 2 ^ 14 ∧ dst < 2 ^ 16 ∧
      msess < 2 ^ 32 ∧ qid < 2 ^ 32 ∧ count < 2 ^ 32 ∧ first < 2 ^ 64) := by
  refine ⟨⟨{ crcGood := false }, ?_⟩,
    ⟨c04, ?_⟩,
    ⟨0, c04, ?_⟩,
    ⟨0, 0, 0, 0, ?_⟩,
    ⟨0, 0, 0, 0, 0, ?_⟩,
    ⟨0, 0, 0, { src := 12, ring := 65534, ringSeq := 2 ^ 32 - 1, offset := 0, total := 56, bytes := copy06 }, ?_⟩,
    ⟨0, 0, 0, 0, 0, ?_⟩,
    ⟨0, 0, 0, { src := 3, qid := 9, mode := 0, subject := 3, firstOp := 0, count := 4 }, ?_⟩,
    ⟨0, 0, 0, { qid := 5, result := 1, heldFrom := 0, coveredTo := 99, codes := [1, 2] }, ?_⟩,
    ⟨0, 0, 0, { src := 9, qid := 0, fleetDie := 5, cls := 1, firstIdent := 0, lastIdent := 99 }, ?_⟩,
    ⟨0, 0, 0, 0, 0, 0, ?_⟩⟩ <;>
    first
    | decide +kernel
    | ((repeat' apply And.intro) <;> first
        | decide +kernel
        | rfl
        | (intro a h; cases h))

end Sys2Proof.Tests
end

section
/-! PROOF. Fleet time (01): a read of the seconds, what the host register port may write, and the round numbers. -/

namespace Sys2Proof.FleetTime
open Sys2Proof Sys2Proof.Machine Sys2Proof.Laws

/-! ### A read of the seconds (R55) -/

/-- A part whose sub-second part stands in two register fields, as a read of the seconds leaves it. -/
def captureSubsec (p : Part) (ns frac : Field) : Part :=
  (p.put ns (p.nowNs % 1000000000)).put frac (p.nowQ % 65536)

/-- The two fields hold the sub-second part of the instant of the read, and no other field changes. -/
theorem captureSubsec_spec (p : Part) (ns frac : Field) (hns : ns.width = 32) (hfrac : frac.width = 16)
    (hkey : ns.key ≠ frac.key) :
    (captureSubsec p ns frac).reg ns = p.nowNs % 10 ^ 9 ∧ (captureSubsec p ns frac).reg frac = p.nowQ % 2 ^ 16 ∧
      p.onlyRegs (captureSubsec p ns frac) [ns, frac] := by
  have hregs : (captureSubsec p ns frac).regs =
      (p.regs.set ns (p.nowNs % 1000000000)).set frac (p.nowQ % 65536) := rfl
  refine ⟨?_, ?_, rfl, ?_⟩
  · rw [Part.reg, hregs, store_get_set_other _ _ _ _ hkey, store_get_set_same, hns]
    omega
  · rw [Part.reg, hregs, store_get_set_same, hfrac]
    omega
  · rw [hregs]
    exact onlyAt_set _ _ _ _ _ (by simp) (onlyAt_set _ _ _ _ _ (by simp) (onlyAt_refl _ _))

theorem exec_timeSecRead (s : State) : exec .timeSecRead s = .next { s with agg := { s.agg with
    p := captureSubsec s.agg.p TIME_SUBSEC_NS TIME_SUBSEC_FRAC, rdata := s.agg.p.nowSec % 2 ^ 48 } } := rfl

theorem exec_ulgTimeSecRead (s : State) : exec .ulgTimeSecRead s = .next { s with ulg := { s.ulg with
    p := captureSubsec s.ulg.p ULG_TIME_SUBSEC_NS ULG_TIME_SUBSEC_FRAC
    rdata := s.ulg.p.nowSec % 2 ^ 48, rerr := false } } := rfl

/-- Settles O1: both reads are one capture of the part's time. -/
theorem timeReadCapturesOneInstant : Obligations.TimeReadCapturesOneInstant := by
  intro s
  exact ⟨⟨_, exec_timeSecRead s, rfl, captureSubsec_spec _ _ _ rfl rfl (by decide)⟩,
    ⟨_, exec_ulgTimeSecRead s, rfl, captureSubsec_spec _ _ _ rfl rfl (by decide)⟩⟩

/-! ### Fields that take a word (R16) -/

/-- A store after each field of a list has taken its bits of a word. -/
def takeWord (r : Store) (l : List Field) (w : Nat) : Store := l.foldl (fun r f => r.set f (f.of w)) r

theorem takeWord_get_other (r : Store) (l : List Field) (w : Nat) (f : Field) (h : ∀ g ∈ l, f.key ≠ g.key) :
    (takeWord r l w).get f = r.get f := by
  induction l generalizing r with
  | nil => rfl
  | cons g l ih =>
    obtain ⟨hg, hl⟩ := List.forall_mem_cons.mp h
    exact (ih (r.set g (g.of w)) hl).trans (store_get_set_other _ _ _ _ hg)

theorem takeWord_get_mem (r : Store) (l : List Field) (w : Nat) (f : Field) (hf : f ∈ l)
    (hkeys : (l.map Field.key).Nodup) : (takeWord r l w).get f = f.of w := by
  induction l generalizing r with
  | nil => cases hf
  | cons g l ih =>
    obtain ⟨hg, hl⟩ := List.nodup_cons.mp hkeys
    rcases List.mem_cons.mp hf with rfl | hf
    · calc (takeWord (r.set f (f.of w)) l w).get f
        _ = (r.set f (f.of w)).get f :=
          takeWord_get_other _ l w f fun h hh hkey => hg (hkey ▸ List.mem_map_of_mem hh)
        _ = f.of w := by rw [store_get_set_same, Field.of, Nat.mod_mod]
    · exact ih (r.set g (g.of w)) hf hl

/-- Of a list of fields with different keys, those at one offset take the word, and the others keep their value. -/
theorem takeWord_get_at (r : Store) (l : List Field) (off w : Nat) (f : Field) (hf : f ∈ l)
    (hkeys : (l.map Field.key).Nodup) :
    (takeWord r (l.filter (·.off = off)) w).get f = if f.off = off then f.of w else r.get f := by
  split
  · next h =>
    exact takeWord_get_mem _ _ _ _ (List.mem_filter.mpr ⟨hf, by simpa using h⟩)
      (hkeys.sublist (List.filter_sublist.map _))
  · next h =>
    refine takeWord_get_other _ _ _ _ fun g hg hkey => h ?_
    obtain ⟨hgl, hoff⟩ := List.mem_filter.mp hg
    rw [List.inj_on_of_nodup_map hkeys hf hgl hkey]
    simpa using hoff

theorem takeWord_onlyAt (r : Store) (l fs : List Field) (w : Nat) (h : l ⊆ fs) : r.onlyAt (takeWord r l w) fs :=
  fun f hf => takeWord_get_other r l w f fun g hg => hf g (h hg)

/-- Fields that software may write as RW take the word into the registers. -/
theorem fieldsWrite_rw (p : Part) (l : List Field) (w : Nat) (h : ∀ f ∈ l, f.acc = .rw) :
    p.fieldsWrite l w = { p with regs := takeWord p.regs l w } := by
  induction l generalizing p with
  | nil => rfl
  | cons f l ih =>
    obtain ⟨hf, hl⟩ := List.forall_mem_cons.mp h
    have hput : p.fieldWrite f (f.of w) = p.put f (f.of w) := by simp [Part.fieldWrite, hf]
    exact (congrArg (·.fieldsWrite l w) hput).trans (ih _ hl)

/-- Fields that software may write as RWS take the word into the staged bank. -/
theorem fieldsWrite_rws (p : Part) (l : List Field) (w : Nat) (h : ∀ f ∈ l, f.acc = .rws) :
    p.fieldsWrite l w = { p with staged := takeWord p.staged l w } := by
  induction l generalizing p with
  | nil => rfl
  | cons f l ih =>
    obtain ⟨hf, hl⟩ := List.forall_mem_cons.mp h
    have hstage : p.fieldWrite f (f.of w) = { p with staged := p.staged.set f (f.of w) } := by simp [Part.fieldWrite, hf]
    exact (congrArg (·.fieldsWrite l w) hstage).trans (ih _ hl)

/-- A write of a word writes the fields that stand at its offset. -/
theorem wordWrite_eq (p : Part) (map : List RegDesc) (off w : Nat) :
    p.wordWrite map off w = p.fieldsWrite ((p.fieldsOf map off).filter fun f => !f.ignored) w := by
  unfold Part.wordWrite Part.fieldsOf
  cases findReg map off <;> rfl

/-! ### Writes by the host register port (R58, R94) -/

/-- The offsets of the Uligo's time registers, which the host register port cannot write (R58). -/
def timeOffs : List Nat := [0x130, 0x138, 0x140, 0x150, 0x158]

/-- The fields of those registers. -/
def timeFields : List Field :=
  [ULG_TIME_CFG_KP_SHIFT, ULG_TIME_CFG_KI_SHIFT, ULG_TIME_CFG_LOCK_NS, ULG_TIME_CFG_STEP_NS, ULG_TIME_CFG_SLEW_PPB,
    ULG_TIME_CFG_SRC_PREF, ULG_TIME_CFG_DISAGREE_NS, ULG_TIME_CFG_COAST_US, ULG_TICK_CFG_TICK_US,
    ULG_TICK_CFG_ROUND_TICKS, ULG_TICK_ACT_SEC_ACT_SEC, ULG_PORT_ASYM_ASYM_A, ULG_PORT_ASYM_ASYM_B,
    ULG_TIME_CFG2_LARGE_US, ULG_TIME_CFG2_HOLD_LIMIT_S]

/-- The offsets of Uligo registers whose fields take a host-port write at once: the select registers and the interrupt. -/
def selectOffs : List Nat := [0x238, 0x240, 0x250, 0x260, 0x298, 0x418, 0x430, 0x540, 0x908, 0xA40, 0xA70, 0xC10]

/-- The fields of those registers. -/
def selectFields : List Field :=
  [ULG_CNT_IRQ_CORE, ULG_CNT_IRQ_EN, ULG_SHADOW_SEL_INDEX, ULG_LIVE_SEL_INDEX, ULG_RING_SEL_CORE, ULG_OVS_PEEK_SEL_CORE,
    ULG_TRC_SEL_CORE, ULG_TRC_RING_SEL_OFFSET, ULG_FT_CORE_SEL_CORE, ULG_RPL_SEL_OFFSET, ULG_HFLT_SEL_INDEX,
    ULG_FLT_SRC_SEL_SOURCE, ULG_CFG_LSEL_OFFSET]

theorem timeFields_keys : (timeFields.map Field.key).Nodup := by decide
theorem selectFields_keys : (selectFields.map Field.key).Nodup := by decide
theorem timeFields_rws : ∀ f ∈ timeFields, f.acc = .rws := by decide
theorem selectFields_rw : ∀ f ∈ selectFields, f.acc = .rw := by decide

/-- A register stands at every offset of either list. -/
theorem hostReadBad_offs : ∀ off ∈ timeOffs ++ selectOffs, hostReadBad off = false := by decide

/-- Every offset of either list lies in the Uligo's register space. -/
theorem mod_offs : ∀ off ∈ timeOffs ++ selectOffs, off % 65536 = off := by decide

theorem fieldsOf_time (p : Part) : ∀ off ∈ timeOffs,
    (p.fieldsOf regMapUlg off).filter (fun f => !f.ignored) = timeFields.filter (·.off = off) := by
  intro off h
  fin_cases h <;> rfl

theorem fieldsOf_select (p : Part) : ∀ off ∈ selectOffs,
    (p.fieldsOf regMapUlg off).filter (fun f => !f.ignored) = selectFields.filter (·.off = off) := by
  intro off h
  fin_cases h <;> rfl

/-- A write to a register of either list does nothing but write fields. -/
theorem writeReg_offs (u : Ulg) (w : Nat) : ∀ off ∈ timeOffs ++ selectOffs,
    u.writeReg off w = { u with p := u.p.wordWrite regMapUlg off w } := by
  intro off h
  fin_cases h <;> rfl

theorem hostRefused_time (u : Ulg) (w : Nat) : ∀ off ∈ timeOffs,
    u.hostRefused off w = some (u.event ULG_TIME_EVENT_HOST_WRITE) := by
  intro off h
  fin_cases h <;> rfl

theorem hostRefused_select (u : Ulg) (w : Nat) : ∀ off ∈ selectOffs, u.hostRefused off w = none := by
  intro off h
  fin_cases h <;> rfl

/-- A host-port write to such a register is refused with the effect that `hostRefused` gives, or else taken. -/
theorem hostWrite_eq (u : Ulg) (off w : Nat) (h : off ∈ timeOffs ++ selectOffs) :
    u.hostWrite off w = (u.hostRefused off w).getD (u.writeReg off w) := by
  simp [Ulg.hostWrite, mod_offs off h, hostReadBad_offs off h]

theorem hostWrite_time (u : Ulg) (off w : Nat) (h : off ∈ timeOffs) :
    u.hostWrite off w = u.event ULG_TIME_EVENT_HOST_WRITE := by
  rw [hostWrite_eq u off w (List.mem_append_left _ h), hostRefused_time u w off h, Option.getD_some]

theorem hostWrite_select (u : Ulg) (off w : Nat) (h : off ∈ selectOffs) : u.hostWrite off w =
    { u with p := { u.p with regs := takeWord u.p.regs (selectFields.filter (·.off = off)) w } } := by
  have hmem := List.mem_append_right timeOffs h
  have hrw : ∀ f ∈ selectFields.filter (·.off = off), f.acc = .rw := fun f hf =>
    selectFields_rw f (List.mem_of_mem_filter hf)
  rw [hostWrite_eq u off w hmem, hostRefused_select u w off h, Option.getD_none, writeReg_offs u w off hmem, wordWrite_eq,
    fieldsOf_select u.p off h, fieldsWrite_rw _ _ _ hrw]

/-- A Rycon-D write of a time register stages its fields. -/
theorem writeReg_time (u : Ulg) (off w : Nat) (h : off ∈ timeOffs) : u.writeReg off w =
    { u with p := { u.p with staged := takeWord u.p.staged (timeFields.filter (·.off = off)) w } } := by
  have hrws : ∀ f ∈ timeFields.filter (·.off = off), f.acc = .rws := fun f hf =>
    timeFields_rws f (List.mem_of_mem_filter hf)
  rw [writeReg_offs u w off (List.mem_append_left _ h), wordWrite_eq, fieldsOf_time u.p off h, fieldsWrite_rws _ _ _ hrws]

theorem exec_hostWrite (off : Nat) (v : Word) (mid : Fin 64) (s : State) :
    exec (.hostWrite off v mid) s = .next { s with ulg := s.ulg.hostWrite off v.toNat } := rfl

theorem exec_ryconDWrite (x : Fin 2) (off : Nat) (v : Word) (s : State) (h : hostReadBad off = false) :
    exec (.registerWrite .ulg (.ryconD x) off v) s = .next { s with ulg := s.ulg.writeReg (off % 65536) v.toNat } := by
  change Host.Outcome.next (s.onUlg fun u => if hostReadBad off then u else u.writeReg (off % 65536) v.toNat) = _
  simp [h, State.onUlg]

/-! ### Writes to a slot of overflow sampling (R75) -/

theorem hostReadBad_slot : ∀ slot : Fin 64, hostReadBad (0x1400 + 8 * (slot : Nat)) = false := by decide

/-- No register that only Rycon-D writes lies above the configuration registers. -/
theorem hostRefused_above (u : Ulg) (off w : Nat) (h : 0xC20 < off) : u.hostRefused off w = none := by
  simp only [Ulg.hostRefused, List.contains_eq_mem, List.mem_cons, List.not_mem_nil, or_false, decide_eq_true_eq]
  iterate 10 rw [if_neg (by omega)]

/-- A write to a register of the array is the command of its slot. -/
theorem controlWrite_slot (u : Ulg) (slot : Fin 64) (v : Word) :
    u.controlWrite (0x1400 + 8 * (slot : Nat)) v.toNat = some (u.via (execOvsSlotWrite slot v)) := by
  have hslot : Fin.ofNat 64 ((0x1400 + 8 * (slot : Nat) - 0x1400) / 8) = slot := by
    ext
    simp
  have hfull : 0x1400 + 8 * (slot : Nat) ≠ ULG_PACK_CTRL_FULL_NEXT.off := by
    change _ ≠ 0x210
    omega
  have hthaw : 0x1400 + 8 * (slot : Nat) ≠ ULG_RING_UNFREEZE_CORE.off := by
    change _ ≠ 0x270
    omega
  rw [Ulg.controlWrite, if_neg hfull, if_neg hthaw, if_pos (by omega), hslot, BitVec.ofNat_toNat, BitVec.setWidth_eq]

theorem hostWrite_slot (u : Ulg) (slot : Fin 64) (v : Word) :
    u.hostWrite (0x1400 + 8 * (slot : Nat)) v.toNat = u.via (execOvsSlotWrite slot v) := by
  have hmod : (0x1400 + 8 * (slot : Nat)) % 65536 = 0x1400 + 8 * (slot : Nat) := Nat.mod_eq_of_lt (by omega)
  have hrefused := hostRefused_above u (0x1400 + 8 * (slot : Nat)) v.toNat (by omega)
  simp [Ulg.hostWrite, hmod, hostReadBad_slot, hrefused, Ulg.writeReg, controlWrite_slot]

theorem exec_ovsSlotWrite (slot : Fin 64) (v : Word) (s : State) :
    exec (.ovsSlotWrite slot v) s = .next { s with ulg := s.ulg.via (execOvsSlotWrite slot v) } := rfl

/-- Settles O6: the host port's write of a time register is one event, Rycon-D's stages the fields at its offset, and a
select register or a slot of overflow sampling takes the host port's word. -/
theorem hostPortCannotMoveTime : Obligations.HostPortCannotMoveTime := by
  intro s off v mid x
  refine ⟨fun h => ⟨?_, ?_⟩, fun h => ?_, fun slot => ?_⟩
  · refine ⟨_, exec_hostWrite off v mid s, ?_⟩
    rw [hostWrite_time _ _ _ h]
    exact ⟨rfl, part_event_bit _ _ _ _ _ rfl,
      part_event_spec evBlockUlg s.ulg.p ULG_TIME_EVENT_HOST_WRITE none 0 0x0108 rfl⟩
  · refine ⟨_, exec_ryconDWrite x off v s (hostReadBad_offs off (List.mem_append_left _ h)), ?_⟩
    rw [mod_offs off (List.mem_append_left _ h), writeReg_time _ _ _ h]
    exact ⟨rfl, fun f hf => takeWord_get_at _ _ _ _ f hf timeFields_keys⟩
  · refine ⟨_, exec_hostWrite off v mid s, ?_⟩
    rw [hostWrite_select _ _ _ h]
    exact ⟨rfl, takeWord_onlyAt _ _ _ _ (List.filter_subset_self _),
      fun f hf => takeWord_get_at _ _ _ _ f hf selectFields_keys⟩
  · rw [exec_hostWrite, hostWrite_slot, exec_ovsSlotWrite]

/-! ### Round numbers (R24) -/

/-- A round instant is a tick instant. -/
theorem tick_of_round_instant (ns us ticks : Nat) (h : ns % (us * ticks * 1000) = 0) : ns % (us * 1000) = 0 :=
  Nat.mod_eq_zero_of_dvd <| (show us * 1000 ∣ us * ticks * 1000 from ⟨ticks, by ring⟩).trans (Nat.dvd_of_mod_eq_zero h)

theorem roundIndex_eq_tickOf_div (ns us ticks : Nat) : roundIndex ns us ticks = tickOf ns us / ticks := by
  rw [roundIndex, tickOf, Nat.div_div_eq_div_mul, Nat.mul_right_comm]

/-- Round `k` begins at `k` round periods and closes where round `k + 1` begins. -/
theorem roundIndex_eq_iff (ns us ticks k : Nat) (hus : 0 < us) (hticks : 0 < ticks) : roundIndex ns us ticks = k ↔
    k * (us * ticks * 1000) ≤ ns ∧ ns < (k + 1) * (us * ticks * 1000) := by
  have hperiod : 0 < us * ticks * 1000 := by positivity
  rw [roundIndex, Nat.eq_iff_le_and_ge, ← Nat.lt_succ_iff, Nat.div_lt_iff_lt_mul hperiod,
    Nat.le_div_iff_mul_le hperiod, and_comm]

/-- The later of two round numbers is ahead by less than half of their range. -/
theorem laterRound_iff (a b : Nat) (ha : a < 2 ^ 32) (hb : b < 2 ^ 32) : laterRound a b = true ↔
    1 ≤ ((a : Int) - b) % 2 ^ 32 ∧ ((a : Int) - b) % 2 ^ 32 ≤ 2 ^ 31 - 1 := by
  simp only [laterRound, Bool.and_eq_true, decide_eq_true_eq]
  omega

/-- Settles O57: the instants by division by the round period, the order by the difference of two round numbers. -/
theorem roundNumbersAndTheirOrder : Obligations.RoundNumbersAndTheirOrder := by
  refine ⟨fun ns us ticks hus hticks => ⟨tick_of_round_instant ns us ticks, roundIndex_eq_tickOf_div ns us ticks, rfl,
    fun k => roundIndex_eq_iff ns us ticks k hus hticks⟩, fun a b ha hb => ⟨laterRound_iff a b ha hb, ?_, ?_⟩⟩
  · rw [Bool.eq_false_iff, Ne, laterRound_iff a b ha hb, laterRound_iff b a hb ha]
    omega
  · rw [laterRound_iff a b ha hb, laterRound_iff b a hb ha]
    omega

end Sys2Proof.FleetTime
end
